-- ==== Sys2Proof/Word.lean ====
section
/-! DEFINITION. Word and byte types of the module, and the plainest look-up lists.
Bit 0 is the least significant bit and multi-byte fields are little-endian (R12). -/

namespace Sys2Proof

/-- One byte. -/
abbrev Byte := BitVec 8
/-- A 16-bit field. -/
abbrev W16 := BitVec 16
/-- A register of the module: 32 bits (R46). -/
abbrev W32 := BitVec 32
/-- A 64-bit field. -/
abbrev W64 := BitVec 64

/-- Sparse data by number: pairs in strictly rising order of their number. -/
abbrev KV (α : Type) := List (Nat × α)

/-- What is held under a number. -/
def KV.get? {α : Type} : KV α → Nat → Option α
  | [], _ => none
  | (i, v) :: m, k => if k = i then some v else KV.get? m k

/-- What is held under a number, or the given default. -/
def KV.getD {α : Type} (m : KV α) (k : Nat) (d : α) : α := (KV.get? m k).getD d

/-- Hold a value under a number, keeping the order. -/
def KV.set {α : Type} : KV α → Nat → α → KV α
  | [], k, v => [(k, v)]
  | (i, x) :: m, k, v =>
      if k < i then (k, v) :: (i, x) :: m
      else if k = i then (k, v) :: m
      else (i, x) :: KV.set m k v

/-- Hold nothing under a number. -/
def KV.erase {α : Type} : KV α → Nat → KV α
  | [], _ => []
  | (i, x) :: m, k => if k = i then KV.erase m k else (i, x) :: KV.erase m k

/-- Change every value held, with its number. -/
def KV.mapV {α : Type} (f : Nat → α → α) : KV α → KV α
  | [] => []
  | (i, x) :: m => (i, f i x) :: KV.mapV f m

/-- The numbers rise strictly. -/
def KV.sorted {α : Type} : KV α → Bool
  | [] => true
  | [_] => true
  | (i, _) :: (j, y) :: m => decide (i < j) && KV.sorted ((j, y) :: m)

end Sys2Proof
end

