-- ==== Sys2Proof/Syntax.lean ====
section
/-! DEFINITION. The commands the block takes, one constructor per row of the table of operations and events.
The table gives the rows no operands: the operands below are what the outside supplies with the event
(a value written, what a read of host memory returned, a measurement); log entry 2. -/

namespace Sys2Proof

/-- What one 64-byte entry read returned: the bytes, or a completion error or poisoned TLP (R91). -/
inductive Fetched where
  | data (bytes : List Byte)
  | failed
  deriving DecidableEq, Repr

/-- One piece of a piece table (R82). -/
structure Piece where
  addr  : W64
  len   : W32
  flags : W32
  deriving DecidableEq, Repr

/-- One piece-table read: the bytes at the table's address, or a read that failed twice (R91). -/
inductive TableRead where
  | bytes (bs : List Byte)
  | failed
  deriving DecidableEq, Repr

/-- A 512-bit beat as it arrived over the data fabric, with the parts its CRC covers (R611). -/
structure FabricBeat where
  data     : BitVec 512
  scorch   : Byte
  sender   : Byte
  receiver : Byte
  seq      : Byte
  crc      : W32
  deriving DecidableEq, Repr

/-- A share word as it arrived over the key path; the CRC covers the word, its share index, bits 15:0 of the key handle and the
sequence number (R611). -/
structure ShareWord where
  data     : BitVec 128
  share    : Byte
  handle   : W16
  seq      : Byte
  crc      : W32
  sender   : Byte
  receiver : Byte
  deriving DecidableEq, Repr

/-- An access as it arrived over the control fabric (R611). -/
structure CtlCopy where
  addr   : W64
  data   : W32
  be     : BitVec 4
  sender : Byte
  crc    : W16
  deriving DecidableEq, Repr

/-- A transfer to an engine as it arrived, and the one resend that its receiver asks for when the code fails (R612). -/
inductive Arrival where
  | fabric (first resent : FabricBeat)
  | keyPath (first resent : ShareWord)
  deriving DecidableEq, Repr

/-- A host write: its data, and for each of its 32-bit accesses the copies that the control fabric delivered; no copy stands for an
access that arrived as it was sent (R611). -/
structure HostWord where
  val : W64
  got : List (List CtlCopy) := []
  deriving DecidableEq, Repr

/-- A host read: its address and size, and the copies as for a write. -/
structure HostRead where
  addr : Nat
  size : Nat := 4
  got  : List (List CtlCopy) := []
  deriving DecidableEq, Repr

/-- The start of a segment or sign-slot position: its index in the slot, and the transfers of its inputs and keys whose codes are to
be judged; one not listed arrived as it was sent (R17, R23). -/
structure SegmentAt where
  index   : Nat
  arrived : List Arrival := []
  deriving DecidableEq, Repr

/-- The start of a run: the BNE, and the transfers of its inputs and keys. -/
structure RunAt where
  bne     : Nat
  arrived : List Arrival := []
  deriving DecidableEq, Repr

/-- What the reads of one taken entry returned, in the order of R736. -/
structure InputReads where
  /-- the input piece tables, first table first -/
  inTables  : List TableRead
  /-- the output piece tables -/
  outTables : List TableRead
  /-- what the reads of input data returned, by the address they began at; none = the read failed twice -/
  input     : List (Nat × Option (List Byte))
  /-- the input met an uncorrectable error in staging and carries a scorch mark (R558, R562) -/
  scorched  : Bool
  /-- the duplicated entry fields are found to differ (R563) -/
  copyDiffers : Bool := false
  /-- beats to staging whose codes are to be judged, each with its resend; one not listed arrived as it was sent (R17) -/
  arrived   : List (FabricBeat × FabricBeat) := []
  deriving DecidableEq, Repr

/-- What the checking hardware of an engine finds while it executes a word: nothing; a failed check-bit or residue comparison (R228, R381);
a failed share-consistency check of the Keccak unit that the word makes permute (R204); a failed invariant of the kernel at END (R382);
after an abort, a word of the cleared memory that does not read back as zero (R383). -/
inductive Upset where
  | none
  | residue
  | shares
  | invariant
  | readBack
  deriving DecidableEq, Repr

/-- A PVU instruction word without its CLASS and FUNC fields (R238), and the PVU that executes it. -/
structure PvuWord where
  pvu : Nat
  w   : BitVec 2
  pg  : BitVec 3
  mc  : BitVec 2
  rd  : BitVec 5
  ra  : BitVec 5
  rb  : BitVec 5
  rc  : BitVec 5
  imm : BitVec 25
  upset : Upset := .none
  deriving DecidableEq, Repr

/-- A BNE command word without its OP field (R371), and the BNE that executes it. -/
structure BneWord where
  bne : Nat
  len : BitVec 9
  d   : BitVec 7
  a   : BitVec 7
  b   : BitVec 7
  mc  : BitVec 2
  rsv : BitVec 2
  imm : BitVec 24
  upset : Upset := .none
  deriving DecidableEq, Repr

/-- How the health tests of a source judged the raw bits of a block (R425). -/
inductive HealthResult where
  | pass
  | repetition
  | proportion
  deriving DecidableEq, Repr

/-- What the sensor and the statistic unit measured in one assessment slot (R482, R486).
`maxT` is the largest |t| × 256 that the accumulated moments give. -/
structure AssessMeasure where
  noiseFail  : Bool
  computeFault : Bool
  maxT       : Nat
  point      : Nat
  second     : Bool
  deriving DecidableEq, Repr

/-- The memories Darning passes over (R559). -/
inductive MemKind where
  | sram
  | controlStore
  | dram
  | nand
  deriving DecidableEq, Repr

/-- One word, microword half or line that Darning found wrong (R557, R560, R742). -/
structure MemError where
  region        : Nat
  addr          : Nat
  row           : Nat
  kind          : Nat
  syndrome      : Nat
  uncorrectable : Bool
  allocated     : Bool
  /-- the engine's port stored to the word since Darning read it (R215, R561) -/
  stored        : Bool
  deriving DecidableEq, Repr

/-- What MGC has measured for a telemetry record: sensors by number (R685) with their values; one not listed is not valid. -/
structure TeleMeasure where
  sensors : List (Nat × Int)
  deriving DecidableEq, Repr

/-- What a card presented to a quorum session answered (R638, R640, R642). -/
structure CardPresented where
  /-- the card activated and answered its selection -/
  answered  : Bool
  /-- the status word of a failure -/
  sw        : W16
  pubKey    : List Byte
  signature : List Byte
  recordA   : List Byte
  recordB   : List Byte
  /-- the writing step (1, 2, 3) during which the card was removed; 0 = none -/
  removedAt : Nat
  deriving DecidableEq, Repr

/-- A Peer Link frame's header as the receiver judged it (R656). -/
structure PlkHeader where
  lengthOk : Bool
  tagOk    : Bool
  src      : Nat
  dst      : Nat
  seq      : Nat
  tick     : Nat
  bytes    : Nat
  /-- continuation frames that came with it -/
  more     : Nat := 0
  deriving DecidableEq, Repr

/-- The TRAIN frame's content and the outcome of the checks on the peer's chain (R653, R655). -/
structure TrainFrame where
  verMin    : Nat
  verMax    : Nat
  role      : Nat
  node      : Nat
  relay     : Bool
  hops      : Nat
  serial    : List Byte
  part      : Nat
  tickUs    : Nat
  lanes     : Nat
  peerState : Nat
  fpr       : List Byte
  chainOk   : Bool
  delayNs   : Nat
  deriving DecidableEq, Repr

/-- A forwarded job (R656). -/
structure ForwardFrame where
  fid         : Nat
  entry       : List Byte
  fingerprint : List Byte
  deadline    : Nat
  input       : List Byte
  deriving DecidableEq, Repr

/-- A replicated key, unwrapped inside KST (R661). -/
structure KeyFrame where
  handle : W32
  typ    : Nat
  pset   : Nat
  order  : Nat
  usage  : W32
  priv   : List Byte
  pub    : List Byte
  /-- a stateful key's levels, top first: LMS type or XMSS OID, LM-OTS type, height -/
  levels : List (Nat × Nat × Nat)
  deriving DecidableEq, Repr

/-- What the tests of a power-up found (R715, R717). -/
structure BootResults where
  checkerFail  : Bool
  fgCheckFail  : Bool
  intKat       : Bool
  hostKat      : Bool
  startupFail  : List Nat
  pufOk        : Bool
  failEngines  : List Nat
  failCores    : List Nat
  /-- the newest valid journal page is not the last replayed one: G of R570, 0 = no gap -/
  journalGap   : Nat
  /-- for each stateful key of such a gap: handle, E at the stop, largest A of the key's records in later pages -/
  gapKeys      : List (Nat × Nat × Nat)
  bootMs       : Nat
  pins         : W16
  deriving DecidableEq, Repr

/-- What caused a cold reset (R733, `RESET_CAUSE.CAUSE`). -/
inductive ResetCause where
  | powerUp
  | undervoltage
  | sysReset
  | pcrReset
  deriving DecidableEq, Repr

/-- The commands and events of the module: one constructor per row of the table. -/
inductive Instr where
  /-- `REGISTER_WRITE` (R14): A host write to a register that has no row of its own updates it according to its access type. -/
  | registerWrite (fn addr size : Nat) (val : HostWord)
  /-- `COUNTER_LO_READ` (R233): A read of a 64-bit counter's _LO half latches the matching _HI value for the next _HI read. -/
  | counterLoRead (fn : Nat) (rd : HostRead)
  /-- `IRQ_CLEAR` (R61): A write to IRQ_CLEAR clears edge causes, and HIF re-evaluates the block's interrupt request and may send a new message. -/
  | irqClear (blk : Nat) (val : W32)
  /-- `IRQ_MASK` (R65): A write to IRQ_MASK changes the pending causes, and HIF re-evaluates the request and may send a message. -/
  | irqMask (blk : Nat) (val : W32)
  /-- `MSIX_UNMASK` (R68): Unmasking an MSI-X vector whose pending bit is set sends one message. -/
  | msixUnmask (fn vec : Nat)
  /-- `BLK_CTRL_LOCK` (R55): A write of 1 to BLK_CTRL.LOCK locks every RWL register of the block until reset. -/
  | blkCtrlLock (blk : Nat)
  /-- `FLT_STATUS` (R582): A W1C write to FLT_STATUS acknowledges the named fault sources. -/
  | fltStatus (blk : Nat) (val : W32)
  /-- `FLT_FORCE` (R592): A write to FLT_FORCE injects one forced event of each named fault source. -/
  | fltForce (blk : Nat) (val : W32)
  /-- `HRT_ACK` (R582): A write to HRT_ACK acknowledges one fault source, or all of class SEVERE or below. -/
  | hrtAck (val : W32)
  /-- `HRT_FIRST` (R583): A write of 1 to HRT_FIRST.VALID clears the first-error latch and re-arms it. -/
  | hrtFirst (val : W32)
  /-- `HRT_BEAT` (R597): An MGC write to HRT_BEAT renews the heartbeat that keeps GLOW running. -/
  | hrtBeat (fromMgc : Bool)
  /-- `HRT_RESTORE` (R591): In MAINTENANCE, a write names a retired engine, which is self-tested and returned to service if it passes. -/
  | hrtRestore (val : W32) (pass : Bool)
  /-- `SRC_CFG_WRITE` (R585): A write to HRT_SRC_CFG sets a source's N and W, and is ignored when it loosens a non-relaxable source. -/
  | srcCfgWrite (val : W32)
  /-- `DOORBELL` (R48): A write to an I/O queue doorbell requests a scan of that queue, or is discarded and counted when no queue has the index. -/
  | doorbell (fn idx size : Nat)
  /-- `INST_ADB` (R124): A write to the admin doorbell requests a scan of the function's admin queue. -/
  | instAdb (fn size : Nat)
  /-- `INST_ECINV` (R96): A write to INST_ECINV drops the cached untaken entry copies of one slot, or of a whole queue. -/
  | instEcinv (fn : Nat) (val : W32)
  /-- `ADMIN_QUEUE_ENABLE` (R127): A write of INST_AQ_CFG.EN = 1 checks the configuration and enables the admin queue, writing its head word, or sets CFG_ERR. -/
  | adminQueueEnable (fn : Nat) (val : W32)
  /-- `ADMIN_QUEUE_DISABLE` (R129): A write of EN = 0 stops the admin scan, cancels taken and unstarted entries and clears ENABLED. -/
  | adminQueueDisable (fn : Nat) (val : W32)
  /-- `SCAN` (R86): QE scans a queue from SP, taking entries while OWN = 1 and stopping at the first unowned entry. -/
  | scan (fn q : Nat) (reads : List Fetched)
  /-- `SCAN_RESUME` (R87): A paused scan resumes by itself when its pause condition clears. -/
  | scanResume (fn q : Nat) (reads : List Fetched)
  /-- `ENTRY_FETCH` (R91): The 64-byte entry read returns; the entry is used, the read is retried once, or the slot completes ADDRESS_FAULT. -/
  | entryFetch (fn q : Nat) (read : Fetched)
  /-- `INPUT_FETCH` (R736): The piece-table and input reads of a taken entry complete, and the checks of R99 finish in order. -/
  | inputFetch (job : Nat) (rd : InputReads)
  /-- `TICK_EDGE` (R22): At each tick edge Treadle admits staged jobs, freezes the next plan, and results of the past tick are released. -/
  | tickEdge
  /-- `SEGMENT_START` (R220): A booked segment or sign-slot position starts at its booked cycle, with dummy work around it. -/
  | segmentStart (pvu : Nat) (start : SegmentAt)
  /-- `SEGMENT_OVERRUN` (R222): A segment reaching its declared worst case without END is stopped and the job fails. -/
  | segmentOverrun (pvu : Nat)
  /-- `BNE_RUN_START` (R167): A booked BNE run starts its interval of turnaround and declared cycles. -/
  | bneRunStart (start : RunAt)
  /-- `BNE_RUN_END` (R387): At the end of W the BNE signals the end of the run and may raise LONG_DONE. -/
  | bneRunEnd (bne : Nat)
  /-- `TRD_TICKCFG` (R158): A write to TRD_TICKCFG requests a period or source change, or is refused with CFG_ERR. -/
  | trdTickcfg (val : W32)
  /-- `PERIOD_APPLIED` (R159): After the drain, the first edge of the new period takes effect and CHANGING clears. -/
  | periodApplied
  /-- `HIST_CLEAR` (R188): A write of TRD_HIST_CFG.CLEAR zeroes every histogram bin. -/
  | histClear (val : W32)
  /-- `TICK_IN_EDGE` (R161): A TICK_IN rising edge is measured, towards lock, and the edge is corrected by one cycle. -/
  | tickInEdge (interval : Nat) (phase : Int)
  /-- `TICKIN_LOST` (R163): No TICK_IN edge within the period plus 25 cycles clears LOCKED and continues from the TCXO. -/
  | tickinLost
  /-- `DAMPER_STAGE_CHANGE` (R183): Junction temperature crossing a threshold changes the Damper stage and Treadle's behaviour. -/
  | damperStageChange (tj : Int)
  /-- `PVU_DERATE` (R184): A PVU switches to 1.2 GHz at the first edge from which no booked slot exceeds 23,000 cycles. -/
  | pvuDerate (pvu : Nat)
  /-- `ENGINE_CLOCK_GATE` (R31): An engine with no booked slot for 50 ticks is clock-gated. -/
  | engineClockGate (code : Nat)
  /-- `SELFTEST_START` (R235): A write of TEST_CTRL.START in MAINTENANCE with the engine idle starts a self-test. -/
  | selftestStart (blk : Nat) (val : W32)
  /-- `SELFTEST_DONE` (R235): A self-test finishes, sets DONE and PASS, or fires SELFTEST. -/
  | selftestDone (blk : Nat) (pass : Bool) (cores : List Nat)
  /-- `PVU_NOP` (R247): PVU NOP does nothing for one cycle. -/
  | pvuNop (i : PvuWord)
  /-- `PVU_END` (R250): END ends the segment, and with LAST the job. -/
  | pvuEnd (i : PvuWord)
  /-- `B` (R248): Unconditional relative branch. -/
  | brB (i : PvuWord)
  /-- `BC` (R247): Conditional branch on VSTAT flags. -/
  | brC (i : PvuWord)
  /-- `LOOP` (R247): Decrements Xa and branches while non-zero. -/
  | loop (i : PvuWord)
  /-- `CALL` (R248): Pushes the return address and branches. -/
  | call (i : PvuWord)
  /-- `RET` (R248): Pops the return address. -/
  | ret (i : PvuWord)
  /-- `MODSET` (R197): Checks and sets a modulus context. -/
  | modset (i : PvuWord)
  /-- `KLOAD` (R248): Loads the job key's share group from the key-path buffer. -/
  | kload (i : PvuWord)
  /-- `SYSRD` (R247): Reads a job system value into Xd. -/
  | sysrd (i : PvuWord)
  /-- `RDSTAT` (R247): Reads VSTAT into Xd. -/
  | rdstat (i : PvuWord)
  /-- `RESUME` (R229): Ends a handler and re-executes the faulting instruction from its element. -/
  | resume (i : PvuWord)
  /-- `SKIP` (R229): Ends a handler and continues after the faulting instruction. -/
  | skipH (i : PvuWord)
  /-- `FAIL` (R229): Raises FAIL and ends the job. -/
  | failH (i : PvuWord)
  /-- `ACCEPT` (R221): Ends a sign-slot attempt as accepted. -/
  | accept (i : PvuWord)
  /-- `REJECT` (R221): Ends a sign-slot attempt as rejected. -/
  | reject (i : PvuWord)
  /-- `ADD` (R251): Scalar addition. -/
  | addX (i : PvuWord)
  /-- `SUB` (R251): Scalar subtraction. -/
  | subX (i : PvuWord)
  /-- `AND` (R251): Scalar bitwise AND. -/
  | andX (i : PvuWord)
  /-- `OR` (R251): Scalar bitwise OR. -/
  | orX (i : PvuWord)
  /-- `XOR` (R251): Scalar bitwise XOR. -/
  | xorX (i : PvuWord)
  /-- `SHL` (R251): Scalar shift left. -/
  | shlX (i : PvuWord)
  /-- `SHR` (R251): Scalar logical shift right. -/
  | shrX (i : PvuWord)
  /-- `SAR` (R251): Scalar arithmetic shift right. -/
  | sarX (i : PvuWord)
  /-- `MUL` (R251): Low 64 bits of a scalar product. -/
  | mulX (i : PvuWord)
  /-- `MULHU` (R251): High 64 bits of an unsigned scalar product. -/
  | mulhuX (i : PvuWord)
  /-- `ADDI` (R251): Scalar add immediate. -/
  | addiX (i : PvuWord)
  /-- `LI` (R251): Load sign-extended immediate. -/
  | liX (i : PvuWord)
  /-- `LIS` (R251): Shift and insert immediate. -/
  | lisX (i : PvuWord)
  /-- `SCMP` (R251): Compares two scalars and sets flags. -/
  | scmp (i : PvuWord)
  /-- `SCMPI` (R251): Compares a scalar with an immediate and sets flags. -/
  | scmpi (i : PvuWord)
  /-- `XMMUL` (R251): Scalar modular multiplication. -/
  | xmmul (i : PvuWord)
  /-- `XMADD` (R251): Scalar modular addition. -/
  | xmadd (i : PvuWord)
  /-- `SMOV` (R252): Short-vector move. -/
  | smov (i : PvuWord)
  /-- `SXOR` (R252): Short-vector XOR. -/
  | sxor (i : PvuWord)
  /-- `SAND` (R252): Short-vector AND. -/
  | sand (i : PvuWord)
  /-- `SOR` (R252): Short-vector OR. -/
  | sor (i : PvuWord)
  /-- `SADD` (R252): Short-vector element addition. -/
  | sadd (i : PvuWord)
  /-- `SINS` (R252): Inserts a scalar into a short-vector element. -/
  | sins (i : PvuWord)
  /-- `SEXT` (R252): Extracts a short-vector element. -/
  | sext (i : PvuWord)
  /-- `SBCAST` (R252): Broadcasts a scalar to a short vector. -/
  | sbcast (i : PvuWord)
  /-- `VMOV` (R253): Long-vector move. -/
  | vmov (i : PvuWord)
  /-- `VADD` (R253): Long-vector addition. -/
  | vadd (i : PvuWord)
  /-- `VSUB` (R253): Long-vector subtraction. -/
  | vsub (i : PvuWord)
  /-- `VAND` (R253): Long-vector AND. -/
  | vand (i : PvuWord)
  /-- `VOR` (R253): Long-vector OR. -/
  | vor (i : PvuWord)
  /-- `VXOR` (R253): Long-vector XOR. -/
  | vxor (i : PvuWord)
  /-- `VNOT` (R253): Long-vector NOT. -/
  | vnot (i : PvuWord)
  /-- `VSHLI` (R253): Long-vector shift left by immediate. -/
  | vshli (i : PvuWord)
  /-- `VSRLI` (R253): Long-vector logical shift right by immediate. -/
  | vsrli (i : PvuWord)
  /-- `VBCAST` (R253): Broadcasts a scalar to a long vector. -/
  | vbcast (i : PvuWord)
  /-- `VMADD` (R253): Long-vector modular addition. -/
  | vmadd (i : PvuWord)
  /-- `VMSUB` (R253): Long-vector modular subtraction. -/
  | vmsub (i : PvuWord)
  /-- `VMNEG` (R253): Long-vector modular negation. -/
  | vmneg (i : PvuWord)
  /-- `VMMUL` (R253): Long-vector modular multiplication. -/
  | vmmul (i : PvuWord)
  /-- `VMMULX` (R253): Long-vector modular multiplication by a scalar. -/
  | vmmulx (i : PvuWord)
  /-- `VCMPEQ` (R254): Element equality compare into a predicate. -/
  | vcmpeq (i : PvuWord)
  /-- `VCMPLTU` (R254): Unsigned less-than compare into a predicate. -/
  | vcmpltu (i : PvuWord)
  /-- `VSEL` (R253): Element select under a predicate. -/
  | vsel (i : PvuWord)
  /-- `VPERM` (R253): Permutation of elements by an index vector. -/
  | vperm (i : PvuWord)
  /-- `VEXT` (R253): Extracts a long-vector element. -/
  | vext (i : PvuWord)
  /-- `VINS` (R253): Inserts a scalar into a long-vector element. -/
  | vins (i : PvuWord)
  /-- `VRED` (R253): Modular sum of active elements. -/
  | vred (i : PvuWord)
  /-- `PAND` (R253): Predicate AND. -/
  | pand (i : PvuWord)
  /-- `POR` (R253): Predicate OR. -/
  | por (i : PvuWord)
  /-- `PXOR` (R253): Predicate XOR. -/
  | pxor (i : PvuWord)
  /-- `PNOT` (R253): Predicate NOT. -/
  | pnot (i : PvuWord)
  /-- `PFIRST` (R253): Sets the first Xa predicate bits. -/
  | pfirst (i : PvuWord)
  /-- `PCNT` (R253): Counts set predicate bits. -/
  | pcnt (i : PvuWord)
  /-- `VLD` (R259): Unit-stride long-vector load. -/
  | vld (i : PvuWord)
  /-- `VST` (R259): Unit-stride long-vector store. -/
  | vst (i : PvuWord)
  /-- `VLDS` (R259): Strided long-vector load. -/
  | vlds (i : PvuWord)
  /-- `VSTS` (R259): Strided long-vector store. -/
  | vsts (i : PvuWord)
  /-- `VGATHER` (R259): Gather load. -/
  | vgather (i : PvuWord)
  /-- `VSCATTER` (R258): Scatter store; the highest element wins on overlap. -/
  | vscatter (i : PvuWord)
  /-- `VLDFF` (R227): First-fault unit-stride load. -/
  | vldff (i : PvuWord)
  /-- `VGATHERFF` (R227): First-fault gather. -/
  | vgatherff (i : PvuWord)
  /-- `SLD` (R259): 16-byte short-vector load. -/
  | sld (i : PvuWord)
  /-- `SST` (R259): 16-byte short-vector store. -/
  | sst (i : PvuWord)
  /-- `XLD` (R259): Scalar load. -/
  | xld (i : PvuWord)
  /-- `XST` (R259): Scalar store. -/
  | xst (i : PvuWord)
  /-- `VLDK` (R260): Stream load from a Keccak squeeze buffer. -/
  | vldk (i : PvuWord)
  /-- `VLDKFF` (R261): First-fault stream load with a byte limit. -/
  | vldkff (i : PvuWord)
  /-- `SLDK` (R260): 16-byte stream load. -/
  | sldk (i : PvuWord)
  /-- `NTT` (R262): Forward negacyclic number-theoretic transform. -/
  | ntt (i : PvuWord)
  /-- `INTT` (R262): Inverse transform. -/
  | intt (i : PvuWord)
  /-- `PWMUL` (R263): Pointwise multiplication in the NTT domain. -/
  | pwmul (i : PvuWord)
  /-- `PWMAC` (R263): Pointwise multiply-accumulate. -/
  | pwmac (i : PvuWord)
  /-- `VCOMPRESS` (R264): Compresses elements to b bits. -/
  | vcompress (i : PvuWord)
  /-- `VDECOMPRESS` (R264): Decompresses b-bit elements. -/
  | vdecompress (i : PvuWord)
  /-- `VPACK` (R264): Packs b-bit fields. -/
  | vpack (i : PvuWord)
  /-- `VUNPACK` (R264): Unpacks b-bit fields. -/
  | vunpack (i : PvuWord)
  /-- `VP2R` (R264): FIPS 204 Power2Round. -/
  | vp2r (i : PvuWord)
  /-- `VDECOMP` (R264): FIPS 204 Decompose. -/
  | vdecomp (i : PvuWord)
  /-- `VMKHINT` (R264): FIPS 204 MakeHint. -/
  | vmkhint (i : PvuWord)
  /-- `VUSEHINT` (R264): FIPS 204 UseHint. -/
  | vusehint (i : PvuWord)
  /-- `VINF` (R264): Largest centred magnitude of active elements. -/
  | vinf (i : PvuWord)
  /-- `VCENTER` (R264): Centres elements into two's complement. -/
  | vcenter (i : PvuWord)
  /-- `KINIT` (R201): Initialises a Keccak unit with function and order. -/
  | kinit (i : PvuWord)
  /-- `KABSS` (R265): Absorbs bytes of an S register. -/
  | kabss (i : PvuWord)
  /-- `KABSL` (R265): Absorbs bytes of an L register. -/
  | kabsl (i : PvuWord)
  /-- `KABSX` (R265): Absorbs bytes of an X register. -/
  | kabsx (i : PvuWord)
  /-- `KFINAL` (R265): Pads and enters SQUEEZE. -/
  | kfinal (i : PvuWord)
  /-- `SAMPLENTT` (R267): FIPS 203 SampleNTT rejection sampling. -/
  | samplentt (i : PvuWord)
  /-- `SAMPLEREJ` (R267): FIPS 204 RejNTTPoly sampling. -/
  | samplerej (i : PvuWord)
  /-- `SAMPLEETA` (R267): FIPS 204 RejBoundedPoly sampling. -/
  | sampleeta (i : PvuWord)
  /-- `SAMPLECBD` (R267): FIPS 203 centred binomial sampling. -/
  | samplecbd (i : PvuWord)
  /-- `SAMPLEBALL` (R268): FIPS 204 SampleInBall. -/
  | sampleball (i : PvuWord)
  /-- `MSHARE` (R270): Fresh sharing of a public value. -/
  | mshare (i : PvuWord)
  /-- `MREFRESH` (R270): Refreshes shares in place. -/
  | mrefresh (i : PvuWord)
  /-- `MA2B` (R270): Arithmetic to Boolean share conversion. -/
  | ma2b (i : PvuWord)
  /-- `MB2A` (R270): Boolean to arithmetic share conversion. -/
  | mb2a (i : PvuWord)
  /-- `MAND` (R270): Masked Boolean AND. -/
  | mand (i : PvuWord)
  /-- `MCOMP` (R270): Masked compress. -/
  | mcomp (i : PvuWord)
  /-- `MDECOMP` (R270): Masked decompose. -/
  | mdecomp (i : PvuWord)
  /-- `MNORM` (R270): Masked norm check with public result. -/
  | mnorm (i : PvuWord)
  /-- `MEQ` (R270): Masked equality test. -/
  | meq (i : PvuWord)
  /-- `MSEL` (R270): Masked select. -/
  | msel (i : PvuWord)
  /-- `UNMASK` (R212): Recombines a share group into a public value where permitted. -/
  | unmask (i : PvuWord)
  /-- `BNE_NOP` (R372): BNE no operation. -/
  | bneNop (i : BneWord)
  /-- `LDIN` (R372): Loads an operand from the input transfer buffer. -/
  | ldin (i : BneWord)
  /-- `LDKEY` (R369): Loads a key component from the key path, recombining shares. -/
  | ldkey (i : BneWord)
  /-- `STOUT` (R372): Stores a slot to the output transfer buffer. -/
  | stout (i : BneWord)
  /-- `SETMOD` (R372): Sets a modulus context and computes R² mod m. -/
  | setmod (i : BneWord)
  /-- `RANGE` (R372): Checks an operand against the modulus. -/
  | range (i : BneWord)
  /-- `MADD` (R372): Modular addition. -/
  | madd (i : BneWord)
  /-- `MSUB` (R372): Modular subtraction. -/
  | msub (i : BneWord)
  /-- `MMUL` (R372): Modular multiplication. -/
  | mmul (i : BneWord)
  /-- `MSQR` (R372): Modular squaring. -/
  | msqr (i : BneWord)
  /-- `MINV` (R372): Modular inversion. -/
  | minv (i : BneWord)
  /-- `MEXP` (R374): Fixed-window modular exponentiation. -/
  | mexp (i : BneWord)
  /-- `MRAND` (R375): Uniform random value below the modulus. -/
  | mrand (i : BneWord)
  /-- `MCOPY` (R372): Copies a slot. -/
  | mcopy (i : BneWord)
  /-- `MCSWAP` (R372): Conditional swap of two slots. -/
  | mcswap (i : BneWord)
  /-- `MCLR` (R372): Clears a slot. -/
  | mclr (i : BneWord)
  /-- `BNE_END` (R382): Ends the command path and checks the kernel invariants. -/
  | bneEnd (i : BneWord)
  /-- `NOP` (R109): Queue NOP completes OK without booking. -/
  | queueNop (job : Nat)
  /-- `PATTERN_RUN` (R278): Runs a loaded customer pattern. -/
  | patternRun (job : Nat)
  /-- `RNG_FILL` (R433): Writes LENGTH bytes from the host DRBG. -/
  | rngFill (job : Nat)
  /-- `CLUSTER_STATUS` (R665): Writes the head's node records. -/
  | clusterStatus (job : Nat)
  /-- `MLKEM_KEYGEN` (R290): Generates and stores an ML-KEM key pair. -/
  | mlkemKeygen (job : Nat)
  /-- `MLKEM_ENCAPS` (R291): ML-KEM encapsulation. -/
  | mlkemEncaps (job : Nat)
  /-- `MLKEM_DECAPS` (R292): ML-KEM decapsulation with implicit rejection. -/
  | mlkemDecaps (job : Nat)
  /-- `MLDSA_KEYGEN` (R297): Generates and stores an ML-DSA key pair. -/
  | mldsaKeygen (job : Nat)
  /-- `MLDSA_SIGN` (R298): ML-DSA signing as a sign chain. -/
  | mldsaSign (job : Nat)
  /-- `MLDSA_VERIFY` (R301): ML-DSA verification. -/
  | mldsaVerify (job : Nat)
  /-- `HASHMLDSA_SIGN` (R298): HashML-DSA signing. -/
  | hashmldsaSign (job : Nat)
  /-- `HASHMLDSA_VERIFY` (R298): HashML-DSA verification. -/
  | hashmldsaVerify (job : Nat)
  /-- `FNDSA_VERIFY` (R302): FN-DSA verification. -/
  | fndsaVerify (job : Nat)
  /-- `MATRIX_PRELOAD` (R316): Places a key's matrix sets on PVUs. -/
  | matrixPreload (job : Nat)
  /-- `SLHDSA_KEYGEN` (R332): Generates an SLH-DSA key pair. -/
  | slhdsaKeygen (job : Nat)
  /-- `SLHDSA_SIGN` (R333): SLH-DSA signing. -/
  | slhdsaSign (job : Nat)
  /-- `SLHDSA_VERIFY` (R334): SLH-DSA verification. -/
  | slhdsaVerify (job : Nat)
  /-- `HASHSLHDSA_SIGN` (R333): HashSLH-DSA signing. -/
  | hashslhdsaSign (job : Nat)
  /-- `HASHSLHDSA_VERIFY` (R334): HashSLH-DSA verification. -/
  | hashslhdsaVerify (job : Nat)
  /-- `LMS_KEYGEN` (R341): Generates an LMS/HSS key and builds its trees. -/
  | lmsKeygen (job : Nat)
  /-- `LMS_SIGN` (R343): Stateful HSS signing at an assigned leaf. -/
  | lmsSign (job : Nat)
  /-- `LMS_VERIFY` (R337): HSS verification. -/
  | lmsVerify (job : Nat)
  /-- `XMSS_KEYGEN` (R341): Generates an XMSS key and builds its trees. -/
  | xmssKeygen (job : Nat)
  /-- `XMSS_SIGN` (R343): Stateful XMSS signing. -/
  | xmssSign (job : Nat)
  /-- `XMSS_VERIFY` (R337): XMSS verification. -/
  | xmssVerify (job : Nat)
  /-- `STATEFUL_STATUS` (R350): Writes a stateful key's counters. -/
  | statefulStatus (job : Nat)
  /-- `STATEFUL_ADVANCE` (R351): Advances a stateful key's next leaf. -/
  | statefulAdvance (job : Nat)
  /-- `HQC_KEYGEN` (R354): Generates an HQC key pair. -/
  | hqcKeygen (job : Nat)
  /-- `HQC_ENCAPS` (R355): HQC encapsulation. -/
  | hqcEncaps (job : Nat)
  /-- `HQC_DECAPS` (R355): HQC decapsulation. -/
  | hqcDecaps (job : Nat)
  /-- `MCE_KEYGEN` (R364): Classic McEliece key generation by attempts. -/
  | mceKeygen (job : Nat)
  /-- `MCE_ENCAPS` (R358): McEliece encapsulation, pinned or streamed. -/
  | mceEncaps (job : Nat)
  /-- `MCE_DECAPS` (R357): McEliece decapsulation. -/
  | mceDecaps (job : Nat)
  /-- `MCE_PIN` (R361): Requests pinning of a McEliece key on PVUs. -/
  | mcePin (job : Nat)
  /-- `PIN_LOAD` (R361): A drained PVU loads the pinned key and pinning takes effect. -/
  | pinLoad (pvu : Nat)
  /-- `MCE_UNPIN` (R363): Stops new pinned bookings for a key. -/
  | mceUnpin (job : Nat)
  /-- `UNPIN_DONE` (R363): After the last pinned release the store is cleared and the constant area reloaded. -/
  | unpinDone (pvu : Nat)
  /-- `MOD_ADD` (R389): Raw modular addition. -/
  | modAdd (job : Nat)
  /-- `MOD_SUB` (R389): Raw modular subtraction. -/
  | modSub (job : Nat)
  /-- `MOD_MUL` (R389): Raw modular multiplication. -/
  | modMul (job : Nat)
  /-- `MOD_SQR` (R389): Raw modular squaring. -/
  | modSqr (job : Nat)
  /-- `MOD_INV` (R389): Raw modular inversion. -/
  | modInv (job : Nat)
  /-- `MOD_EXP` (R390): Raw modular exponentiation. -/
  | modExp (job : Nat)
  /-- `MOD_RAND` (R389): Raw random value below a modulus. -/
  | modRand (job : Nat)
  /-- `RSA_KEYGEN` (R397): RSA key generation by candidate runs. -/
  | rsaKeygen (job : Nat)
  /-- `RSA_SIGN` (R395): RSA signing. -/
  | rsaSign (job : Nat)
  /-- `RSA_VERIFY` (R395): RSA verification. -/
  | rsaVerify (job : Nat)
  /-- `RSA_ENCRYPT` (R395): RSA-OAEP encryption. -/
  | rsaEncrypt (job : Nat)
  /-- `RSA_DECRYPT` (R388): RSA-OAEP decryption. -/
  | rsaDecrypt (job : Nat)
  /-- `EC_KEYGEN` (R395): EC key generation. -/
  | ecKeygen (job : Nat)
  /-- `ECDSA_SIGN` (R394): ECDSA signing. -/
  | ecdsaSign (job : Nat)
  /-- `ECDSA_VERIFY` (R388): ECDSA verification. -/
  | ecdsaVerify (job : Nat)
  /-- `ECDH` (R388): EC Diffie-Hellman. -/
  | ecdh (job : Nat)
  /-- `EDDSA_KEYGEN` (R395): EdDSA key generation. -/
  | eddsaKeygen (job : Nat)
  /-- `EDDSA_SIGN` (R394): EdDSA signing. -/
  | eddsaSign (job : Nat)
  /-- `EDDSA_VERIFY` (R388): EdDSA verification. -/
  | eddsaVerify (job : Nat)
  /-- `XDH_KEYGEN` (R395): X25519/X448 key generation. -/
  | xdhKeygen (job : Nat)
  /-- `XDH` (R395): X25519/X448 key agreement. -/
  | xdh (job : Nat)
  /-- `HYB_KEYGEN` (R398): Hybrid X25519MLKEM768 key generation. -/
  | hybKeygen (job : Nat)
  /-- `HYB_ENCAPS` (R398): Hybrid encapsulation. -/
  | hybEncaps (job : Nat)
  /-- `HYB_DECAPS` (R398): Hybrid decapsulation. -/
  | hybDecaps (job : Nat)
  /-- `COMP_KEYGEN` (R398): Composite ML-DSA+ECDSA key generation. -/
  | compKeygen (job : Nat)
  /-- `COMP_SIGN` (R398): Composite signing. -/
  | compSign (job : Nat)
  /-- `COMP_VERIFY` (R398): Composite verification. -/
  | compVerify (job : Nat)
  /-- `KEY_IMPORT` (R455): Unwraps and imports a key. -/
  | keyImport (job : Nat)
  /-- `KEY_EXPORT` (R456): Exports a wrapped key. -/
  | keyExport (job : Nat)
  /-- `PUBKEY_REGISTER` (R457): Creates a public key object. -/
  | pubkeyRegister (job : Nat)
  /-- `PUBKEY_READ` (R451): Reads a key's public encoding. -/
  | pubkeyRead (job : Nat)
  /-- `KEY_DELETE` (R461): Deletes a key object at its admission edge. -/
  | keyDelete (job : Nat)
  /-- `KEY_DELETE_CLEANUP` (R462): After the key's last release, KST zeroes copies and frees its slots, sets and pins. -/
  | keyDeleteCleanup (handle : W32)
  /-- `OBJECT_BLOCK_ERASE` (R462): The flash block holding a deleted record is erased within 10 minutes. -/
  | objectBlockErase (serial : Nat) (ok : Bool)
  /-- `KEY_ATTR_READ` (R460): Writes a key's attribute record. -/
  | keyAttrRead (job : Nat)
  /-- `KEY_ATTR_SET` (R458): Tightens a key's attributes. -/
  | keyAttrSet (job : Nat)
  /-- `KEY_BIND` (R459): Adds or removes a pattern binding. -/
  | keyBind (job : Nat)
  /-- `SYM_KEYGEN` (R460): Generates an HMAC, AES or secret key. -/
  | symKeygen (job : Nat)
  /-- `HMAC` (R463): HMAC over a message on the Hash Array. -/
  | hmac (job : Nat)
  /-- `HKDF` (R463): Derives a key object with HKDF. -/
  | hkdf (job : Nat)
  /-- `KBKDF` (R463): Derives a key object with SP 800-108. -/
  | kbkdf (job : Nat)
  /-- `HASH` (R738): Hashes a message on the Hash Array or a PVU. -/
  | hash (job : Nat)
  /-- `JOURNAL_PROGRAM_DONE` (R343): A journal page program completes and its records become durable. -/
  | journalProgramDone (ok : Bool)
  /-- `IDENTIFY` (R137): Writes the identify structure. -/
  | identify (job : Nat)
  /-- `SET_VERSION` (R138): Selects the mailbox protocol version. -/
  | setVersion (job : Nat)
  /-- `SET_VERSION_APPLY` (R139): The new version applies once no mailbox exchange is in progress. -/
  | setVersionApply (fn : Nat)
  /-- `QUEUE_CREATE` (R141): Checks a descriptor and creates an I/O queue. -/
  | queueCreate (job : Nat)
  /-- `QUEUE_DESTROY` (R143): Stops taking and cancels unadmitted entries of a queue. -/
  | queueDestroy (job : Nat)
  /-- `QUEUE_DESTROY_DONE` (R143): After admitted jobs finish, the queue is removed and the command completes. -/
  | queueDestroyDone (job : Nat)
  /-- `QUEUE_CANCEL` (R119): Cancels taken and untaken entries of a queue. -/
  | queueCancel (job : Nat) (reads : List Fetched)
  /-- `QUEUE_CANCEL_DONE` (R119): When every affected entry has completed, the head word is written with EPOCH incremented. -/
  | queueCancelDone (job : Nat)
  /-- `PATTERN_LOAD` (R275): Checks and loads a pattern container. -/
  | patternLoad (job : Nat)
  /-- `PATTERN_UNLOAD` (R145): Stops new runs of a pattern. -/
  | patternUnload (job : Nat)
  /-- `PATTERN_UNLOAD_DONE` (R145): The command completes when no admitted run remains. -/
  | patternUnloadDone (job : Nat)
  /-- `LOG_READ` (R146): Writes retained log records. -/
  | logRead (job : Nat)
  /-- `ASSIGN` (R670): PMU_CONFIG assigns a counter to an event. -/
  | pmuAssign (job : Nat)
  /-- `RELEASE` (R670): PMU_CONFIG releases a counter. -/
  | pmuRelease (job : Nat)
  /-- `SAMPLE_START` (R675): Starts precise sampling into a ring. -/
  | sampleStart (job : Nat)
  /-- `SAMPLE_STOP` (R675): Ends sampling at the next release edge. -/
  | sampleStop (job : Nat)
  /-- `INSTANCE_CREATE` (R526): Creates an instance from the pools. -/
  | instanceCreate (job : Nat)
  /-- `INSTANCE_MODIFY` (R528): Changes an instance's resources within the allowed windows. -/
  | instanceModify (job : Nat)
  /-- `INSTANCE_ENABLE` (R527): Enables an instance. -/
  | instanceEnable (job : Nat)
  /-- `INSTANCE_QUIESCE` (R540): Stops taking entries and drains the instance. -/
  | instanceQuiesce (job : Nat)
  /-- `INSTANCE_QUIESCED` (R540): When the last job is released the instance becomes QUIESCED. -/
  | instanceQuiesced (fn : Nat)
  /-- `INSTANCE_RESET` (R538): Requests an instance reset. -/
  | instanceReset (job : Nat)
  /-- `INSTANCE_DESTROY` (R524): Resets the instance and deletes its domain. -/
  | instanceDestroy (job : Nat)
  /-- `FLR` (R538): A function-level reset of a VF starts an instance reset. -/
  | flr (fn : Nat)
  /-- `BUS_MASTER_ENABLE_CLEAR` (R538): Clearing Bus Master Enable starts an instance reset. -/
  | busMasterEnableClear (fn : Nat)
  /-- `VF_ENABLE_CLEAR` (R538): Clearing VF Enable resets every instance. -/
  | vfEnableClear
  /-- `INSTANCE_RESET_DONE` (R538): Once the instance's DMA has left the fabric, the reset completes. -/
  | instanceResetDone (fn : Nat)
  /-- `MIGRATE_OFFER` (R545): Writes a signed migration offer. -/
  | migrateOffer (job : Nat)
  /-- `MIGRATE_OFFER_EXPIRY` (R545): An unused offer expires after 600 s. -/
  | migrateOfferExpiry (fn : Nat)
  /-- `MIGRATE_FREEZE` (R543): Stops taking entries and drains admitted jobs. -/
  | migrateFreeze (job : Nat)
  /-- `INSTANCE_FROZEN` (R543): At the last admitted job's release the instance becomes FROZEN. -/
  | instanceFrozen (fn : Nat)
  /-- `MIGRATE_SAVE` (R546): Writes one encrypted migration chunk. -/
  | migrateSave (job : Nat)
  /-- `MIGRATE_RESTORE` (R549): Checks and restores one chunk. -/
  | migrateRestore (job : Nat) (reads : List Fetched)
  /-- `MIGRATE_ABORT` (R551): Returns a FROZEN instance to ENABLED. -/
  | migrateAbort (job : Nat)
  /-- `DIRTY_LOG_START` (R552): Starts dirty-page logging. -/
  | dirtyLogStart (job : Nat)
  /-- `DIRTY_LOG_READ` (R553): Reads and clears the dirty bitmap. -/
  | dirtyLogRead (job : Nat)
  /-- `DIRTY_LOG_STOP` (R554): Ends dirty-page logging. -/
  | dirtyLogStop (job : Nat)
  /-- `RECOVERY_WINDOW_CLOSE` (R529): The recovery window closes 10 s after the last retirement. -/
  | recoveryWindowClose
  /-- `MBX_UP_SEND` (R536): The tenant posts the up mailbox. -/
  | mbxUpSend (fn : Nat)
  /-- `MBX_DN_SEND` (R536): The manager posts the down mailbox. -/
  | mbxDnSend (fn : Nat)
  /-- `MBX_UP_ACK` (R536): The manager frees the up mailbox. -/
  | mbxUpAck (fn : Nat)
  /-- `MBX_DN_ACK` (R536): The tenant frees the down mailbox. -/
  | mbxDnAck (fn : Nat)
  /-- `MODULE_MESSAGE` (R537): MGC sends a queued module message when the down box is empty. -/
  | moduleMessage (fn : Nat)
  /-- `PATCH_LOAD` (R514): Checks and stages a patch image. -/
  | patchLoad (job : Nat)
  /-- `PATCH_ACTIVATE` (R517): Commits the staged image and starts per-engine turns. -/
  | patchActivate (job : Nat)
  /-- `PATCH_ENGINE_TURN` (R517): A drained engine is written with the patch and resumes; the next engine's turn starts. -/
  | patchEngineTurn (code : Nat) (readBack : Bool)
  /-- `PATCH_STATUS` (R519): Writes the patch status record. -/
  | patchStatus (job : Nat)
  /-- `PATCH_READ` (R519): Writes a stored patch image. -/
  | patchRead (job : Nat)
  /-- `BNE_DUMMY_RATIO` (R378): A write of BNEn_DUMMY.RATIO sets the ratio for later bookings, or is refused. -/
  | bneDummyRatio (bne : Nat) (val : W32)
  /-- `DGS_KLOAD` (R416): Requests the load of an HMAC key into a keyed slot. -/
  | dgsKload (fn : Nat) (handle : W32)
  /-- `KEY_LOAD_DONE` (R416): The keyed-slot load finishes and DGS_KRESULT shows its outcome. -/
  | keyLoadDone (fn : Nat)
  /-- `DGS_KUNLOAD` (R417): Frees and zeroes a keyed slot. -/
  | dgsKunload (fn : Nat) (slot : W32)
  /-- `OPEN` (R409): Binds a free digest context to the view. -/
  | dgsOpen (fn view : Nat)
  /-- `START` (R409): Checks the view configuration and enters ABSORB. -/
  | dgsStart (fn view : Nat)
  /-- `DGS_VDATA` (R413): A data write appends bytes to the view, or is discarded. -/
  | dgsVdata (fn view size : Nat) (val : W64)
  /-- `DGS_BLOCK_COMPRESSED` (R412): A buffered block is compressed and BUSY clears. -/
  | dgsBlockCompressed (fn view mismatches : Nat)
  /-- `FINAL` (R409): Starts finalisation of the view. -/
  | dgsFinal (fn view : Nat)
  /-- `DGS_FINAL_DONE` (R414): Finalisation checks end and the view goes to DONE or IDLE with an error. -/
  | dgsFinalDone (fn view : Nat)
  /-- `ABORT` (R409): Discards the view state and result. -/
  | dgsAbort (fn view : Nat)
  /-- `SAVE` (R418): Wraps the view state into the blob area. -/
  | dgsSave (fn view : Nat)
  /-- `RESTORE` (R419): Unwraps a blob into the view. -/
  | dgsRestore (fn view : Nat)
  /-- `CLOSE` (R409): Zeroes and frees the view's context. -/
  | dgsClose (fn view : Nat)
  /-- `DGS_RESULT_READ` (R415): A result read outside DONE returns zero and sets EARLY. -/
  | dgsResultRead (fn view word : Nat)
  /-- `RNG_DATA_READ` (R432): Takes 4 bytes from the RNG FIFO, or returns zero fill and sets ERR. -/
  | rngDataRead (fn : Nat)
  /-- `RNG_FIFO_REFILL` (R431): The host DRBG refills a function's RNG FIFO. -/
  | rngFifoRefill (fn : Nat)
  /-- `CONDITIONED_BLOCK` (R423): A source's compressor completes a 128-bit conditioned block, or health tests discard it. -/
  | conditionedBlock (src : Nat) (health : HealthResult)
  /-- `OSC_CALIBRATION` (R424): Every 100 ms each oscillator pair's ratio is checked against the TCXO. -/
  | oscCalibration (deviation : List Int)
  /-- `DRBG_RESEED` (R429): Every 10 ms one DRBG reseeds from conditioned blocks, or stops at its limit. -/
  | drbgReseed (host : Bool)
  /-- `ENT_RAW_CTRL` (R436): A write of EN takes a source out of service for raw read-out, or returns it. -/
  | entRawCtrl (val : W32) (startupPass : Bool)
  /-- `ENT_RAW_DATA` (R436): A read returns the next 32 raw bits of the selected source. -/
  | entRawData (bits : W32)
  /-- `LKA_RELAX` (R491): Lowers an engine's assessed level or order by one step provisionally. -/
  | lkaRelax (val : W32)
  /-- `ASSESSMENT_SLOT_END` (R486): An assessment slot ends, and a campaign may compute its statistic and verdict. -/
  | assessmentSlotEnd (code : Nat) (m : AssessMeasure)
  /-- `DARNING_PASS` (R559): Darning scrubs a memory, correcting and marking words, and fires DARN_LATE on overrun. -/
  | darningPass (kind : MemKind) (durationMs : Nat) (found : List MemError)
  /-- `ROW_RETIREMENT` (R566): Darning copies a retired row to its spare. -/
  | rowRetirement (region row : Nat) (ue : Bool)
  /-- `INJECTION_ARM` (R572): In MAINTENANCE, arms corruption of the next write to the injection address. -/
  | injectionArm (val : W32)
  /-- `FLASH_REFRESH` (R469): Housekeeping reads flash blocks, rewrites weak ones and moves cold blocks. -/
  | flashRefresh (block correctedBits : Nat) (warnPause : Bool)
  /-- `GLOW_TOGGLE` (R596): Every 1 ms GLOW toggles, or stops when a condition fails. -/
  | glowToggle
  /-- `TICK_STALL` (R586): No tick edge for 1 ms is a FATAL event. -/
  | tickStall
  /-- `MGC_STALL` (R597): HRT_BEAT unwritten for 1.5 ms is a FATAL event. -/
  | mgcStall
  /-- `LOG_LOST` (R744): At the first microsecond with room Hearth records the number of records not made. -/
  | logLost
  /-- `TELEMETRY_RECORD` (R678): Every 100 ms MGC appends a telemetry record. -/
  | telemetryRecord (m : TeleMeasure)
  /-- `PMU_CLEAR` (R685): A write of PMU_CTRL.CLEAR zeroes every counter. -/
  | pmuClear (val : W32)
  /-- `PMU_FREEZE` (R685): A write of PMU_CTRL.FREEZE stops or restarts every counter. -/
  | pmuFreeze (val : W32)
  /-- `TAMPER_ALARM` (R614): A tamper input in alarm is recorded and its response taken. -/
  | tamperAlarm (input meas : Nat)
  /-- `SELVEDGE_CHECK` (R605): A periodic check of every Selvedge trace. -/
  | selvedgeCheck (traces : BitVec 8)
  /-- `LOOP_CHECK` (R606): A periodic check of a loop pair in STATIC or PRBS mode. -/
  | loopCheck (n meas : Nat) (bitsMatch : Bool)
  /-- `CASE_SWITCH` (R607): A case switch at its alarm level for 100 µs raises its input. -/
  | caseSwitch (n : Nat) (level : Bool)
  /-- `MONITOR_DISAGREE` (R609): One detector of a monitor reports without the other within 10 µs. -/
  | monitorDisagree (m : Nat) (detectorB : Bool)
  /-- `VBAT_LOW` (R621): VBAT below 2.45 V for 1 s on the backup cell takes ZEROIZE. -/
  | vbatLow (mv : Nat)
  /-- `TAMPER_CONFIG_WRITE` (R604): A tamper configuration write is accepted if it tightens, or relaxes within a quorum session. -/
  | tamperConfigWrite (off : Nat) (val : W32)
  /-- `TMP_RELEASE` (R618): A write of TMP_RELEASE.HALT ends HALT when no HALT input is in alarm. -/
  | tmpRelease (val : W32)
  /-- `EVIDENCE_COPY` (R623): MGC copies new evidence records to the flash ring. -/
  | evidenceCopy
  /-- `DRILL_EXPIRY` (R593): A live drill disarms when its time expires. -/
  | drillExpiry
  /-- `CARD_INSERTED` (R649): A slot's detect input closes. -/
  | cardInserted (slot : Nat)
  /-- `CARD_REMOVED` (R632): A slot's detect input opens and the card is deactivated. -/
  | cardRemoved (slot : Nat)
  /-- `ACTIVATE` (R630): Starts card activation in a slot. -/
  | cardActivate (slot : Nat)
  /-- `DEACTIVATE` (R632): Deactivates a card. -/
  | cardDeactivate (slot : Nat)
  /-- `WARM_RESET` (R648): Pulses RST and waits for a new ATR. -/
  | cardWarmReset (slot : Nat)
  /-- `ATR_RECEIVED` (R631): The ATR is parsed and the protocol and rate selected. -/
  | atrReceived (slot : Nat) (atr : List Byte)
  /-- `ATR_TIMEOUT` (R630): No ATR within 40,000 cycles fails the class attempt. -/
  | atrTimeout (slot : Nat)
  /-- `VCC_OVERCURRENT` (R629): Card VCC overcurrent deactivates the slot. -/
  | vccOvercurrent (slot : Nat)
  /-- `APDU_DATA_WRITE` (R635): A write appends 4 command bytes. -/
  | apduDataWrite (val : W32)
  /-- `APDU_START` (R635): Checks and sends a pass-through APDU. -/
  | apduStart (val : W32)
  /-- `APDU_RESPONSE` (R636): A card's response ends the exchange and BUSY clears. -/
  | apduResponse (slot : Nat) (resp : List Byte)
  /-- `APDU_DATA_READ` (R636): A read returns the next response bytes. -/
  | apduDataRead
  /-- `QUORUM_OPEN` (R643): Opens a quorum session for a purpose. -/
  | quorumOpen (val : W32)
  /-- `QUORUM_CLOSE` (R646): Closes the open quorum session. -/
  | quorumClose (val : W32)
  /-- `QUORUM_CARD` (R638): A card in a claimed slot is authenticated and counted, and at threshold the action is taken. -/
  | quorumCard (slot : Nat) (c : CardPresented)
  /-- `QUORUM_TIMEOUT` (R643): A session closes 600 s after OPEN. -/
  | quorumTimeout
  /-- `PORT_ENABLE` (R653): Enabling a Peer Link port starts its training. -/
  | portEnable (port : Nat) (enable : Bool)
  /-- `PEER_FPR_WRITE` (R655): Stores an allow-list fingerprint entry. -/
  | peerFprWrite (val : W32)
  /-- `PEER_FPR_CLEAR` (R655): Clears an allow-list entry. -/
  | peerFprClear (val : W32)
  /-- `TRAIN` (R653): A TRAIN frame is received and the peer is checked and authenticated. -/
  | plkTrain (port : Nat) (p : TrainFrame)
  /-- `KEEPALIVE` (R656): A KEEPALIVE frame is received. -/
  | plkKeepalive (port : Nat) (h : PlkHeader)
  /-- `KEEPALIVE_SEND` (R656): A port idle for 20 µs sends a KEEPALIVE. -/
  | plkKeepaliveSend (port : Nat)
  /-- `TICK` (R663): A TICK frame drives a worker's tick lock. -/
  | plkTick (port : Nat) (h : PlkHeader) (tickNum : Nat) (phase : Int)
  /-- `JOB` (R659): A worker receives a forwarded job and presents it. -/
  | plkJob (port : Nat) (h : PlkHeader) (f : ForwardFrame)
  /-- `RESULT` (R659): The head receives a forwarded job's result. -/
  | plkResult (port : Nat) (h : PlkHeader) (fid : Nat) (record output : List Byte)
  /-- `REFUSE` (R659): The head receives a refusal and writes DEADLINE_REFUSED. -/
  | plkRefuse (port : Nat) (h : PlkHeader) (fid status : Nat)
  /-- `SQUASH` (R660): A worker squashes the named forwarded jobs. -/
  | plkSquash (port : Nat) (h : PlkHeader) (fids : List Nat)
  /-- `KEY_PUT` (R661): A worker stores a replicated key. -/
  | plkKeyPut (port : Nat) (h : PlkHeader) (k : KeyFrame)
  /-- `KEY_DEL` (R661): A worker deletes a replicated key. -/
  | plkKeyDel (port : Nat) (h : PlkHeader) (handle : W32)
  /-- `KEY_ACK` (R661): The head records a worker's key acknowledgement. -/
  | plkKeyAck (port : Nat) (h : PlkHeader) (handle : W32)
  /-- `GRANT_REQ` (R662): The head journals and sends a leaf grant. -/
  | plkGrantReq (port : Nat) (h : PlkHeader) (handle : W32)
  /-- `GRANT` (R662): A worker receives a leaf grant. -/
  | plkGrant (port : Nat) (h : PlkHeader) (handle : W32) (first last : Nat)
  /-- `REVOKE` (R662): A worker drops a key's grants. -/
  | plkRevoke (port : Nat) (h : PlkHeader) (handle : W32)
  /-- `LINK_DOWN_TIMEOUT` (R664): 100 µs without a frame marks the link down. -/
  | linkDownTimeout (port : Nat)
  /-- `PORT_RETRAIN_RETRY` (R654): A refused port trains again every 1 s. -/
  | portRetrainRetry (port : Nat)
  /-- `SET_ENDPOINT_ID` (R679): MCTP Set Endpoint ID. -/
  | setEndpointId (eid : Byte)
  /-- `GET_ENDPOINT_ID` (R679): MCTP Get Endpoint ID. -/
  | getEndpointId
  /-- `GET_MCTP_VERSION_SUPPORT` (R679): MCTP Get MCTP Version Support. -/
  | getMctpVersionSupport (msgType : Byte)
  /-- `GET_MESSAGE_TYPE_SUPPORT` (R679): MCTP Get Message Type Support. -/
  | getMessageTypeSupport
  /-- `GET_TID` (R679): PLDM GetTID. -/
  | getTid
  /-- `GET_PLDM_VERSION` (R679): PLDM GetPLDMVersion. -/
  | getPldmVersion (pldmType : Byte)
  /-- `GET_PLDM_TYPES` (R679): PLDM GetPLDMTypes. -/
  | getPldmTypes
  /-- `GET_PLDM_COMMANDS` (R679): PLDM GetPLDMCommands. -/
  | getPldmCommands (pldmType : Byte)
  /-- `GET_PDR_REPOSITORY_INFO` (R679): PLDM GetPDRRepositoryInfo. -/
  | getPdrRepositoryInfo
  /-- `GET_PDR` (R679): PLDM GetPDR. -/
  | getPdr (record : Nat)
  /-- `GET_SENSOR_READING` (R679): PLDM numeric sensor reading. -/
  | getSensorReading (sensor : Nat)
  /-- `GET_STATE_SENSOR_READINGS` (R679): PLDM state sensor readings. -/
  | getStateSensorReadings (sensor : Nat)
  /-- `READ_VIN` (R698): PMBus input voltage read. -/
  | readVin
  /-- `READ_IIN` (R698): PMBus input current read. -/
  | readIin
  /-- `READ_VOUT` (R698): PMBus output voltage read. -/
  | readVout
  /-- `READ_IOUT` (R698): PMBus output current read. -/
  | readIout
  /-- `READ_TEMPERATURE_1` (R698): PMBus temperature read. -/
  | readTemperature1
  /-- `READ_POUT` (R698): PMBus output power read. -/
  | readPout
  /-- `STATUS_WORD` (R698): PMBus status word read. -/
  | statusWord
  /-- `CLEAR_FAULTS` (R698): PMBus clear faults. -/
  | clearFaults
  /-- `PMBUS_REVISION` (R698): PMBus revision read. -/
  | pmbusRevision
  /-- `MFR_ID` (R698): PMBus manufacturer ID read. -/
  | mfrId
  /-- `SPDM_GET_VERSION` (R150): SPDM GET_VERSION answered with 1.2 and 1.3. -/
  | spdmGetVersion
  /-- `UART_CONSOLE_INPUT` (R699): Console input accepted only in MANUFACTURE and MAINTENANCE. -/
  | uartConsoleInput (c : Byte)
  /-- `PCIE_CONFIG_REQUEST` (R716): A PCIe configuration request, answered with retry status before READY. -/
  | pcieConfigRequest (fn : Nat) (write : Bool) (reg : Nat) (val : W32)
  /-- `BANK_N` (R680): BANK_N low for 10 µs with PIN_EN enters BANK. -/
  | bankN (lowUs : Nat)
  /-- `BANK_CTRL_ENTER` (R680): A write of PCR_BANK_CTRL.ENTER enters BANK. -/
  | bankCtrlEnter
  /-- `EXTEST` (R683): IEEE 1149.1 EXTEST. -/
  | extest (tdi : List Bool)
  /-- `SAMPLE_PRELOAD` (R683): IEEE 1149.1 SAMPLE/PRELOAD. -/
  | samplePreload (tdi : List Bool)
  /-- `IDCODE` (R683): Shifts out the identification code. -/
  | idcode
  /-- `BANK_ENTER` (R680): Test-port instruction that enters BANK while TAP_EN = 1. -/
  | bankEnter
  /-- `BANK_ADDR` (R684): Sets the 64-bit read-out address. -/
  | bankAddr (addr : W64)
  /-- `BANK_DATA` (R684): Reads 64 bits at the address and advances it. -/
  | bankData
  /-- `BYPASS` (R683): IEEE 1149.1 BYPASS. -/
  | bypass (tdi : List Bool)
  /-- `POWER_UP` (R715): Input rising through 34.0 V or a cold reset's end runs the power-up sequence to READY. -/
  | powerUp (r : BootResults)
  /-- `POWER_WARNING` (R721): Input below 32.0 V for 50 µs stops admission, defers jobs, switches engines off and commits. -/
  | powerWarning
  /-- `WARN_CLEAR` (R723): Input at or above 33.0 V for 10 ms clears the warning and restores engines. -/
  | warnClear
  /-- `COLD_RESET` (R720): A module reset from undervoltage, SYS_RESET_N or PCR_RESET. -/
  | coldReset (cause : ResetCause)
  /-- `PCR_RESET` (R733): A keyed write requests a cold reset 10 µs later. -/
  | pcrReset (val : W32)
  /-- `LINK_RESET` (R720): PERST_N, hot reset, link down or PF FLR resets PCIe state and every instance. -/
  | linkReset
  /-- `LIFECYCLE_TARGET` (R727): A write of TARGET requests a lifecycle transition. -/
  | lifecycleTarget (val : W32)
  /-- `GENERATE_MS` (R728): In CUSTODY with MS absent, stores a new MS and initialises KST. -/
  | generateMs
  /-- `DECOM_ARM` (R731): Arms decommissioning for 10 s. -/
  | decomArm
  /-- `DECOM_ARM_EXPIRY` (R731): DECOM_ARMED clears after 10 s. -/
  | decomArmExpiry
  /-- `ALARM_CLEARED` (R743): A tamper input stops being in alarm, which clears its TMP_ACTIVE bit and lets its SEVERE condition, FAULT_N0, unlock and HALT release proceed. -/
  | alarmCleared (input : Nat)
  /-- `PCIE_LINK_CORR` (R586): The PCIe receiver detects an LCRC error and replays, counting a LINK_CORR event that may retire a lane by retraining at reduced width. -/
  | pcieLinkCorr
  /-- `PCIE_LINK_UP` (R720): Once PERST_N is high the PCIe link trains, after which HIF answers configuration requests normally. -/
  | pcieLinkUp
  /-- `SPDM_REQUEST` (R150): An SPDM request over DOE after version selection, such as certificate, challenge or measurement, is answered under DMTF SPDM at the selected version. -/
  | spdmRequest (code : Byte) (req : List Byte)
  /-- `AREA_ERASE_DONE` (R730): The FLS erasure of the object area, journal and related areas, started by re-enrolment or decommissioning, completes, and the lifecycle change is finalised. -/
  | areaEraseDone
  /-- `NAK` (R656): A Peer Link receiver's NAK of a dropped frame reaches the sender, which resends the frame, or retrains the port after 8 resends. -/
  | plkNak (port : Nat) (h : PlkHeader) (seq : Nat)
  /-- `NEXT_CLASS_ATTEMPT` (R630): After VCC has been off for 10 ms following a failed class attempt, the slot tries the next class up. -/
  | nextClassAttempt (slot : Nat)
  /-- `PPS_RESPONSE` (R631): The card's answer to the PPS request arrives; the module adopts the protocol and rate, or sets PPS_FAIL and reactivates without PPS. -/
  | ppsResponse (slot : Nat) (resp : List Byte)
  /-- `UNSUPPORTED_PLDM_CMD` (R679): A PLDM command outside the supported set is answered ERROR_UNSUPPORTED_PLDM_CMD. -/
  | unsupportedPldmCmd (pldmType cmd : Byte)
  /-- `PMBUS_OTHER_COMMAND` (R698): An unlisted PMBus command, or a write other than CLEAR_FAULTS, sets the CML bit of STATUS_WORD and changes nothing else. -/
  | pmbusOtherCommand (cmd : Byte) (write : Bool)
  /-- `PATCH_RAM_RELOAD_DONE` (R497): MGC's reload of an uncorrectable patch-RAM word completes, and Treadle may book the engine again. -/
  | patchRamReloadDone (code : Nat)
  deriving DecidableEq, Repr

end Sys2Proof
end

