-- ==== Sys2Proof/Decode.lean ====
section
/-! DEFINITION. Words that spell a row. The table itself gives no row any bits (every `fields` list is empty); the specification gives
PVU instructions and BNE commands one 64-bit word each (R238, R371). A word of 64 bits spells the PVU instruction that its CLASS and FUNC
name (R239, and the class tables R247, R251 to R273), on PVU 0 and with no upset; `decodeBne` reads a word as a BNE command. -/

namespace Sys2Proof

/-- Bits `hi` to `lo` of a word. -/
def wordBits (w hi lo : Nat) : Nat := w / 2 ^ lo % 2 ^ (hi + 1 - lo)

/-- The fields of an instruction word (R238). -/
def pvuWordOf (w : Nat) : PvuWord :=
  { pvu := 0, w := BitVec.ofNat 2 (wordBits w 51 50), pg := BitVec.ofNat 3 (wordBits w 49 47), mc := BitVec.ofNat 2 (wordBits w 46 45),
    rd := BitVec.ofNat 5 (wordBits w 44 40), ra := BitVec.ofNat 5 (wordBits w 39 35), rb := BitVec.ofNat 5 (wordBits w 34 30),
    rc := BitVec.ofNat 5 (wordBits w 29 25), imm := BitVec.ofNat 25 (wordBits w 24 0) }

/-- FUNC of class CTRL. -/
def ctrlFuncs : List (Nat × (PvuWord → Instr)) :=
  [(0x00, .pvuNop), (0x01, .pvuEnd), (0x02, .brB), (0x03, .brC), (0x04, .loop), (0x05, .call), (0x06, .ret),
   (0x08, .modset), (0x09, .kload), (0x0A, .sysrd), (0x0B, .rdstat), (0x10, .resume), (0x11, .skipH),
   (0x12, .failH), (0x20, .accept), (0x21, .reject)]

/-- FUNC of class SCALAR. -/
def scalarFuncs : List (Nat × (PvuWord → Instr)) :=
  [(0x00, .addX), (0x01, .subX), (0x02, .andX), (0x03, .orX), (0x04, .xorX), (0x05, .shlX), (0x06, .shrX),
   (0x07, .sarX), (0x08, .mulX), (0x09, .mulhuX), (0x0A, .addiX), (0x0B, .liX), (0x0C, .lisX), (0x0D, .scmp),
   (0x0E, .scmpi), (0x0F, .xmmul), (0x10, .xmadd)]

/-- FUNC of class SHORT. -/
def shortFuncs : List (Nat × (PvuWord → Instr)) :=
  [(0x00, .smov), (0x01, .sxor), (0x02, .sand), (0x03, .sor), (0x04, .sadd), (0x05, .sins), (0x06, .sext),
   (0x07, .sbcast)]

/-- FUNC of class LONG. -/
def longFuncs : List (Nat × (PvuWord → Instr)) :=
  [(0x00, .vmov), (0x01, .vadd), (0x02, .vsub), (0x03, .vand), (0x04, .vor), (0x05, .vxor), (0x06, .vnot),
   (0x07, .vshli), (0x08, .vsrli), (0x09, .vbcast), (0x0A, .vmadd), (0x0B, .vmsub), (0x0C, .vmneg), (0x0D, .vmmul),
   (0x0E, .vmmulx), (0x0F, .vcmpeq), (0x10, .vcmpltu), (0x11, .vsel), (0x12, .vperm), (0x13, .vext), (0x14, .vins),
   (0x15, .vred), (0x20, .pand), (0x21, .por), (0x22, .pxor), (0x23, .pnot), (0x24, .pfirst), (0x25, .pcnt)]

/-- FUNC of class MEM. -/
def memFuncs : List (Nat × (PvuWord → Instr)) :=
  [(0x00, .vld), (0x01, .vst), (0x02, .vlds), (0x03, .vsts), (0x04, .vgather), (0x05, .vscatter), (0x06, .vldff),
   (0x07, .vgatherff), (0x08, .sld), (0x09, .sst), (0x0A, .xld), (0x0B, .xst), (0x0C, .vldk), (0x0D, .vldkff),
   (0x0E, .sldk)]

/-- FUNC of class POLY. -/
def polyFuncs : List (Nat × (PvuWord → Instr)) :=
  [(0x00, .ntt), (0x01, .intt), (0x02, .pwmul), (0x03, .pwmac), (0x04, .vcompress), (0x05, .vdecompress),
   (0x06, .vpack), (0x07, .vunpack), (0x08, .vp2r), (0x09, .vdecomp), (0x0A, .vmkhint), (0x0B, .vusehint),
   (0x0C, .vinf), (0x0D, .vcenter)]

/-- FUNC of class KECCAK. -/
def keccakFuncs : List (Nat × (PvuWord → Instr)) :=
  [(0x00, .kinit), (0x01, .kabss), (0x02, .kabsl), (0x03, .kabsx), (0x04, .kfinal), (0x08, .samplentt),
   (0x09, .samplerej), (0x0A, .sampleeta), (0x0B, .samplecbd), (0x0C, .sampleball)]

/-- FUNC of class GADGET. -/
def gadgetFuncs : List (Nat × (PvuWord → Instr)) :=
  [(0x00, .mshare), (0x01, .mrefresh), (0x02, .ma2b), (0x03, .mb2a), (0x04, .mand), (0x05, .mcomp),
   (0x06, .mdecomp), (0x07, .mnorm), (0x08, .meq), (0x09, .msel), (0x0A, .unmask)]

/-- The instructions of a class (R239); the classes 8 to F have none. -/
def classFuncs : Nat → List (Nat × (PvuWord → Instr))
  | 0 => ctrlFuncs
  | 1 => scalarFuncs
  | 2 => shortFuncs
  | 3 => longFuncs
  | 4 => memFuncs
  | 5 => polyFuncs
  | 6 => keccakFuncs
  | 7 => gadgetFuncs
  | _ => []

/-- The PVU instruction that a word spells (R238, R239). -/
def decodePvu (w : Nat) : Option Instr :=
  ((classFuncs (wordBits w 63 60)).find? (fun r => r.1 == wordBits w 59 52)).map (fun r => r.2 (pvuWordOf w))

/-- The fields of a command word (R371). -/
def bneWordOf (w : Nat) : BneWord :=
  { bne := 0, len := BitVec.ofNat 9 (wordBits w 57 49), d := BitVec.ofNat 7 (wordBits w 48 42), a := BitVec.ofNat 7 (wordBits w 41 35),
    b := BitVec.ofNat 7 (wordBits w 34 28), mc := BitVec.ofNat 2 (wordBits w 27 26), rsv := BitVec.ofNat 2 (wordBits w 25 24),
    imm := BitVec.ofNat 24 (wordBits w 23 0) }

/-- The commands in the order of OP 0x00 to 0x10 (R372). -/
def bneCommands : List (BneWord → Instr) :=
  [.bneNop, .ldin, .ldkey, .stout, .setmod, .range, .madd, .msub, .mmul, .msqr, .minv, .mexp, .mrand, .mcopy, .mcswap, .mclr, .bneEnd]

/-- The BNE command that a word spells (R371, R372): an OP that is not in the table spells none. -/
def decodeBne (w : Nat) : Option Instr := (bneCommands[wordBits w 63 58]?).map (fun c => c (bneWordOf w))

/-- The command a word of 64 bits spells. -/
def decodeTableWord (nbits w : Nat) : Option Instr := if nbits = 64 ∧ w < 2 ^ 64 then decodePvu w else none

end Sys2Proof
end

