-- ==== Sys2Proof/Machine/Bytes.lean ====
section
/-! DEFINITION. Byte strings: little-endian fields of records and structures (R12). -/

namespace Sys2Proof.Machine

/-- The low `n` bytes of a number, least significant first. -/
def le : Nat → Nat → List Byte
  | 0, _ => []
  | n + 1, v => BitVec.ofNat 8 v :: le n (v / 256)

/-- The number a byte string spells, least significant byte first. -/
def unLe : List Byte → Nat
  | [] => 0
  | b :: bs => b.toNat + 256 * unLe bs

/-- The number a byte string spells, most significant byte first. -/
def unBe (bs : List Byte) : Nat := bs.foldl (fun a b => a * 256 + b.toNat) 0

/-- The low `n` bytes of a number, most significant first. -/
def be (n v : Nat) : List Byte := (le n v).reverse

/-- `n` zero bytes. -/
def zeros (n : Nat) : List Byte := List.replicate n 0

/-- A byte string cut or padded with zeros to `n` bytes. -/
def fit (n : Nat) (bs : List Byte) : List Byte := (bs ++ zeros n).take n

/-- `n` bytes from offset `o`; bytes past the end read zero. -/
def slice (bs : List Byte) (o n : Nat) : List Byte := fit n (bs.drop o)

/-- The first `k` parts of `n` bytes of a byte string. -/
def parts (n k : Nat) (bs : List Byte) : List (List Byte) := (List.range k).map (fun i => slice bs (n * i) n)

/-- The little-endian field of `n` bytes at offset `o`. -/
def field (bs : List Byte) (o n : Nat) : Nat := unLe (slice bs o n)

/-- Byte-wise exclusive or, to the length of the first string. -/
def xorBytes : List Byte → List Byte → List Byte
  | [], _ => []
  | a :: as, [] => a :: xorBytes as []
  | a :: as, b :: bs => (a ^^^ b) :: xorBytes as bs

/-- A byte string with `v` written at offset `o`. -/
def patchBytes (bs : List Byte) (o : Nat) (v : List Byte) : List Byte :=
  bs.take o ++ v ++ bs.drop (o + v.length)

/-- The 16 bytes of a lane of `n` bits as a number to bits. -/
def bitsOf : Nat → Nat → List Bool
  | 0, _ => []
  | n + 1, v => (v % 2 == 1) :: bitsOf n (v / 2)

/-- The number a bit string spells, bit 0 first. -/
def ofBits : List Bool → Nat
  | [] => 0
  | b :: bs => (if b then 1 else 0) + 2 * ofBits bs

/-- The ceiling of a quotient. -/
def ceilDiv (a b : Nat) : Nat := (a + b - 1) / b

/-- The number of significant bits. -/
def bitLen (n : Nat) : Nat := if n = 0 then 0 else Nat.log2 n + 1

/-- A count that saturates. -/
def satAdd (a b cap : Nat) : Nat := min cap (a + b)

/-- Bit `n` of a 32-bit word. -/
def bit (w : W32) (n : Nat) : Bool := w.getLsbD n

/-- Bits `hi` to `lo` of a 32-bit word as a number. -/
def bits (w : W32) (hi lo : Nat) : Nat := w.toNat / 2 ^ lo % 2 ^ (hi - lo + 1)

/-- A one-bit field. -/
def b2n (b : Bool) : Nat := if b then 1 else 0

/-- Bit `n` set. -/
def bitW (n : Nat) : W32 := BitVec.ofNat 32 (2 ^ n)

/-- Replace the bits of `mask` in `old` by those of `new`. -/
def merge (mask old new : W32) : W32 := (old &&& ~~~mask) ||| (new &&& mask)

end Sys2Proof.Machine
end

