-- ==== Sys2Proof/Config.lean ====
section
/-! DEFINITION. Values the spec leaves open: opaque constants with no body, so nothing depends on what they are.
Each is named in notes/assumptions. A function of a counter gives a fresh value at each position. -/

namespace Sys2Proof.Config

/-- `BLK_VER` and `BLK_CAP1` of a block: "per block" with no value given (R51, R53). -/
opaque blkVer : Nat → W32
opaque blkCap1 : Nat → W32
/-- The 16-bit CRC of a control-fabric access (R611): the spec names no polynomial. -/
opaque crc16 : List Byte → W16
/-- The tamper input that a forced TAMPER event stands for, by the free-value counter (R592, R593). -/
opaque forcedInput : Nat → Nat
/-- The Hash Array core that a forced core fault names, by the free-value counter (R592). -/
opaque forcedCore : Nat → Nat
/-- Output streams: internal DRBG, host DRBG, and the MRG of an engine, byte by position (R205, R428). -/
opaque intDrbg : Nat → Byte
opaque hostDrbg : Nat → Byte
opaque mrg : Nat → Nat → Byte
/-- The key object whose cache copy lies at a byte of the key cache (R560): the spec gives the cache no layout. -/
opaque keyCacheOwner : Nat → W32
/-- The staging word that a scorched input met, by the free-value counter, and the syndrome of a corrected word (R558, R571). -/
opaque stagingWord : Nat → Nat
opaque syndrome : Nat → Nat
/-- The byte of the staging buffer at which a job's input begins (R88): the spec gives the buffer no layout. -/
opaque stagingBase : Nat → Nat
/-- The key object whose record lies at a byte of the DRAM (R558, R564): the spec gives the DRAM tier no layout. -/
opaque dramOwner : Nat → W32
/-- The flash block an object's record lies in, by its serial, and that of a block of the journal's ring (R465, R469). -/
opaque flashBlock : Nat → Nat
opaque ringBlock : Nat → Nat
/-- Live pages of a block that a wear move rewrites, and the time a flash operation keeps FLS busy, by the free-value counter
(R469, R574). -/
opaque livePages : Nat → Nat
opaque flashBusy : Nat → Nat
/-- The PUF value (R449). -/
opaque puf : List Byte
/-- The module serial number, 16 bytes (R640). -/
opaque serial : List Byte

/-- Both ML-KEM shared secrets and the ECDH secret of a link's training (R655), 112 bytes: what this module's 80 drawn bytes and the peer
named by its serial make of them. -/
opaque linkSecret : List Byte → List Byte → List Byte

/-- A word of the ROM of the PVU sequencers or of the BNE sequencers (R495): the ROM microcode is not published. -/
opaque romWord : Bool → Nat → BitVec 192
/-- What a condition on a counter of the datapath answers, by the number of microwords executed (R503): the fields that step those counters
have no published encoding. -/
opaque microCond : Bool → Nat → Nat → Bool
/-- The matrix-cache block that holds a block of a key's set: public key, blocks of the set, number of the block (R213): the spec gives the
cache no layout. -/
opaque cacheBlock : List Byte → Nat → Nat → Nat

/-- What the hash helper of a BNE holds while a run of EdDSA uses it (R366), by the model's counter. -/
opaque helperState : Nat → Nat

/-- The kernel ID of a command's vendor kernel (R234, R403): the spec gives the IDs no numbering. -/
opaque kernelId : Nat → Nat

/-- A key component as `LDKEY` numbers them (R369, R372): type, set, private encoding, index. The spec gives no numbering. -/
opaque keyComponent : Nat → Nat → List Byte → Nat → List Byte
/-- What `SETMOD` computes as R² mod 0, and what `MRAND` writes where there is nothing below m or the random buffer has run
out (R372, R375): context, modulus, random value. -/
opaque squareModZero : Nat → Nat
opaque randomCorner : Nat → Nat → Nat

-- What neither a rule nor the standard of a scheme fixes (log entry 7): free functions of their inputs.

/-- A tree of an HSS key: its identifier and its seed by key seed, level and number; the randomizer of a signature, by leaf too (R342). -/
opaque treeId : List Byte → Nat → Nat → List Byte
opaque treeSeed : List Byte → Nat → Nat → List Byte
opaque otsRandom : List Byte → Nat → Nat → Nat → List Byte
/-- The prefix of the LAMPS construction and the label of a combination (R398). -/
opaque compositePrefix : List Byte
opaque compositeLabel : Nat → List Byte
/-- Bytes of the constant area (R213). -/
opaque constByte : Nat → Byte
/-- The primes that an RSA key generation finds: set, seed (R395, R397). -/
opaque rsaPrimes : Nat → List Byte → Nat × Nat
/-- Candidates that an RSA key generation tests: set, seed. -/
opaque rsaCandidates : Nat → List Byte → Nat
/-- Real cycles of one RSA candidate test (R397 gives expected times only): set. -/
opaque rsaCandidateCycles : Nat → Nat
/-- The contents of the algorithm identifier of a type and set (R454): the spec names no object identifier. -/
opaque algorithmId : Nat → Nat → List Byte
/-- An X9.143 key block (R454): wrapping key, type, set, usage, private and public parts; and its opening, the status of R455 (0 =
accepted) and the private and public parts. -/
opaque x9143Seal : List Byte → Nat → Nat → Nat → List Byte → List Byte → List Byte
opaque x9143Status : List Byte → Nat → Nat → Nat → List Byte → Nat
opaque x9143Priv : List Byte → Nat → Nat → List Byte → List Byte
opaque x9143Pub : List Byte → Nat → Nat → List Byte → List Byte
/-- The bytes in which a function number and a generation count enter W_f's derivation (R449): the spec gives no widths. -/
opaque blobContext : Nat → Nat → List Byte
/-- The private part of a stateful key's KEY section (R548), for which R454 has no format: type, set, private and public encodings; and what
is read from it and what follows it: the private encoding, the length of the public part, the trees (LMS and LM-OTS types and height by
level), RESERVE and CACHE_TREES, which no rule lays out. -/
opaque migPart : Nat → Nat → List Byte → List Byte → List Byte
opaque migPriv : Nat → Nat → List Byte → List Byte
opaque migPubLen : Nat → Nat → List Byte → Nat
opaque migTrees : List Byte → List (Nat × Nat × Nat)
opaque migReserve : List Byte → Nat
opaque migCache : List Byte → Bool
/-- The order in which Treadle looks at the positions of a frame for a reservation (R181): engine, tick. -/
opaque placeRank : Nat → Nat → Nat
/-- Whether a certificate chain and a signature under it verify: chain, signed bytes, signature. -/
opaque chainOk : List Byte → List Byte → List Byte → Bool
/-- Where the search for an unused pattern ID and for an unused offer ID starts (R144, R545), by the model's own counter. -/
opaque patternId : Nat → Nat
opaque offerId : Nat → Nat
/-- Firmware version of `IDENTIFY` bytes 32 to 35 (R137). -/
opaque fwVer : List Byte
/-- The certificate chain of slot 0 and the device key's signature (R545). -/
opaque deviceChain : List Byte
opaque deviceSign : List Byte → List Byte
/-- The two Ermixon public keys of patch images (R512): ML-DSA-87, and HSS with SHA-256 types. -/
opaque vendorMldsa : List Byte
opaque vendorHss : List Byte
/-- ROM version of the sequencer of an engine code (R522: per die). -/
opaque romVer : Nat → Nat
/-- The patch image that stands in flash when the module leaves the factory. -/
opaque factoryImage : List Byte

-- Answers whose contents the spec leaves to the standards it names (log entry on management answers).

/-- Version entries of an MCTP message type, and of a PLDM type with its check sum (R679). -/
opaque mctpVersion : Nat → List Byte
opaque pldmVersion : Nat → List Byte
/-- The PDR repository's information, and its records (R679): none = there is no such record. -/
opaque pdrInfo : List Byte
opaque pdr : Nat → Option (List Byte)
/-- What the power stage answers to a telemetry command, by command and the model's counter; its revision and maker (R698). -/
opaque pmbusRead : Nat → Nat → BitVec 16
opaque pmbusId : Nat → List Byte
/-- The answer to an SPDM request after version selection: version, request code, request, the model's counter (R150). -/
opaque spdmAnswer : Nat → Nat → List Byte → Nat → List Byte
/-- PCIe configuration space (R716): offsets of the SR-IOV and MSI-X capabilities, and the bits that the model does not hold, by
function and offset. -/
opaque sriovCap : Nat
opaque msixCap : Nat
opaque pcieReg : Nat → Nat → W32
/-- What the boundary register captures, bit by the model's counter and position (R683). -/
opaque boundary : Nat → Nat → Bool
/-- Read-out data of regions whose layout the spec does not give, by region, offset and the model's counter (R684). -/
opaque bankData : Nat → Nat → Nat → W64
/-- Occurrences in a tick of the events that the spec does not tie to a step of the table: event and the model's counter. -/
opaque looseEvents : Nat → Nat → Nat

/-- Compressions of a group of the Hash Array that fail their residue check in a tick (R326), by the model's counter: the core within the group,
and to which of the tick's allotments the compression belongs; beyond the last of them, to the dummy compressions (R746). -/
opaque coreFaults : Nat → List (Nat × Nat)

/-- Bytes of one secret of a trace operation, on a PVU or on a BNE (R485). -/
opaque traceSecret : Bool → Nat

/-- Positions of an engine's MRG that its dummy work draws in a tick (R169): engine, tick. -/
opaque dummyDraws : Nat → Nat → Nat

end Sys2Proof.Config
end

