-- ==== Sys2Proof/Machine/EngineState.lean ====
section
/-! DEFINITION. The state of the engines: PVUs (R192 to R236), BNEs (R366 to R403), the Hash Array (R324 to R329),
their sequencers (R495 to R522) and self-tests (R234, R235). -/

namespace Sys2Proof.Machine

/-- A modulus context of a PVU (R197). -/
structure ModCtx where
  valid      : Bool := false
  q          : Nat := 0
  n          : Nat := 0
  incomplete : Bool := false
  omega      : Nat := 0
  deriving DecidableEq, Repr

/-- A share tag (R209): PUBLIC, or share `k` of the group `grp`.
`grp` is the file (0 L, 1 S, 2 X) times 32 plus the group's first register. -/
inductive ShareTag where
  | pub
  | share (k grp : Nat)
  deriving DecidableEq, Repr

/-- The three states of a Keccak unit (R201). -/
inductive KuPhase where
  | idle
  | absorb
  | squeeze
  deriving DecidableEq, Repr

/-- A Keccak unit with its squeeze buffer (R201 to R204). The state and the buffer are held in order + 1 shares. -/
structure KuState where
  phase      : KuPhase := .idle
  fn         : Nat := 0
  order      : Nat := 0
  /-- order + 1 share states of 25 lanes -/
  shares     : List (List W64) := []
  /-- the absorbed bytes of the open block, one list per share -/
  block      : List (List Byte) := []
  /-- the squeeze buffer, head first, one list per share -/
  buf        : List (List Byte) := []
  /-- a share group has been absorbed since KINIT (R260) -/
  hasShare   : Bool := false
  scorched   : Bool := false
  /-- cycle at which the permutations started so far are finished (R244) -/
  freeAt     : Nat := 0
  /-- the squeeze buffer has had no room since the last permutation (R202) -/
  stalled    : Bool := false
  deriving DecidableEq, Repr

/-- The exception state of a PVU (R225). -/
structure ExcState where
  ecause : Nat := 0
  epc    : Nat := 0
  eidx   : Nat := 0
  eaddr  : Nat := 0
  epart  : Bool := false
  deriving DecidableEq, Repr

/-- What the PVU's sequencer is doing (R219 to R222, R229). -/
inductive PvuPhase where
  /-- turnaround or dummy work -/
  | dummy
  /-- a segment or sign-slot position executes -/
  | running
  /-- a pattern's handler executes (R229) -/
  | handler
  deriving DecidableEq, Repr

/-- How the last segment or attempt ended. -/
inductive SegEnd where
  | none
  /-- END (R250); the flag is LAST -/
  | ended (last : Bool)
  /-- ACCEPT or REJECT of a sign-slot attempt (R221) -/
  | attempt (accepted : Bool)
  /-- an exception that was not resumed (R230) -/
  | trapped (cause epc eidx : Nat)
  deriving DecidableEq, Repr

/-- The micro-state of a sequencer (R501, R502, R506): control-store address, micro-stack, LC0 to LC3, the microword that holds the
datapath, and the count of the element counter. -/
structure Micro where
  addr  : Nat := 0
  stack : List Nat := []
  lc    : Vector Nat 4 := Vector.replicate 4 0
  word  : BitVec 192 := 0
  words : Nat := 0
  deriving DecidableEq, Repr

/-- The sequencer of an engine: patch identity, match registers, error counts, micro-trap state (R495, R509, R522). -/
structure Bobbin where
  patchId   : Nat := 0
  seq       : Nat := 0
  matchEn   : Nat := 0
  /-- match registers: index, ROM address, patch RAM offset -/
  matches_  : List (Nat × Nat × Nat) := []
  /-- patch RAM words by offset (microword bits) -/
  patchRam  : KV (BitVec 192) := []
  /-- vendor kernel store: program words by address -/
  kernels   : KV W64 := []
  corr      : Nat := 0
  uncorr    : Nat := 0
  lastCorr  : Option (Bool × Nat) := Option.none
  shadow    : Bool := false
  lastCause : Nat := 0
  excTraps  : Nat := 0
  passes    : Nat := 0
  lastTick  : Nat := 0
  /-- an uncorrectable patch-RAM word waits for MGC's reload (R497) -/
  reloading : Bool := false
  micro   : Micro := {}
  /-- the shadow set of a micro-trap (R506) -/
  saved   : Option Micro := Option.none
  /-- PARK has taken the sequencer to its idle routine, or its routine comes to no DISPATCH (R502) -/
  parked  : Bool := false
  deriving DecidableEq, Repr

/-- One PVU: the architectural state of R192 with tags and marks, the local store, and its control state. -/
structure Pvu where
  l       : Vector (BitVec 8192) 32 := Vector.replicate 32 0
  s       : Vector (BitVec 128) 32 := Vector.replicate 32 0
  x       : Vector W64 32 := Vector.replicate 32 0
  p       : Vector (BitVec 256) 8 := Vector.replicate 8 0
  m       : Vector ModCtx 4 := Vector.replicate 4 {}
  /-- VSTAT bits 9:0 (R249) -/
  ffcount : Nat := 0
  flagEq  : Bool := false
  flagLtu : Bool := false
  flagLt  : Bool := false
  /-- the flags come from scorched data (R232: a branch on them bites) -/
  flagScorch : Bool := false
  exc     : ExcState := {}
  /-- EHANDLER: the handler's address, none without one -/
  ehandler : Option Nat := Option.none
  /-- element from which the resumed instruction goes on (R229) -/
  resumeAt : Nat := 0
  lTag    : Vector ShareTag 32 := Vector.replicate 32 .pub
  sTag    : Vector ShareTag 32 := Vector.replicate 32 .pub
  xTag    : Vector ShareTag 32 := Vector.replicate 32 .pub
  /-- scorch bits: one per 32-bit lane, per 32 bits of S, per X register, per predicate bit (R231) -/
  lScorch : Vector (BitVec 256) 32 := Vector.replicate 32 0
  sScorch : Vector (BitVec 4) 32 := Vector.replicate 32 0
  xScorch : BitVec 32 := 0
  pScorch : Vector (BitVec 256) 8 := Vector.replicate 8 0
  ku      : Vector KuState 2 := Vector.replicate 2 {}
  /-- the local store: address and byte, unlisted bytes zero (R213, R216) -/
  ls      : List Host.Cell := []
  /-- share tag of each 1 KiB block of the job area (R211) -/
  lsTag   : KV ShareTag := []
  /-- 64-bit words of the local store that carry a scorch mark -/
  lsScorch : KV Bool := []
  -- the running segment
  phase   : PvuPhase := .dummy
  pc      : Nat := 0
  progLen : Nat := 0
  retStack : List Nat := []
  segEnd  : SegEnd := .none
  vendor  : Bool := false
  unmaskOk : Bool := false
  order   : Nat := 0
  segIndex : Nat := 0
  lastSeg : Bool := false
  attempt : Nat := 0
  signSlot : Bool := false
  jobId   : Option Nat := Option.none
  /-- job pages of the running job, in allocation order (R213) -/
  jobPages : List Nat := []
  /-- public key and number of the matrix-cache blocks of the job's key (R213) -/
  mcKey   : List Byte := []
  mcBlocks : Nat := 0
  /-- key-path buffer: order + 1 share strings of the job's private key (R23, R209) -/
  keyShares : List (List Byte) := []
  keyScorched : Bool := false
  budget  : Nat := 0
  /-- the key-path buffer: per job, its key shares and whether the key is scorched (R23) -/
  keyBuf  : List (Nat × List (List Byte) × Bool) := []
  /-- job pages that hold or have held a job's data since the zero engine cleared them (R216) -/
  used    : List Nat := []
  /-- handle of the key whose matrix set the job reads, and a scorched word has been loaded from it (R315) -/
  mcHandle : W32 := 0
  mcScorched : Bool := false
  /-- the countermeasure level of the running segment, and of its group of issued instructions the count and the drawn position (R475) -/
  cm      : Nat := 0
  dummyCnt : Nat := 0
  dummyAt : Nat := 0
  -- issue timing (R244): cycles from the segment's booked start
  cyc     : Nat := 0
  lReady  : Vector Nat 32 := Vector.replicate 32 0
  sReady  : Vector Nat 32 := Vector.replicate 32 0
  xReady  : Vector Nat 32 := Vector.replicate 32 0
  pReady  : Vector Nat 8 := Vector.replicate 8 0
  mReady  : Vector Nat 4 := Vector.replicate 4 0
  statReady : Nat := 0
  lastDone : Nat := 0
  -- slot and engine state
  active  : Bool := false
  testing : Bool := false
  /-- the PVU clock is 1.2 GHz (R184) -/
  derated : Bool := false
  /-- the domain is on (R706) -/
  powered : Bool := false
  idleTicks : Nat := 0
  segMode : Nat := 0
  slotTick : Nat := 0
  slotBooked : Nat := 0
  slotNext : Nat := 0
  /-- cycle of the slot at which the next segment is due -/
  slotCyc : Nat := 0
  excLast : W32 := 0
  excPc   : W32 := 0
  mrgStale : Bool := true
  mrgMissed : Nat := 0
  /-- reseeds absorbed so far: the MRG's position (R205) -/
  mrgCount : Nat := 0
  /-- bytes taken from the MRG so far -/
  mrgUsed : Nat := 0
  pin     : Option (W32 × Nat) := Option.none
  pinning : Option W32 := Option.none
  unpinning : Bool := false
  /-- sampling records kept in this tick (R677) -/
  sampled : Nat := 0
  cnt     : Vector Nat 15 := Vector.replicate 15 0
  bob     : Bobbin := {}
  deriving DecidableEq, Repr

/-- The turnaround routine starts the sequencer afresh; PARK holds it until a start (R505). -/
def Bobbin.fresh (b : Bobbin) : Bobbin := { b with micro := {}, saved := none, parked := false }

/-- A BNE's activity (R403). -/
inductive BnePhase where
  | idle
  | between
  | running
  deriving DecidableEq, Repr

/-- One BNE: operand memory, buffers, flags and control state (R366 to R387). -/
structure Bne where
  /-- 128 slots of 16,384 bits (R367) -/
  slots   : Vector (BitVec 16384) 128 := Vector.replicate 128 0
  /-- one scorch bit per operand word (R386) -/
  scorch  : Vector (BitVec 256) 128 := Vector.replicate 128 0
  inBuf   : List Byte := []
  outBuf  : List Byte := []
  inScorched : Bool := false
  randBuf : List Byte := []
  /-- words of the random buffer taken so far by the run -/
  randUsed : Nat := 0
  /-- key components of the job, recombined by LDKEY (R369) -/
  keyParts : List (List Byte) := []
  keyScorched : Bool := false
  rangeFail : Bool := false
  notInvertible : Bool := false
  modulusInvalid : Bool := false
  /-- SETMOD has written the context -/
  ctxLen  : Vector Nat 4 := Vector.replicate 4 0
  phase   : BnePhase := .idle
  jobId   : Option Nat := Option.none
  /-- the command path has ended (END, abort or failure) -/
  pathDone : Bool := false
  /-- real cycles used by the commands of the run (R376) -/
  realCyc : Nat := 0
  w       : Nat := 0
  k       : Nat := 4
  cmdIndex : Nat := 0
  runFn   : Nat := 0
  runKernel : Nat := 0
  /-- word steps of the open group of k, and the position drawn for its dummy step (R377) -/
  stepCnt : Nat := 0
  stepAt  : Nat := 0
  /-- cycle of the plan's time line from which the next run may start (R167) -/
  nextStart : Nat := 0
  active  : Bool := false
  testing : Bool := false
  powered : Bool := false
  idleTicks : Nat := 0
  longThresh : Nat := 0
  ratio   : Nat := 4
  excLast : W32 := 0
  excPc   : Nat := 0
  mrgStale : Bool := true
  mrgMissed : Nat := 0
  mrgCount : Nat := 0
  /-- bytes taken from the MRG so far -/
  mrgUsed : Nat := 0
  /-- a clear of the memories goes on (R383) -/
  zeroing : Bool := false
  zeroOk  : Bool := false
  zeroTick : Nat := 0
  /-- state of the hash helper's cores (R366) -/
  helper  : Nat := 0
  cnt     : Vector Nat 11 := Vector.replicate 11 0
  bob     : Bobbin := {}
  deriving DecidableEq, Repr

/-- The Hash Array: counters per group and per core (R327). -/
structure Hsa where
  active : Bool := false
  idleTicks : Nat := 0
  powered : BitVec 4 := 0
  eq     : Vector Nat 4 := Vector.replicate 4 0
  dummy  : Vector Nat 4 := Vector.replicate 4 0
  jobs   : Vector Nat 4 := Vector.replicate 4 0
  flt    : Vector Nat 64 := Vector.replicate 64 0
  deriving DecidableEq, Repr

/-- The self-test registers of a block (R234, R235). -/
structure TestUnit where
  busy : Bool := false
  done : Bool := false
  pass : Bool := false
  test : Nat := 0
  /-- the TEST field as last written -/
  sel  : Nat := 0
  deriving DecidableEq, Repr

end Sys2Proof.Machine
end

