-- ==== Sys2Proof/Machine/JobState.lean ====
section
/-! DEFINITION. The state of the work queues, their jobs and Treadle's plan (R73 to R190), of the functions (R523 to R554),
and what the module has put out. -/

namespace Sys2Proof.Machine

/-- One thing the module puts out at a port, in plain data. The newest stands first in `State.out`. -/
inductive Output where
  /-- a posted write to host memory of one function: address and bytes (R25, R101) -/
  | hostWrite (fn addr : Nat) (bytes : List Byte)
  /-- one MSI-X message, with the address and data of its table entry (R64) -/
  | msix (fn vector addr data : Nat)
  /-- the data of a register read -/
  | readData (v : W32)
  /-- a frame sent on a Peer Link port (R656): type (from 256 up, a continuation), destination node, payload with its secret fields in
  the clear, and the bytes on the link -/
  | plkFrame (port typ dst : Nat) (payload bytes : List Byte)
  /-- an answer on SMB_MGMT (R679) -/
  | mctp (bytes : List Byte)
  /-- an answer on SMB_PWR (R698) -/
  | pmbus (bytes : List Byte)
  /-- an SPDM answer (R150) -/
  | spdm (bytes : List Byte)
  /-- the answer to a PCIe configuration request; none = Configuration Request Retry Status (R716) -/
  | config (v : Option W32)
  /-- bits shifted out of the test port (R683) -/
  | tdo (bits : List Bool)
  /-- bytes on UART_TXD (R699) -/
  | uart (bytes : List Byte)
  /-- a command sent to a card, or a supply or reset action on its slot (R630, R635, R642) -/
  | card (slot : Nat) (bytes : List Byte)
  | cardPower (slot cls : Nat)
  /-- an FLR reported complete (R538) -/
  | flrDone (fn : Nat)
  /-- a pulse on TICK_OUT (R164) -/
  | tickOut
  deriving DecidableEq, Repr

/-- The host's fields of a 64-byte entry (R77). -/
structure Entry where
  ctl       : W32 := 0
  keyHandle : W32 := 0
  tag       : W64 := 0
  inAddr    : W64 := 0
  inLen     : Nat := 0
  flags     : W32 := 0
  outAddr   : W64 := 0
  outCap    : Nat := 0
  /-- bytes 44 to 63 -/
  params    : List Byte := []
  deriving DecidableEq, Repr

/-- What a job's completion will say (R102). -/
structure Result where
  status   : Nat := 0
  late     : Bool := false
  retried  : Bool := false
  noOutput : Bool := false
  outLen   : Nat := 0
  handle   : W32 := 0
  detail   : W64 := 0
  output   : List Byte := []
  /-- the release or refusal edge, to which TICKS counts however long an ORDERED queue holds the record (R102, R170) -/
  ticksTo  : Option Nat := Option.none
  deriving DecidableEq, Repr

/-- A record of a replay window (R110). -/
structure WinRec where
  tag    : W64
  fp     : List Byte
  done   : Bool
  status : Nat
  cflags : Nat
  outLen : Nat
  handle : W32
  detail : W64
  /-- the original job -/
  job    : Nat
  deriving DecidableEq, Repr

/-- How far a taken entry has come. -/
inductive JobPhase where
  /-- its piece-table and input reads are outstanding (R736) -/
  | fetching
  /-- staged; waiting for admission, under FENCE or another hold (R107, R172) -/
  | staged
  /-- a duplicate that waits for the original (R112) -/
  | duplicate
  /-- admitted and booked, or under execution by MGC or KST -/
  | admitted
  /-- its completion is decided and waits for its release edge or its order (R108, R132) -/
  | decided
  /-- its completion has been written -/
  | written
  deriving DecidableEq, Repr

/-- A taken entry. -/
structure Job where
  fn       : Nat := 0
  /-- local queue index; 64 = the admin queue -/
  q        : Nat := 0
  /-- free-running entry number -/
  num      : Nat := 0
  ver      : Nat := 2
  e        : Entry := {}
  phase    : JobPhase := .fetching
  /-- staging bytes reserved (R88) -/
  staging  : Nat := 0
  /-- presentation edge (R80) -/
  present  : Option Nat := Option.none
  /-- edge at which the entry was taken or the command started -/
  taken    : Nat := 0
  pieces   : List (Nat × Nat) := []
  input    : List Byte := []
  scorched : Bool := false
  /-- the word of the input, in 64-bit words from its start, that carries the mark (R558) -/
  scorchAt : Nat := 0
  fp       : List Byte := []
  /-- the original this duplicate waits for -/
  dupOf    : Option Nat := Option.none
  /-- the window record a DONE replay answers from (R113) -/
  replay   : Option WinRec := Option.none
  result   : Option Result := Option.none
  /-- admission edge and order of admission -/
  admitted : Nat := 0
  admitSeq : Nat := 0
  /-- the edge at which the job is released -/
  relEdge  : Nat := 0
  promise  : Option Nat := Option.none
  order    : Nat := 0
  /-- retries due to computation faults, whether a booking is still sought for the last, and whether any was booked (R103,
  R588, R589); the engine of the first fault -/
  retries  : Nat := 0
  freshRetry : Bool := false
  retried  : Bool := false
  faultEng : Option Nat := Option.none
  /-- source of the last computation fault, for `DETAIL` (R102) -/
  faultSrc : Nat := 0
  /-- what is booked again (R399): none = the whole job, else whether the PVU part is, and how many runs -/
  redo     : Option (Bool × Nat) := Option.none
  /-- the job runs again after a fault or is re-planned for want of randomness -/
  replanDry : Bool := false
  /-- the job waits for a new booking as an order-1 candidate (R171) -/
  rebook   : Bool := false
  /-- why it waits when randomness is missing (R747) -/
  noRand   : Bool := false
  started  : Bool := false
  /-- a key generation's next attempt or candidate waits for its booking (R364, R397) -/
  another  : Bool := false
  squashed : Bool := false
  attempts : Nat := 0
  leaf     : Option Nat := Option.none
  /-- the key object the job has created -/
  created  : Option W32 := Option.none
  /-- the key object held for the job (R445) -/
  heldKey  : Option W32 := Option.none
  /-- the job consumes its EPHEMERAL key (R296) -/
  consumes : Bool := false
  /-- the node a forwarded job was sent to (R658) -/
  forward  : Option Nat := Option.none
  /-- a job of the cluster context: forward ID and port it came from (R659) -/
  cluster  : Option (Nat × Nat) := Option.none
  clusterDeadline : Nat := 0
  /-- a computation fault has failed a segment, attempt or run of the job in this tick (R588) -/
  faulted  : Bool := false
  /-- the job is released once its journal record is durable (R453) -/
  waitsJournal : Bool := false
  /-- the job's fault on an engine, or exception, as the status and detail that end it (R230) -/
  failed   : Option (Nat × Nat) := Option.none
  /-- END with LAST has been executed (R250) -/
  ended    : Bool := false
  /-- a stateful key generation: builds outstanding and ticks taken so far (R341) -/
  buildTicks : Nat := 0
  /-- QUEUE_CANCEL: CANCELLED records so far, and the untaken entries it may still cancel, none once step 5 has ended (R119) -/
  cancelled : Nat := 0
  cancelRest : Option Nat := Option.none
  deriving DecidableEq, Repr

/-- A queue: an I/O queue or a function's admin queue (R73 to R72, R140). -/
structure Queue where
  ring      : Nat := 0
  headAddr  : Nat := 0
  depth     : Nat := 16
  ver       : Nat := 2
  ordered   : Bool := false
  vector    : Nat := 0
  coalCount : Nat := 0
  coalTicks : Nat := 0
  defDeadline : Nat := 0
  sp        : Nat := 0
  head      : Nat := 0
  epoch     : Nat := 0
  /-- the scan is paused under R87 -/
  paused    : Bool := false
  /-- the read of the entry at SP has failed once (R91) -/
  retried   : Bool := false
  /-- a doorbell arrived that causes one further scan (R89), or was held (R119) -/
  rescan    : Bool := false
  /-- a scan is running: more reads are outstanding (R86) -/
  scanning  : Bool := false
  /-- QE takes nothing: the queue is being cancelled, destroyed, quiesced or frozen -/
  stopped   : Bool := false
  /-- untaken entry copies: slot and image (R92, R94) -/
  cache     : List (Nat × List Byte) := []
  /-- entry numbers whose reads have been issued and have not returned, in the order of issue (R91) -/
  want      : List Nat := []
  window    : List WinRec := []
  /-- completions since the vector's last message, and the edge of the oldest (R69) -/
  unsent    : Nat := 0
  oldest    : Option Nat := Option.none
  irqDue    : Bool := false
  deriving DecidableEq, Repr

/-- What a booking is for. -/
inductive BookKind where
  /-- a segment of a PVU job; `part` of `parts` -/
  | segment (part parts : Nat)
  /-- a segment booked alone in its slot (R356) -/
  | whole (part parts : Nat)
  /-- a verification that reads the key's cached verify set (R311) -/
  | cached (handle : W32)
  /-- a segment of an encapsulation to a pinned key, or one that streams key bytes from the DRAM tier (R358, R359) -/
  | pinned
  | stream (bytes part parts : Nat)
  /-- a whole slot for a sign queue (R175): parameter set, parts of an attempt, part positions -/
  | signSlot (pset parts k : Nat)
  /-- a matrix fill: key handle, first block, number of blocks, verify set (R312, R313) -/
  | fill (handle : W32) (verify : Bool) (blocks : Nat)
  /-- a BNE run with its dummy ratio -/
  | run (k : Nat)
  /-- Hash Array equivalents -/
  | hsa
  /-- an assessment slot (R483) -/
  | assess
  deriving DecidableEq, Repr

/-- One booking of the plan (R165). `eng`: 0 to 15 PVU, 16 to 23 BNE, 24 to 27 Hash Array group. -/
structure Booking where
  job    : Option Nat
  eng    : Nat
  tick   : Nat
  kind   : BookKind
  cycles : Nat
  /-- start of a BNE interval in BNE cycles of the plan's time line (R167) -/
  start  : Nat
  order  : Nat
  /-- the countermeasure level with which it was booked (R478) -/
  cm     : Nat := 0
  deriving DecidableEq, Repr

/-- A sign queue (R175, R309, R478): one per PVU, parameter set, order, number of parts and budget factor. -/
structure SignQueue where
  pvu    : Nat
  pset   : Nat
  order  : Nat
  parts  : Nat
  part   : Nat
  /-- the countermeasure level whose factor its positions have (R478) -/
  cm     : Nat := 0
  /-- live chains, oldest first: job and the first tick whose positions may serve it (R313) -/
  chains : List (Nat × Nat)
  /-- part positions already run of an attempt, and the chain whose attempt it is -/
  done   : Nat
  doneBy : Nat := 0
  deriving DecidableEq, Repr

/-- A mailbox (R535, R536). -/
structure Mailbox where
  data : List Byte := List.replicate 256 0
  full : Bool := false
  err  : Nat := 0
  /-- last sequence number: of the up box accepted, of the down box written -/
  seq  : Nat := 0
  deriving DecidableEq, Repr

/-- A record of an instance event log (R541). -/
structure EventRec where
  seq    : Nat
  tick   : Nat
  etype  : Nat
  committed : Bool
  queue  : Nat
  entry  : Nat
  tag    : W64
  opcode : Nat
  status : Nat
  handle : W32
  detail : W64
  deriving DecidableEq, Repr

/-- A dirty-page log (R552): range, pages set, and the OUTSIDE flag. -/
structure DirtyLog where
  base    : Nat
  length  : Nat
  pages   : List Nat
  outside : Bool
  deriving DecidableEq, Repr

/-- An offer of a migration destination (R545). -/
structure Offer where
  id    : Nat
  nonce : List Byte
  /-- the seeds of the ephemeral ML-KEM-1024 and P-384 key pairs -/
  kemSeed : List Byte
  ecSeed  : List Byte
  deriving DecidableEq, Repr

/-- A migration being saved or restored: blob version, offer, the key K, its chunks and the body's plain text (R546 to R549). -/
structure Migration where
  version : Nat
  offerId : Nat
  key     : List Byte
  chunks  : Nat
  body    : List Byte
  source  : List Byte
  deriving DecidableEq, Repr

/-- Sampling by one function (R675). -/
structure Sampling where
  ring     : Nat
  size     : Nat
  interval : Nat
  seq      : Nat
  stopping : Bool
  /-- instructions issued since the last capture, by PVU -/
  counts   : KV Nat := []
  /-- captured records that wait for the release edge -/
  waiting  : List (List Byte)
  deriving DecidableEq, Repr

/-- A view of the Digest Service (R408 to R419). -/
structure View where
  /-- 0 CLOSED, 1 IDLE, 2 ABSORB, 3 FINALISING, 4 DONE -/
  state   : Nat := 0
  ctx     : Nat := 0
  cfg     : W32 := 0
  len     : Nat := 0
  /-- configuration and length read at START or restored -/
  alg     : Nat := 0
  keyed   : Bool := false
  kslot   : Nat := 0
  outLen  : Nat := 0
  total   : Nat := 0
  count   : Nat := 0
  excess  : Bool := false
  overrun : Bool := false
  busy    : Bool := false
  early   : Bool := false
  err     : Nat := 0
  fault   : Bool := false
  /-- chaining value or Keccak state, and for HMAC the state after K ⊕ opad -/
  chain   : List W64 := []
  outer   : List W64 := []
  /-- the input buffer, and the block being compressed -/
  buf     : List Byte := []
  work    : List Byte := []
  /-- the error that FINAL found (R414) -/
  finErr  : Nat := 0
  result  : List Byte := []
  deriving DecidableEq, Repr

/-- A function's Digest Service window (R405). -/
structure DgsWindow where
  views   : Vector View 8 := Vector.replicate 8 {}
  blob    : List Byte := List.replicate 256 0
  kresult : W32 := 0
  /-- the handle whose load is outstanding (R416) -/
  loading : Option W32 := Option.none
  deriving DecidableEq, Repr

/-- A function's RNG window (R431). -/
structure RngWindow where
  fifo  : List Byte := []
  err   : Bool := false
  notSeeded : Bool := false
  empty : Nat := 0
  deriving DecidableEq, Repr

/-- One function: the physical function (0) or an instance (R523 to R552). -/
structure Func where
  /-- INST_STATE.STATE (R523) -/
  state     : Nat := 0
  gen       : Nat := 0
  vectors   : Nat := 1
  /-- MSI-X table size in force (R64) -/
  tableSize : Nat := 1
  ioqLimit  : Nat := 0
  dgsCtx    : Nat := 1
  dgsSlots  : Nat := 2
  keyLimit  : Nat := 0
  pvuSlots  : Nat := 0
  bneTicks  : Nat := 0
  pinAllow  : Nat := 0
  perm      : Nat := 0
  takenLimit : Nat := 4096
  /-- reserved positions per frame: engine and tick of the frame (R181) -/
  reserved  : List (Nat × Nat) := []
  aqCfg     : W32 := 0x00020000
  aqBase    : Nat := 0
  aqHw      : Nat := 0
  aqErr     : Bool := false
  aqEnabled : Bool := false
  events    : List EventRec := []
  evSeq     : Nat := 0
  offer     : Option Offer := Option.none
  saving    : Option Migration := Option.none
  restoring : Option Migration := Option.none
  exported  : Bool := false
  chunk     : Nat := 0
  dirty     : Option DirtyLog := Option.none
  quiesceEdge : Nat := 0
  up        : Mailbox := {}
  dn        : Mailbox := {}
  mbxVer    : Nat := 2
  /-- SET_VERSION waits for the exchange in progress: the version and the admin job (R139) -/
  mbxNext   : Option (Nat × Nat) := Option.none
  messages  : List (List Byte) := []
  /-- the module's message was the last to be sent (R537: turns are taken) -/
  lastModule : Bool := false
  dgs       : DgsWindow := {}
  rng       : RngWindow := {}
  sampling  : Option Sampling := Option.none
  /-- the command that waits for the drain or the reset, and for a reset the edge e1 and what follows it -/
  drainJob  : Option Nat := Option.none
  resetEdge : Option Nat := Option.none
  resetTo   : Nat := 2
  resetDestroy : Bool := false
  resetFlr  : Bool := false
  /-- Bus Master Enable, and the function mask of the MSI-X capability (PRESUMED reset values: PCIe 5.0, log entry 51) -/
  busMaster : Bool := false
  fnMask    : Bool := false
  /-- masked and pending vectors of the MSI-X table (R68) -/
  maskedVec : List Nat := List.range 64
  pendingVec : List Nat := []
  deriving DecidableEq, Repr

/-- A loaded pattern (R274 to R276). -/
structure Pattern where
  fn        : Nat
  id        : Nat
  container : List Byte
  digest    : List Byte
  /-- unloading: the admin job that waits (R145) -/
  unloading : Option Nat
  deriving DecidableEq, Repr

/-- A pending build of one tree of a stateful key (R340): its key, level and number there, the equivalents or permutations left, and
the bytes it takes in the tree cache (R339). -/
structure TreeBuild where
  key   : W32
  level : Nat
  tree  : Nat
  left  : Nat
  bytes : Nat
  deriving DecidableEq, Repr

/-- Treadle (R158 to R190). -/
structure Treadle where
  /-- TRD_TICKCFG as last written -/
  cfg      : W32 := 0x14
  period   : Nat := 20
  /-- the period of the tick in progress, when PERIOD_APPLIED has set that of the next (R159) -/
  lastPeriod : Option Nat := Option.none
  changing : Bool := false
  /-- a period change was requested and takes effect at the next edge (R159) -/
  request  : Bool := false
  source   : Nat := 0
  locked   : Bool := false
  goodIntervals : Nat := 0
  tickInSeen : Bool := false
  /-- the next rising edge is awaited (R163) -/
  tickInDue : Bool := false
  /-- edges since the last TICK_IN rising edge -/
  tickInAge : Nat := 0
  phase    : Int := 0
  cfgErr   : Bool := false
  /-- number of the most recent edge (R22) -/
  edge     : Nat := 0
  ready    : Bool := false
  stage    : Nat := 0
  plan     : List Booking := []
  signQ    : List SignQueue := []
  /-- block sets of the matrix caches: PVU, handle, verify set, blocks, edge of last use (R310, R314) -/
  sets     : List (Nat × W32 × Bool × Nat × Nat) := []
  /-- PVU pages of admitted jobs (R214): job, PVU, first and last tick held, and the pages -/
  pages    : List (Nat × Nat × Nat × Nat × List Nat) := []
  admSeq   : Nat := 0
  /-- queue served first at the previous edge (R171) -/
  rrLast   : Nat := 0
  admitted : Nat := 0
  refused  : Nat := 0
  late     : Nat := 0
  retry    : Nat := 0
  classAdm : Vector Nat 4 := Vector.replicate 4 0
  classRef : Vector Nat 4 := Vector.replicate 4 0
  histCfg  : W32 := 0
  hist     : Vector Nat 24 := Vector.replicate 24 0
  /-- tree builds not finished, oldest first (R340) -/
  builds   : List TreeBuild := []
  /-- engines Treadle books nothing new on: patch turns, pinning (R517, R361) -/
  noBook   : List Nat := []
  /-- edges since READY at which a retirement takes effect: engine codes (R577) -/
  retiring : List Nat := []
  returning : List Nat := []
  deriving DecidableEq, Repr

end Sys2Proof.Machine
end

