-- ==== Sys2Proof/Machine/HearthState.lean ====
section
/-! DEFINITION. The common page of every block (R51 to R63) and the fault collector Hearth (R576 to R601). -/

namespace Sys2Proof.Machine

/-- The common page header of one block or instance page (R51 to R59). -/
structure Blk where
  lock      : Bool := false
  evtEn     : Bool := false
  irqEn     : Bool := false
  /-- latched edge causes (R61) -/
  irqEdge   : W32 := 0
  irqMask   : W32 := 0xFFFFFFFF
  /-- the block's interrupt request as HIF last saw it (R65) -/
  request   : Bool := false
  fltEvents : Nat := 0
  fltLast   : Nat := 0
  corrIrq   : Bool := false
  evtSel    : Vector W32 8 := Vector.replicate 8 0
  seamErr   : Bool := false
  seamOvf   : Bool := false
  seamCount : Nat := 0
  seamSender : Nat := 0
  scratch   : W32 := 0
  deriving DecidableEq, Repr

/-- What Hearth keeps of one source (R579 to R582, R600). -/
structure SrcRec where
  /-- times in microseconds of the events that still count toward N, newest first -/
  times   : List Nat := []
  events  : Nat := 0
  lastClass : Nat := 0
  /-- latched and unacknowledged, at this effective class -/
  latched : Option Nat := Option.none
  /-- N and W as the manager has set them (R585); W in 10 ms units -/
  n       : Option Nat := Option.none
  w       : Option Nat := Option.none
  deriving DecidableEq, Repr

/-- A fault-log record (R584). -/
structure FltRec where
  seq    : Nat
  tick   : Nat
  source : Nat
  cls    : Nat
  ecls   : Nat
  flags  : Nat
  fn     : Nat
  detail : Nat
  tag    : W64
  queue  : Nat
  status : Nat
  deriving DecidableEq, Repr

/-- The first-error latch (R583). -/
structure FirstError where
  source : Nat
  cls    : Nat
  tick   : Nat
  detail : Nat
  deriving DecidableEq, Repr

/-- Hearth. -/
structure Hearth where
  /-- LATCH_MIN and CORR_LOG as written (R600) -/
  cfg      : W32 := 5
  srcSel   : Nat := 0
  src      : KV SrcRec := []
  /-- event times of the computation count of engine e (R580), and its total -/
  engTimes : Vector (List Nat) 24 := Vector.replicate 24 []
  engTotal : Vector Nat 24 := Vector.replicate 24 0
  /-- event times per Hash Array core (R585) -/
  coreTimes : KV (List Nat) := []
  /-- event times per memory region (R585) -/
  regionTimes : KV (List Nat) := []
  first    : Option FirstError := Option.none
  overflow : Bool := false
  halt     : Option (Nat × Nat) := Option.none
  /-- its source lies in the completion path (R594, R595) -/
  haltPath : Bool := false
  /-- the last 8,192 records, newest first -/
  log      : List FltRec := []
  logSeq   : Nat := 0
  /-- `HRT_RECENT`: event SEQ mod 32 -/
  recent   : KV W32 := []
  classCnt : Vector Nat 5 := Vector.replicate 5 0
  /-- records not made since the last LOG_LOST record, and a failed flash-ring write (R744) -/
  lost     : Nat := 0
  ringFail : Bool := false
  /-- a live drill: ZEROIZE_OK and seconds left (R593) -/
  drill    : Option (Bool × Nat) := Option.none
  glowA    : Bool := false
  glowB    : Bool := false
  /-- MGC has written `HRT_BEAT` within 1.5 ms; an edge came within 1 ms (R596) -/
  beatOk   : Bool := false
  edgeOk   : Bool := false
  /-- sources whose SEVERE response is in force (R578) and the block codes of their domains -/
  severe   : List (Nat × List Nat) := []
  /-- channels retired, other than those the Fireguard records: source IDs with details -/
  retired  : List (Nat × Nat) := []
  /-- an engine under the MAINTENANCE restore test (R591) -/
  restoring : Option Nat := Option.none
  deriving DecidableEq, Repr

end Sys2Proof.Machine
end

