-- ==== Sys2Proof/Machine/KeyState.lean ====
section
/-! DEFINITION. The state of the key store KST (R438 to R473): key objects, stateful keys (R336 to R353) and the
journal (R465 to R468). -/

namespace Sys2Proof.Machine

/-- One level of a stateful key's trees (R339, R340). -/
structure TreeLevel where
  /-- the LMS and LM-OTS types, or the XMSS OID and layer -/
  lms      : Nat := 0
  ots      : Nat := 0
  height   : Nat := 0
  /-- index of the current tree at this level -/
  cur      : Nat := 0
  curBuilt : Bool := false
  nextBuilt : Bool := false
  prevHeld : Bool := false
  deriving DecidableEq, Repr

/-- What KST keeps of a stateful key (R343). -/
structure Stateful where
  /-- the next leaf to assign -/
  next    : Nat := 0
  /-- the durable reserved end E -/
  durable : Nat := 0
  /-- E′: E raised by every issued reservation -/
  issued  : Nat := 0
  keyEnd  : Nat := 0
  reserve : Nat := 0
  cacheTrees : Bool := false
  /-- without CACHE_TREES: the leaf at which the traversal state stands (R338) -/
  traversal : Option Nat := none
  levels  : List TreeLevel := []
  /-- assignment has stopped: the key has been saved for migration (R352) -/
  stopped : Bool := false
  /-- grants held by workers: node, first leaf, end (R353) -/
  grants  : List (Nat × Nat × Nat) := []
  /-- the values are those of a grant; the grants above the current one -/
  worker  : Bool := false
  more    : List (Nat × Nat) := []
  /-- a grant has been asked for and has not arrived -/
  asked   : Bool := false
  deriving DecidableEq, Repr

/-- A key object (R441, R444, R459, R460). -/
structure KeyObj where
  typ     : Nat := 0
  pset    : Nat := 0
  order   : Nat := 0
  usage   : W32 := 0
  /-- private and public encodings; the private bytes are held as order + 1 shares (R444, R448) -/
  priv    : List Byte := []
  pub     : List Byte := []
  pair    : Bool := false
  publicOnly : Bool := false
  ephemeral : Bool := false
  consumed : Bool := false
  exported : Bool := false
  damaged : Bool := false
  /-- the cache copy carries a scorch mark (R560, R564) -/
  scorched : Bool := false
  /-- the record in the DRAM tier, and the one in flash, fail their tags (R473, R569, R740) -/
  dramBad  : Bool := false
  flashBad : Bool := false
  /-- pattern digests with their UNMASK grants -/
  bindings : List (List Byte × Bool) := []
  created : Nat := 0
  serial  : Nat := 0
  inCache : Bool := false
  inDram  : Bool := false
  inFlash : Bool := false
  /-- jobs that hold the key (R445) -/
  holders : List Nat := []
  lastUse : Nat := 0
  /-- deleted at its admission edge, kept for the jobs admitted before it (R461) -/
  deleted : Bool := false
  st      : Option Stateful := Option.none
  /-- nodes that have acknowledged a replica (R661) -/
  replicas : List Nat := []
  deriving DecidableEq, Repr

/-- A journal record (R467) and the job that waits for it. -/
structure JrnRec where
  typ    : Nat
  handle : W32
  a      : Nat
  b      : Nat
  /-- UPDATE: the object before the change, which stands again when the record never becomes durable -/
  obj    : Option KeyObj
  /-- the job that is released when the record is durable -/
  job    : Option Nat
  /-- the edge of issue -/
  issued : Nat
  /-- GRANT: the worker -/
  node   : Nat := 0
  deriving DecidableEq, Repr

/-- A programmed page of the journal (R466): sequence number, tick of programming, sequence number of the checkpoint then in force, records. -/
structure JrnPage where
  seq  : Nat
  tick : Nat
  ckpt : Nat
  recs : List JrnRec
  deriving DecidableEq, Repr

/-- KST. -/
structure Kst where
  /-- objects by handle -/
  objs    : KV KeyObj := []
  /-- index assigned last, by domain (R440) -/
  lastIdx : KV Nat := []
  nextSerial : Nat := 0
  /-- MK is held; its derivation inputs are MS and the PUF value (R449) -/
  mkHeld  : Bool := false
  /-- K_JRN is held (R614) -/
  jrnHeld : Bool := false
  pufOk   : Bool := false
  replayDone : Bool := false
  dramGib : Nat := 4
  domSel  : Nat := 0
  /-- records issued and not programmed, oldest first; the records of the page being programmed -/
  waiting : List JrnRec := []
  page    : List JrnRec := []
  programming : Bool := false
  /-- the tick in which that page's program started -/
  pageTick : Nat := 0
  /-- records of programmed pages whose effect comes at the next edge (R343) -/
  settled : List JrnRec := []
  /-- commit records of a power warning wait for a program that has started (R349) -/
  commitDue : Bool := false
  /-- pages programmed since the checkpoint, newest first -/
  durable : List JrnPage := []
  pageSeq : Nat := 0
  ckptSeq : Nat := 0
  sinceCkpt : Nat := 0
  /-- serials whose flash block waits for erasure (R462) -/
  erase   : List Nat := []
  /-- cleanup that waits for the last release of a deleted key (R462) -/
  cleanup : List W32 := []
  /-- erase counts of flash blocks, a block not listed having none, and pages programmed in the device's life (R469) -/
  wear    : KV Nat := []
  written : Nat := 0
  /-- WEAR_HIGH has been fired (R473) -/
  wearSaid : Bool := false
  /-- leaves that the allocator has assigned at the edge (R30, R338) -/
  leaves  : Nat := 0
  cnt     : Vector Nat 32 := Vector.replicate 32 0
  deriving DecidableEq, Repr

end Sys2Proof.Machine
end

