-- ==== Sys2Proof/Machine/UnitState.lean ====
section
/-! DEFINITION. The state of the blocks around the engines: Digest Service pools (R405 to R421), entropy (R422 to R437),
Leakage Assessor (R474 to R494), memories and flash (R555 to R575), tamper envelope (R602 to R628), card slots
(R629 to R649), Peer Link (R650 to R668), performance unit (R669 to R687), power and lifecycle (R688 to R734). -/

namespace Sys2Proof.Machine

/-- A keyed slot of the Digest Service (R416). -/
structure DgsSlot where
  fn     : Nat
  alg    : Nat
  handle : W32
  /-- the states after K ⊕ ipad and K ⊕ opad -/
  inner  : List W64
  outer  : List W64
  deriving DecidableEq, Repr

/-- The Digest Service pools (R406, R420). -/
structure Dgs where
  /-- context c: owning function and view -/
  ctx    : KV (Nat × Nat) := []
  slots  : KV DgsSlot := []
  blocks : Nat := 0
  errors : Nat := 0
  deriving DecidableEq, Repr

/-- The state of an entropy source (`ENT_SRCn_STAT.STATE`). -/
inductive SrcState where
  | startup
  | inService
  | retired
  | raw
  deriving DecidableEq, Repr

/-- An entropy source (R422 to R427). -/
structure EntSource where
  state    : SrcState := .startup
  rctFails : Nat := 0
  aptFails : Nat := 0
  /-- conditioned blocks made since the last calibration and not yet drawn (R424) -/
  fresh    : Nat := 0
  /-- conditioned blocks in the pool -/
  blocks   : Nat := 0
  /-- runs of the start-up test that have failed (R427) -/
  startFails : Nat := 0
  deriving DecidableEq, Repr

/-- The state of a DRBG (`ENT_INT_DRBG.STATE`). -/
inductive DrbgState where
  | uninstantiated
  | seeded
  | stopped
  deriving DecidableEq, Repr

/-- A DRBG: state, requests left before the reseed limit, and the position of its output stream (R428, R429). -/
structure Drbg where
  state   : DrbgState := .uninstantiated
  left    : Nat := 0
  /-- requests served so far: the position of the free output stream -/
  pos     : Nat := 0
  reseeds : Nat := 0
  deriving DecidableEq, Repr

/-- ENT. -/
structure Ent where
  sources : Vector EntSource 8 := Vector.replicate 8 {}
  startupDone : Bool := false
  int     : Drbg := {}
  host    : Drbg := {}
  hostEn  : Bool := true
  made    : Nat := 0
  rawEn   : Bool := false
  rawSrc  : Nat := 0
  rawBits : W32 := 0
  /-- bytes of the 64 KiB reserve in hand (R429) -/
  reserve : Nat := 0
  /-- SEEDED has been raised since reset -/
  bothSeeded : Bool := false
  deriving DecidableEq, Repr

/-- What LKA keeps of one engine (R486 to R493). -/
structure LkaEngine where
  /-- assessed level and minimum order as LKA uses them; the Fireguard holds the assessed values -/
  cm       : Nat := 0
  order    : Nat := 1
  verdict  : Nat := 0
  provisional : Bool := false
  /-- level and order before a provisional step -/
  previous : Nat × Nat := (0, 1)
  second   : Bool := false
  point    : Nat := 0
  maxT     : Nat := 0
  running  : Bool := false
  confirm  : Bool := false
  slots    : Nat := 0
  fixed    : Nat := 0
  random   : Nat := 0
  sensorFail : Bool := false
  /-- level and order that take effect at the next admission edge (R478, R489) -/
  next     : Option (Nat × Nat) := Option.none
  /-- the engine is to be retired at the next admission edge (R489) -/
  exhaust  : Bool := false
  deriving DecidableEq, Repr

/-- LKA. -/
structure Lka where
  engines    : Vector LkaEngine 24 := Vector.replicate 24 {}
  en         : Bool := true
  floorCm    : Nat := 0
  floorOrder : Nat := 1
  /-- the engine of the last slot -/
  last       : Nat := 0
  /-- the engine assessed next and the ticks until its slot -/
  nextEng    : Nat := 0
  nextTicks  : Nat := 0
  cnt        : Vector Nat 8 := Vector.replicate 8 0
  deriving DecidableEq, Repr

/-- A row under watch: region, row and the seconds of its corrections (R565). -/
structure RowTrack where
  region : Nat
  row    : Nat
  times  : List Nat
  deriving DecidableEq, Repr

/-- MEM (R555 to R573). -/
structure Mem where
  state    : Nat := 0
  trained  : Bool := false
  darnEn   : Bool := true
  late     : Bool := false
  hours    : Nat := 24
  count    : Nat := 2
  /-- spares left by region; unlisted = the number fitted (R567) -/
  spares   : KV Nat := []
  ueLast   : Option (Nat × Nat) := Option.none
  ueAddr   : Nat := 0
  ceAddr   : Nat := 0
  ceRegion : Nat := 0
  ceSynd   : Nat := 0
  passMs   : Nat × Nat × Nat := (0, 0, 0)
  injKind  : Nat := 0
  injRegion : Nat := 0
  injAddrLo : W32 := 0
  injAddrHi : W32 := 0
  injArmed : Bool := false
  /-- words with an injected error: region, 64-bit word, single or double bit (R572) -/
  injected : List (Nat × Nat × Bool) := []
  ptr      : Nat := 0
  retire   : KV W32 := []
  ce       : KV Nat := []
  rows     : List RowTrack := []
  /-- rows and pages due for copying to a spare (R565, R566) -/
  due      : List (Nat × Nat × Bool) := []
  /-- pages and macros removed (R567) -/
  removed  : List (Nat × Nat) := []
  cnt      : Vector Nat 16 := Vector.replicate 16 0
  deriving DecidableEq, Repr

/-- FLS (R569, R574, R575). -/
structure Fls where
  state    : Nat := 0
  good     : Nat := 4096
  spare    : Nat := 64
  lastFail : Option (Nat × Nat) := Option.none
  cnt      : Vector Nat 16 := Vector.replicate 16 0
  deriving DecidableEq, Repr

/-- An evidence record of the Fireguard (R623). -/
structure Evidence where
  seq    : Nat
  rtc    : Nat
  tick   : Nat
  input  : Nat
  response : Nat
  eflags : Nat
  meas   : Nat
  deriving DecidableEq, Repr

/-- What the Fireguard and the flash keep across reset and power loss (R604, R622, R627, R639, R655, R724, R725). -/
structure Held where
  /-- MS: the value, none when absent or erased -/
  ms        : Option (List Byte) := Option.none
  stickyLock : Bool := false
  zeroized  : Bool := false
  /-- `FGD_STATE` valid: the check word of R725 holds -/
  valid     : Bool := true
  /-- the state has been lost since the last power-up (R621, R726) -/
  lost      : Bool := false
  rtc       : Nat := 0
  vbatLow   : Bool := false
  vbatMv    : Nat := 3000
  sticky    : W64 := 0
  evidence  : List Evidence := []
  evidCnt   : Nat := 0
  /-- evidence records in the flash ring, newest first, and those not yet copied -/
  evidRing  : List Evidence := []
  evidWait  : List Evidence := []
  patchCnt  : Nat := 0
  retired   : BitVec 24 := 0
  hsaRetired : W64 := 0
  /-- assessed level and minimum order by engine (R480) -/
  lka       : Vector (Nat × Nat) 24 := Vector.replicate 24 (0, 1)
  /-- RTC of the last alarm of group k -/
  last      : KV Nat := []
  -- tamper configuration (R604, R624)
  caseCfg   : W32 := 0
  envCfg    : W32 := 0x8BF
  lightThresh : Nat := 0
  loopCfg   : Vector W32 48 := Vector.replicate 48 0
  -- lifecycle (R724)
  life      : Nat := 1
  prevLife  : Nat := 0
  /-- flash records the exit from MANUFACTURE and the entry into DECOMMISSIONED -/
  leftManufacture : Bool := false
  decommissioned  : Bool := false
  -- custodian table (R639)
  committed : Bool := false
  setId     : W64 := 0
  quorumDef : W32 := 0
  custodians : List (List Byte) := []
  /-- the Shamir commitment of the set in force is over this MS -/
  allow     : KV (List Byte) := []
  /-- the fault ring in flash, newest first (R584) -/
  faultRing : List FltRec := []
  /-- generation counts by function, so that none returns (R418) -/
  gens      : KV Nat := []
  /-- the limits of the physical function that `INSTANCE_MODIFY` has set, as a descriptor; empty = the factory's (R530) -/
  pfLimits  : List Byte := []
  deriving DecidableEq, Repr

/-- The on-die tamper block and what it senses (R605 to R618, R624). -/
structure Tmp where
  /-- inputs in alarm now -/
  active    : W64 := 0
  /-- 0 none, 1 HALT, 2 LOCK, 3 ZEROIZED -/
  response  : Nat := 0
  /-- admission stays stopped until the next admission edge after release -/
  resuming  : Bool := false
  envStat   : BitVec 8 := 0
  selvTrace : BitVec 8 := 0
  seamKey   : Nat := 0
  seamFabric : Nat := 0
  /-- the sequence number that the next beat or share word of a link bears (R611): path, sender and receiver -/
  seamSeq   : KV Nat := []
  disagree  : BitVec 4 := 0
  loopMeas  : Vector Nat 48 := Vector.replicate 48 0
  caseLevel : BitVec 8 := 0
  vin       : Nat := 0
  clk       : Int := 0
  temp      : Int := 0
  lightLevel : Nat := 0x100
  deriving DecidableEq, Repr

/-- A card slot (R629 to R636, R648). -/
structure CardSlot where
  cfg     : W32 := 0x83
  present : Bool := false
  active  : Bool := false
  busy    : Bool := false
  claimed : Bool := false
  cls     : Nat := 0
  t1      : Bool := false
  inverse : Bool := false
  clk     : Nat := 0
  err     : Nat := 0
  fi      : Nat := 0
  di      : Nat := 0
  ifsc    : Nat := 0
  bwi     : Nat := 0
  cwi     : Nat := 0
  guard_  : Nat := 0
  atrLen  : Nat := 0
  /-- class under trial: 0 none, 1 A, 2 B, 3 C -/
  trial   : Nat := 0
  /-- an ATR is awaited; a PPS answer is awaited with what was proposed -/
  waitAtr : Bool := false
  waitPps : Option (List Byte) := Option.none
  noPps   : Bool := false
  /-- the slot is disabled until reset (R649) -/
  disabled : Bool := false
  deriving DecidableEq, Repr

/-- A quorum session (R643). -/
structure Session where
  purpose : Nat
  /-- 1 COLLECTING, 2 OPEN, 3 WRITING -/
  qstate  : Nat
  counted : List (List Byte)
  shares  : List (Nat × List Byte)
  needed  : Nat
  /-- microsecond of the OPEN; the session times out 600 s later -/
  opened  : Nat
  minutes : Nat
  zeroizeOk : Bool
  /-- BACKUP: new set, new table, definition, records committed and the draw of the polynomials (R644) -/
  setId   : W64
  table   : List (List Byte)
  defn    : W32
  writtenTo : List (Nat × List Byte)
  draw    : Nat
  deriving DecidableEq, Repr

/-- THM. -/
structure Thm where
  slots    : Vector CardSlot 6 := Vector.replicate 6 {}
  passEn   : Bool := true
  quorumDef : Option W32 := Option.none
  /-- command bytes written, exchange in progress, result -/
  cmd      : List Byte := []
  exch     : Option Nat := Option.none
  resp     : List Byte := []
  readPos  : Nat := 0
  apduDone : Bool := false
  apduStatus : Nat := 0
  session  : Option Session := Option.none
  resultDone : Bool := false
  resultStatus : Nat := 0
  detailSw : Nat := 0
  detailSlot : Nat := 0
  cnt      : Vector Nat 11 := Vector.replicate 11 0
  /-- purpose whose action takes effect at the next admission edge (R646) -/
  action   : Option Nat := Option.none
  deriving DecidableEq, Repr

/-- A Peer Link port (R653 to R656, R666). -/
structure Port where
  en       : Bool := true
  standby  : Bool := false
  /-- 0 DOWN, 1 TRAINING, 2 UP, 3 REFUSED, 4 RETIRED -/
  state    : Nat := 0
  reason   : Nat := 0
  width    : Nat := 0
  /-- lanes that no lane test has excluded since the port was enabled (R653) -/
  lanes    : Nat := 4
  version  : Nat := 0
  /-- K_L of the link: a MAC key, then a wrap key (R655) -/
  keys     : List Byte := []
  uplink   : Bool := false
  peer     : Option (Nat × Nat) := Option.none
  peerRelay : Bool := false
  serial   : List Byte := []
  naks     : Nat := 0
  retrains : Nat := 0
  auth     : Nat := 0
  delayNs  : Nat := 0
  txSeq    : Nat := 0
  rxSeq    : Nat := 0
  /-- frames not yet known to be received: sequence number, type, destination, payload, resends (R656) -/
  sent     : List (Nat × Nat × Nat × List Byte × Nat) := []
  deriving DecidableEq, Repr

/-- What the head knows of a node (R658, R666). -/
structure PlkNode where
  state   : Nat := 0
  locked  : Bool := false
  relay   : Bool := false
  port    : Nat := 0
  serial  : List Byte := []
  deriving DecidableEq, Repr

/-- A forward (R658 to R660). -/
structure Forward where
  job  : Nat
  node : Nat
  done : Bool
  deriving DecidableEq, Repr

/-- PLK. -/
structure Plk where
  cfg      : W32 := 0x40000000
  fwdCfg   : W32 := 0x100
  ports    : Vector Port 8 := Vector.replicate 8 {}
  nodes    : KV PlkNode := []
  locked   : Bool := false
  phase    : Int := 0
  goodFrames : Nat := 0
  /-- a further TICK frame is awaited, and edges since the last one (R663) -/
  tickDue  : Bool := false
  tickAge  : Nat := 0
  /-- head tick number minus own tick number -/
  offset   : Int := 0
  peerSel  : Nat := 0
  fpr      : Vector W32 8 := Vector.replicate 8 0
  forwards : KV Forward := []
  nextFid  : Nat := 0
  rrNext   : Nat := 0
  isolated : Bool := false
  /-- the cluster context of a worker: replicated keys by handle (R661) -/
  keys     : KV KeyObj := []
  cnt      : Vector Nat 16 := Vector.replicate 16 0
  deriving DecidableEq, Repr

/-- A performance counter (R669 to R671, R685). -/
structure Counter where
  level  : Bool
  chain  : Bool
  sel    : Nat
  blk    : Nat
  owner  : Nat
  value  : Nat
  deriving DecidableEq, Repr

/-- A telemetry record (R678). -/
structure Telemetry where
  seq   : Nat
  bytes : List Byte
  deriving DecidableEq, Repr

/-- PMU. -/
structure Pmu where
  frozen   : Bool := false
  freeze   : Bool := false
  ctr      : KV Counter := []
  ovf      : KV Bool := []
  ovfie    : Vector W32 6 := Vector.replicate 6 0
  sampMax  : Nat := 0x40
  sampLost : Nat := 0
  teleEn   : Bool := true
  teleCnt  : Nat := 0
  tele     : List Telemetry := []
  teleSeq  : Nat := 0
  /-- counts at the last telemetry record: admitted, refused, late, retries, journal pages -/
  teleBase : Nat × Nat × Nat × Nat × Nat := (0, 0, 0, 0, 0)
  /-- sensors: value when valid -/
  sensors  : KV Int := []
  /-- budget booked on the PVUs since the last record, and the usable cycles -/
  load     : Nat := 0
  loadCap  : Nat := 0
  deriving DecidableEq, Repr

/-- A patch image (R510 to R519) with the header fields that are looked at again. -/
structure PatchImage where
  seq     : Nat
  id      : Nat
  /-- bit 0 PVUs, bit 1 BNEs -/
  targets : Nat
  bytes   : List Byte
  deriving DecidableEq, Repr

/-- A patch activation in progress (R517): the command, and the engine codes whose turn has not ended, in order. -/
structure PatchTurn where
  job     : Nat
  left    : List Nat
  deriving DecidableEq, Repr

/-- The image that a module leaves the factory with, in flash slot 0. -/
def factoryImage : PatchImage := { seq := 1, id := 1, targets := 3, bytes := Config.factoryImage }

/-- MGC's patch store: images in flash slots 0 and 1 and, under 2, the staged image. -/
structure Patches where
  images  : KV PatchImage := [(0, factoryImage)]
  /-- flash slot of the boot image -/
  active  : Option Nat := some 0
  turn    : Option PatchTurn := Option.none
  deriving DecidableEq, Repr

/-- PCR: power-up, supply, reset, lifecycle requests, BANK, test port, pins (R680 to R734). -/
structure Pcr where
  /-- input power is present -/
  input    : Bool := false
  /-- a power-up has started and no reset has ended it -/
  powered  : Bool := false
  /-- `PCR_RESET` has been written: the cold reset comes 10 µs later (R733) -/
  resetDue : Bool := false
  step     : Nat := 0
  failStep : Nat := 0
  bootMs   : Nat := 0
  ready    : Bool := false
  cause    : Nat := 0
  linkResets : Nat := 0
  linkUp   : Bool := false
  /-- lanes of the PCIe link (R586, R697) -/
  linkWidth : Nat := 16
  warn     : Bool := false
  warnings : Nat := 0
  /-- a warning or its clearing waits for the next edge (R721 step 2, R723) -/
  shed     : Bool := false
  clearing : Bool := false
  /-- engine domains still to be switched on after a warning: the time in µs, and the engine's code or 0x280 + group (R723) -/
  powering : List (Nat × Nat) := []
  /-- requested lifecycle state (R727) -/
  target   : Option Nat := Option.none
  decomArmed : Bool := false
  /-- an erasure of flash areas is running: 1 re-enrolment, 2 decommissioning -/
  erasing  : Nat := 0
  bankTapEn : Bool := false
  bankPinEn : Bool := false
  frozen   : Bool := false
  bankSource : Nat := 0
  bankTick : Nat := 0
  bankPending : Nat := 0
  stage    : Nat := 0
  tj       : Int := 200
  gpioDir  : W16 := 0
  gpioOut  : W16 := 0
  gpioOd   : W16 := 0
  gpioPins : W16 := 0
  /-- test port: instruction register, boundary register, read-out address -/
  tapIr    : Nat := 2
  tapShift : List Bool := []
  bankAddr : W64 := 0
  -- management
  eid      : Nat := 0
  pmbStatus : Nat := 0
  recoveryTicks : Nat := 0
  recovery : Bool := false
  spdmVer  : Nat := 0
  console  : List Byte := []
  /-- VF Enable and NumVFs of the SR-IOV capability -/
  vfEnable : Bool := false
  numVfs   : Nat := 0
  /-- FAULT_N1 (R598) -/
  faultN1  : Bool := false
  deriving DecidableEq, Repr

end Sys2Proof.Machine
end

