-- ==== Sys2Proof/Machine/State.lean ====
section
/-! DEFINITION. The state of the module: plain data, with the queue of commands that wait. -/

namespace Sys2Proof.Machine

/-- Why a command stops with a fault. -/
inductive Fault where
  /-- An engine command names a PVU or BNE the part does not have: the spec gives it no effect (R3, R43).
  Raised by the PVU and BNE instruction rows. Safe: no such step exists in the hardware. -/
  | absentUnit
  deriving DecidableEq, Repr

/-- Why a command is refused. -/
inductive Refusal where
  /-- The command has no meaning in the model yet. Raised only by Dispatch. Safe. -/
  | notModelled (mnemonic : String)
  deriving DecidableEq, Repr

/-- The module. -/
structure State where
  /-- commands that wait, first in first out (the block's form) -/
  pending  : List Instr := []
  /-- what the module has put out, newest first -/
  out      : List Output := []
  /-- orderable part (R1): 0 NRN-4816, 1 NRN-4808, 2 NRN-4804 -/
  part     : Nat := 0
  /-- microseconds since the power-up, advanced at tick edges -/
  us       : Nat := 0
  /-- registers that have no other home: block key × 65,536 + offset -/
  regs     : KV W32 := []
  /-- high halves held for the 64-bit counters read under R46: by low-half address -/
  latchHi  : KV W32 := []
  /-- common pages by block code; instance page n by 256 + n -/
  blk      : KV Blk := []
  /-- self-test units by block code -/
  tests    : KV TestUnit := []
  trd      : Treadle := {}
  pvu      : Vector Pvu 16 := Vector.replicate 16 {}
  bne      : Vector Bne 8 := Vector.replicate 8 {}
  hsa      : Hsa := {}
  funcs    : KV Func := []
  /-- queues: function × 65 + local index; index 64 is the admin queue -/
  queues   : KV Queue := []
  jobs     : KV Job := []
  nextJob  : Nat := 0
  patterns : KV Pattern := []
  nextPattern : Nat := 1
  hrt      : Hearth := {}
  kst      : Kst := {}
  dgs      : Dgs := {}
  ent      : Ent := {}
  lka      : Lka := {}
  mem      : Mem := {}
  fls      : Fls := {}
  held     : Held := {}
  tmp      : Tmp := {}
  thm      : Thm := {}
  plk      : Plk := {}
  pmu      : Pmu := {}
  patches  : Patches := {}
  pcr      : Pcr := {}
  /-- the model's own counter for free values -/
  free     : Nat := 0
  deriving DecidableEq, Repr

/-- The physical function right after reset: always ENABLED, with its factory allowances (R523, R530). -/
def physicalFunction : Func := {
  state := 2, vectors := 64, tableSize := 64, ioqLimit := 64, dgsCtx := 2, dgsSlots := 4, keyLimit := 1048576,
  pinAllow := 8, perm := 3, takenLimit := 4096 }

/-- The module before its first power-up: every register at its reset value. -/
def State.reset : State := { funcs := [(0, physicalFunction)] }

end Sys2Proof.Machine
end

