-- ==== Sys2Proof/Machine/Ops.lean ====
section
/-! DEFINITION. Named operations over the state that the meanings share: which blocks the part has (R1, R42),
lookups, interrupts (R60 to R68) and writes to host memory (R25). -/

namespace Sys2Proof.Machine

/-- Engine and port counts of the part (R1). -/
def State.pvus (s : State) : Nat := if s.part = 0 then 16 else if s.part = 1 then 8 else 4
def State.bnes (s : State) : Nat := if s.part = 0 then 8 else if s.part = 1 then 4 else 2
def State.cores (s : State) : Nat := if s.part = 0 then 64 else if s.part = 1 then 32 else 16
def State.portCount (s : State) : Nat := if s.part = 0 then 8 else if s.part = 1 then 4 else 2

/-- Value of a vector's position, or a default beyond it. -/
def vget {α : Type} {n : Nat} (v : Vector α n) (i : Nat) (d : α) : α := v.getD i d

/-- A vector with one position replaced; positions beyond it change nothing. -/
def vset {α : Type} {n : Nat} (v : Vector α n) (i : Nat) (a : α) : Vector α n := v.setIfInBounds i a

/-- A vector with one position changed by a function. -/
def vmod {α : Type} {n : Nat} (v : Vector α n) (i : Nat) (d : α) (f : α → α) : Vector α n :=
  v.setIfInBounds i (f (v.getD i d))

def State.getPvu (s : State) (n : Nat) : Pvu := vget s.pvu n {}
def State.setPvu (s : State) (n : Nat) (p : Pvu) : State := { s with pvu := vset s.pvu n p }
def State.getBne (s : State) (n : Nat) : Bne := vget s.bne n {}
def State.setBne (s : State) (n : Nat) (p : Bne) : State := { s with bne := vset s.bne n p }
def State.getBlk (s : State) (k : Nat) : Blk := KV.getD s.blk k {}
def State.setBlk (s : State) (k : Nat) (b : Blk) : State := { s with blk := KV.set s.blk k b }
def State.getTest (s : State) (k : Nat) : TestUnit := KV.getD s.tests k {}
def State.getFn (s : State) (f : Nat) : Func := KV.getD s.funcs f {}
def State.setFn (s : State) (f : Nat) (x : Func) : State := { s with funcs := KV.set s.funcs f x }
/-- The function exists: it is not FREE (R523). -/
def State.fnExists (s : State) (f : Nat) : Bool := (KV.get? s.funcs f).isSome

/-- Key of a queue: function and local index; index 64 is the admin queue. -/
def qkey (fn q : Nat) : Nat := fn * 65 + q
def State.getQueue (s : State) (fn q : Nat) : Option Queue := KV.get? s.queues (qkey fn q)
def State.setQueue (s : State) (fn q : Nat) (x : Queue) : State := { s with queues := KV.set s.queues (qkey fn q) x }
def State.getJob (s : State) (j : Nat) : Job := KV.getD s.jobs j {}
def State.setJob (s : State) (j : Nat) (x : Job) : State := { s with jobs := KV.set s.jobs j x }
def State.modJob (s : State) (j : Nat) (f : Job → Job) : State :=
  match KV.get? s.jobs j with
  | none => s
  | some x => s.setJob j (f x)
/-- A key object by handle. -/
def State.getKey (s : State) (h : W32) : Option KeyObj := KV.get? s.kst.objs h.toNat
/-- The key object a job names: of the cluster context for a job of that context (R659, R661). -/
def State.jobKey (s : State) (j : Job) : Option KeyObj :=
  if j.cluster.isSome then KV.get? s.plk.keys j.e.keyHandle.toNat else s.getKey j.e.keyHandle
/-- The function number of the cluster context's jobs, which no function of the module has. -/
def clusterFn : Nat := 256
def State.setKey (s : State) (h : W32) (k : KeyObj) : State :=
  { s with kst := { s.kst with objs := KV.set s.kst.objs h.toNat k } }

/-- The engine of a block code has been retired and its domain is off (R44, R577). -/
def State.retired (s : State) (code : Nat) : Bool :=
  if code < 0x10 then false
  else if code < 0x20 then s.held.retired.getLsbD (code - 0x10)
  else if code < 0x28 then s.held.retired.getLsbD (code - 0x20 + 16)
  else false

/-- The block of a code exists on the part (R3, R42, R43). -/
def State.present (s : State) (code : Nat) : Bool :=
  if code < 0x10 then code == 1 || code == 2 || code == 3
  else if code < 0x20 then decide (code - 0x10 < s.pvus)
  else if code < 0x28 then decide (code - 0x20 < s.bnes)
  else code == 0x28 || code == 0x30 || code == 0x31 || code == 0x32 || code == 0x40 || code == 0x41
    || code == 0x50 || code == 0x51 || code == 0x52 || code == 0x58 || code == 0x60
    || code == 0x70 || code == 0x71 || code == 0x72 || code == 0x7F

/-- The block codes of present blocks, and the page of the physical function. -/
def State.blockCodes (s : State) : List Nat := (List.range 0x80).filter s.present

/-- A page of registers exists: a present block, or the instance page of an existing function. -/
def State.pageExists (s : State) (k : Nat) : Bool :=
  if k < 0x80 then s.present k else if k < 256 then false else s.fnExists (k - 256)

/-- Fault sources, block-specific causes and event selectors of a block (`BLK_CAP0`). -/
def blockCaps (k : Nat) : Nat × Nat × Nat :=
  if k = 1 then (2, 0, 8) else if k = 2 then (3, 0, 8) else if k = 3 then (2, 6, 8)
  else if 0x10 ≤ k ∧ k < 0x20 then (6, 5, 8) else if 0x20 ≤ k ∧ k < 0x28 then (7, 5, 8)
  else if k = 0x28 then (2, 2, 8) else if k = 0x30 then (2, 0, 8) else if k = 0x31 then (14, 6, 8)
  else if k = 0x32 then (5, 5, 8) else if k = 0x40 then (12, 5, 8) else if k = 0x41 then (7, 4, 8)
  else if k = 0x50 then (1, 5, 8) else if k = 0x51 then (5, 3, 8) else if k = 0x52 then (3, 2, 8)
  else if k = 0x58 then (4, 4, 8) else if k = 0x60 then (7, 5, 8) else if k = 0x70 then (2, 3, 0)
  else if k = 0x71 then (6, 4, 0) else if k = 0x72 then (6, 5, 8) else if k = 0x7F then (2, 0, 0)
  else if 256 ≤ k then (0, 4, 0) else (0, 0, 0)

/-- Put something out. -/
def State.emit (s : State) (o : Output) : State := { s with out := o :: s.out }

/-- The data of a register read. -/
def State.answer (s : State) (v : W32) : State := s.emit (.readData v)

/-- The source of a SAFE_HALT lies in the completion path: HIF, QE, MEM region 25 or the data fabric (R594, R595). -/
def haltInPath (src detail : Nat) : Bool := src / 256 == 1 || src / 256 == 2 || (src / 256 == 0x40 && detail % 256 == 25)

/-- PCIe configuration state at its reset values: Bus Master Enable off, every vector masked, none pending (PRESUMED: PCIe 5.0,
which R68 names; log entry 51). -/
def Func.pcieReset (f : Func) : Func :=
  { f with busMaster := false, maskedVec := List.range 64, pendingVec := [], fnMask := false }

/-- The module writes nothing to host memory: in BANK (R680), in a SAFE_HALT of the completion path (R595), to a function whose
Bus Master Enable is off, or to one being reset (R538). -/
def State.dmaOff (s : State) (fn : Nat) : Bool :=
  s.pcr.frozen || s.hrt.haltPath
    || !(s.getFn fn).busMaster || decide ((s.getFn fn).state = 7)

/-- HIF sends no message of the function: in BANK (R680), or with its Bus Master Enable off (PRESUMED: PCIe 5.0; log entry 51).
A reset of the function and a SAFE_HALT stop only the writes of QE (R538, R595). -/
def State.msixOff (s : State) (fn : Nat) : Bool := s.pcr.frozen || !(s.getFn fn).busMaster

/-- Insert a number into a rising list without repeats. -/
def insertNat (n : Nat) : List Nat → List Nat
  | [] => [n]
  | m :: l => if n < m then n :: m :: l else if n = m then m :: l else m :: insertNat n l

/-- A DMA write marks the 4 KiB pages it touches in a dirty-page log (R552). -/
def DirtyLog.mark (d : DirtyLog) (addr n : Nat) : DirtyLog :=
  let ps := (List.range ((addr + n - 1) / 4096 + 1 - addr / 4096)).map (addr / 4096 + ·)
  let inside (p : Nat) : Bool := decide (d.base / 4096 ≤ p) && decide (p < (d.base + d.length) / 4096)
  { d with
    pages := (ps.filter inside).foldl (fun l p => insertNat (p - d.base / 4096) l) d.pages
    outside := d.outside || ps.any (fun p => !inside p) }

/-- The function's dirty-page log, if any, sees a write (R552). -/
def State.markDirty (s : State) (fn addr n : Nat) : State :=
  match (s.getFn fn).dirty with
  | none => s
  | some d => s.setFn fn { s.getFn fn with dirty := some (d.mark addr n) }

/-- A posted write to host memory. -/
def State.hostWrite (s : State) (fn addr : Nat) (bytes : List Byte) : State :=
  if s.dmaOff fn || bytes.isEmpty then s else (s.markDirty fn addr bytes.length).emit (.hostWrite fn addr bytes)

/-- The events that the table marks L (R674). -/
def levelEvent (k ev : Nat) : Bool :=
  (decide (0x10 ≤ k) && decide (k < 0x20) && (decide (ev = 2) || decide (ev = 3))) || (decide (0x20 ≤ k) && decide (k < 0x28) && decide (ev = 2))

/-- What one counter adds: `n` occurrences, or cycles of a level event, of which an edge counter sees the one assertion; a
chained counter adds the overflow of the counter below it (R671). -/
def State.countStep (s : State) (k ev : Nat) (fn : Option Nat) (n : Nat) (below : Option Nat) (c : Nat) (x : Counter) : Nat :=
  if x.chain then b2n (decide (0 < c) && decide (below = some (c - 1)))
  else if x.blk = k ∧ vget (s.getBlk k).evtSel x.sel 0 = 0x80000000 ||| BitVec.ofNat 32 ev ∧ (x.owner = 0 ∨ fn = some x.owner) then
    (if levelEvent k ev && !x.level then 1 else n)
  else 0

/-- The counters in rising order; `below` is the counter that overflowed last. -/
def State.countAll (s : State) (k ev : Nat) (fn : Option Nat) (n : Nat) : Option Nat → KV Counter → KV Bool → KV Counter × KV Bool
  | _, [], ovf => ([], ovf)
  | below, (c, x) :: m, ovf =>
    let v := x.value + s.countStep k ev fn n below c x
    let wraps := decide (2 ^ 48 ≤ v)
    let r := s.countAll k ev fn n (if wraps then some c else below) m (if wraps then KV.set ovf c true else ovf)
    ((c, { x with value := v % 2 ^ 48 }) :: r.1, r.2)

/-- Occurrences of a performance event, attributed to a function or to none (R669 to R672). -/
def State.count (s : State) (k ev : Nat) (fn : Option Nat) (n : Nat) : State :=
  if s.pmu.frozen || s.pmu.freeze || !(s.getBlk k).evtEn then s
  else
    let r := s.countAll k ev fn n none s.pmu.ctr s.pmu.ovf
    { s with pmu := { s.pmu with ctr := r.1, ovf := r.2 } }

/-- The key under which the model holds the address and data words of an MSI-X table. -/
def tableKey (fn off : Nat) : Nat := (512 + fn) * 65536 + off

/-- Signal a vector with the message of its table entry, or set its pending bit while it is masked or cannot be sent (R68). -/
def State.sendMsix (s : State) (fn vec : Nat) : State :=
  let f := s.getFn fn
  if f.fnMask || f.maskedVec.contains vec || s.msixOff fn then
    s.setFn fn { f with pendingVec := if f.pendingVec.contains vec then f.pendingVec else vec :: f.pendingVec }
  else
    let w (o : Nat) : Nat := (KV.getD s.regs (tableKey fn (16 * vec + o)) 0).toNat
    (s.emit (.msix fn vec (w 0 + 2 ^ 32 * w 4) (w 8))).count 1 3 (some fn) 1

/-- `FLT_STATUS` of a block: the latched, unacknowledged sources (R51, R582). -/
def State.fltStatus (s : State) (k : Nat) : W32 :=
  s.hrt.src.foldl (fun w p =>
    if p.1 / 256 = k ∧ k < 256 ∧ p.1 % 256 < 32 ∧ p.2.latched.isSome then w ||| bitW (p.1 % 256) else w) 0

/-- The highest class among the block's latched sources (`BLK_STATUS.TOP_CLASS`). -/
def State.topClass (s : State) (k : Nat) : Nat :=
  s.hrt.src.foldl (fun m p => if p.1 / 256 = k ∧ k < 256 then max m (p.2.latched.getD 0) else m) 0

/-- The FAULT cause of a block (R60). -/
def State.faultCause (s : State) (k : Nat) : Bool :=
  let c := s.topClass k
  decide (2 ≤ c) || (decide (c = 1) && (s.getBlk k).corrIrq)

/-- Entropy sources in service. -/
def Ent.inService (e : Ent) : Nat := (e.sources.toList.filter (fun x => x.state = .inService)).length

/-- `HRT_STATE.STATE` (R600). -/
def State.hearthState (s : State) : Nat :=
  if s.hrt.halt.isSome then 3 else if s.hrt.severe ≠ [] then 2
  else if s.held.retired ≠ 0 ∨ s.held.hsaRetired ≠ 0 ∨ s.hrt.retired ≠ [] then 1 else 0

/-- Spares fitted in a region (R567): 16 rows per bank of 8 banks of a local store (R213), 64 rows per MiB of the 32 MiB key
cache and the 16 MiB staging buffer. -/
def spareFitted (r : Nat) : Nat :=
  if r < 16 then 128 else if r < 24 then 16 else if r = 24 then 2048 else if r = 25 then 1024 else if r = 26 then 16
  else if r = 51 then 58254 else 0

def State.spares (s : State) (r : Nat) : Nat := KV.getD s.mem.spares r (spareFitted r)

/-- The memory region exists on the part and its engine is in service (R571, R572). -/
def State.regionPresent (s : State) (r : Nat) : Bool :=
  let eng (c : Nat) : Bool := s.present c && !s.retired c
  if r < 16 then eng (0x10 + r) else if r < 24 then eng (0x20 + (r - 16)) else if r < 27 then true
  else if r < 43 then eng (0x10 + (r - 27)) else if r < 51 then eng (0x20 + (r - 43)) else decide (r = 51)

/-- `MEM_RGNr_STAT.STATE` (R567, R572). -/
def State.regionState (s : State) (r : Nat) : Nat :=
  if !s.regionPresent r then 3
  else if spareFitted r = 0 then 0
  else if s.spares r = 0 then 2
  else if 4 * s.spares r < spareFitted r then 1 else 0

/-- Highest and lowest erase counts of the 4,096 blocks (R469, R472). -/
def Kst.maxPe (k : Kst) : Nat := k.wear.foldl (fun m p => max m p.2) 0
def Kst.minPe (k : Kst) : Nat := if k.wear.length < 4096 then 0 else k.wear.foldl (fun m p => min m p.2) k.maxPe

/-- `KST_LIFE.USED`: the share of 1.7 PB that has been programmed, in 0.01 % (R469, R472). -/
def Kst.used (k : Kst) : Nat := min 10000 (k.written * 4096 * 10000 / 1700000000000000)

/-- Level causes of a block (R61 and the cause tables of the blocks). -/
def State.levelCauses (s : State) (k : Nat) : W32 :=
  if 0x10 ≤ k ∧ k < 0x20 then (if (s.getPvu (k - 0x10)).mrgStale then 2 else 0)
  else if 0x20 ≤ k ∧ k < 0x28 then (if (s.getBne (k - 0x20)).mrgStale then 4 else 0)
  else if k = 0x31 then
    (if s.ent.startupDone && decide (s.ent.inService < 2) then 2 else 0)
      ||| (if s.ent.int.state = .stopped then 4 else 0) ||| (if s.ent.host.state = .stopped then 8 else 0)
  else if k = 0x32 then
    (if s.kst.waiting.any (fun r => decide (r.issued + 4 < s.trd.edge)) then 2 else 0)
      ||| (if 8000 ≤ s.kst.used then 4 else 0)
  else if k = 0x40 then
    (if (List.range 52).any (fun r => decide (s.regionState r = 1) || decide (s.regionState r = 2)) then 4 else 0)
  else if k = 0x41 then (if s.fls.state = 2 then 2 else 0)
  else if k = 0x50 then (if s.hearthState = 2 then 16 else 0)
  else if k = 0x51 then (if s.tmp.response ≠ 0 then 2 else 0)
  else if k = 0x52 then (if s.held.vbatLow then 2 else 0)
  else if k = 0x58 then (if s.thm.session.isSome then 8 else 0)
  else if k = 0x60 then (if s.plk.isolated then 8 else 0)
  else if k = 0x70 then
    (if s.pmu.ovf.any (fun p => p.2 && (vget s.pmu.ovfie (p.1 / 32) 0).getLsbD (p.1 % 32)) then 1 else 0)
  else if k = 0x71 then (if s.pcr.warn then 1 else 0)
  else if k = 256 then
    (if (s.getFn 0).dn.full || s.funcs.any (fun p => decide (p.1 ≠ 0) && p.2.up.full) then 1 else 0)
  else if 256 < k then (if (s.getFn (k - 256)).dn.full then 1 else 0)
  else 0

/-- `IRQ_RAW` (R60). -/
def State.irqRaw (s : State) (k : Nat) : W32 :=
  let b := s.getBlk k
  b.irqEdge ||| s.levelCauses k ||| (if b.seamErr then bitW 30 else 0) ||| (if s.faultCause k then bitW 31 else 0)

/-- `IRQ_PEND` (R51). -/
def State.irqPend (s : State) (k : Nat) : W32 := s.irqRaw k &&& ~~~(s.getBlk k).irqMask

/-- The block's interrupt request (R65). -/
def State.request (s : State) (k : Nat) : Bool := (s.getBlk k).irqEn && decide (s.irqPend k ≠ 0)

/-- The message of a block's request: `HIF_IRQ_ROUTEn` names the vector (R66, R67); an instance page uses vector 0. -/
def State.requestMessage (s : State) (k : Nat) : State :=
  if 256 ≤ k then s.sendMsix (k - 256) 0
  else
    let r := KV.getD s.regs (0x10000 + 0x200 + 4 * k) 0x80000000
    if bit r 31 then s.sendMsix 0 (bits r 5 0) else s

/-- HIF sends one message when the request rises (R65). -/
def State.irqSync (s : State) (k : Nat) : State :=
  let now := s.request k
  let b := s.getBlk k
  if now = b.request then s
  else
    let s1 := s.setBlk k { b with request := now }
    if now then s1.requestMessage k else s1

/-- HIF re-evaluates the request after a write to `IRQ_CLEAR` or `IRQ_MASK` (R65). -/
def State.irqReeval (s : State) (k : Nat) : State :=
  let now := s.request k
  let s1 := s.setBlk k { s.getBlk k with request := now }
  if now then s1.requestMessage k else s1

/-- An edge cause occurs: it is latched in `IRQ_RAW` (R61). -/
def State.cause (s : State) (k n : Nat) : State :=
  (s.setBlk k { s.getBlk k with irqEdge := (s.getBlk k).irqEdge ||| bitW n }).irqSync k

/-- Level causes may have changed: every page's request is looked at again. -/
def State.irqSyncAll (s : State) (ks : List Nat) : State := ks.foldl State.irqSync s

/-- Occurrences of a performance event and an overflow interrupt that they may cause (R669 to R672, R686). -/
def State.event (s : State) (k ev : Nat) (fn : Option Nat) (n : Nat) : State := (s.count k ev fn n).irqSync 0x70

/-- The module has reached READY and neither BANK nor SAFE_HALT has stopped it. -/
def State.running (s : State) : Bool := s.pcr.ready && !s.pcr.frozen && s.hrt.halt.isNone

/-- A status that every job gets while a state of the device holds (R594, R613, R731), if any. -/
def State.deviceStatus (s : State) : Option Nat :=
  if s.held.life = 7 then some 0x00A2
  else if s.tmp.response = 3 ∨ s.held.life = 6 then some 0x00A2
  else if s.tmp.response = 2 ∨ s.held.life = 5 then some 0x00A0
  else if s.tmp.response = 1 then some 0x00A1
  else if s.hrt.halt.isSome then some 0x00A1
  else none

end Sys2Proof.Machine
end

