-- ==== Sys2Proof/Machine/Cmd.lean ====
section
/-! DEFINITION. The command definitions that QE's checks 2 and 6 to 8 of R99 apply: which opcodes exist and where
(R130, R283, R318, R389, R391, R398, R451, R463, R524, R665), their input and output lengths, and the ranges of their
`PARAMS` fields. -/

namespace Sys2Proof.Machine

/-- Parameter bytes of an entry: 20 on version 2, 12 and zeros on version 1 (R152, R287, R319). -/
def Entry.par (e : Entry) (ver : Nat) : List Byte := if ver = 1 then fit 20 (e.params.take 12) else fit 20 e.params

/-- Byte, 16-bit and 32-bit parameter fields. -/
def p8 (p : List Byte) (i : Nat) : Nat := (p.getD i 0).toNat
def p16 (p : List Byte) (i : Nat) : Nat := field p i 2
def p32 (p : List Byte) (i : Nat) : Nat := field p i 4

/-- Opcodes of I/O queues. -/
def ioOpcodes : List Nat :=
  [0x0000, 0x0100, 0x0101, 0x0102, 0x0103, 0x0104, 0x0105, 0x0106, 0x0107, 0x0108,
   0x0200, 0x0201, 0x0202, 0x0210, 0x0211, 0x0212, 0x0213, 0x0214, 0x0220, 0x0230,
   0x0300, 0x0301, 0x0302, 0x0303, 0x0304, 0x0310, 0x0311, 0x0312, 0x0318, 0x0319, 0x031A, 0x0320, 0x0321] ++
  [0x0400, 0x0401, 0x0402, 0x0410, 0x0411, 0x0412, 0x0418, 0x0419,
   0x0500, 0x0501, 0x0502, 0x0503, 0x0504, 0x0510, 0x0511, 0x0512, 0x0513, 0x0520, 0x0521, 0x0522, 0x0530, 0x0531,
   0x0600, 0x0601, 0x0602, 0x0610, 0x0611, 0x0612, 0x0700, 0x0701, 0x0702, 0x0710, 0x0780] ++
  [0x0800, 0x0801, 0x0802, 0x0803, 0x0804, 0x0805, 0x0806, 0x0900]

/-- Admin opcodes of every function (R134). -/
def adminOpcodes : List Nat := [0x0001, 0x0002, 0x0010, 0x0011, 0x0014, 0x0020, 0x0021, 0x0030, 0x0040]

/-- Admin opcodes of the manager (R515, R524). -/
def managerOpcodes : List Nat :=
  [0x0080, 0x0081, 0x0082, 0x0083, 0x0084, 0x0085, 0x0088, 0x0089, 0x008A, 0x008B, 0x008C, 0x0090, 0x0091, 0x0092,
   0x0098, 0x0099, 0x009A, 0x009B]

/-- Check 2 of R99: the opcode is implemented and allowed on this kind of queue (R130, R665: CLUSTER_STATUS only on an
I/O queue of the physical function). -/
def opcodeAllowed (fn q op : Nat) : Bool :=
  if q = 64 then adminOpcodes.contains op || (decide (fn = 0) && managerOpcodes.contains op)
  else ioOpcodes.contains op || (decide (op = 0x0F00) && decide (fn = 0))

-- Lengths of keys, ciphertexts and signatures (R288, R335, R354, R357, R395, R398).

/-- Entry `pset − 1` of a table; 0 for a set that is not listed. -/
def byPset (t : List Nat) (pset : Nat) : Nat := if pset = 0 then 0 else t.getD (pset - 1) 0

def phLen (ph : Nat) : Nat := byPset [32, 48, 64, 32, 48, 64, 32, 64] ph
def slhN (pset : Nat) : Nat := if pset = 0 then 0 else [16, 24, 32].getD ((pset - 1) / 4) 0
def slhSig (pset : Nat) : Nat :=
  byPset [7856, 17088, 7856, 17088, 16224, 35664, 16224, 35664, 29792, 49856, 29792, 49856] pset
def slhShake (pset : Nat) : Bool := decide ((pset - 1) % 4 ≥ 2)
def mceIdx (pset : Nat) : Nat := (pset - 1) / 2
def rsaBytes (pset : Nat) : Nat := byPset [256, 384, 512, 768, 1024, 2048] pset
def ecPoint (pset : Nat) : Nat := byPset [65, 97, 133] pset
def ecSig (pset : Nat) : Nat := byPset [64, 96, 132] pset
def compPk (pset : Nat) : Nat := byPset [1377, 2017, 2049, 2689] pset
def compSigMax (pset : Nat) : Nat := byPset [2420 + 72, 3309 + 72, 3309 + 104, 4627 + 104] pset

/-- XMSS and XMSS^MT parameters of an OID under SP 800-208 (PRESUMED from RFC 8391 and SP 800-208): the hash is
SHAKE256, n, total height, layers. -/
def xmssSet (mt : Bool) (oid : Nat) : Option (Bool × Nat × Nat × Nat) :=
  let mtForms : List (Nat × Nat) := [(20, 2), (20, 4), (40, 2), (40, 4), (40, 8), (60, 3), (60, 6), (60, 12)]
  let pick (sh : Bool) (n base : Nat) : Option (Bool × Nat × Nat × Nat) :=
    (mtForms[oid - base]?).map (fun f => (sh, n, f.1, f.2))
  let one (sh : Bool) (n base : Nat) : Option (Bool × Nat × Nat × Nat) :=
    ([10, 16, 20][oid - base]?).map (fun h => (sh, n, h, 1))
  if mt then
    (if 1 ≤ oid ∧ oid ≤ 8 then pick false 32 1
    else if 0x21 ≤ oid ∧ oid ≤ 0x28 then pick false 24 0x21
    else if 0x29 ≤ oid ∧ oid ≤ 0x30 then pick true 32 0x29
    else if 0x31 ≤ oid ∧ oid ≤ 0x38 then pick true 24 0x31 else none)
  else if 1 ≤ oid ∧ oid ≤ 3 then one false 32 1
  else if 0x0D ≤ oid ∧ oid ≤ 0x0F then one false 24 0x0D
  else if 0x10 ≤ oid ∧ oid ≤ 0x12 then one true 32 0x10
  else if 0x13 ≤ oid ∧ oid ≤ 0x15 then one true 24 0x13
  else none

/-- LMS type: SHAKE256, n, height (RFC 8554 and SP 800-208 codes 0x05 to 0x18). -/
def lmsSet (t : Nat) : Option (Bool × Nat × Nat) :=
  if 0x05 ≤ t ∧ t ≤ 0x18 then
    let k := (t - 5) / 5
    some (decide (2 ≤ k), if k % 2 = 0 then 32 else 24, 5 * ((t - 5) % 5 + 1))
  else none

/-- LM-OTS type: SHAKE256, n, w. -/
def otsSet (t : Nat) : Option (Bool × Nat × Nat) :=
  if 1 ≤ t ∧ t ≤ 16 then
    let k := (t - 1) / 4
    some (decide (2 ≤ k), if k % 2 = 0 then 32 else 24, 2 ^ ((t - 1) % 4))
  else none

/-- Chains of an LM-OTS type. -/
def otsP (n w : Nat) : Nat :=
  if n = 32 then (match w with | 1 => 265 | 2 => 133 | 4 => 67 | _ => 34)
  else (match w with | 1 => 200 | 2 => 101 | 4 => 51 | _ => 26)

/-- Length of an LMS signature. -/
def lmsSigLen (lms ots : Nat) : Nat :=
  match lmsSet lms, otsSet ots with
  | some (_, n, h), some (_, _, w) => 4 + (4 + n + otsP n w * n) + 4 + h * n
  | _, _ => 0

/-- Length of an LMS public key. -/
def lmsPubLen (lms : Nat) : Nat := match lmsSet lms with | some (_, n, _) => 24 + n | none => 0

/-- Length of an HSS signature with the same types at every level. -/
def hssSigLen (lms ots levels : Nat) : Nat :=
  4 + levels * lmsSigLen lms ots + (levels - 1) * lmsPubLen lms

/-- Length of an XMSS or XMSS^MT signature. -/
def xmssSigLen (mt : Bool) (oid : Nat) : Nat :=
  match xmssSet mt oid with
  | some (_, n, h, d) =>
    let len := if n = 32 then 67 else 51
    if mt then (h + 7) / 8 + n + (h + d * len) * n else 4 + n + (len + h) * n
  | none => 0

/-- Public encoding length of a key type and set; none where it varies (types of R460). -/
def pubLen (typ pset : Nat) : Option Nat :=
  match typ with
  | 1 => some (byPset [800, 1184, 1568] pset)
  | 2 => some (byPset [1312, 1952, 2592] pset)
  | 3 => some (byPset [897, 1793] pset)
  | 4 => some (2 * slhN pset)
  | 7 => some (byPset [2249, 4522, 7245] pset)
  | 8 => some ([261120, 524160, 1044992, 1047319, 1357824].getD (mceIdx pset) 0)
  | 9 => some (rsaBytes pset + 8)
  | 10 => some (ecPoint pset)
  | 11 => some (byPset [32, 57] pset)
  | 12 => some (byPset [32, 56] pset)
  | 13 => some 1216
  | 14 => some (compPk pset)
  | _ => none

/-- Private encoding length (R288, R335, R357). No rule gives one for the others: the seed of a stateful key, the seeds and public key of an HQC key, the primes of an RSA key, the
scalar of an EC key, the private keys of RFC 8032 and RFC 7748, the parts of a composite key, and else the length of the public part. -/
def privLen (typ pset : Nat) : Nat :=
  match typ with
  | 1 => byPset [1632, 2400, 3168] pset
  | 2 => byPset [2560, 4032, 4896] pset
  | 4 => 4 * slhN pset
  | 5 => 96
  | 6 => 96
  | 7 => (pubLen 7 pset).getD 0 + byPset [56, 64, 72] pset
  | 9 => rsaBytes pset
  | 10 => byPset [32, 48, 66] pset
  | 14 => byPset [2560 + 32, 4032 + 32, 4032 + 48, 4896 + 48] pset
  | 8 => [6492, 13608, 13932, 13948, 14120].getD (mceIdx pset) 0
  | 13 => 2432
  | _ => (pubLen typ pset).getD 64

/-- The parameter sets of a type (R285, R322, R393, R398, R460). -/
def psetListed (typ pset : Nat) : Bool :=
  match typ with
  | 1 => decide (1 ≤ pset ∧ pset ≤ 3)
  | 2 => decide (1 ≤ pset ∧ pset ≤ 3)
  | 3 => decide (1 ≤ pset ∧ pset ≤ 2)
  | 4 => decide (1 ≤ pset ∧ pset ≤ 12)
  | 5 => (match lmsSet pset with | some (_, _, h) => decide (h ≤ 20) | none => false)
  | 6 => decide (1 ≤ pset ∧ pset ≤ 2)
  | 7 => decide (1 ≤ pset ∧ pset ≤ 3)
  | 8 => decide (1 ≤ pset ∧ pset ≤ 10)
  | 9 => decide (1 ≤ pset ∧ pset ≤ 6)
  | 10 => decide (1 ≤ pset ∧ pset ≤ 3)
  | 11 => decide (1 ≤ pset ∧ pset ≤ 2)
  | 12 => decide (1 ≤ pset ∧ pset ≤ 2)
  | 13 => decide (pset = 1)
  | 14 => decide (1 ≤ pset ∧ pset ≤ 4)
  | 16 => decide (1 ≤ pset ∧ pset ≤ 6)
  | 17 => decide (1 ≤ pset ∧ pset ≤ 3)
  | 18 => decide (pset = 0)
  | _ => false

/-- Ciphertext and shared-secret lengths of a KEM type. -/
def kemC (typ pset : Nat) : Nat :=
  match typ with
  | 1 => byPset [768, 1088, 1568] pset
  | 7 => byPset [4433, 8978, 14421] pset
  | 8 => [96, 156, 208, 194, 208].getD (mceIdx pset) 0
  | _ => 1120
def kemK (typ : Nat) : Nat := match typ with | 1 => 32 | 8 => 32 | _ => 64

/-- Key family of an opcode's parameter set and of the keys it takes. -/
def opType (op : Nat) : Nat :=
  if op < 0x0200 then 0
  else if op < 0x0210 then 1 else if op < 0x0220 then 2 else if op = 0x0220 then 3 else if op = 0x0230 then 2
  else if op < 0x0310 then 4 else if op < 0x0318 then 5 else if op < 0x0320 then 6 else if op < 0x0400 then 5
  else if op < 0x0410 then 7 else if op < 0x0500 then 8
  else if op < 0x0510 then 9 else if op < 0x0520 then 10 else if op < 0x0530 then 11 else if op < 0x0600 then 12
  else if op < 0x0610 then 13 else if op < 0x0700 then 14 else 0

/-- Signature length of a type and set. -/
def sigLen (typ pset : Nat) : Nat :=
  match typ with
  | 2 => byPset [2420, 3309, 4627] pset
  | 4 => slhSig pset
  | 9 => rsaBytes pset
  | 10 => ecSig pset
  | 11 => byPset [64, 114] pset
  | _ => 0

/-- A length between two bounds. -/
def within (n lo hi : Nat) : Bool := decide (lo ≤ n) && decide (n ≤ hi)

/-- The OAEP message limit (R395). -/
def oaepMax (pset h : Nat) : Nat := rsaBytes pset - 2 * phLen h - 2

/-- Check 6 of R99 for commands of I/O queues: `IN_LEN` against the command's definition. `none` in `pat` = no pattern
with the ID is loaded. -/
def inLenOk (op : Nat) (p : List Byte) (hasKey : Bool) (n : Nat) (pat : Option (Nat × Nat × Nat)) : Bool :=
  let t := opType op
  let ps := p8 p 0
  let mode := p8 p 2
  let ctx := p8 p 3
  let pk := if hasKey then 0 else (pubLen t ps).getD 0
  let listed := psetListed t ps
  match op with
  | 0x0200 => !listed || decide (n = 0)
  | 0x0210 => !listed || decide (n = 0)
  | 0x0230 => !listed || decide (n = 0)
  | 0x0201 => !listed || decide (n = pk)
  | 0x0202 => !listed || decide (n = kemC 1 ps)
  | 0x0211 => !listed || (if mode / 8 % 2 = 1 then decide (n = 64) else within n ctx (ctx + 8192))
  | 0x0212 => !listed || (if mode / 8 % 2 = 1 then decide (n = pk + sigLen 2 ps + 64)
      else within n (pk + sigLen 2 ps + ctx) (pk + sigLen 2 ps + ctx + 8192))
  | 0x0213 => !listed || decide (phLen (p8 p 10) = 0) || decide (n = ctx + phLen (p8 p 10))
  | 0x0214 => !listed || decide (phLen (p8 p 10) = 0) || decide (n = pk + sigLen 2 ps + ctx + phLen (p8 p 10))
  | 0x0220 => !listed || (within (p16 p 8) 41 (if ps = 1 then 666 else 1280) && within n (pk + p16 p 8) (pk + p16 p 8 + 8192))
  | 0x0301 => within n ctx (ctx + 8192)
  | 0x0302 => !listed || within n (pk + slhSig ps + ctx) (pk + slhSig ps + ctx + 8192)
  | 0x0303 => decide (phLen (p8 p 8) = 0) || decide (n = ctx + phLen (p8 p 8))
  | 0x0304 => !listed || decide (phLen (p8 p 8) = 0) || decide (n = pk + slhSig ps + ctx + phLen (p8 p 8))
  | 0x0311 => decide (n ≤ 8192)
  | 0x0319 => decide (n ≤ 8192)
  | 0x0312 => within n (p16 p 8 + p16 p 10) (p16 p 8 + p16 p 10 + 8192)
  | 0x031A => within n (p16 p 8 + p16 p 10) (p16 p 8 + p16 p 10 + 8192)
  | 0x0401 => !listed || decide (n = pk)
  | 0x0402 => !listed || decide (n = kemC 7 ps)
  | 0x0411 => !listed || decide (n = pk)
  | 0x0412 => !listed || decide (n = kemC 8 ps)
  | 0x0501 => decide (6 < p8 p 8) || decide (phLen (p8 p 8) = 0) || decide (n = phLen (p8 p 8))
  | 0x0502 => !listed || decide (phLen (p8 p 8) = 0) || decide (n = pk + rsaBytes ps + phLen (p8 p 8))
  | 0x0503 => !listed || decide (phLen (p8 p 8) = 0) || within n (pk + ctx) (pk + ctx + oaepMax ps (p8 p 8))
  | 0x0504 => !listed || decide (n = ctx + rsaBytes ps)
  | 0x0511 => decide (phLen (p8 p 8) = 0) || decide (n = phLen (p8 p 8))
  | 0x0512 => !listed || decide (phLen (p8 p 8) = 0) || decide (n = pk + ecSig ps + phLen (p8 p 8))
  | 0x0513 => !listed || decide (n = ecPoint ps)
  | 0x0521 => if mode / 16 % 2 = 1 then decide (n = ctx + 64) else within n ctx (ctx + 8192)
  | 0x0522 => !listed || (if mode / 16 % 2 = 1 then decide (n = pk + sigLen 11 ps + ctx + 64)
      else within n (pk + sigLen 11 ps + ctx) (pk + sigLen 11 ps + ctx + 8192))
  | 0x0531 => !listed || decide (n = byPset [32, 56] ps)
  | 0x0601 => decide (n = if hasKey then 0 else 1216)
  | 0x0602 => decide (n = 1120)
  | 0x0611 => decide (n = ctx + 64)
  | 0x0612 => !listed || decide (n = pk + p16 p 10 + ctx + 64)
  | 0x0100 => true
  | 0x0102 => (match pubLen (p8 p 0) (p8 p 1) with
      | some k => !psetListed (p8 p 0) (p8 p 1) || decide (n = k)
      | none => true)
  | 0x0107 => decide (n = 32)
  | 0x0700 => true
  | 0x0701 => within n (p8 p 3) 1024
  | 0x0702 => decide (n ≤ 1024)
  | 0x0710 => true
  | 0x0800 => decide (n = 24 * p16 p 0)
  | 0x0801 => decide (n = 24 * p16 p 0)
  | 0x0802 => decide (n = 24 * p16 p 0)
  | 0x0803 => decide (n = 16 * p16 p 0)
  | 0x0804 => decide (n = 16 * p16 p 0)
  | 0x0805 => decide (n = 16 * p16 p 0 + p16 p 2)
  | 0x0806 => decide (n = 8 * p16 p 0)
  | 0x0900 => (match pat with | some (lo, hi, _) => within n lo hi | none => true)
  | _ => decide (n = 0)

/-- Check 6 for admin commands (R134, R140, R147, R515, R524, R525); the offer comes with chunk 0 alone. -/
def adminInOk (op : Nat) (p : List Byte) (n : Nat) : Bool :=
  match op with
  | 0x0010 => decide (n = 32)
  | 0x0020 => true
  | 0x0040 => if p8 p 0 = 3 then decide (n = 16) else decide (n = 0)
  | 0x0080 => decide (n = 32)
  | 0x0081 => decide (n = 32)
  | 0x008A => if p16 p 4 = 0 then decide (n ≤ 8192) else decide (n = 0)
  | 0x008B => true
  | 0x0090 => decide (n = 16)
  | 0x0098 => true
  | _ => decide (n = 0)

/-- SS_STORE of a KEM or agreement command (R286, R321, R394). -/
def ssStore (op : Nat) (p : List Byte) : Bool :=
  [0x0201, 0x0202, 0x0401, 0x0402, 0x0411, 0x0412, 0x0513, 0x0531, 0x0601, 0x0602].contains op
    && decide (p8 p 2 / 2 % 2 = 1)

/-- Output length of a command under its mode; none where it depends on the key (R323, R737). Check 7 of R99. -/
def outNeed (op : Nat) (p : List Byte) (pat : Option (Nat × Nat × Nat)) : Option Nat :=
  let t := opType op
  let ps := p8 p 0
  let ss := ssStore op p
  match op with
  | 0x0200 => pubLen 1 ps
  | 0x0201 => some (kemC 1 ps + (if ss then 0 else 32))
  | 0x0202 => some (if ss then 0 else 32)
  | 0x0210 => pubLen 2 ps
  | 0x0211 => some (sigLen 2 ps)
  | 0x0213 => some (sigLen 2 ps)
  | 0x0300 => pubLen 4 ps
  | 0x0301 => some (slhSig ps)
  | 0x0303 => some (slhSig ps)
  | 0x0310 => some (4 + lmsPubLen ps)
  | 0x0318 => (match xmssSet (decide (ps = 2)) (p16 p 8) with | some (_, n, _, _) => some (4 + 2 * n) | none => some 0)
  | 0x0311 => none
  | 0x0319 => none
  | 0x0320 => some 32
  | 0x0400 => pubLen 7 ps
  | 0x0401 => some (kemC 7 ps + (if ss then 0 else 64))
  | 0x0402 => some (if ss then 0 else 64)
  | 0x0410 => pubLen 8 ps
  | 0x0411 => some (kemC 8 ps + (if ss then 0 else 32))
  | 0x0412 => some (if ss then 0 else 32)
  | 0x0500 => pubLen 9 ps
  | 0x0501 => some (rsaBytes ps)
  | 0x0503 => some (rsaBytes ps)
  | 0x0504 => some (oaepMax ps (p8 p 8))
  | 0x0510 => pubLen 10 ps
  | 0x0511 => some (ecSig ps)
  | 0x0513 => some (if ss then 0 else (ecPoint ps - 1) / 2)
  | 0x0520 => pubLen 11 ps
  | 0x0521 => some (sigLen 11 ps)
  | 0x0530 => pubLen 12 ps
  | 0x0531 => some (if ss then 0 else byPset [32, 56] ps)
  | 0x0600 => some 1216
  | 0x0601 => some (1120 + (if ss then 0 else 64))
  | 0x0602 => some (if ss then 0 else 64)
  | 0x0610 => pubLen t ps
  | 0x0611 => some (compSigMax ps)
  | 0x0100 => (match pubLen (p8 p 0) (p8 p 1) with | some k => some k | none => some 0)
  | 0x0101 => none
  | 0x0103 => none
  | 0x0105 => some 32
  | 0x0700 => none
  | 0x0710 => some (if p8 p 8 = 7 ∨ p8 p 8 = 8 then p16 p 10 else phLen (p8 p 8))
  | 0x0780 => some (p32 p 0)
  | 0x0900 => (match pat with | some (_, _, o) => some o | none => some 0)
  | 0x0F00 => some 1024
  | 0x0001 => some 256
  | 0x0030 => some 64
  | 0x0088 => some 8192
  | 0x008A => some (64 + (if p16 p 4 = 0 then 1665 else 0) + 4190208 + 16)
  | 0x009A => some 64
  | _ => if 0x0800 ≤ op ∧ op ≤ 0x0806 then some (8 * p16 p 0) else some 0

/-- Every parameter byte outside the listed ones is zero. -/
def zeroOutside (p : List Byte) (used : List Nat) : Bool :=
  (List.range 20).all (fun i => used.contains i || decide (p8 p i = 0))

/-- Only the listed bits of a byte are set. -/
def onlyBits (v mask : Nat) : Bool := decide (v &&& mask = v)

/-- Operation bits of the usage word that a key type can perform (R441, R442). -/
def typeUsage (typ : Nat) : Nat :=
  match typ with
  | 1 => 0x004 | 2 => 0x003 | 3 => 0x002 | 4 => 0x003 | 5 => 0x003 | 6 => 0x003 | 7 => 0x004 | 8 => 0x004
  | 9 => 0x033 | 10 => 0x00B | 11 => 0x003 | 12 => 0x008 | 13 => 0x004 | 14 => 0x003
  | 16 => 0x640 | 17 => 0x1C0 | 18 => 0x040 | _ => 0

/-- The usage word of a key to be created is accepted (R442). -/
def usageOk (typ usage : Nat) : Bool :=
  decide (usage / 2 ^ 20 % 16 = 0) && decide (usage / 2 ^ 17 % 2 = 0) && decide (usage / 2 ^ 12 % 4 ≤ 1)
    && (decide (usage / 2 ^ 24 = 0) || decide (typ = 2) || decide (typ = 14))
    && (decide (usage / 2 ^ 19 % 2 = 1) || (decide (typ ≠ 5) && decide (typ ≠ 6)))
    && onlyBits (usage % 2048) (typeUsage typ)

/-- `RESERVE` of a stateful key (R320). -/
def reserveOk (r : Nat) : Bool := [0, 64, 128, 256, 512, 1024, 2048, 4096, 8192, 16384, 32768].contains r

/-- EdDSA's context rules (R394). -/
def eddsaOk (ps mode ctx : Nat) : Bool :=
  let c := decide (mode / 32 % 2 = 1)
  let ph := decide (mode / 16 % 2 = 1)
  if ps = 1 then (if c && ph then false else if c then decide (1 ≤ ctx) else if ph then true else decide (ctx = 0)) else !c

/-- The USAGE field of a command that creates a key object. -/
def ssFields (op : Nat) (p : List Byte) : List Nat := if ssStore op p then [4, 5, 6, 7] else []
def ssUsageOk (op : Nat) (p : List Byte) : Bool := !ssStore op p || usageOk 18 (p32 p 4)

/-- The key types that KST commands take in `TYPE` (R460). -/
def typeKnown (t : Nat) : Bool := decide (1 ≤ t ∧ t ≤ 14) || decide (16 ≤ t ∧ t ≤ 18)

/-- Check 8 of R99: `PARAMS` in range (R284 to R286, R319 to R322, R331, R389, R392 to R394, R433, R452, R460, R463,
R738). `active` is the number of active PVUs (R316). -/
def paramsOk (op : Nat) (p : List Byte) (key : W32) (active : Nat) : Bool :=
  let t := opType op
  let ps := p8 p 0
  let ord := p8 p 1
  let mode := p8 p 2
  let ctx := p8 p 3
  let us := p32 p 4
  let listed := psetListed t ps
  let o3 := decide (ord ≤ 3)
  let o0 := decide (ord = 0)
  let ss := ssFields op p
  let ssu := ssUsageOk op p
  match op with
  | 0x0000 => zeroOutside p []
  | 0x0200 => zeroOutside p [0, 1, 2, 4, 5, 6, 7] && listed && o3 && onlyBits mode 1 && usageOk 1 us
  | 0x0201 => zeroOutside p ([0, 1, 2] ++ ss) && listed && o3 && onlyBits mode 2 && ssu
  | 0x0202 => zeroOutside p ([0, 1, 2] ++ ss) && listed && o3 && onlyBits mode 2 && ssu
  | 0x0210 => zeroOutside p [0, 1, 4, 5, 6, 7] && listed && o3 && usageOk 2 us
  | 0x0211 => zeroOutside p [0, 1, 2, 3] && listed && o3 && onlyBits mode 0xC && (decide (mode / 8 = 0) || decide (ctx = 0))
  | 0x0212 => zeroOutside p [0, 1, 2, 3] && listed && o0 && onlyBits mode 8 && (decide (mode / 8 = 0) || decide (ctx = 0))
  | 0x0213 => zeroOutside p [0, 1, 2, 3, 10] && listed && o3 && onlyBits mode 4 && within (p8 p 10) 1 8
  | 0x0214 => zeroOutside p [0, 1, 3, 10] && listed && o0 && within (p8 p 10) 1 8
  | 0x0220 => zeroOutside p [0, 8, 9] && listed
  | 0x0230 => zeroOutside p [0, 11] && listed && within (p8 p 11) 1 16 && decide (p8 p 11 ≤ active)
  | 0x0300 => zeroOutside p [0, 1, 4, 5, 6, 7] && listed && (if slhShake ps then o3 else o0) && usageOk 4 us
  | 0x0301 => zeroOutside p [0, 1, 2, 3] && listed && (if slhShake ps then o3 else o0) && onlyBits mode 4
  | 0x0302 => zeroOutside p [0, 3] && listed
  | 0x0303 => zeroOutside p [0, 1, 2, 3, 8] && listed && (if slhShake ps then o3 else o0) && onlyBits mode 4 && within (p8 p 8) 1 8
  | 0x0304 => zeroOutside p [0, 3, 8] && listed && within (p8 p 8) 1 8
  | 0x0310 => zeroOutside p [0, 1, 2, 4, 5, 6, 7, 8, 9, 10, 11] && listed && onlyBits mode 8 && within (p8 p 9) 1 4
      && reserveOk (p16 p 10) && usageOk 5 us
      && (match lmsSet ps, otsSet (p8 p 8) with
        | some (sh, n, h), some (sh', n', _) =>
          decide (sh = sh') && decide (n = n') && decide (p8 p 9 * h ≤ 60) && (if sh then o3 else o0)
        | _, _ => false)
  | 0x0318 => zeroOutside p [0, 1, 2, 4, 5, 6, 7, 8, 9, 10, 11] && listed && onlyBits mode 8 && reserveOk (p16 p 10) && usageOk 6 us
      && (match xmssSet (decide (ps = 2)) (p16 p 8) with
        | some (sh, _, h, d) => decide (h / d ≤ 20) && (if sh then o3 else o0)
        | none => false)
  | 0x0311 => zeroOutside p [1] && o3
  | 0x0319 => zeroOutside p [1] && o3
  | 0x0312 => zeroOutside p [8, 9, 10, 11] && (decide (key = 0) || decide (p16 p 8 = 0))
  | 0x031A => zeroOutside p [8, 9, 10, 11] && (decide (key = 0) || decide (p16 p 8 = 0))
  | 0x0320 => zeroOutside p []
  | 0x0321 => zeroOutside p [8, 9, 10, 11] && decide (1 ≤ p32 p 8)
  | 0x0400 => zeroOutside p [0, 1, 2, 4, 5, 6, 7] && listed && o3 && onlyBits mode 1 && usageOk 7 us
  | 0x0401 => zeroOutside p ([0, 1, 2] ++ ss) && listed && o3 && onlyBits mode 2 && ssu
  | 0x0402 => zeroOutside p ([0, 1, 2] ++ ss) && listed && o3 && onlyBits mode 2 && ssu
  | 0x0410 => zeroOutside p [0, 1, 2, 4, 5, 6, 7] && listed && o3 && onlyBits mode 1 && usageOk 8 us
  | 0x0411 => zeroOutside p ([0, 1, 2] ++ ss) && listed && o3 && onlyBits mode 2 && ssu
  | 0x0412 => zeroOutside p ([0, 1, 2] ++ ss) && listed && o3 && onlyBits mode 2 && ssu
  | 0x0418 => zeroOutside p [0, 8] && listed && within (p8 p 8) 1 8
  | 0x0419 => zeroOutside p [0] && listed
  | 0x0500 => zeroOutside p [0, 4, 5, 6, 7] && listed && usageOk 9 us
  | 0x0501 => zeroOutside p [0, 2, 8, 9] && listed && onlyBits mode 8 && within (p8 p 8) 1 6 && decide (p8 p 9 ≤ 64)
      && (decide (mode / 8 = 1) || decide (p8 p 9 = 0))
  | 0x0502 => zeroOutside p [0, 2, 8, 9] && listed && onlyBits mode 8 && within (p8 p 8) 1 6 && decide (p8 p 9 ≤ 64)
      && (decide (mode / 8 = 1) || decide (p8 p 9 = 0))
  | 0x0503 => zeroOutside p [0, 3, 8] && listed && within (p8 p 8) 1 6
  | 0x0504 => zeroOutside p [0, 3, 8] && listed && within (p8 p 8) 1 6
  | 0x0510 => zeroOutside p [0, 2, 4, 5, 6, 7] && listed && onlyBits mode 1 && usageOk 10 us
  | 0x0511 => zeroOutside p [0, 2, 8] && listed && onlyBits mode 4 && within (p8 p 8) 1 6
  | 0x0512 => zeroOutside p [0, 8] && listed && within (p8 p 8) 1 6
  | 0x0513 => zeroOutside p ([0, 2] ++ ss) && listed && onlyBits mode 2 && ssu
  | 0x0520 => zeroOutside p [0, 4, 5, 6, 7] && listed && usageOk 11 us
  | 0x0521 => zeroOutside p [0, 2, 3] && listed && onlyBits mode 0x30 && eddsaOk ps mode ctx
  | 0x0522 => zeroOutside p [0, 2, 3] && listed && onlyBits mode 0x30 && eddsaOk ps mode ctx
  | 0x0530 => zeroOutside p [0, 2, 4, 5, 6, 7] && listed && onlyBits mode 1 && usageOk 12 us
  | 0x0531 => zeroOutside p ([0, 2] ++ ss) && listed && onlyBits mode 2 && ssu
  | 0x0600 => zeroOutside p [0, 1, 2, 4, 5, 6, 7] && listed && o3 && onlyBits mode 1 && usageOk 13 us
  | 0x0601 => zeroOutside p ([0, 1, 2] ++ ss) && listed && o3 && onlyBits mode 2 && ssu
  | 0x0602 => zeroOutside p ([0, 1, 2] ++ ss) && listed && o3 && onlyBits mode 2 && ssu
  | 0x0610 => zeroOutside p [0, 1, 4, 5, 6, 7] && listed && o3 && usageOk 14 us
  | 0x0611 => zeroOutside p [0, 1, 2, 3] && listed && o3 && onlyBits mode 4
  | 0x0612 => zeroOutside p [0, 3, 10, 11] && listed
  | 0x0100 => zeroOutside p [0, 1, 2, 3, 4, 5, 6, 7] && typeKnown (p8 p 0) && (psetListed (p8 p 0) (p8 p 1) || decide (p8 p 0 = 5) || decide (p8 p 0 = 6))
      && decide (p8 p 2 ≤ 3) && (decide (p8 p 0 ≠ 4) || slhShake (p8 p 1) || decide (p8 p 2 = 0)) && within (p8 p 3) 1 3 && decide (key ≠ 0) && (usageOk (p8 p 0) us || decide (p8 p 0 = 5) || decide (p8 p 0 = 6))
      && (match p8 p 3 with
        | 1 => decide (p8 p 0 < 16)
        | 2 => decide (16 ≤ p8 p 0)
        | _ => [9, 10, 16, 17].contains (p8 p 0))
  | 0x0101 => zeroOutside p [3, 8, 9, 10, 11] && within (p8 p 3) 1 3
  | 0x0102 => zeroOutside p [0, 1, 4, 5, 6, 7] && decide (1 ≤ p8 p 0 ∧ p8 p 0 ≤ 14)
      && (psetListed (p8 p 0) (p8 p 1) || decide (p8 p 0 = 5) || decide (p8 p 0 = 6)) && onlyBits us 0x000D002E
      && onlyBits (us % 2048) (typeUsage (p8 p 0)) && (decide (us / 2 ^ 19 % 2 = 1) || (decide (p8 p 0 ≠ 5) && decide (p8 p 0 ≠ 6)))
  | 0x0103 => zeroOutside p []
  | 0x0104 => zeroOutside p []
  | 0x0105 => zeroOutside p []
  | 0x0106 => zeroOutside p [2, 4, 5, 6, 7] && decide (p8 p 2 ≤ 3)
  | 0x0107 => zeroOutside p [3] && within (p8 p 3) 1 3
  | 0x0108 => zeroOutside p [0, 1, 2, 4, 5, 6, 7, 10, 11] && within (p8 p 0) 16 18 && psetListed (p8 p 0) (p8 p 1) && decide (p8 p 2 ≤ 3)
      && (if p8 p 0 = 18 then within (p16 p 10) 16 64 else decide (p16 p 10 = 0)) && usageOk (p8 p 0) us
  | 0x0700 => zeroOutside p []
  | 0x0701 => zeroOutside p [0, 1, 2, 3, 4, 5, 6, 7, 8, 10, 11] && within (p8 p 0) 16 18 && psetListed (p8 p 0) (p8 p 1)
      && within (p8 p 8) 1 3 && within (p16 p 10) 16 64 && decide (p8 p 2 ≤ 3) && usageOk (p8 p 0) us
      && (match p8 p 0 with
        | 16 => decide (p16 p 10 = phLen (p8 p 1)) | 17 => decide (p16 p 10 = 8 + 8 * p8 p 1) | _ => true)
  | 0x0702 => zeroOutside p [0, 1, 2, 4, 5, 6, 7, 8, 10, 11] && within (p8 p 0) 16 18 && psetListed (p8 p 0) (p8 p 1)
      && (within (p8 p 8) 1 3 || decide (p8 p 8 = 8)) && within (p16 p 10) 16 64 && decide (p8 p 2 ≤ 3) && usageOk (p8 p 0) us
      && (match p8 p 0 with
        | 16 => decide (p16 p 10 = phLen (p8 p 1)) | 17 => decide (p16 p 10 = 8 + 8 * p8 p 1) | _ => true)
  | 0x0710 => zeroOutside p [8, 10, 11] && within (p8 p 8) 1 8
      && (if p8 p 8 = 7 ∨ p8 p 8 = 8 then within (p16 p 10) 1 1024 else decide (p16 p 10 = 0))
  | 0x0780 => zeroOutside p [0, 1, 2, 3] && within (p32 p 0) 1 65536
  | 0x0900 => decide (p16 p 2 = 0)
  | 0x0F00 => zeroOutside p []
  | 0x0805 => zeroOutside p [0, 1, 2, 3] && within (p16 p 0) 1 256 && decide (p16 p 2 ≤ 2048)
  | 0x0806 => zeroOutside p [0, 1, 4] && within (p16 p 0) 1 256 && decide (p8 p 4 ≤ 1)
  | _ => if 0x0800 ≤ op ∧ op ≤ 0x0804 then zeroOutside p [0, 1] && within (p16 p 0) 1 256 else true

/-- The commands that consume an EPHEMERAL key they name (R296 and its like in the other families). -/
def consuming (op : Nat) : Bool := [0x0202, 0x0402, 0x0412, 0x0513, 0x0531, 0x0602].contains op

/-- Whether a command is side-effecting (R110), `eph` saying that its key is EPHEMERAL. -/
def sideEffecting (op : Nat) (p : List Byte) (eph : Bool) : Bool :=
  [0x0200, 0x0210, 0x0300, 0x0310, 0x0311, 0x0318, 0x0319, 0x0321, 0x0400, 0x0410, 0x0500, 0x0510, 0x0520, 0x0530,
   0x0600, 0x0610, 0x0100, 0x0102, 0x0104, 0x0108, 0x0701, 0x0702].contains op
    || ssStore op p || (eph && consuming op)

/-- Stateful signing (R116). -/
def statefulSign (op : Nat) : Bool := decide (op = 0x0311) || decide (op = 0x0319)

end Sys2Proof.Machine
end

