-- ==== Sys2Proof/Machine/Shamir.lean ====
section
/-! DEFINITION. Shamir's sharing over GF(2⁸) with x⁸ + x⁴ + x³ + x + 1 (R640, R644, R645). -/

namespace Sys2Proof.Machine

/-- Multiplication by x. -/
def gfDouble (a : Byte) : Byte := if a.getLsbD 7 then (a <<< 1) ^^^ 0x1B else a <<< 1

/-- The product of two field elements over the low `n` bits of the second. -/
def gfMulAux : Nat → Byte → Byte → Byte
  | 0, _, _ => 0
  | n + 1, a, b => (if b.getLsbD 0 then a else 0) ^^^ gfMulAux n (gfDouble a) (b >>> 1)

/-- The product of two field elements. -/
def gfMul (a b : Byte) : Byte := gfMulAux 8 a b

/-- A power of a field element. -/
def gfPow : Nat → Byte → Byte
  | 0, _ => 1
  | n + 1, a => gfMul a (gfPow n a)

/-- The inverse of a field element; 0 for 0. -/
def gfInv (a : Byte) : Byte := gfPow 254 a

/-- A polynomial, constant term first, at a point. -/
def gfEval (cs : List Byte) (x : Byte) : Byte := cs.foldr (fun c acc => c ^^^ gfMul x acc) 0

/-- The value at 0 of the polynomial through the given points. -/
def gfInterpolate (pts : List (Byte × Byte)) : Byte :=
  pts.foldl (fun acc p =>
    acc ^^^ gfMul p.2 (pts.foldl (fun c q => if q.1 = p.1 then c else gfMul c (gfMul q.1 (gfInv (q.1 ^^^ p.1)))) 1)) 0

/-- Share `x` of a secret: byte `b` has the coefficients `coef (32·k + b)` for the degrees k + 1 up to m − 1. -/
def shareOf (secret : List Byte) (m : Nat) (coef : Nat → Byte) (x : Nat) : List Byte :=
  secret.mapIdx (fun b c => gfEval (c :: (List.range (m - 1)).map (fun k => coef (32 * k + b))) (BitVec.ofNat 8 x))

/-- The secret that shares combine to. -/
def combineShares (shares : List (Nat × List Byte)) : List Byte :=
  (List.range 32).map (fun b => gfInterpolate (shares.map (fun p => (BitVec.ofNat 8 p.1, p.2.getD b 0))))

end Sys2Proof.Machine
end

