-- ==== Sys2Proof/Machine/Aes.lean ====
section
/-! DEFINITION. AES-256 (FIPS 197), AES-KWP (SP 800-38F, RFC 5649) and AES-256-GCM (SP 800-38D), which R418, R444, R454 and R547 name:
PRESUMED from those standards (log entry 60). A block is its 16 bytes in order. -/

namespace Sys2Proof.Machine

/-- The substitution of a byte: its inverse in GF(2⁸) under the affine map. -/
def aesSub (b : Byte) : Byte :=
  let i := gfInv b
  (List.range 4).foldl (fun v n => v ^^^ i.rotateLeft (n + 1)) (i ^^^ 0x63)

def aesBox : List Byte := (List.range 256).map (fun n => aesSub (BitVec.ofNat 8 n))
def aesInvBox : List Byte := (List.range 256).map (fun n => BitVec.ofNat 8 (aesBox.findIdx (fun b => decide (b.toNat = n))))

/-- A byte through a substitution table. -/
def through (t : List Byte) (b : Byte) : Byte := t.getD b.toNat 0

/-- The word of the key schedule that follows the words `acc`, newest first; `i` is its number. -/
def aesNextWord (i : Nat) (acc : List (List Byte)) : List Byte :=
  let prev := acc.headD []
  let s := prev.map (through aesBox)
  let t := if i % 8 = 0 then xorBytes (s.drop 1 ++ s.take 1) [BitVec.ofNat 8 (2 ^ (i / 8 - 1))] else if i % 8 = 4 then s else prev
  xorBytes t (acc.getD 7 [])

/-- The 15 round keys of a 32-byte key. -/
def aesKeys (key : List Byte) : List (List Byte) :=
  let ws := (List.range 52).foldl (fun acc n => aesNextWord (n + 8) acc :: acc) (parts 4 8 key).reverse
  parts 16 15 ws.reverse.flatten

/-- A state whose row r is moved `k`·r columns. -/
def aesRows (k : Nat) (s : List Byte) : List Byte := (List.range 16).map (fun i => s.getD ((i + 4 * k * (i % 4)) % 16) 0)

/-- The columns times the circulant matrix with the given first row. -/
def aesColumns (row : List Byte) (s : List Byte) : List Byte :=
  (List.range 16).map (fun i => (List.range 4).foldl (fun v j =>
    v ^^^ gfMul (s.getD (i / 4 * 4 + j) 0) (row.getD ((j + 4 - i % 4) % 4) 0)) 0)

/-- One block under round keys. -/
def aesEncrypt (ks : List (List Byte)) (block : List Byte) : List Byte :=
  let sub (s : List Byte) : List Byte := aesRows 1 (s.map (through aesBox))
  let s := ((ks.drop 1).take 13).foldl (fun v k => xorBytes (aesColumns [2, 3, 1, 1] (sub v)) k) (xorBytes block (ks.getD 0 []))
  xorBytes (sub s) (ks.getD 14 [])

/-- The block that encrypts to the given one. -/
def aesDecrypt (ks : List (List Byte)) (block : List Byte) : List Byte :=
  let sub (s : List Byte) : List Byte := (aesRows 3 s).map (through aesInvBox)
  let s := ((ks.drop 1).take 13).reverse.foldl (fun v k => aesColumns [14, 11, 13, 9] (xorBytes (sub v) k)) (xorBytes block (ks.getD 14 []))
  xorBytes (sub s) (ks.getD 0 [])

-- Key wrap: the register A and the semiblocks after it.

/-- One pass of wrapping over the semiblocks; `t` counts the steps. -/
def kwPass (ks : List (List Byte)) (x : List Byte × List (List Byte) × Nat) : List Byte × List (List Byte) × Nat :=
  let r := x.2.1.foldl (fun (v : List Byte × List (List Byte) × Nat) b =>
    let e := aesEncrypt ks (v.1 ++ b)
    (xorBytes (e.take 8) (be 8 v.2.2), e.drop 8 :: v.2.1, v.2.2 + 1)) (x.1, [], x.2.2)
  (r.1, r.2.1.reverse, r.2.2)

/-- One pass of unwrapping, from the last semiblock to the first. -/
def kwBack (ks : List (List Byte)) (x : List Byte × List (List Byte) × Nat) : List Byte × List (List Byte) × Nat :=
  x.2.1.reverse.foldl (fun (v : List Byte × List (List Byte) × Nat) b =>
    let d := aesDecrypt ks (xorBytes v.1 (be 8 v.2.2) ++ b)
    (d.take 8, d.drop 8 :: v.2.1, v.2.2 - 1)) (x.1, [], x.2.2)

/-- The constant half of KWP's integrity value. -/
def kwpMark : List Byte := [0xA6, 0x59, 0x59, 0xA6]

/-- AES-KWP of a byte string under a 32-byte key. -/
def kwpSeal (key bs : List Byte) : List Byte :=
  let ks := aesKeys key
  let n := ceilDiv bs.length 8
  let a := kwpMark ++ be 4 bs.length
  if n ≤ 1 then aesEncrypt ks (a ++ fit 8 bs)
  else
    let r := (List.range 6).foldl (fun x _ => kwPass ks x) (a, parts 8 n bs, 1)
    r.1 ++ r.2.1.flatten

/-- The byte string under an AES-KWP wrapping; none where its integrity check fails. -/
def kwpOpen (key c : List Byte) : Option (List Byte) :=
  let ks := aesKeys key
  let n := c.length / 8 - 1
  if c.length % 8 ≠ 0 ∨ c.length < 16 then none
  else
    let r := if n = 1 then (let d := aesDecrypt ks c; (d.take 8, d.drop 8))
      else (let x := (List.range 6).foldl (fun x _ => kwBack ks x) (c.take 8, parts 8 n (c.drop 8), 6 * n); (x.1, x.2.1.flatten))
    let len := unBe (r.1.drop 4)
    if r.1.take 4 = kwpMark ∧ len ≤ 8 * n ∧ 8 * n < len + 8 ∧ r.2.drop len = zeros (8 * n - len) then some (r.2.take len) else none

-- GCM.

/-- The product in GCM's field, whose elements have their coefficient of 1 as the most significant bit. -/
def ghashMul (x h : BitVec 128) : BitVec 128 :=
  ((List.range 128).foldl (fun (a : BitVec 128 × BitVec 128) i =>
    (if x.getMsbD i then a.1 ^^^ a.2 else a.1, if a.2.getLsbD 0 then (a.2 >>> 1) ^^^ (0xE1 : BitVec 128) <<< 120 else a.2 >>> 1)) (0, h)).1

/-- GHASH of additional data and cipher text under the hash key. -/
def ghash (h : List Byte) (aad c : List Byte) : List Byte :=
  let blocks (bs : List Byte) : List (List Byte) := parts 16 (ceilDiv bs.length 16) bs
  let k : BitVec 128 := BitVec.ofNat 128 (unBe h)
  be 16 ((blocks aad ++ blocks c ++ [be 8 (8 * aad.length) ++ be 8 (8 * c.length)]).foldl
    (fun (y : BitVec 128) b => ghashMul (y ^^^ BitVec.ofNat 128 (unBe b)) k) 0).toNat

/-- Counter mode from counter `i` on, with a 96-bit nonce. -/
def gcmStream (ks : List (List Byte)) (nonce bs : List Byte) (i : Nat) : List Byte :=
  ((List.range (ceilDiv bs.length 16)).flatMap (fun b => xorBytes (slice bs (16 * b) 16) (aesEncrypt ks (fit 12 nonce ++ be 4 (i + b))))).take bs.length

/-- The tag of a cipher text. -/
def gcmTag (ks : List (List Byte)) (nonce aad c : List Byte) : List Byte :=
  xorBytes (ghash (aesEncrypt ks (zeros 16)) aad c) (aesEncrypt ks (fit 12 nonce ++ be 4 1))

/-- AES-256-GCM: the cipher text and its 16-byte tag. -/
def gcmSeal (key nonce aad plain : List Byte) : List Byte :=
  let ks := aesKeys key
  let c := gcmStream ks nonce plain 2
  c ++ gcmTag ks nonce aad c

/-- Its opening; none where the tag fails. -/
def gcmOpen (key nonce aad sealed : List Byte) : Option (List Byte) :=
  let ks := aesKeys key
  let c := sealed.take (sealed.length - 16)
  if 16 ≤ sealed.length ∧ gcmTag ks nonce aad c = sealed.drop c.length then some (gcmStream ks nonce c 2) else none

end Sys2Proof.Machine
end

