-- ==== Sys2Proof/Machine/KeyOps.lean ====
section
/-! DEFINITION. Operations of KST that other blocks call: counters, closing (R450), commit records (R349),
leaf reservations (R343) and the journal's queue of records (R344). -/

namespace Sys2Proof.Machine

/-- A booked BNE interval whose run has started: its W stays occupied (R383, R590). -/
def State.startedRun (s : State) (b : Booking) : Bool :=
  decide (16 ≤ b.eng) && decide (b.eng < 24)
    && (decide (b.start < s.trd.edge * (s.trd.period * 1200)) || decide (b.start < (s.getBne (b.eng - 16)).nextStart))

/-- The bookings once some are dropped: a started BNE interval stays, carrying dummy steps (R383, R590). -/
def State.planWithout (s : State) (drop : Booking → Bool) : List Booking :=
  s.trd.plan.filterMap (fun b =>
    if drop b then (if s.startedRun b then some { b with job := none } else none) else some b)

/-- KST counter `i` of R471 counts `n`. -/
def State.kstCount (s : State) (i n : Nat) : State :=
  { s with kst := { s.kst with cnt := vmod s.kst.cnt i 0 (· + n) } }

/-- FLS counter `i` of R574 counts `n`. -/
def State.flsCount (s : State) (i n : Nat) : State := { s with fls := { s.fls with cnt := vmod s.fls.cnt i 0 (· + n) } }

/-- FLS is busy for one operation; the time is open (R574). -/
def State.flsBusy (s : State) : State := ({ s with free := s.free + 1 } : State).flsCount 14 (Config.flashBusy s.free)

/-- Flash pages are programmed: they count against the device's endurance (R469, R471, R574). -/
def State.programPages (s : State) (n : Nat) : State :=
  if n = 0 then s
  else
    let s1 : State := { s with kst := { s.kst with written := s.kst.written + n } }
    (((s1.kstCount 25 n).flsCount 1 n).flsBusy).event 0x41 2 none n

/-- One erase of a flash block (R469, R471, R574). -/
def State.eraseOnce (s : State) (b : Nat) : State :=
  let s1 : State := { s with kst := { s.kst with wear := KV.set s.kst.wear (b % 4096) (KV.getD s.kst.wear (b % 4096) 0 + 1) } }
  (((s1.kstCount 26 1).flsCount 2 1).flsBusy).event 0x41 3 none 1

/-- The coldest block moves when the erase counts have drifted apart by more than 2,000: its live pages are programmed
elsewhere and it is erased (R469); not during a power warning (R33). -/
def State.wearMove (s : State) : State :=
  if s.pcr.warn ∨ s.kst.maxPe ≤ s.kst.minPe + 2000 then s
  else
    let cold := ((List.range 4096).find? (fun b => decide (KV.getD s.kst.wear b 0 = s.kst.minPe))).getD 0
    let n := Config.livePages s.free % 1025
    let s1 := ((({ s with free := s.free + 1 } : State).kstCount 28 1).flsCount 13 1).programPages n
    s1.eraseOnce cold

/-- A flash block is erased, and wear is levelled (R469). -/
def State.eraseBlock (s : State) (b : Nat) : State := (s.eraseOnce b).wearMove

/-- Every object's cache copy is dropped (R447, R450, R613). -/
def dropCache (k : KeyObj) : KeyObj := { k with inCache := false }

/-- Clear the key cache. -/
def State.clearKeyCache (s : State) : State :=
  ({ s with kst := { s.kst with objs := KV.mapV (fun _ k => dropCache k) s.kst.objs } }).kstCount 31 1

/-- KST closes: the key cache and MK are cleared, and CLOSED is raised (R450). -/
def State.kstClose (s : State) : State :=
  let was := s.kst.mkHeld
  let s1 := s.clearKeyCache
  let s2 := { s1 with kst := { s1.kst with mkHeld := false } }
  if was then s2.cause 0x32 4 else s2

/-- The number of a stateful object's unassigned reserved leaves. -/
def unassigned (k : KeyObj) : Nat :=
  match k.st with
  | some st => st.durable - st.next
  | none => 0

/-- The handles whose commit records a power warning writes: N below E, most unassigned leaves first, at most 1,024
keys (R349). -/
def State.commitOrder (s : State) : List Nat :=
  let c := s.kst.objs.filter (fun p => decide (0 < unassigned p.2) &&
    (match p.2.st with | some st => !st.worker | none => false))
  ((c.mergeSort (fun a b => unassigned b.2 ≤ unassigned a.2)).take 1024).map (·.1)

/-- E := N for one key (R349). -/
def commitKey (k : KeyObj) : KeyObj :=
  match k.st with
  | some st => { k with st := some { st with durable := st.next, issued := st.next } }
  | none => k

/-- KST writes its commit records (R349 step 2): one COMMIT record per key, up to 120 to a page. -/
def State.kstCommit (s : State) : State :=
  let hs := s.commitOrder
  let objs := KV.mapV (fun h k => if hs.contains h then commitKey k else k) s.kst.objs
  let recs : List JrnRec := hs.map (fun h =>
    let n := match (KV.get? s.kst.objs h).bind (·.st) with | some st => st.next | none => 0
    { typ := 2, handle := BitVec.ofNat 32 h, a := n, b := 0, obj := none, job := none, issued := s.trd.edge })
  let pages := ceilDiv hs.length 120
  let page (i : Nat) : JrnPage :=
    { seq := s.kst.pageSeq + i + 1, tick := s.trd.edge, ckpt := s.kst.ckptSeq, recs := (recs.drop (120 * i)).take 120 }
  let s1 := { s with kst := { s.kst with
    objs := objs, durable := ((List.range pages).map page).reverse ++ s.kst.durable, pageSeq := s.kst.pageSeq + pages,
    sinceCkpt := s.kst.sinceCkpt + pages } }
  (((s1.kstCount 21 hs.length).kstCount 22 pages).kstCount 23 hs.length).programPages pages

/-- Issue a journal record: it waits for the page of its tick (R344). -/
def State.journal (s : State) (r : JrnRec) : State :=
  ({ s with kst := { s.kst with waiting := s.kst.waiting ++ [r] } }).kstCount 23 1

/-- A grant that has been asked for and waits for leaves (R353). -/
def grantWaits (st : Stateful) : Bool := st.grants.any (fun g => decide (g = (g.1, 0, 0)))

/-- A stateful key's reservation test (R343): when E′ − N falls to half of RESERVE or below, one RESERVE record is
issued that raises E′ by RESERVE, capped at the key end. A grant that waits for RESERVE leaves needs as many reserved (log entry 61). -/
def State.reserveLeaves (s : State) (h : W32) : State :=
  match s.getKey h with
  | some k =>
    match k.st with
    | some st =>
      if !st.stopped && !st.worker && (decide (2 * (st.issued - st.next) ≤ st.reserve) || (grantWaits st && decide (st.issued - st.next < st.reserve)))
          && decide (st.issued < st.keyEnd) then
        let e := min st.keyEnd (st.issued + st.reserve)
        let s1 := s.setKey h { k with st := some { st with issued := e } }
        (s1.journal { typ := 1, handle := h, a := e, b := 0, obj := none, job := none, issued := s.trd.edge }).kstCount 20 1
      else s
    | none => s
  | none => s

/-- KST derives MK and its keys: the PUF value, MS and both DRBGs seeded (R449). -/
def State.kstOpen (s : State) : State :=
  let ok := s.kst.pufOk && s.held.ms.isSome && decide (s.ent.int.state = .seeded) && decide (s.ent.host.state = .seeded)
  if ok then { s with kst := { s.kst with mkHeld := true, jrnHeld := true } } else s

/-- Leaves below one node of level `i` (0 = top): the product over the levels beneath it and its own tree. -/
def levelSpan (ls : List TreeLevel) (i : Nat) : Nat := 2 ^ (((ls.drop i).map (·.height)).sum)

/-- The levels of a key whose next leaf is `n`: a level that stood at another tree has none built there. -/
def placeLevels (ls : List TreeLevel) (n keyEnd : Nat) : List TreeLevel :=
  ls.zipIdx.map (fun p =>
    let t := min n (keyEnd - 1) / levelSpan ls p.2
    if t = p.1.cur then p.1 else { p.1 with cur := t, curBuilt := false, nextBuilt := false, prevHeld := false })

/-- A stateful key moved to a next leaf by a replay or a migration (R341, R352, R468): its trees are those of that leaf. -/
def Stateful.moveTo (st : Stateful) (n : Nat) : Stateful :=
  { st with next := n, levels := placeLevels st.levels n st.keyEnd, traversal := if st.cacheTrees then none else some n }

/-- N := E for a stateful key (R349, R468); a worker's grants lapse with it. -/
def replayKey (k : KeyObj) : KeyObj :=
  match k.st with
  | some st => { k with st := some { st.moveTo (if st.worker then st.next else st.durable) with issued := st.durable } }
  | none => k

/-- KST replays the journal (R468): the durable records hold, N := E for every stateful key, and records that were not
durable are gone. -/
def State.kstReplay (s : State) : State :=
  { s with kst := { s.kst with
      objs := KV.mapV (fun _ k => replayKey k) s.kst.objs, waiting := [], page := [], programming := false,
      replayDone := true } }

end Sys2Proof.Machine
end

