-- ==== Sys2Proof/Machine/Sha2.lean ====
section
/-! DEFINITION. SHA-256, SHA-384, SHA-512 (FIPS 180-4) and HMAC (FIPS 198-1), which the spec names as standards
(PRESUMED from those standards; log entry 6). -/

namespace Sys2Proof.Machine

/-- The fractional parts of the cube roots of the first 80 primes to 64 bits, from which FIPS 180-4 forms the round constants: sixteen to
a number, the first in its low bits. -/
def cubeRoots : List Nat := [
  0xC19BF174CF6926949BDC06A725C7123580DEB1FE3B1696B172BE5D74F27B896F550C7DC3D5FFB4E2243185BE4EE4B28C12835B0145706FBED807AA98A3030242AB1C5ED5DA6D8118923F82A4AF194F9B59F111F1B605D0193956C25BF348B538E9B5DBA58189DBBCB5C0FBCFEC4D3B2F7137449123EF65CD428A2F98D728AE22,
  0x142929670A0E6E7006CA6351E003826FD5A79147930AA725C6E00BF33DA88FC2BF597FC7BEEF0EE4B00327C898FB213FA831C66D2DB43210983E5152EE66DFAB76F988DA831153B55CB0A9DCBD41FBD44A7484AA6EA6E4832DE92C6F592B0275240CA1CC77AC9C650FC19DC68B8CD5B5EFBE4786384F25E3E49B69C19EF14AD2,
  0x106AA07032BBD1B8F40E35855771202AD69906245565A910D192E819D6EF5218C76C51A30654BE30C24B8B70D0F89791A81A664BBC423001A2BFE8A14CF1036492722C851482353B81C2C92E47EDAEE6766A0ABB3C77B2A8650A73548BAF63DE53380D139D95B3DF4D2C6DFC5AC42AED2E1B21385C26C92627B70A8546D22FFC,
  0xC67178F2E372532BBEF9A3F7B2C67915A4506CEBDE82BDE990BEFFFA23631E288CC702081A6439EC84C87814A1F0AB7278A5636F43172F60748F82EE5DEFB2FC682E6FF3D6B2B8A35B9CCA4F7763E3734ED8AA4AE3418ACB391C0CB3C5C95A6334B0BCB5E19B48A82748774CDF8EEB991E376C085141AB5319A4C116B8D2D0C8,
  0x6C44198C4A4758175FCB6FAB3AD6FAEC597F299CFC657E2A4CC5D4BECB3E42B6431D67C49C100D4C3C9EBE0A15C9BEBC32CAAB7B40C7249328DB77F523047D841B710B35131C471B113F9804BEF90DAE0A637DC5A2C898A606F067AA72176FBAF57D4F7FEE6ED178EADA7DD6CDE0EB1ED186B8C721C0C207CA273ECEEA26619C]

/-- The fractional parts of the square roots of the first sixteen primes, from which it forms the initial values. -/
def squareRoots : Nat :=
  0x47B5481DBEFA4FA4DB0C2E0D64F98FA78EB44A876858151167332667FFC00B31152FECD8F70E59399159015A3070DD17629A292A367CD507CBBB9D5DC1059ED85BE0CD19137E21791F83D9ABFB41BD6B9B05688C2B3E6C1F510E527FADE682D1A54FF53A5F1D36F13C6EF372FE94F82BBB67AE8584CAA73B6A09E667F3BCC908

/-- `n` words of 64 bits of a number, from word `i` on. -/
def rootWords (v i n : Nat) : List Nat := (List.range n).map (fun j => v / 2 ^ (64 * (i + j)) % 2 ^ 64)

/-- The round constants of SHA-512; those of SHA-256 are the high halves of the first 64. -/
def k512 : List W64 := (cubeRoots.flatMap (fun v => rootWords v 0 16)).map (BitVec.ofNat 64)
def k256 : List W32 := (k512.take 64).map (fun k => BitVec.ofNat 32 (k.toNat / 2 ^ 32))

/-- The widths, rotations and constants in which SHA-256 and SHA-512 differ. -/
structure ShaKind (w : Nat) where
  bigA   : Nat × Nat × Nat
  bigE   : Nat × Nat × Nat
  small0 : Nat × Nat × Nat
  small1 : Nat × Nat × Nat
  consts : List (BitVec w)

def sha256Kind : ShaKind 32 where
  bigA := (2, 13, 22)
  bigE := (6, 11, 25)
  small0 := (7, 18, 3)
  small1 := (17, 19, 10)
  consts := k256

def sha512Kind : ShaKind 64 where
  bigA := (28, 34, 39)
  bigE := (14, 18, 41)
  small0 := (1, 8, 7)
  small1 := (19, 61, 6)
  consts := k512

/-- Three rotations combined. -/
def rot3 {w : Nat} (r : Nat × Nat × Nat) (x : BitVec w) : BitVec w :=
  x.rotateRight r.1 ^^^ x.rotateRight r.2.1 ^^^ x.rotateRight r.2.2

/-- Two rotations and a shift combined. -/
def rot2s {w : Nat} (r : Nat × Nat × Nat) (x : BitVec w) : BitVec w :=
  x.rotateRight r.1 ^^^ x.rotateRight r.2.1 ^^^ (x >>> r.2.2)

/-- The message schedule, newest word first. -/
def schedule {w : Nat} (k : ShaKind w) : Nat → List (BitVec w) → List (BitVec w)
  | 0, ws => ws
  | n + 1, ws =>
    schedule k n ((rot2s k.small1 (ws.getD 1 0) + ws.getD 6 0 + rot2s k.small0 (ws.getD 14 0) + ws.getD 15 0) :: ws)

/-- One round on the eight working variables. -/
def shaRound {w : Nat} (k : ShaKind w) (v : List (BitVec w)) (wt kt : BitVec w) : List (BitVec w) :=
  match v with
  | [a, b, c, d, e, f, g, h] =>
    let t1 := h + rot3 k.bigE e + ((e &&& f) ^^^ (~~~e &&& g)) + kt + wt
    let t2 := rot3 k.bigA a + ((a &&& b) ^^^ (a &&& c) ^^^ (b &&& c))
    [t1 + t2, a, b, c, d + t1, e, f, g]
  | v => v

/-- Compress one block given as sixteen words. -/
def shaBlock {w : Nat} (k : ShaKind w) (h : List (BitVec w)) (block : List (BitVec w)) : List (BitVec w) :=
  let ws := (schedule k (k.consts.length - 16) block.reverse).reverse
  let v := (ws.zip k.consts).foldl (fun v p => shaRound k v p.1 p.2) h
  (h.zip v).map (fun p => p.1 + p.2)

/-- Cut a byte string into pieces of `n` bytes. -/
def chunks (n : Nat) : Nat → List Byte → List (List Byte)
  | 0, _ => []
  | _, [] => []
  | fuel + 1, bs => bs.take n :: chunks n fuel (bs.drop n)

/-- The padded message in blocks of words: block bytes `b`, word bytes `wb`. -/
def shaPad (b : Nat) (m : List Byte) (total : Nat) : List Byte :=
  let z := (b - (total + 1 + b / 8) % b) % b
  m ++ [0x80] ++ zeros z ++ be (b / 8) (8 * total)

/-- The words of a block, each most significant byte first. -/
def beWords (w : Nat) (bs : List Byte) : List (BitVec w) :=
  (chunks (w / 8) (bs.length / (w / 8) + 1) bs).map (fun c => BitVec.ofNat w (unBe c))

/-- Hash whole blocks from a chaining value. -/
def shaBlocks {w : Nat} (k : ShaKind w) (h : List (BitVec w)) (bs : List Byte) : List (BitVec w) :=
  (chunks (2 * w) (bs.length / (2 * w) + 1) bs).foldl (fun h c => shaBlock k h (beWords w c)) h

/-- The initial values: those of SHA-512 from the first eight primes, of SHA-384 from the next eight, of SHA-256 the high halves of
SHA-512's. -/
def iv512 : List W64 := (rootWords squareRoots 0 8).map (BitVec.ofNat 64)
def iv384 : List W64 := (rootWords squareRoots 8 8).map (BitVec.ofNat 64)
def iv256 : List W32 := iv512.map (fun x => BitVec.ofNat 32 (x.toNat / 2 ^ 32))

def sha256 (m : List Byte) : List Byte :=
  (shaBlocks sha256Kind iv256 (shaPad 64 m m.length)).flatMap (fun x => be 4 x.toNat)
def sha384 (m : List Byte) : List Byte :=
  ((shaBlocks sha512Kind iv384 (shaPad 128 m m.length)).flatMap (fun x => be 8 x.toNat)).take 48
def sha512 (m : List Byte) : List Byte :=
  (shaBlocks sha512Kind iv512 (shaPad 128 m m.length)).flatMap (fun x => be 8 x.toNat)

/-- HMAC with a hash of block `b` (FIPS 198-1). -/
def hmacWith (hash : List Byte → List Byte) (b : Nat) (key m : List Byte) : List Byte :=
  let k := fit b (if b < key.length then hash key else key)
  hash (k.map (· ^^^ 0x5C) ++ hash (k.map (· ^^^ 0x36) ++ m))

end Sys2Proof.Machine
end

