-- ==== Sys2Proof/Machine/Complete.lean ====
section
/-! DEFINITION. Completion of taken entries: the record (R101, R102), the head word (R105, R106), version 1 status words
(R155, R157), the replay window (R110 to R115) and the duplicates that wait (R112). -/

namespace Sys2Proof.Machine

/-- The statuses with which output data is written (R104). -/
def okStatus (st : Nat) : Bool := decide (st < 0x10) && decide (st ≠ 2)

/-- A result with the fields that its status leaves (R104). -/
def normResult (r : Result) : Result :=
  if okStatus r.status then r
  else if r.status = 0x0011 then { r with output := [] }
  else { r with output := [], outLen := 0, noOutput := false }

/-- The OPCODE of a taken entry. -/
def Job.opcode (j : Job) : Nat := bits j.e.ctl 15 0
/-- The queue's entry carries IRQ (R78). -/
def Job.irq (j : Job) : Bool := bit j.e.ctl 28
/-- The entry carries FENCE. -/
def Job.fence (j : Job) : Bool := bit j.e.ctl 29
/-- The completion is decided or written. -/
def Job.finished (j : Job) : Bool := decide (j.phase = .decided) || decide (j.phase = .written)

/-- `CFLAGS` (R102). -/
def cflags (r : Result) : Nat := b2n r.late + 2 * b2n r.retried + 4 * b2n r.noOutput

/-- `TICKS` (R102, R170): edges since the presentation edge, 0 before it, up to the release or refusal edge, or else to the
edge at which the record is written. -/
def ticksField (j : Job) (r : Result) (edge : Nat) : Nat :=
  match j.present with
  | some p => r.ticksTo.getD edge - p
  | none => 0

/-- `HANDLE` (R102). -/
def handleField (j : Job) (r : Result) : W32 := if r.handle = 0 then j.e.keyHandle else r.handle

/-- `CTL` of a completion record (R102). -/
def doneCtl (ctl : W32) : W32 := (ctl &&& 0x3F00FFFF) ||| 0x40000000

/-- Bytes 4 to 63 of the completion record (R102). -/
def recordTail (j : Job) (r : Result) (edge : Nat) : List Byte :=
  le 4 (handleField j r).toNat ++ le 8 j.e.tag.toNat ++ le 2 r.status ++ le 2 (cflags r) ++ le 4 r.outLen
    ++ le 4 (ticksField j r edge) ++ le 4 edge ++ le 8 r.detail.toNat ++ zeros 24

/-- Address of a queue's slot for entry number `n` (R73, R86). -/
def slotAddr (q : Queue) (n : Nat) : Nat := q.ring + 64 * (n % q.depth)

/-- Write output data over the output pieces in order (R25, R85). -/
def State.scatter (s : State) (fn : Nat) : List (Nat × Nat) → List Byte → State
  | [], _ => s
  | (a, n) :: ps, bs => (s.hostWrite fn a (bs.take n)).scatter fn ps (bs.drop n)

/-- The output data of a finished job goes to its buffer (R25, R104). -/
def State.writeOutput (s : State) (j : Job) (r : Result) : State :=
  if okStatus r.status then
    (if bit j.e.flags 1 then s.scatter j.fn j.pieces r.output else s.hostWrite j.fn j.e.outAddr.toNat r.output)
  else s

/-- The head word (R105). -/
def State.writeHead (s : State) (fn : Nat) (q : Queue) : State :=
  (s.hostWrite fn q.headAddr (le 4 q.head ++ le 4 q.epoch)).event 2 3 (some fn) 1

/-- A completion is counted for coalescing (R69, R71); an entry with IRQ makes the message due. One written between two edges has the
most recent edge for its f (DESIGN CHOICE; log entry 57). -/
def countCompletion (q : Queue) (edge : Nat) (irq : Bool) : Queue :=
  { q with unsent := q.unsent + 1, oldest := some (q.oldest.getD edge), irqDue := q.irqDue || irq }

/-- The completion record of one entry (R101): bytes 4 to 63, then bytes 0 to 3. -/
def State.writeRecord (s : State) (id : Nat) (j : Job) (q : Queue) : State :=
  let r := j.result.getD {}
  let a := slotAddr q j.num
  let s1 := s.hostWrite j.fn (a + 4) (recordTail j r s.trd.edge)
  let s2 := s1.hostWrite j.fn a (le 4 (doneCtl j.e.ctl).toNat)
  let s3 := s2.setJob id { j with phase := .written, staging := 0 }
  (s3.setQueue j.fn j.q (countCompletion q s.trd.edge j.irq)).event 2 2 (some j.fn) 1

/-- The status word or record of a version 1 entry that the head passes (R155, R157). -/
def State.writeStatus (s : State) (j : Job) : State :=
  let r := j.result.getD {}
  let w := unLe (slice j.e.params 12 8)
  let addr := w / 8 * 8
  let word := le 2 r.status ++ le 2 (cflags r) ++ le 4 r.outLen
  if addr = 0 then s
  else s.hostWrite j.fn addr
    (if w % 2 = 1 then word ++ le 4 (handleField j r).toNat ++ zeros 4 ++ le 8 r.detail.toNat else word)

/-- The job of a queue's entry number. -/
def State.jobAt (s : State) (fn q n : Nat) : Option (Nat × Job) :=
  s.jobs.find? (fun p => decide (p.2.fn = fn) && decide (p.2.q = q) && decide (p.2.num = n) && p.2.cluster.isNone)

/-- HEAD passes the finished entries at it, version 1 entries with their status words; the passed jobs are forgotten.
Answers whether HEAD moved. -/
def State.advanceHead : Nat → State → Nat → Nat → State × Bool
  | 0, s, _, _ => (s, false)
  | fuel + 1, s, fn, q =>
    match s.getQueue fn q with
    | none => (s, false)
    | some x =>
      match s.jobAt fn q x.head with
      | none => (s, false)
      | some (id, j) =>
        if j.phase = .written ∨ (x.ver = 1 ∧ j.phase = .decided) then
          let s1 := if x.ver = 1 ∧ j.phase = .decided then (s.writeStatus j).event 2 2 (some fn) 1 else s
          let x1 := if x.ver = 1 ∧ j.phase = .decided then countCompletion x s.trd.edge j.irq else x
          let s2 := s1.setQueue fn q { x1 with head := x.head + 1 }
          let s3 : State := { s2 with jobs := KV.erase s2.jobs id }
          ((State.advanceHead fuel s3 fn q).1, true)
        else (s, false)

/-- HEAD advances and the head word is written when it moved (R106). -/
def State.moveHead (s : State) (fn q : Nat) : State :=
  let r := State.advanceHead (s.jobs.length + 1) s fn q
  if r.2 then (match r.1.getQueue fn q with | some x => r.1.writeHead fn x | none => r.1) else r.1

/-- Decided completions of a queue are written in place: at once, or on an ORDERED queue in entry order (R108).
Version 1 queues complete through the head alone (R155). -/
def State.flushOne (s : State) (fn q id : Nat) : State :=
  match s.getQueue fn q, KV.get? s.jobs id with
  | some x, some j =>
    if j.phase ≠ .decided then s
    else if x.ver = 1 then s.moveHead fn q
    else if x.ordered && s.jobs.any (fun p => decide (p.2.fn = fn) && decide (p.2.q = q) && decide (p.2.num < j.num)
        && decide (p.2.phase ≠ .written) && p.2.cluster.isNone) then s
    else (s.writeRecord id j x).moveHead fn q
  | _, _ => s

/-- All decided completions of a queue, in entry order. -/
def State.flushQueue (s : State) (fn q : Nat) : State :=
  let ids := ((s.jobs.filter (fun p => decide (p.2.fn = fn) && decide (p.2.q = q) && decide (p.2.phase = .decided)
    && p.2.cluster.isNone)).mergeSort (fun a b => a.2.num ≤ b.2.num)).map (·.1)
  ids.foldl (fun t i => t.flushOne fn q i) s

/-- The window record of a job after its completion (R114). -/
def closeWindow (w : List WinRec) (id : Nat) (r : Result) (h : W32) : List WinRec :=
  w.filterMap (fun x =>
    if x.job = id ∧ !x.done then
      (if r.status < 0x10 then
        some { x with done := true, status := r.status, cflags := cflags r, outLen := r.outLen, handle := h, detail := r.detail }
      else none)
    else some x)

/-- The key held for a job is let go (R445); a deleted key with no holder left is due for its cleanup (R462). -/
def State.releaseKey (s : State) (id : Nat) (j : Job) : State :=
  match j.heldKey with
  | none => s
  | some h =>
    match s.getKey h with
    | none => s
    | some k =>
      let k1 := { k with holders := k.holders.filter (· ≠ id), lastUse := s.trd.edge }
      let s1 := s.setKey h k1
      if k1.deleted ∧ k1.holders = [] then { s1 with kst := { s1.kst with cleanup := s1.kst.cleanup ++ [h] } } else s1

/-- Where the secret field of a frame's payload starts: the output of a RESULT, the key material of a KEY_PUT, the range of a GRANT
(R656). A frame of any other type has none. -/
def secretFrom (code : Nat) : Option Nat :=
  match code with
  | 5 => some 68
  | 8 => some 12
  | 12 => some 4
  | 0x105 | 0x108 => some 0
  | _ => none

/-- A payload on the link: its secret field is AES-KWP under the wrap key (R656). -/
def linkPayload (wrap : List Byte) (code : Nat) (payload : List Byte) : List Byte :=
  match secretFrom code with
  | some n => if n < payload.length then payload.take n ++ kwpSeal wrap (payload.drop n) else payload
  | none => payload

/-- The bytes of a frame: header, payload and truncated tag (R656). A TRAIN frame goes before there is a key, and its tag is zero. -/
def State.frameBytes (s : State) (port code dst seq : Nat) (payload : List Byte) : List Byte :=
  let keys := (vget s.plk.ports port {}).keys
  let body := linkPayload (keys.drop 32) code payload
  let tick := (s.trd.edge : Int) + (if bits s.plk.cfg 25 24 = 2 then s.plk.offset else 0)
  let covered := le 2 code ++ le 2 body.length ++ [BitVec.ofNat 8 (bits s.plk.cfg 4 0), BitVec.ofNat 8 dst, 0, 0]
    ++ le 4 seq ++ le 4 (BitVec.ofInt 32 tick).toNat ++ body
  covered ++ (if code = 1 then zeros 16 else (hmacWith sha256 64 (keys.take 32) covered).take 16)

/-- A head under a power warning sends nothing further (R664). -/
def State.linkQuiet (s : State) : Bool := s.pcr.warn && decide (bits s.plk.cfg 25 24 = 1)

/-- One frame goes out. -/
def State.putFrame (s : State) (port code dst seq : Nat) (payload : List Byte) : State :=
  if s.linkQuiet then s else s.emit (.plkFrame port code dst payload (s.frameBytes port code dst seq payload))

/-- One frame of a message: numbered, kept until it is known to be received, and counted (R656, R666). -/
def State.sendPiece (s : State) (port code dst : Nat) (payload : List Byte) : State :=
  let p := vget s.plk.ports port {}
  let p1 := { p with txSeq := p.txSeq + 1, sent := (p.sent ++ [(p.txSeq, code, dst, payload, 0)]).drop (p.sent.length + 1 - 64) }
  let c := vmod (vmod s.plk.cnt 0 0 (· + 1)) 2 0 (· + (32 + (linkPayload (p.keys.drop 32) code payload).length))
  let s1 : State := { s with plk := { s.plk with ports := vset s.plk.ports port p1, cnt := c } }
  (s1.putFrame port code dst p.txSeq payload).event 0x60 1 none 1

/-- Send a message on a Peer Link port (R656): a frame, and continuation frames as its length needs. A piece leaves room for the wrapping
of its secret field. -/
def State.sendFrame (s : State) (port typ dst : Nat) (payload : List Byte) : State :=
  if s.linkQuiet then s
  else (List.range ((payload.length - 1) / 4080)).foldl
    (fun t i => t.sendPiece port (typ + 256) dst ((payload.drop (4080 * (i + 1))).take 4080)) (s.sendPiece port typ dst (payload.take 4080))

/-- The completion of a job of the cluster context goes back to the head as RESULT (R659). -/
def State.sendResult (s : State) (id fid port : Nat) (j : Job) (r : Result) : State :=
  let record := le 4 (doneCtl j.e.ctl).toNat ++ recordTail j r s.trd.edge
  let s1 := s.sendFrame port 5 0 (le 4 fid ++ record ++ r.output)
  { s1 with jobs := KV.erase s1.jobs id }

/-- A job that ends without its object gives the index back, as nothing was created (R440), and an object it had created
is dropped. -/
def State.dropCreated (s : State) (j : Job) (r : Result) : State :=
  match j.created with
  | none => s
  | some h =>
    if r.status < 0x10 then s
    else
      let last := KV.getD s.kst.lastIdx j.fn 0
      { s with kst := { s.kst with
          objs := KV.erase s.kst.objs h.toNat,
          lastIdx := if last = h.toNat % 16777216 then KV.set s.kst.lastIdx j.fn (last - 1) else s.kst.lastIdx,
          waiting := s.kst.waiting.filter (fun x => decide (x.handle ≠ h)) } }

/-- The EPHEMERAL key a job has consumed is deleted when the job completes (R296). -/
def State.consumeKey (s : State) (j : Job) : State :=
  match j.heldKey, j.consumes with
  | some h, true => (match s.getKey h with | some k => s.setKey h { k with deleted := true } | none => s)
  | _, _ => s

/-- Record the decided result of a job (R114, R120): its bookings go, its key is let go and its window record closes. -/
def State.record (s : State) (id : Nat) (j : Job) (r : Result) : State :=
  let s1 := ((((s.consumeKey j).releaseKey id j)).dropCreated j r).setJob id { j with result := some r, phase := .decided, heldKey := none }
  let s2 : State := { s1 with trd := { s1.trd with
    plan := s1.planWithout (fun b => decide (b.job = some id)),
    signQ := s1.trd.signQ.map (fun x => { x with chains := x.chains.filter (fun c => decide (c.1 ≠ id)) }),
    pages := s1.trd.pages.filter (fun x => decide (x.1 ≠ id)) } }
  match s2.getQueue j.fn j.q with
  | some x => s2.setQueue j.fn j.q { x with window := closeWindow x.window id r (handleField j r) }
  | none => s2

/-- What a waiting duplicate completes with (R112). -/
def dupResult (j : Job) (r : Result) : Result :=
  { r with status := if r.status = 0 then 1 else r.status, handle := handleField j r, ticksTo := none }

/-- The duplicates that wait for a job complete after it, with its output (R112). -/
def State.finishDuplicates (s : State) (id : Nat) (j : Job) (r : Result) : State :=
  (s.jobs.filter (fun p => decide (p.2.dupOf = some id) && !p.2.finished)).foldl (fun t p =>
    let d := dupResult j r
    ((t.writeOutput p.2 d).record p.1 p.2 d).flushQueue p.2.fn p.2.q) s

/-- Scorched data has bitten in a job (R563): `MEM` counter BITES. -/
def State.countBite (s : State) (j : Job) (st : Nat) : State :=
  if st = 0x0050 then
    ({ s with mem := { s.mem with cnt := vmod s.mem.cnt 7 0 (· + 1) } } : State).event 0x40 3 (if j.cluster.isSome then none else some j.fn) 1
  else s

/-- A job's completion is decided and, as far as the queue's order lets it, written; `output` data is written first
(R25). A job that has a completion already keeps it (R40, R120). -/
def State.finish (s : State) (id : Nat) (r0 : Result) : State :=
  match KV.get? s.jobs id with
  | none => s
  | some j =>
    if j.finished then s
    else
      let r := normResult { r0 with retried := r0.retried || j.retried }
      match j.cluster with
      | some (fid, port) => (((s.countBite j r.status).releaseKey id j).sendResult id fid port { j with heldKey := none } r)
      | none =>
        let s1 := (((s.countBite j r.status).writeOutput j r).record id j r).flushQueue j.fn j.q
        s1.finishDuplicates id j r

/-- A completion with a status alone. -/
def State.finishWith (s : State) (id status : Nat) : State := s.finish id { status := status }

/-- `DETAIL` of `PATCH_ACTIVATE` (R517): the engines that run the boot image. -/
def State.patchDetail (s : State) : Nat :=
  match s.patches.active.bind (KV.get? s.patches.images) with
  | none => 0
  | some im =>
    let runs (b : Bobbin) : Bool := decide (b.patchId = im.id) && decide (b.seq = im.seq)
    (List.range s.pvus).foldl (fun w n => if runs (s.getPvu n).bob && !s.retired (0x10 + n) then w + 2 ^ n else w) 0
      + (List.range s.bnes).foldl (fun w n => if runs (s.getBne n).bob && !s.retired (0x20 + n) then w + 2 ^ (16 + n) else w) 0

/-- The result of a bare status. -/
def status (st : Nat) : Result := { status := st }
/-- The result of a status with `DETAIL`. -/
def statusDetail (st detail : Nat) : Result := { status := st, detail := BitVec.ofNat 64 detail }
/-- A success with output. -/
def okOut (bs : List Byte) : Result := { output := bs, outLen := bs.length }
/-- `OK` or `VERIFY_FAIL` (R301, R334). -/
def verdict (ok : Bool) : Result := if ok then {} else status 0x0002

/-- Jobs of one queue that are unfinished. -/
def State.queueJobs (s : State) (fn q : Nat) : List Nat :=
  (s.jobs.filter (fun p => decide (p.2.fn = fn) && decide (p.2.q = q) && !p.2.finished && p.2.cluster.isNone)).map (·.1)

/-- A disabled admin queue with nothing left unfinished is closed (R129). -/
def State.aqClose (s : State) (fn : Nat) : State :=
  let f := s.getFn fn
  if f.aqEnabled && !bit f.aqCfg 31 && (s.queueJobs fn 64).isEmpty then
    { s.setFn fn { f with aqEnabled := false } with
      queues := KV.erase s.queues (qkey fn 64),
      jobs := s.jobs.filter (fun p => !(decide (p.2.fn = fn) && decide (p.2.q = 64))) }
  else s

/-- Every admin queue that drains and has nothing left is closed (R129). -/
def State.aqCloseAll (s : State) : State := (s.funcs.map (·.1)).foldl State.aqClose s

/-- Every taken, unfinished entry completes with a status, oldest first (R594, R614, R721); a patch activation tells how far
it has come (R518). -/
def State.completeTaken (s : State) (status : Nat) : State :=
  ((s.jobs.map (·.1)).foldl (fun t id => t.finish id {
    status := status, detail := if (t.getJob id).opcode = 0x0099 ∧ (t.getJob id).q = 64 then BitVec.ofNat 64 t.patchDetail else 0 }) s).aqCloseAll

end Sys2Proof.Machine
end

