-- ==== Sys2Proof/Machine/Hearth.lean ====
section
/-! DEFINITION. Fault collection: sources and their defaults (R585, R586 and the blocks' source tables), counting and
escalation (R579 to R582), the fault log (R583, R584, R744), responses (R576 to R578), SAFE_HALT (R594, R595). -/

namespace Sys2Proof.Machine

/-- The channel that a DEGRADED event of a source retires (R585). -/
inductive Channel where
  | none
  | engine (code : Nat)
  | core
  | entSource (n : Nat)
  | tickIn
  | lane
  | region
  | slot
  | port
  deriving DecidableEq, Repr

/-- What the source tables say of a source; `w` is in 10 ms units. -/
structure SrcInfo where
  cls   : Nat
  n     : Nat := 0
  w     : Nat := 0
  relax : Bool := true
  chan  : Channel := .none
  deriving DecidableEq, Repr

/-- The sources of the engines (R236, R404). -/
def engineSource (code lo : Nat) : Option SrcInfo :=
  if lo = 0 ∨ lo = 1 then some { cls := 1, n := 3, w := 1000, relax := false, chan := .engine code }
  else if lo = 2 then some { cls := 1 }
  else if lo = 3 then some { cls := 0 }
  else if lo = 4 then some { cls := 2, relax := false, chan := .engine code }
  else if lo = 5 then
    (if code < 0x20 then some { cls := 0 } else some { cls := 3, relax := false, chan := .engine code })
  else if lo = 6 ∧ 0x20 ≤ code then some { cls := 0 }
  else none

/-- The source table of every block; none = an unimplemented ID. -/
def srcInfo (id : Nat) : Option SrcInfo :=
  let b := id / 256
  let lo := id % 256
  if 0x10 ≤ b ∧ b < 0x28 then engineSource b lo
  else match b, lo with
  | 0x01, 0 => some { cls := 0 }
  | 0x01, 1 => some { cls := 1, n := 32, w := 100, chan := .lane }
  | 0x02, 0 => some { cls := 0 }
  | 0x02, 1 => some { cls := 0 }
  | 0x02, 2 => some { cls := 1, n := 4, w := 1000, relax := false }
  | 0x03, 0 => some { cls := 0 }
  | 0x03, 1 => some { cls := 1, n := 8, w := 1000, chan := .tickIn }
  | 0x28, 0 => some { cls := 1, n := 3, w := 1000, relax := false, chan := .core }
  | 0x28, 1 => some { cls := 2, relax := false, chan := .core }
  | 0x30, 0 => some { cls := 1, n := 8, w := 1000 }
  | 0x30, 1 => some { cls := 2, relax := false }
  | 0x31, 8 => some { cls := 2, relax := false }
  | 0x31, 9 => some { cls := 1 }
  | 0x31, 10 => some { cls := 3, relax := false }
  | 0x31, 11 => some { cls := 3, relax := false }
  | 0x31, 12 => some { cls := 0 }
  | 0x31, 13 => some { cls := 3, relax := false }
  | 0x31, n => if n < 8 then some { cls := 1, n := 4, w := 100, chan := .entSource n } else none
  | 0x32, 0 => some { cls := 1, n := 16, w := 360000 }
  | 0x32, 1 => some { cls := 3, relax := false }
  | 0x32, 2 => some { cls := 1 }
  | 0x32, 3 => some { cls := 0 }
  | 0x32, 4 => some { cls := 2, relax := false }
  | 0x40, 0 => some { cls := 1 }
  | 0x40, 1 => some { cls := 1, n := 4, w := 360000, chan := .region }
  | 0x40, 2 => some { cls := 1 }
  | 0x40, 3 => some { cls := 1, n := 4, w := 360000, chan := .region }
  | 0x40, 4 => some { cls := 1 }
  | 0x40, 5 => some { cls := 1, n := 4, w := 360000, chan := .region }
  | 0x40, 6 => some { cls := 1, n := 2, w := 360000 }
  | 0x40, 7 => some { cls := 0 }
  | 0x40, 8 => some { cls := 2, relax := false, chan := .region }
  | 0x40, 9 => some { cls := 2, relax := false }
  | 0x40, 10 => some { cls := 4, relax := false }
  | 0x40, 11 => some { cls := 2, relax := false }
  | 0x41, 0 => some { cls := 0 }
  | 0x41, 1 => some { cls := 1 }
  | 0x41, 2 => some { cls := 1 }
  | 0x41, 3 => some { cls := 1 }
  | 0x41, 4 => some { cls := 3, relax := false }
  | 0x41, 5 => some { cls := 2, relax := false }
  | 0x41, 6 => some { cls := 2, relax := false }
  | 0x50, 0 => some { cls := 0 }
  | 0x51, 0 => some { cls := 3, relax := false }
  | 0x51, 1 => some { cls := 1, n := 8, w := 100 }
  | 0x51, 2 => some { cls := 1 }
  | 0x51, 3 => some { cls := 2, relax := false }
  | 0x51, 4 => some { cls := 0 }
  | 0x52, 0 => some { cls := 0 }
  | 0x52, 1 => some { cls := 0 }
  | 0x52, 2 => some { cls := 4, relax := false }
  | 0x58, 0 => some { cls := 0 }
  | 0x58, 1 => some { cls := 1, n := 4, w := 1000, chan := .slot }
  | 0x58, 2 => some { cls := 1, n := 8, w := 60000, relax := false }
  | 0x58, 3 => some { cls := 0 }
  | 0x60, 0 => some { cls := 1, n := 32, w := 100, chan := .lane }
  | 0x60, 1 => some { cls := 1, n := 3, w := 1000, chan := .port }
  | 0x60, 2 => some { cls := 0 }
  | 0x60, 3 => some { cls := 0 }
  | 0x60, 4 => some { cls := 1, n := 4, w := 100, relax := false, chan := .port }
  | 0x60, 5 => some { cls := 1 }
  | 0x60, 6 => some { cls := 2, relax := false }
  | 0x70, 0 => some { cls := 2, relax := false }
  | 0x70, 1 => some { cls := 0 }
  | 0x71, 0 => some { cls := 0 }
  | 0x71, 1 => some { cls := 3, relax := false }
  | 0x71, 2 => some { cls := 4, relax := false }
  | 0x71, 3 => some { cls := 0, relax := false }
  | 0x71, 4 => some { cls := 4, relax := false }
  | 0x71, 5 => some { cls := 0 }
  | 0x72, 0 => some { cls := 0 }
  | 0x72, 1 => some { cls := 1 }
  | 0x72, 2 => some { cls := 2, relax := false, chan := .engine 0 }
  | 0x72, 3 => some { cls := 1 }
  | 0x72, 4 => some { cls := 2, relax := false }
  | 0x72, 5 => some { cls := 0 }
  | 0x7F, 0 => some { cls := 4, relax := false }
  | 0x7F, 1 => some { cls := 4, relax := false }
  | _, _ => none

/-- A fault event with the job it affects (R584). -/
structure Event where
  src    : Nat
  detail : Nat := 0
  fn     : Nat := 0xFF
  tag    : W64 := 0
  queue  : Nat := 0xFFFF
  status : Nat := 0
  forced : Bool := false
  drill  : Bool := false
  /-- a raw class that the event's circumstances fix (TAMPER with LOG, R626; SRAM_UE in region 26, R585) -/
  raw    : Option Nat := Option.none
  deriving DecidableEq, Repr

def State.getSrc (s : State) (id : Nat) : SrcRec := KV.getD s.hrt.src id {}
def State.setSrc (s : State) (id : Nat) (r : SrcRec) : State := { s with hrt := { s.hrt with src := KV.set s.hrt.src id r } }

/-- N and W in force of a source (R585). -/
def State.srcN (s : State) (id : Nat) : Nat := (s.getSrc id).n.getD (match srcInfo id with | some i => i.n | none => 0)
def State.srcW (s : State) (id : Nat) : Nat := (s.getSrc id).w.getD (match srcInfo id with | some i => i.w | none => 0)

/-- A computation-fault source of an engine, marked C (R580, R585). -/
def isComputeSource (id : Nat) : Bool :=
  decide (0x10 ≤ id / 256) && decide (id / 256 < 0x28) && decide (id % 256 < 2)

/-- Index of an engine's block code among the 24 (R599). -/
def engIndex (code : Nat) : Nat := if code < 0x20 then code - 0x10 else 16 + (code - 0x20)
/-- Block code of engine `e` of the 24. -/
def engCode (e : Nat) : Nat := if e < 16 then 0x10 + e else 0x20 + (e - 16)

/-- The times that still count toward the window, with the new one (R579). -/
def windowTimes (times : List Nat) (now w : Nat) : List Nat :=
  now :: times.filter (fun t => decide (now < t + w * 10000))

/-- The recorded times that count with this event's: per engine for C sources (R580), per core for the Hash Array,
per region for uncorrectable errors (R585), else per source. -/
def State.countTimes (s : State) (e : Event) : List Nat :=
  if isComputeSource e.src then vget s.hrt.engTimes (engIndex (e.src / 256)) []
  else if e.src = 0x2800 then KV.getD s.hrt.coreTimes e.detail []
  else if e.src = 0x4001 ∨ e.src = 0x4003 ∨ e.src = 0x4005 then KV.getD s.hrt.regionTimes (e.src * 256 + e.detail % 256) []
  else (s.getSrc e.src).times

def State.setCountTimes (s : State) (e : Event) (ts : List Nat) : State :=
  if isComputeSource e.src then
    { s with hrt := { s.hrt with engTimes := vset s.hrt.engTimes (engIndex (e.src / 256)) ts } }
  else if e.src = 0x2800 then { s with hrt := { s.hrt with coreTimes := KV.set s.hrt.coreTimes e.detail ts } }
  else if e.src = 0x4001 ∨ e.src = 0x4003 ∨ e.src = 0x4005 then
    { s with hrt := { s.hrt with regionTimes := KV.set s.hrt.regionTimes (e.src * 256 + e.detail % 256) ts } }
  else s.setSrc e.src { s.getSrc e.src with times := ts }

/-- The source whose N and W count the event: an engine's COMPUTE source for its C sources (R580). -/
def countSource (id : Nat) : Nat := if isComputeSource id then id / 256 * 256 else id

/-- The events counted in the window that ends now (`HRT_SRC_STAT.COUNT`, `HRT_ENGCNTe.WINDOW`, R600). -/
def State.windowCount (s : State) (e : Event) : Nat :=
  ((s.countTimes e).filter (fun t => decide (s.us < t + s.srcW (countSource e.src) * 10000))).length

/-- The raw class of an event. -/
def rawClass (e : Event) : Nat := e.raw.getD (match srcInfo e.src with | some i => i.cls | none => 0)

/-- Counting applies to raw classes NOTE and CORRECTED, and never to tamper (R579, R587). -/
def counts (e : Event) : Bool := decide (rawClass e ≤ 1) && decide (e.src ≠ 0x5100)

/-- The event is the Nth of its source within W (R579). -/
def State.promotes (s : State) (e : Event) : Bool :=
  let n := s.srcN (countSource e.src)
  counts e && decide (n ≠ 0) &&
    decide (n ≤ (windowTimes (s.countTimes e) s.us (s.srcW (countSource e.src))).length)

/-- The event meets a latched, unacknowledged source of its class (R581). -/
def State.escalates (s : State) (e : Event) (cls : Nat) : Bool :=
  decide (e.src ≠ 0x5100) && (decide (cls = 2) || decide (cls = 3)) &&
    s.hrt.src.any (fun p => decide (p.2.latched = some cls))

/-- The effective class of an event with its promotion and escalation (R576). -/
def State.effective (s : State) (e : Event) : Nat × Bool × Bool :=
  let p := s.promotes e
  let c := rawClass e + b2n p
  let x := s.escalates e c
  (c + b2n x, p, x)

/-- MAINTENANCE: a forced event counts and responds as a real one (R592). -/
def State.maintenance (s : State) : Bool := decide (s.held.life = 4)

/-- One record of the fault log (R584) and `HRT_RECENTk`. -/
def State.logFault (s : State) (r : FltRec) : State :=
  let h := s.hrt
  let word : W32 := BitVec.ofNat 32 (r.ecls * 2 ^ 29 + (if r.flags % 8 / 4 = 1 then 2 ^ 28 else 0)
    + (r.tick % 4096) * 65536 + r.source % 65536)
  let h1 := { h with log := (r :: h.log).take 8192, logSeq := h.logSeq + 1, recent := KV.set h.recent (r.seq % 32) word }
  let s1 := { s with hrt := h1 }
  if 3 ≤ r.ecls then { s1 with held := { s1.held with faultRing := (r :: s1.held.faultRing).take 256 } } else s1

/-- The bytes of a fault-log record (R584). -/
def fltRecBytes (r : FltRec) : List Byte :=
  le 8 r.seq ++ le 8 r.tick ++ le 2 r.source ++ le 1 r.cls ++ le 1 r.ecls ++ le 1 r.flags ++ le 1 r.fn
    ++ zeros 2 ++ le 8 r.detail ++ le 8 r.tag.toNat ++ le 2 r.queue ++ le 2 r.status ++ zeros 20

/-- The first-error latch (R583); a FATAL event is latched as the halt cause too. -/
def State.latchFirst (s : State) (e : Event) (cls : Nat) : State :=
  let h := s.hrt
  if cls < bits h.cfg 3 2 then s
  else
    match h.first with
    | some _ => { s with hrt := { h with overflow := true } }
    | none =>
      let s1 := { s with hrt := { h with
        first := some { source := e.src, cls := cls, tick := s.trd.edge, detail := e.detail % 2 ^ 32 } } }
      s1.cause 0x50 0

/-- Class latched for a source: the higher of what is latched and the new class (DEDUCED from R582). -/
def latchClass (old : Option Nat) (cls : Nat) : Option Nat :=
  match old with
  | some c => some (max c cls)
  | none => some cls

/-- Everything a recorded event does besides its response: latch, counts and log (R326, R576, R579, R584, R744).
`room` says that no record has been made in the same microsecond. -/
def State.noteEvent (s : State) (e : Event) (ecls : Nat) (promoted escalated counted room : Bool) (retires : Bool) : State :=
  let ts := windowTimes (s.countTimes e) s.us (s.srcW (countSource e.src))
  let s1 := if counts e && counted then s.setCountTimes e (if promoted then [] else ts) else s
  let r := s1.getSrc e.src
  let s2 := s1.setSrc e.src { r with
    events := satAdd r.events 1 0xFFFF, lastClass := ecls, latched := latchClass r.latched ecls }
  let s3 : State := if isComputeSource e.src then
    { s2 with hrt := { s2.hrt with engTotal := vmod s2.hrt.engTotal (engIndex (e.src / 256)) 0 (fun x => satAdd x 1 0xFFFF) } }
    else if e.src = 0x2800 then { s2 with hsa := { s2.hsa with flt := vmod s2.hsa.flt e.detail 0 (fun x => satAdd x 1 255) } }
    else s2
  let k := e.src / 256
  let b := s3.getBlk k
  let s4 := s3.setBlk k { b with fltEvents := satAdd b.fltEvents 1 0xFFFFFF, fltLast := e.src % 256 }
  let s5 : State := { s4 with hrt := { s4.hrt with
    classCnt := vmod s4.hrt.classCnt ecls 0 (fun x => satAdd x 1 0xFFFFFFFF) } }
  let isFirst := s5.hrt.first.isNone && decide (bits s5.hrt.cfg 3 2 ≤ ecls)
  let s6 := s5.latchFirst e ecls
  let logs := decide (ecls ≠ 1) || bit s6.hrt.cfg 0
  let flags := b2n promoted + 2 * b2n escalated + 4 * b2n e.forced + 8 * b2n e.drill + 16 * b2n retires + 32 * b2n isFirst
  let rec_ : FltRec := {
    seq := s6.hrt.logSeq, tick := s6.trd.edge, source := e.src, cls := rawClass e, ecls := ecls,
    flags := flags, fn := e.fn, detail := e.detail, tag := e.tag, queue := e.queue, status := e.status }
  let s7 := if !logs then s6
    else if room then
      let t := s6.logFault rec_
      if 2 ≤ ecls then t.emit (.uart (fltRecBytes rec_)) else t
    else { s6 with hrt := { s6.hrt with lost := satAdd s6.hrt.lost 1 0xFFFFFFFF } }
  let s8 := if promoted then s7.cause 0x50 1 else s7
  let s9 := if escalated then s8.cause 0x50 2 else s8
  ((s9.event 0x50 1 none 1).event 0x50 2 none (b2n promoted)).irqSync k

/-- The channel of an event: LEAK_EXHAUSTED names its engine in the detail. -/
def eventChannel (e : Event) : Channel :=
  match srcInfo e.src with
  | some i => (match i.chan with | .engine 0 => .engine (e.detail % 256) | c => c)
  | none => .none

/-- An engine or core retirement is noted; it takes effect at the next edge (R577). Codes of Hash Array cores are
256 + core. -/
def State.markRetiring (s : State) (code : Nat) : State :=
  if s.trd.retiring.contains code || s.retired code then s
  else (({ s with trd := { s.trd with retiring := s.trd.retiring ++ [code] } } : State).cause 0x50 3).event 0x50 3 none 1

/-- The event retires a channel: memories outside the engines give up rows or capacity, and TICK_IN its selection (R567, R585). -/
def eventRetires (e : Event) : Bool :=
  match eventChannel e with
  | .none | .tickIn => false
  | .region => decide (e.detail % 256 < 24) || (decide (27 ≤ e.detail % 256) && decide (e.detail % 256 < 51))
  | _ => true

/-- Lanes in use: 4, 2 or 1 (R653). -/
def trainWidth (lanes : Nat) : Nat := if 4 ≤ lanes then 4 else if 2 ≤ lanes then 2 else lanes

/-- Retire the channel of a DEGRADED event (R576, R585). -/
def State.retireChannel (s : State) (e : Event) : State :=
  match eventChannel e with
  | .none => s
  | .engine code => s.markRetiring code
  | .core => s.markRetiring (256 + e.detail)
  | .entSource n =>
    let x := vget s.ent.sources n {}
    let s1 : State := { s with ent := { s.ent with sources := vset s.ent.sources n { x with state := .retired } },
                               hrt := { s.hrt with retired := (e.src, n) :: s.hrt.retired } }
    ((s1.cause 0x31 0).cause 0x50 3).event 0x50 3 none 1
  | .tickIn => { s with trd := { s.trd with source := 0, locked := false, cfg := merge 0xC0000000 s.trd.cfg 0 } }
  | .lane =>
    let s1 : State := { s with hrt := { s.hrt with retired := (e.src, e.detail) :: s.hrt.retired } }
    let s2 : State := if e.src = 0x0101 then { s1 with pcr := { s1.pcr with linkWidth := max 1 (s1.pcr.linkWidth / 2) } }
      else
        let x := vget s1.plk.ports e.detail {}
        { s1 with plk := { s1.plk with
          ports := vset s1.plk.ports e.detail { x with
            lanes := max 1 (x.lanes - 1), width := min x.width (trainWidth (max 1 (x.lanes - 1))), retrains := satAdd x.retrains 1 0xFF } } }
    (s2.cause 0x50 3).event 0x50 3 none 1
  | .region =>
    let r := e.detail % 256
    if r < 16 then s.markRetiring (0x10 + r)
    else if r < 24 then s.markRetiring (0x20 + (r - 16))
    else if 27 ≤ r ∧ r < 43 then s.markRetiring (0x10 + (r - 27))
    else if 43 ≤ r ∧ r < 51 then s.markRetiring (0x20 + (r - 43))
    else s
  | .slot =>
    let x := vget s.thm.slots e.detail {}
    let s1 : State := { s with thm := { s.thm with slots := vset s.thm.slots e.detail { x with disabled := true } },
                               hrt := { s.hrt with retired := (e.src, e.detail) :: s.hrt.retired } }
    (s1.cause 0x50 3).event 0x50 3 none 1
  | .port =>
    let x := vget s.plk.ports e.detail {}
    let s1 : State := { s with plk := { s.plk with ports := vset s.plk.ports e.detail { x with state := 4 } },
                               hrt := { s.hrt with retired := (e.src, e.detail) :: s.hrt.retired } }
    (s1.cause 0x50 3).event 0x50 3 none 1

/-- The block codes of the domain that a SEVERE event stops (R578, R585, R586). -/
def State.severeDomain (s : State) (e : Event) : List Nat :=
  if e.src = 0x7101 then (List.range 0x29).filter (fun c => decide (0x10 ≤ c) && s.present c)
  else match eventChannel e with
  | .engine code => [code]
  | _ => [e.src / 256]

/-- The memories of the engines are cleared (R594 step 3, R614 step 3, R216, R383). -/
def clearedPvu (p : Pvu) : Pvu :=
  { p with l := Vector.replicate 32 0, s := Vector.replicate 32 0, x := Vector.replicate 32 0, p := Vector.replicate 8 0,
           m := Vector.replicate 4 {}, ku := Vector.replicate 2 {}, lTag := Vector.replicate 32 .pub,
           sTag := Vector.replicate 32 .pub, xTag := Vector.replicate 32 .pub,
           lScorch := Vector.replicate 32 0, sScorch := Vector.replicate 32 0, xScorch := 0, pScorch := Vector.replicate 8 0,
           ls := [], lsTag := [], lsScorch := [], keyShares := [], keyScorched := false, phase := .dummy,
           jobId := none, pin := none, pinning := none, unpinning := false, segEnd := .none }

/-- The operand memory, the buffers and the hash helper of a BNE are cleared and read back as zero (R383). -/
def clearedBne (b : Bne) : Bne :=
  { b with slots := Vector.replicate 128 0, scorch := Vector.replicate 128 0, inBuf := [], outBuf := [],
           inScorched := false, randBuf := [], keyParts := [], keyScorched := false, phase := .idle, jobId := none,
           pathDone := false, realCyc := 0, zeroing := false, zeroOk := true, helper := 0 }

/-- The EXC_LAST.CAUSE codes (R403). -/
inductive BneCause where
  | compute
  | invariant
  | squash
  | deviceState
  | powerWarn
  | cmdInvalid
  | poison
  deriving DecidableEq, Repr

def BneCause.code : BneCause → Nat
  | .compute => 1
  | .invariant => 2
  | .squash => 3
  | .deviceState => 4
  | .powerWarn => 5
  | .cmdInvalid => 6
  | .poison => 7

/-- Invariant failures and residue-check failures have counters of their own (R402). -/
def BneCause.counted (c : BneCause) (v : Vector Nat 11) : Vector Nat 11 :=
  match c with
  | .compute => vmod v 6 0 (· + 1)
  | .invariant => vmod v 5 0 (· + 1)
  | _ => v

/-- A run is aborted (R383): the memories are cleared, and the rest of W carries dummy steps. -/
def State.bneAbort (s : State) (n : Nat) (c : BneCause) : State :=
  let b := s.getBne n
  let b1 := { clearedBne b with
    phase := b.phase, jobId := b.jobId, pathDone := true, realCyc := b.realCyc, bob := b.bob.fresh, zeroing := true, zeroOk := b.zeroOk,
    excLast := BitVec.ofNat 32 (c.code * 2 ^ 24 + b.runFn % 256 * 65536 + b.runKernel % 65536), excPc := b.cmdIndex % 65536,
    cnt := c.counted (vmod (vmod b.cnt 4 0 (· + 1)) 7 0 (· + 1)) }
  ((s.setBne n b1).event (0x20 + n) 5 (some b.runFn) 1).cause (0x20 + n) 1

/-- The runs of the named engines that go on are aborted (R383). -/
def State.abortRuns (s : State) (ns : List Nat) (c : BneCause) : State :=
  ns.foldl (fun (u : State) n => if (u.getBne n).phase = .running ∧ !(u.getBne n).pathDone then u.bneAbort n c else u) s

/-- A BNE that a state of the device stops (R383, R594): its memories are cleared, by the abort of its run if one went on. -/
def stoppedBne (edge : Nat) (b : Bne) : Bne :=
  { clearedBne b with zeroTick := edge % 65536, cnt := if b.zeroing then b.cnt else vmod b.cnt 7 0 (· + 1) }

/-- The SEVERE response (R576, R578): admission to the domain stops at the next admission edge, and a run in it is aborted (R383). PUF_FAIL closes KST, and
SPARES_EXHAUSTED leaves FLS in WRITE_PROTECT, for a forced event as for a real one (R585, R592). -/
def State.stopDomain (s : State) (e : Event) : State :=
  let s0 : State := { s with hrt := { s.hrt with
    severe := (e.src, s.severeDomain e) :: (s.hrt.severe.filter (fun p => decide (p.1 ≠ e.src))) } }
  let s1 := s0.abortRuns ((List.range s0.bnes).filter (fun n => (s0.severeDomain e).contains (0x20 + n))) .deviceState
  if e.src = 0x3201 then s1.kstClose
  else if e.src = 0x4104 then ({ s1 with fls := { s1.fls with state := 2 } } : State).irqSync 0x41
  else s1

/-- Every engine stops and its memories are cleared; the plan is empty. -/
def State.stopEngines (s : State) : State :=
  let u := s.abortRuns (List.range s.bnes) .deviceState
  { u with pvu := u.pvu.map clearedPvu, bne := u.bne.map (stoppedBne u.trd.edge),
           trd := { u.trd with plan := [], signQ := [], sets := [], pages := [] } }

/-- SAFE_HALT (R594, R595). -/
def State.safeHalt (s : State) (src detail : Nat) : State :=
  if s.hrt.halt.isSome then s
  else
    let s1 : State := { s with hrt := { s.hrt with halt := some (src, s.trd.edge), haltPath := haltInPath src detail },
                               pcr := { s.pcr with failStep := if s.pcr.ready then s.pcr.failStep else s.pcr.step + 1 } }
    let s2 := s1.stopEngines
    let s3 := if haltInPath src detail then s2 else s2.completeTaken 0x00A1
    let s4 := if src / 256 = 0x41 ∨ src / 256 = 0x32 then s3 else s3.kstCommit
    s4.kstClose

/-- The responses of an effective class (R576); a DEGRADED event that was escalated takes both (R581). -/
def State.respond (s : State) (e : Event) (ecls : Nat) (escalated : Bool) : State :=
  let base := ecls - b2n escalated
  let s1 := if base = 2 then s.retireChannel e else s
  let s2 := if ecls = 3 then s1.stopDomain e else s1
  if 4 ≤ ecls then s2.safeHalt e.src e.detail else s2

/-- One fault event (R576, R592). `room`: no record has been made in the same microsecond (R744). -/
def State.raise1 (s : State) (e : Event) (room : Bool) : State :=
  match srcInfo e.src with
  | none => s
  | some _ =>
    let (ecls, p, x) := s.effective e
    if e.forced && !s.maintenance && decide (2 ≤ ecls) && decide (e.src ≠ 0x5100) then
      s.noteEvent e 0 false false false room false
    else
      let s1 := s.noteEvent e ecls p x true room (decide (ecls - b2n x = 2) && eventRetires e)
      s1.respond e ecls x

/-- SOURCES_LOW is due: fewer than two entropy sources remain in service (R426). -/
def State.sourcesLow (s : State) : Bool :=
  s.ent.startupDone && decide (s.ent.inService < 2) && ((s.getSrc 0x310A).latched).isNone

/-- One fault event with what follows from it. -/
def State.raise (s : State) (e : Event) : State :=
  let s1 := s.raise1 e true
  if s1.sourcesLow && !s.sourcesLow then s1.raise1 { src := 0x310A } true else s1

/-- Events of the same cycle, lowest source first: the log has room for one record (R583, R744). -/
def State.raiseAll (s : State) : List Event → State
  | [] => s
  | e :: es => es.foldl (fun t x => t.raise1 x false) (s.raise e)

/-- An event of a job: its function, tag and queue (R584). -/
def State.jobEvent (s : State) (src : Nat) (j : Option Nat) (detail status : Nat) : Event :=
  match j with
  | none => { src := src, detail := detail, status := status }
  | some n =>
    let x := s.getJob n
    { src := src, detail := detail, fn := if x.fn = clusterFn then 0xFF else x.fn, tag := x.e.tag, queue := if x.q = 64 then 0xFFFF else x.q, status := status }

/-- The lasting condition of a SEVERE source still holds (R743). -/
def State.condition (s : State) (src : Nat) : Bool :=
  if src = 0x7101 then decide (145 * 8 ≤ s.pcr.tj) || decide (3 ≤ s.pcr.stage)
  else if src = 0x310A then decide (s.ent.inService < 2)
  else if src = 0x310B then decide (s.ent.int.state ≠ .seeded)
  else if src = 0x310D then decide (s.ent.int.state = .uninstantiated) || decide (s.ent.host.state = .uninstantiated)
  else if src = 0x3201 then !s.kst.pufOk
  else if src = 0x4104 then decide (s.fls.state = 2)
  else if src = 0x5100 then decide (s.tmp.response ≠ 0)
  else false

/-- A SEVERE source has been acknowledged and its condition has cleared (R578). -/
def State.severeOver (s : State) (src : Nat) : Bool := !s.condition src && ((s.getSrc src).latched).isNone

/-- The stopped domains that are over resume: applied at an admission edge (R578). -/
def State.resumeDomains (s : State) : State :=
  { s with hrt := { s.hrt with severe := s.hrt.severe.filter (fun p => !s.severeOver p.1) } }

/-- The FAULT_N outputs (R598): bit n set = FAULT_Nn asserted. -/
def State.faultN (s : State) : Nat :=
  b2n (s.hrt.halt.isSome || s.hrt.severe.any (fun p => !s.severeOver p.1))
    + 2 * b2n s.pcr.faultN1
    + 4 * b2n (decide (s.held.retired ≠ 0) || decide (s.held.hsaRetired ≠ 0) || decide (s.hrt.retired ≠ [])
        || decide (s.trd.retiring ≠ []))
    + 8 * b2n (decide (1 ≤ s.pcr.stage))

/-- Acknowledge one source (R582). -/
def State.ackSource (s : State) (id : Nat) : State :=
  let r := s.getSrc id
  if r.latched.isNone then s else (s.setSrc id { r with latched := none }).irqSync (id / 256)

/-- Acknowledge the sources of a block whose `FLT_STATUS` bits are written 1. -/
def State.ackBits (s : State) (k : Nat) (v : W32) : State :=
  (List.range 32).foldl (fun t n => if bit v n then t.ackSource (k * 256 + n) else t) s

end Sys2Proof.Machine
end

