-- ==== Sys2Proof/Machine/Header.lean ====
section
/-! DEFINITION. The common page header (R51 to R63): its reads, its writes, and the commands that act on it. -/

namespace Sys2Proof.Machine

/-- The host's writes reach the registers: from READY, or in SAFE_HALT, and not in BANK (R595, R681, R716). -/
def State.hostOpen (s : State) : Bool := (s.pcr.ready || s.hrt.halt.isSome) && !s.pcr.frozen

/-- Writes to a page take effect: it exists and is not served from its shadow (R43, R44). -/
def State.pageWritable (s : State) (k : Nat) : Bool := s.hostOpen && s.pageExists k && !s.retired k

/-- `BLK_STATUS.STATE` (R56): 1 INIT, 2 READY, 3 DEGRADED, 4 RETIRED, 5 FROZEN, 6 HALTED. The spec gives neither the condition of
DEGRADED, here a latched source of at least the second class, nor an order where several hold: retired, frozen, halted, INIT (DESIGN
CHOICE; log entry 57). -/
def State.blockState (s : State) (k : Nat) : Nat :=
  if s.retired k then 4
  else if s.pcr.frozen then 5
  else if s.hrt.halt.isSome then 6
  else if !s.pcr.ready then 1
  else if 2 ≤ s.topClass k then 3 else 2

/-- `BLK_STATUS` (R56). -/
def State.blkStatus (s : State) (k : Nat) : W32 :=
  BitVec.ofNat 32 (s.blockState k * 2 ^ 28 + b2n (decide (s.fltStatus k ≠ 0)) * 2 ^ 11 + s.topClass k * 2 ^ 8)

/-- Block code shown in `BLK_ID` (R52). -/
def idCode (k : Nat) : Nat := if 256 ≤ k then 0x80 else k

/-- A read of the common page header (R51 to R59). `BLK_VER` and `BLK_CAP1` are given per block: `ver` and `cap1`. -/
def State.readHeader (s : State) (k off : Nat) (ver cap1 : W32) : W32 :=
  let b := s.getBlk k
  let (nf, ni, ne) := blockCaps k
  match off with
  | 0x000 => BitVec.ofNat 32 (0x4E52 * 65536 + idCode k)
  | 0x004 => ver
  | 0x008 => BitVec.ofNat 32 (nf * 65536 + ni * 256 + ne)
  | 0x00C => cap1
  | 0x010 => BitVec.ofNat 32 (b2n b.lock * 2 ^ 31 + 2 * b2n b.evtEn + b2n b.irqEn)
  | 0x014 => s.blkStatus k
  | 0x020 => s.irqRaw k
  | 0x024 => b.irqMask
  | 0x028 => s.irqPend k
  | 0x040 => s.fltStatus k
  | 0x048 => BitVec.ofNat 32 (b.fltLast * 2 ^ 24 + b.fltEvents)
  | 0x04C => BitVec.ofNat 32 (b2n b.corrIrq)
  | 0x080 => BitVec.ofNat 32 (b.seamCount * 65536 + b.seamSender * 256 + 2 * b2n b.seamOvf + b2n b.seamErr)
  | 0x0F0 => b.scratch
  | _ => if 0x060 ≤ off ∧ off < 0x080 ∧ off % 4 = 0 then vget b.evtSel ((off - 0x060) / 4) 0 else 0

/-- A write of the common page header to a register without a row of its own (R51, R55, R57 to R59). -/
def State.writeHeader (s : State) (k off : Nat) (v : W32) : State :=
  let b := s.getBlk k
  if off = 0x010 then (s.setBlk k { b with evtEn := bit v 1, irqEn := bit v 0 }).irqSync k
  else if off = 0x04C then
    if b.lock then s else (s.setBlk k { b with corrIrq := bit v 0 }).irqSync k
  else if off = 0x080 then
    (s.setBlk k { b with seamErr := b.seamErr && !bit v 0, seamOvf := b.seamOvf && !bit v 1 }).irqSync k
  else if off = 0x0F0 then s.setBlk k { b with scratch := v }
  else if 0x060 ≤ off ∧ off < 0x080 ∧ (off - 0x060) / 4 < (blockCaps k).2.2 then
    s.setBlk k { b with evtSel := vset b.evtSel ((off - 0x060) / 4) (v &&& 0x8000FFFF) }
  else s

/-- A command that a write to a page causes: nothing when the write does not reach it. -/
def State.onPage (s : State) (k : Nat) (f : State → State) : State := if s.pageWritable k then f s else s

/-- A write to `IRQ_CLEAR` clears the edge causes written 1; level causes keep following their condition (R61). -/
def State.irqClear (s : State) (k : Nat) (v : W32) : State :=
  (s.setBlk k { s.getBlk k with irqEdge := (s.getBlk k).irqEdge &&& ~~~v }).irqReeval k

/-- A write to `IRQ_MASK` (R51, R65). -/
def State.irqMask (s : State) (k : Nat) (v : W32) : State :=
  (s.setBlk k { s.getBlk k with irqMask := v }).irqReeval k

/-- IRQ_CLEAR (R61, R65). -/
def execIrqClear (blk : Nat) (val : W32) (s : State) : Host.Outcome State Fault Refusal :=
  .next (s.onPage blk (fun t => t.irqClear blk val))

/-- IRQ_MASK (R65). -/
def execIrqMask (blk : Nat) (val : W32) (s : State) : Host.Outcome State Fault Refusal :=
  .next (s.onPage blk (fun t => t.irqMask blk val))

/-- A vector is unmasked: its pending message is sent (R68). -/
def State.msixUnmask (s : State) (fn vec : Nat) : State :=
  let f := s.getFn fn
  let s1 := s.setFn fn { f with
    maskedVec := f.maskedVec.filter (· ≠ vec), pendingVec := f.pendingVec.filter (· ≠ vec) }
  if f.pendingVec.contains vec then s1.sendMsix fn vec else s1

/-- A vector is masked in the MSI-X table. -/
def State.msixMask (s : State) (fn vec : Nat) : State :=
  let f := s.getFn fn
  if f.maskedVec.contains vec then s else s.setFn fn { f with maskedVec := vec :: f.maskedVec }

/-- MSIX_UNMASK (R68). -/
def execMsixUnmask (fn vec : Nat) (s : State) : Host.Outcome State Fault Refusal :=
  .next (if s.hostOpen && s.fnExists fn then s.msixUnmask fn vec else s)

/-- BLK_CTRL_LOCK (R55): W1S, and 1 locks every RWL register of the block until the next reset. -/
def execBlkCtrlLock (blk : Nat) (s : State) : Host.Outcome State Fault Refusal :=
  .next (s.onPage blk (fun t => t.setBlk blk { t.getBlk blk with lock := true }))

/-- FLT_STATUS (R44, R582): writing 1 acknowledges the source, in a retired block's shadow too. -/
def execFltStatus (blk : Nat) (val : W32) (s : State) : Host.Outcome State Fault Refusal :=
  .next (if s.hostOpen && s.pageExists blk then (s.ackBits blk val).irqSync 0x50 else s)

/-- A forced event of a source (R592, R593): tamper sources go through the Fireguard and are forced apart. -/
def State.force (s : State) (src : Nat) : State :=
  s.raise { src := src, forced := true }

/-- HRT_ACK (R582, R600): ALL acknowledges every latched source of class SEVERE or below. -/
def execHrtAck (val : W32) (s : State) : Host.Outcome State Fault Refusal :=
  .next (s.onPage 0x50 (fun t =>
    (if bit val 31 then
      t.hrt.src.foldl (fun u p => match p.2.latched with
        | some c => if c ≤ 3 then u.ackSource p.1 else u
        | none => u) t
    else t.ackSource (bits val 15 0)).irqSync 0x50))

/-- HRT_FIRST (R583): writing 1 to VALID clears VALID and OVERFLOW and re-arms the latch. -/
def execHrtFirst (val : W32) (s : State) : Host.Outcome State Fault Refusal :=
  .next (s.onPage 0x50 (fun t =>
    if bit val 31 then { t with hrt := { t.hrt with first := none, overflow := false } } else t))

/-- HRT_BEAT (R597): MGC's heartbeat; writes from the host are ignored. -/
def execHrtBeat (fromMgc : Bool) (s : State) : Host.Outcome State Fault Refusal :=
  .next (if fromMgc && !s.pcr.frozen && s.hrt.halt.isNone then { s with hrt := { s.hrt with beatOk := true } } else s)

/-- An engine returned to service after its restore test has passed (R591): at the next admission edge. -/
def State.returnEngine (s : State) (code : Nat) : State :=
  let e := engIndex code
  { s with trd := { s.trd with returning := s.trd.returning ++ [code] }, hrt := { s.hrt with
    engTimes := vset s.hrt.engTimes e [], engTotal := s.hrt.engTotal, restoring := none } }

/-- A write of `HRT_SRC_CFG` (R585, R600): N and W of the selected source; a source with Relax N only tightens, sources of
class DEGRADED and higher take no counting. -/
def State.srcCfgWrite (s : State) (val : W32) : State :=
  let id := s.hrt.srcSel
  match srcInfo id with
  | none => s
  | some i =>
    let n := bits val 31 24
    let w := bits val 19 0
    let n0 := s.srcN id
    let w0 := s.srcW id
    let loosens := decide (n0 < n) || (decide (n = 0) && decide (n0 ≠ 0)) || decide (w < w0)
    if 2 ≤ i.cls ∨ (w = 0 ∧ n ≠ 0) ∨ (!i.relax ∧ loosens) then s
    else s.setSrc id { s.getSrc id with n := some n, w := some w }

/-- SRC_CFG_WRITE (R585). -/
def execSrcCfgWrite (val : W32) (s : State) : Host.Outcome State Fault Refusal :=
  .next (s.onPage 0x50 (fun t => if (t.getBlk 0x50).lock then t else t.srcCfgWrite val))

/-- The conditions of GLOW (R596). -/
def State.glowRun (s : State) : Bool :=
  s.hrt.beatOk && s.hrt.edgeOk && s.hrt.halt.isNone && !s.pcr.frozen && s.pcr.powered

/-- GLOW_TOGGLE (R596): a toggle point. -/
def execGlowToggle (s : State) : Host.Outcome State Fault Refusal :=
  .next { s with hrt := (if s.glowRun then
    { s.hrt with glowA := !s.hrt.glowA, glowB := s.hrt.glowA } else { s.hrt with glowA := false, glowB := false }) }

/-- TICK_STALL (R586): no tick edge for 1 ms is a FATAL event; in BANK the edges stop by design (R680). -/
def execTickStall (s : State) : Host.Outcome State Fault Refusal :=
  .next (if s.pcr.frozen || !s.pcr.powered then s
    else ({ s with hrt := { s.hrt with edgeOk := false } } : State).raise { src := 0x7104 })

/-- MGC_STALL (R597): `HRT_BEAT` unwritten for 1.5 ms is a FATAL event. -/
def execMgcStall (s : State) : Host.Outcome State Fault Refusal :=
  .next (if s.pcr.frozen || !s.pcr.powered then s
    else ({ s with hrt := { s.hrt with beatOk := false } } : State).raise { src := 0x7F01 })

/-- LOG_LOST (R744): recorded at the first microsecond with room. -/
def execLogLost (s : State) : Host.Outcome State Fault Refusal :=
  .next (if s.hrt.lost = 0 ∧ !s.hrt.ringFail then s
    else
      ({ s with hrt := { s.hrt with lost := 0, ringFail := false } } : State).raise
        { src := 0x5000, detail := s.hrt.lost + b2n s.hrt.ringFail * 2 ^ 32 })

/-- DRILL_EXPIRY (R593): the drill disarms when its time expires. -/
def execDrillExpiry (s : State) : Host.Outcome State Fault Refusal :=
  .next { s with hrt := { s.hrt with drill := none } }

/-- The HRT registers (R599, R600). -/
def State.readHrt (s : State) (off : Nat) : W32 :=
  let h := s.hrt
  let sel := h.srcSel
  match off with
  | 0x100 => BitVec.ofNat 32 (s.hearthState * 2 ^ 28 + min 255 ((List.range 24).foldl (fun a e => a + b2n (s.held.retired.getLsbD e)) 0
      + (List.range 64).foldl (fun a e => a + b2n (s.held.hsaRetired.getLsbD e)) 0))
  | 0x104 => h.cfg
  | 0x108 => match h.first with
    | some f => BitVec.ofNat 32 (2 ^ 31 + b2n h.overflow * 2 ^ 30 + f.cls * 2 ^ 27 + f.source)
    | none => 0
  | 0x10C => match h.first with | some f => BitVec.ofNat 32 f.detail | none => 0
  | 0x110 => match h.first with | some f => BitVec.ofNat 32 f.tick | none => 0
  | 0x114 => match h.first with | some f => BitVec.ofNat 32 (f.tick / 2 ^ 32) | none => 0
  | 0x118 => BitVec.ofNat 32 sel
  | 0x11C => match srcInfo sel with
    | some i => BitVec.ofNat 32 (s.srcN sel * 2 ^ 24 + i.cls * 2 ^ 21 + b2n i.relax * 2 ^ 20 + s.srcW sel)
    | none => 0
  | 0x120 => match srcInfo sel with
    | some _ =>
      let r := s.getSrc sel
      BitVec.ofNat 32 (min 255 (s.windowCount { src := sel }) * 2 ^ 24 + r.lastClass * 2 ^ 21
        + b2n r.latched.isSome * 2 ^ 20 + r.events)
    | none => 0
  | 0x128 => match h.halt with | some (src, _) => BitVec.ofNat 32 (2 ^ 31 + src) | none => 0
  | 0x12C => match h.halt with | some (_, t) => BitVec.ofNat 32 t | none => 0
  | 0x130 => match h.halt with | some (_, t) => BitVec.ofNat 32 (t / 2 ^ 32) | none => 0
  | 0x134 => match h.drill with | some (z, t) => BitVec.ofNat 32 (2 ^ 31 + b2n z * 2 ^ 30 + t) | none => 0
  | 0x138 => BitVec.ofNat 32 (b2n h.glowA * 2 ^ 31 + b2n h.glowB * 2 ^ 30 + b2n s.glowRun * 2 ^ 29 + s.faultN)
  | 0x144 => BitVec.ofNat 32 h.logSeq
  | 0x148 => BitVec.ofNat 32 (h.logSeq / 2 ^ 32)
  | _ =>
    if 0x150 ≤ off ∧ off ≤ 0x160 then BitVec.ofNat 32 (vget h.classCnt ((off - 0x150) / 4) 0)
    else if 0x180 ≤ off ∧ off < 0x1C0 then
      let c := (off - 0x180) / 16 + 1
      let k := (off - 0x180) % 16 / 4
      h.src.foldl (fun w p => if p.2.latched = some c ∧ p.1 / 256 / 32 = k then w ||| bitW (p.1 / 256 % 32) else w) 0
    else if 0x1C0 ≤ off ∧ off < 0x220 then
      let e := (off - 0x1C0) / 4
      BitVec.ofNat 32 (vget h.engTotal e 0 * 65536 + min 255 (s.windowCount { src := engCode e * 256 }))
    else if 0x280 ≤ off ∧ off < 0x300 then KV.getD h.recent ((off - 0x280) / 4) 0
    else 0

/-- Writes to HRT registers without a row of their own (R600). -/
def State.writeHrt (s : State) (off : Nat) (v : W32) : State :=
  if off = 0x104 then
    if (s.getBlk 0x50).lock then s else { s with hrt := { s.hrt with cfg := v &&& 0xD } }
  else if off = 0x118 then { s with hrt := { s.hrt with srcSel := bits v 15 0 } }
  else s

end Sys2Proof.Machine
end

