-- ==== Sys2Proof/Machine/Tamper.lean ====
section
/-! DEFINITION. The tamper envelope and the Fireguard (R602 to R628): alarms, responses, evidence, configuration. -/

namespace Sys2Proof.Machine

/-- The configured response of an input while it is enabled: 0 LOG, 1 HALT, 2 LOCK, 3 ZEROIZE (R602, R624). -/
def State.inputResponse (s : State) (n : Nat) : Option Nat :=
  let h := s.held
  if n < 48 then
    let w := vget h.loopCfg n 0
    if bits w 31 30 = 0 then none else some (bits w 29 28)
  else if n < 56 then
    let i := n - 48
    if bit h.caseCfg (4 * i + 3) then some (bits h.caseCfg (4 * i + 1) (4 * i)) else none
  else match n with
  | 56 => some 3
  | 57 => some (bits h.envCfg 1 0)
  | 58 => some (bits h.envCfg 3 2)
  | 59 => some (bits h.envCfg 5 4)
  | 60 => some (bits h.envCfg 7 6)
  | 61 => if bit h.envCfg 12 then some (bits h.envCfg 9 8) else none
  | 62 => some (bits h.envCfg 11 10)
  | 63 => some 3
  | _ => none

/-- In MANUFACTURE and DECOMMISSIONED every alarm takes LOG (R603, R731). -/
def State.alarmResponse (s : State) (n : Nat) : Option Nat :=
  (s.inputResponse n).map (fun r => if s.held.life = 1 ∨ s.held.life = 7 then 0 else r)

/-- The group of an input in `FGD_LASTk` (R627). -/
def alarmGroup (n : Nat) : Nat :=
  if n < 48 then n / 8 else if n < 56 then 6 else if n = 56 then 7 else if n < 62 then 8 else if n = 62 then 9 else 10

/-- The RTC count: 1/32,768 s (R623). -/
def State.rtcNow (s : State) : Nat := s.held.rtc + s.us * 32768 / 1000000

/-- An evidence record (R623): kept by the Fireguard, and due for its copy to the flash ring. -/
def State.evidence (s : State) (input response eflags meas : Nat) : State :=
  let h := s.held
  let e : Evidence := {
    seq := h.evidCnt, rtc := s.rtcNow, tick := if s.pcr.powered then s.trd.edge else 0, input := input,
    response := response, eflags := eflags, meas := meas }
  let h1 := { h with
    evidence := (e :: h.evidence).take 128, evidCnt := satAdd h.evidCnt 1 0xFFFFFFFF, evidWait := h.evidWait ++ [e] }
  (({ s with held := h1 } : State).cause 0x52 0).event 0x52 1 none 1

/-- The response in force as a strength: the tamper response, or the lifecycle state it led to (R616, R620). -/
def State.inForce (s : State) : Nat :=
  if s.tmp.response = 3 ∨ s.held.life = 6 then 3
  else if s.tmp.response = 2 ∨ s.held.life = 5 then 2
  else s.tmp.response

/-- Every view, context and keyed slot of the Digest Service is zeroed and freed (R407). -/
def State.clearDgs (s : State) : State :=
  { s with dgs := { s.dgs with ctx := [], slots := [] },
           funcs := KV.mapV (fun _ f => { f with dgs := {} }) s.funcs }

/-- An open quorum session closes with CANCELLED (R646). -/
def State.cancelSession (s : State) : State :=
  match s.thm.session with
  | none => s
  | some _ => { s with thm := { s.thm with
      session := none, resultDone := true, resultStatus := 0x0060, action := none,
      slots := s.thm.slots.map (fun x => { x with claimed := false }) } }

/-- What a response does to the lifecycle (R613, R614, R727): LOCK enters LOCKED and remembers the state it left, ZEROIZE
erases MS and enters ZEROIZED. -/
def State.lifeResponse (s : State) (r : Nat) : State :=
  if r = 2 ∧ s.held.life ≠ 5 then
    { s with held := { s.held with stickyLock := true, prevLife := s.held.life, life := 5 },
             pcr := { s.pcr with faultN1 := true } }
  else if r = 3 then
    { s with held := { s.held with stickyLock := true, ms := none, zeroized := true, life := 6, prevLife := 0 },
             pcr := { s.pcr with faultN1 := true } }
  else s

/-- The rest of a response (R614): engines stop, keys are cleared, taken entries complete, and KST commits or drops its
journal key. In BANK only steps 1 to 4 are taken (R681). -/
def State.haltModule (s : State) (r : Nat) : State :=
  let s3 := s.stopEngines
  let s4 := if r = 1 then s3.clearKeyCache else s3.kstClose
  let s5 := if 2 ≤ r then (s4.clearDgs).cancelSession else s4
  let s6 := if s5.pcr.frozen then s5
    else
      let st := if r = 3 then 0x00A2 else if r = 2 then 0x00A0 else 0x00A1
      let t := s5.completeTaken st
      if r = 3 then t else t.kstCommit
  let s7 : State := if r = 1 then s6 else { s6 with kst := { s6.kst with jrnHeld := false } }
  (if r = 2 ∨ r = 3 then s7.cause 0x71 2 else s7).irqSync 0x51

/-- Take a HALT, LOCK or ZEROIZE response (R613, R614). -/
def State.takeResponse (s : State) (r : Nat) : State :=
  (({ s with tmp := { s.tmp with response := r, resuming := false } } : State).lifeResponse r).haltModule r

/-- The record of an alarm (R614 step 1, R622, R623): the sticky flag, the time, the evidence and the event. -/
def State.alarmRecord (s : State) (n r applied eflags meas : Nat) (forced drill : Bool) : State :=
  let s1 : State := { s with
    tmp := { s.tmp with active := s.tmp.active ||| BitVec.ofNat 64 (2 ^ n) },
    held := { s.held with
      sticky := s.held.sticky ||| BitVec.ofNat 64 (2 ^ n),
      last := KV.set s.held.last (alarmGroup n) s.rtcNow } }
  let s2 := (s1.evidence n applied eflags meas).cause 0x51 0
  (s2.event 0x51 1 none 1).raise
    { src := 0x5100, detail := n, raw := some (if r = 0 then 0 else 3), forced := forced, drill := drill }

/-- An alarm of an enabled input (R614 to R616, R622): recorded always, and its response taken when it is stronger than
what is in force. -/
def State.alarm (s : State) (n r eflags meas : Nat) (forced drill : Bool) : State :=
  let t := s.alarmRecord n r (if s.inForce < r then r else 0) eflags meas forced drill
  if s.inForce < r then t.takeResponse r else t

/-- A real alarm of an input: nothing while the input is disabled. -/
def State.realAlarm (s : State) (n eflags meas : Nat) : State :=
  match s.alarmResponse n with
  | some r => s.alarm n r eflags meas false false
  | none => s

/-- The power-up state of an alarm on the backup cell: EFLAGS.BATTERY (R619). -/
def State.batteryFlag (s : State) : Nat := b2n (!s.pcr.input)

/-- An input is checked now: the supply, clock, board light and key-path inputs are not on the backup cell, and the cell itself is only
there (R602, R610). -/
def State.checksInput (s : State) (n : Nat) : Bool :=
  if s.pcr.input then decide (n < 63) else decide (n < 64) && !([57, 58, 61, 62] : List Nat).contains n

/-- The detectors of a monitor report, or no longer report (R608, R625): both, unless MONITOR_DISAGREE has named one. -/
def State.detectors (s : State) (n : Nat) (on : Bool) : State :=
  if 57 ≤ n ∧ n ≤ 60 then
    let m := BitVec.ofNat 8 (3 * 4 ^ (n - 57))
    { s with tmp := { s.tmp with envStat := if on then s.tmp.envStat ||| m else s.tmp.envStat &&& ~~~m } }
  else s

/-- TAMPER_ALARM (R608, R610, R614): an input's detectors report. -/
def execTamperAlarm (input meas : Nat) (s : State) : Host.Outcome State Fault Refusal :=
  .next (if s.checksInput input then (s.detectors input true).realAlarm input s.batteryFlag meas else s)

/-- SELVEDGE_CHECK (R605): a failed trace raises SELVEDGE. -/
def execSelvedgeCheck (traces : BitVec 8) (s : State) : Host.Outcome State Fault Refusal :=
  let s1 := ({ s with tmp := { s.tmp with selvTrace := traces } } : State).event 0x52 2 none 1
  .next (if traces = 0 then s1 else s1.realAlarm 56 s.batteryFlag 0)

/-- LOOP_CHECK (R606): STATIC compares the resistance with its window, PRBS the sequence; on the backup cell a PRBS loop is
checked as STATIC. -/
def execLoopCheck (n meas : Nat) (bitsMatch : Bool) (s : State) : Host.Outcome State Fault Refusal :=
  let w := vget s.held.loopCfg n 0
  let mode := bits w 31 30
  let outside := decide (meas < bits w 15 8) || decide (bits w 23 16 < meas)
  let bad := if mode = 0 then false else if mode = 2 ∧ s.pcr.input then !bitsMatch else outside
  let s1 := ({ s with tmp := { s.tmp with loopMeas := vset s.tmp.loopMeas n (min 255 meas) } } : State).event 0x52 3 none 1
  .next (if n < 48 ∧ bad then s1.realAlarm n s.batteryFlag meas else s1)

/-- CASE_SWITCH (R607): a level stable for 100 µs that equals POL raises CASEn. -/
def execCaseSwitch (n : Nat) (level : Bool) (s : State) : Host.Outcome State Fault Refusal :=
  let s1 : State := { s with tmp := { s.tmp with
    caseLevel := if level then s.tmp.caseLevel ||| BitVec.ofNat 8 (2 ^ n) else s.tmp.caseLevel &&& ~~~(BitVec.ofNat 8 (2 ^ n)) } }
  .next (if n < 8 ∧ level = bit s.held.caseCfg (4 * n + 2) then s1.realAlarm (48 + n) s.batteryFlag 0 else s1)

/-- MONITOR_DISAGREE (R609): one detector of monitor `m` reports and the other does not; the alarm still stands. -/
def execMonitorDisagree (m : Nat) (detectorB : Bool) (s : State) : Host.Outcome State Fault Refusal :=
  if m < 4 then
    let s1 : State := { s with tmp := { s.tmp with
      disagree := s.tmp.disagree ||| BitVec.ofNat 4 (2 ^ m),
      envStat := s.tmp.envStat ||| BitVec.ofNat 8 (2 ^ (2 * m + b2n detectorB)) } }
    let s2 := (s1.event 0x51 4 none 1).raise { src := 0x5102, detail := m }
    .next (s2.realAlarm (57 + m) (s.batteryFlag + 8) 0)
  else .next s

/-- VBAT_LOW (R621): below 2.45 V; on the backup cell it takes ZEROIZE, on input power it is a NOTE. -/
def execVbatLow (mv : Nat) (s : State) : Host.Outcome State Fault Refusal :=
  let low := decide (mv < 2450)
  let s1 : State := { s with held := { s.held with vbatMv := mv, vbatLow := low && s.pcr.input } }
  .next (if !low then s1.irqSync 0x52
    else if s.pcr.input then (s1.raise { src := 0x5200 }).irqSync 0x52
    else s1.realAlarm 63 1 mv)

/-- A write that names a response outside the input's allowed set, or a refused mode or window (R602, R624, R625). -/
def configAllowed (off : Nat) (v : W32) : Bool :=
  if off = 0x114 then
    decide (bits v 1 0 ≠ 0) && decide (bits v 3 2 ≠ 0) && decide (bits v 5 4 ≠ 0) && decide (bits v 11 10 ≠ 0)
  else if 0x140 ≤ off then decide (bits v 31 30 ≠ 3) && decide (bits v 15 8 ≤ bits v 23 16)
  else true

/-- A write that relaxes the configuration (R604). -/
def relaxes (off : Nat) (old v : W32) : Bool :=
  if off = 0x110 then
    (List.range 8).any (fun n => decide (bits v (4 * n + 1) (4 * n) < bits old (4 * n + 1) (4 * n))
      || (bit old (4 * n + 3) && !bit v (4 * n + 3)))
  else if off = 0x114 then
    (List.range 6).any (fun n => decide (bits v (2 * n + 1) (2 * n) < bits old (2 * n + 1) (2 * n)))
      || (bit old 12 && !bit v 12)
  else if 0x140 ≤ off then
    decide (bits v 29 28 < bits old 29 28) || (decide (bits old 31 30 ≠ 0) && decide (bits v 31 30 = 0))
      || decide (bits v 15 8 < bits old 15 8) || decide (bits old 23 16 < bits v 23 16)
      || (decide (bits old 31 30 = 2) && decide (bits v 31 30 = 1))
  else false

/-- The stored bits of a tamper configuration register (R625). -/
def configMask (off : Nat) : W32 :=
  if off = 0x114 then 0x1FFF else if 0x140 ≤ off then 0xF0FFFF00 else 0xFFFFFFFF

def State.tamperConfig (s : State) (off : Nat) : W32 :=
  if off = 0x110 then s.held.caseCfg else if off = 0x114 then s.held.envCfg
  else if off = 0x13C then BitVec.ofNat 32 (s.held.lightThresh * 4096)
  else vget s.held.loopCfg ((off - 0x140) / 4) 0

def State.setTamperConfig (s : State) (off : Nat) (v : W32) : State :=
  let h := s.held
  let w := v &&& configMask off
  { s with held := (if off = 0x110 then { h with caseCfg := w } else if off = 0x114 then { h with envCfg := w }
    else if off = 0x13C then { h with lightThresh := bits v 23 12 }
    else { h with loopCfg := vset h.loopCfg ((off - 0x140) / 4) w }) }

/-- A tamper-configuration session is open past its threshold (R643, R646). -/
def State.cfgSession (s : State) : Bool :=
  match s.thm.session with
  | some x => decide (x.purpose = 3) && decide (x.qstate = 2)
  | none => false

/-- TAMPER_CONFIG_WRITE (R604): any allowed value in MANUFACTURE and CUSTODY; elsewhere only tightening, or a relaxation
inside a quorum session; anything else is ignored and fires CFG_REJECT. -/
def execTamperConfigWrite (off : Nat) (val : W32) (s : State) : Host.Outcome State Fault Refusal :=
  let known := decide (off = 0x110) || decide (off = 0x114) || decide (off = 0x13C)
    || (decide (0x140 ≤ off) && decide (off < 0x200) && decide (off % 4 = 0))
  .next (s.onPage 0x51 (fun t =>
    if !known then t
    else
      let old := t.tamperConfig off
      let free := decide (t.held.life = 1) || decide (t.held.life = 2) || t.cfgSession
      if configAllowed off (val &&& configMask off) && (free || !relaxes off old (val &&& configMask off)) then
        t.setTamperConfig off val
      else t.raise { src := 0x5104 }))

/-- TMP_RELEASE (R618): ends HALT when no input whose response is HALT is in alarm. -/
def execTmpRelease (val : W32) (s : State) : Host.Outcome State Fault Refusal :=
  .next (s.onPage 0x51 (fun t =>
    if bit val 0 then
      let blocked := (List.range 64).any (fun n => t.tmp.active.getLsbD n && decide (t.inputResponse n = some 1))
      if t.tmp.response = 1 ∧ !blocked then
        ({ t with tmp := { t.tmp with response := 0, resuming := true } } : State).irqSync 0x51
      else t.raise { src := 0x5104 }
    else t))

/-- ALARM_CLEARED (R743): an input is no longer in alarm. -/
def execAlarmCleared (input : Nat) (s0 : State) : Host.Outcome State Fault Refusal :=
  let s := s0.detectors input false
  .next (({ s with tmp := { s.tmp with active := s.tmp.active &&& ~~~(BitVec.ofNat 64 (2 ^ input)) } } : State).irqSync 0x51)

/-- EVIDENCE_COPY (R623): MGC copies the records not yet copied to the flash ring of 4,096 records. -/
def execEvidenceCopy (s : State) : Host.Outcome State Fault Refusal :=
  .next (if s.pcr.powered then
    { s with held := { s.held with evidRing := (s.held.evidWait.reverse ++ s.held.evidRing).take 4096, evidWait := [] } }
    else s)

/-- The bytes of an evidence record (R623). -/
def evidenceBytes (e : Evidence) : List Byte :=
  le 8 e.seq ++ le 8 e.rtc ++ le 8 e.tick ++ le 1 e.input ++ le 1 e.response ++ le 1 e.eflags ++ zeros 1 ++ le 4 e.meas
    ++ zeros 32

/-- A forced TAMPER event (R592, R593): at most LOG, or its real response while a live drill is armed; a drill without
ZEROIZE_OK turns ZEROIZE into LOCK. The input it stands for is a free value. -/
def State.forceTamper (s : State) : State :=
  let n := Config.forcedInput s.free % 64
  let s1 : State := { s with free := s.free + 1 }
  match s1.hrt.drill, s1.inputResponse n with
  | some (z, _), some r =>
    if s1.held.life = 4 then s1.alarm n (if r = 3 ∧ !z then 2 else r) (2 + 4) 0 true true else s1.alarm n 0 2 0 true false
  | _, _ => s1.alarm n 0 2 0 true false

/-- What a forced event names, where its source says more than its ID does: a core, an engine, a memory region, a card slot or a port of the
part (a free value). -/
def State.forcedDetail (t : State) (src : Nat) : Nat :=
  let f := Config.forcedCore t.free
  let engines := ((List.range 24).map engCode).filter t.present
  if src / 256 = 0x28 then f % t.cores
  else if src / 256 = 0x40 then f % 52
  else if src / 256 = 0x58 then f % 6
  else if src / 256 = 0x60 then f % t.portCount
  else if src = 0x7202 then engines.getD (f % engines.length) 0x10
  else 0

/-- FLT_FORCE (R592, R593): one event of every source whose bit is written 1, in the same cycle. -/
def execFltForce (blk : Nat) (val : W32) (s : State) : Host.Outcome State Fault Refusal :=
  .next (s.onPage blk (fun t =>
    if 256 ≤ blk then t
    else
      let ns := (List.range (blockCaps blk).1).filter (fun n => bit val n)
      let evs : List Event := (ns.filter (fun n => decide (blk * 256 + n ≠ 0x5100))).map (fun n =>
        { src := blk * 256 + n, forced := true, detail := t.forcedDetail (blk * 256 + n) })
      let t1 : State := if [0x28, 0x40, 0x58, 0x60, 0x72].contains blk then { t with free := t.free + 1 } else t
      let t2 := t1.raiseAll evs
      if blk = 0x51 ∧ ns.contains 0 then t2.forceTamper else t2))

/-- The TMP registers (R624, R625). -/
def State.readTmp (s : State) (off : Nat) : W32 :=
  let t := s.tmp
  match off with
  | 0x100 => BitVec.ofNat 32 (t.response * 2 ^ 28 + (List.range 64).foldl (fun a n => a + b2n (t.active.getLsbD n)) 0)
  | 0x104 => BitVec.ofNat 32 t.active.toNat
  | 0x108 => BitVec.ofNat 32 (t.active.toNat / 2 ^ 32)
  | 0x110 => s.held.caseCfg
  | 0x114 => s.held.envCfg
  | 0x118 => BitVec.ofNat 32 t.envStat.toNat
  | 0x11C => BitVec.ofNat 32 (b2n (t.active.getLsbD 56) * 2 ^ 31 + t.selvTrace.toNat)
  | 0x120 => BitVec.ofNat 32 (t.seamKey * 65536 + t.seamFabric)
  | 0x124 => BitVec.ofNat 32 t.disagree.toNat
  | 0x130 => BitVec.ofNat 32 t.vin
  | 0x134 => BitVec.ofInt 32 t.clk &&& 0xFFFF
  | 0x138 => BitVec.ofInt 32 t.temp &&& 0xFFFF
  | 0x13C => BitVec.ofNat 32 (s.held.lightThresh * 4096 + t.lightLevel)
  | _ =>
    if 0x140 ≤ off ∧ off < 0x200 then
      let n := (off - 0x140) / 4
      vget s.held.loopCfg n 0 ||| (if t.active.getLsbD n then bitW 27 else 0) ||| BitVec.ofNat 32 (vget t.loopMeas n 0)
    else 0

/-- A write of `TMP_DISAGREE` (R625). -/
def State.writeTmp (s : State) (off : Nat) (v : W32) : State :=
  if off = 0x124 then { s with tmp := { s.tmp with disagree := s.tmp.disagree &&& ~~~(BitVec.ofNat 4 v.toNat) } } else s

/-- The Fireguard registers (R627). -/
def State.readFgd (s : State) (off : Nat) : W32 :=
  let h := s.held
  match off with
  | 0x100 => BitVec.ofNat 32 (b2n h.ms.isSome * 2 ^ 31 + b2n h.stickyLock * 2 ^ 30 + b2n h.zeroized * 2 ^ 29
      + b2n (decide (h.life ≠ 1)) * 2 ^ 28)
  | 0x104 => BitVec.ofNat 32 s.rtcNow
  | 0x108 => BitVec.ofNat 32 (s.rtcNow / 2 ^ 32)
  | 0x10C => BitVec.ofNat 32 (b2n h.vbatLow * 2 ^ 31 + h.vbatMv % 65536)
  | 0x110 => BitVec.ofNat 32 h.sticky.toNat
  | 0x114 => BitVec.ofNat 32 (h.sticky.toNat / 2 ^ 32)
  | 0x118 => BitVec.ofNat 32 h.evidCnt
  | 0x11C => BitVec.ofNat 32 h.patchCnt
  | 0x120 => BitVec.ofNat 32 h.retired.toNat
  | 0x124 => BitVec.ofNat 32 h.hsaRetired.toNat
  | 0x128 => BitVec.ofNat 32 (h.hsaRetired.toNat / 2 ^ 32)
  | _ =>
    if 0x140 ≤ off ∧ off < 0x1A0 then
      let p := vget h.lka ((off - 0x140) / 4) (0, 1)
      BitVec.ofNat 32 (p.1 * 4 + p.2)
    else if 0x1A0 ≤ off ∧ off < 0x1CC then BitVec.ofNat 32 (KV.getD h.last ((off - 0x1A0) / 4) 0 / 2 ^ 15)
    else 0

end Sys2Proof.Machine
end

