-- ==== Sys2Proof/Machine/Entropy.lean ====
section
/-! DEFINITION. Entropy sources, the two DRBGs and the RNG windows (R422 to R437). -/

namespace Sys2Proof.Machine

/-- The reseed limit of a DRBG (R429). -/
def reseedLimit : Nat := 2 ^ 24

/-- One generate request has been served: the limit counts down, and at the limit the DRBG stops (R429). -/
def Drbg.serve (d : Drbg) (n : Nat) : Drbg :=
  { d with pos := d.pos + n, left := d.left - 1, state := if d.left ≤ 1 then .stopped else d.state }

/-- `n` bytes of the internal DRBG, one request (R430). The bytes are free values of the stream position. -/
def State.drawInt (s : State) (n : Nat) : List Byte × State :=
  let d := s.ent.int
  let bytes := (List.range n).map (fun i => Config.intDrbg (d.pos + i))
  let s1 : State := { s with ent := { s.ent with int := d.serve n } }
  (bytes, if d.state = .seeded ∧ d.left ≤ 1 then (s1.raise { src := 0x310B }).irqSync 0x31 else s1)

/-- The internal DRBG can serve (R434). -/
def State.intSeeded (s : State) : Bool := decide (s.ent.int.state = .seeded)
/-- The host DRBG can serve host reads (R431). -/
def State.hostSeeded (s : State) : Bool := decide (s.ent.host.state = .seeded) && s.ent.hostEn

/-- `n` bytes of the host DRBG, one request (R431). -/
def State.drawHost (s : State) (n : Nat) : List Byte × State :=
  let d := s.ent.host
  let bytes := (List.range n).map (fun i => Config.hostDrbg (d.pos + i))
  let s1 : State := { s with ent := { s.ent with host := d.serve n } }
  (bytes, if d.state = .seeded ∧ d.left ≤ 1 then (s1.raise { src := 0x310C }).irqSync 0x31 else s1)

def State.setSource (s : State) (n : Nat) (x : EntSource) : State :=
  { s with ent := { s.ent with sources := vset s.ent.sources n x } }

/-- Raw read-out ends and its source goes back through the start-up test (R436). -/
def State.endRaw (s : State) : State :=
  if s.ent.rawEn then
    let n := s.ent.rawSrc
    let s1 : State := { s with ent := { s.ent with rawEn := false } }
    s1.setSource n { vget s.ent.sources n {} with state := .startup, startFails := 0 }
  else s

/-- With raw read-out on, it ends at once when fewer than two sources remain in service (R436). -/
def State.checkRaw (s : State) : State := if s.ent.rawEn && decide (s.ent.inService < 2) then s.endRaw else s

/-- A source fails a health test: its block in progress is gone (R425). In the start-up test the run counts too; a second failed one retires
the source (R427). -/
def State.healthFail (s : State) (n : Nat) (x : EntSource) : State :=
  let s1 := (s.setSource n x).raise { src := 0x3100 + n }
  (if x.state = .startup then
    (if x.startFails = 0 then s1.setSource n { vget s1.ent.sources n {} with startFails := 1 }
    else ((s1.setSource n { vget s1.ent.sources n {} with state := .retired, startFails := 0 }).cause 0x31 0).raise { src := 0x3108, detail := n })
  else s1).event 0x31 3 none 1

/-- CONDITIONED_BLOCK (R423, R425): a source finishes a block. A source in its start-up test enters service with the
first block that passes (DEDUCED). -/
def execConditionedBlock (src : Nat) (health : HealthResult) (s : State) : Host.Outcome State Fault Refusal :=
  let x := vget s.ent.sources src {}
  if 8 ≤ src ∨ (x.state ≠ .inService ∧ x.state ≠ .startup) ∨ !s.pcr.powered then .next s
  else .next (match health with
    | .pass =>
      ((({ s with ent := { s.ent with made := s.ent.made + 1 } } : State).setSource src
        { x with state := .inService, fresh := x.fresh + 1, blocks := x.blocks + 1, startFails := 0 }).event 0x31 1 none 1).irqSync 0x31
    | .repetition => ((s.healthFail src { x with rctFails := satAdd x.rctFails 1 255 }).checkRaw).irqSync 0x31
    | .proportion => ((s.healthFail src { x with aptFails := satAdd x.aptFails 1 255 }).checkRaw).irqSync 0x31)

/-- OSC_CALIBRATION (R424): a ratio more than 20 % off discards the source's blocks of the interval. `deviation` is in
percent, one per source. -/
def execOscCalibration (deviation : List Int) (s : State) : Host.Outcome State Fault Refusal :=
  let bad := (List.range 8).filter (fun n => decide (20 < (deviation.getD n 0).natAbs))
  let s1 : State := { s with ent := { s.ent with sources := s.ent.sources.mapIdx (fun n x =>
    { x with fresh := 0, blocks := if bad.contains n then x.blocks - x.fresh else x.blocks }) } }
  .next (s1.raiseAll (bad.map (fun n => { src := 0x3109, detail := n })))

/-- Take one block from each of the first sources with blocks, then again, until three are taken. -/
def takeBlocks : Nat → Vector EntSource 8 → Nat → Vector EntSource 8
  | 0, v, _ => v
  | fuel + 1, v, need =>
    if need = 0 then v
    else
      let i := fuel % 8
      let x := vget v (7 - i) {}
      if x.state = .inService ∧ 0 < x.blocks then takeBlocks fuel (vset v (7 - i) { x with blocks := x.blocks - 1 }) (need - 1)
      else takeBlocks fuel v need

/-- Three blocks from at least two distinct sources in service are at hand (R429). -/
def Ent.canReseed (e : Ent) : Bool :=
  let xs := e.sources.toList.filter (fun x => decide (x.state = .inService) && decide (0 < x.blocks))
  decide (2 ≤ xs.length) && decide (3 ≤ (xs.map (·.blocks)).sum)

/-- A DRBG after a successful reseed (R429). -/
def Drbg.reseed (d : Drbg) : Drbg :=
  if d.state = .uninstantiated then d
  else { d with state := .seeded, left := reseedLimit, reseeds := satAdd d.reseeds 1 0xFFFFFFFF }

/-- SEEDED is raised when both DRBGs first reach SEEDED (R437). -/
def State.seededCause (s : State) : State :=
  if s.ent.int.state = .seeded ∧ s.ent.host.state = .seeded ∧ !s.ent.bothSeeded then
    ({ s with ent := { s.ent with bothSeeded := true } } : State).cause 0x31 4 else s

/-- DRBG_RESEED (R429): with its blocks the DRBG reseeds and, when stopped, restarts; without them it goes on to its
limit. -/
def execDrbgReseed (host : Bool) (s : State) : Host.Outcome State Fault Refusal :=
  let d := if host then s.ent.host else s.ent.int
  if !s.ent.canReseed ∨ d.state = .uninstantiated then .next s
  else
    let e := { s.ent with sources := takeBlocks 64 s.ent.sources 3 }
    let e1 := if host then { e with host := e.host.reseed } else { e with int := e.int.reseed, reserve := 65536 }
    .next (((({ s with ent := e1 } : State).event 0x31 2 none 1).seededCause).irqSync 0x31)

/-- ENT_RAW_CTRL (R436): EN = 1 only in MAINTENANCE with at least three sources in service; EN = 0 returns the source
through the start-up test, which `startupPass` decides. -/
def execEntRawCtrl (val : W32) (startupPass : Bool) (s : State) : Host.Outcome State Fault Refusal :=
  .next (s.onPage 0x31 (fun t =>
    if (t.getBlk 0x31).lock then t
    else if bit val 31 then
      let n := bits val 2 0
      let x := vget t.ent.sources n {}
      if t.maintenance && decide (3 ≤ t.ent.inService) && !t.ent.rawEn && decide (x.state = .inService) then
        ({ t with ent := { t.ent with rawEn := true, rawSrc := n } } : State).setSource n { x with state := .raw }
      else t
    else if t.ent.rawEn then
      let n := t.ent.rawSrc
      let t1 := t.endRaw
      let x := vget t1.ent.sources n {}
      if startupPass then (t1.setSource n { x with state := .inService }).irqSync 0x31
      else (((t1.setSource n { x with state := .retired }).cause 0x31 0).raise { src := 0x3108, detail := n }).irqSync 0x31
    else { t with ent := { t.ent with rawSrc := bits val 2 0 } }))

/-- ENT_RAW_DATA (R436): a read returns the next 32 raw bits, or zero while EN = 0. -/
def execEntRawData (raw : W32) (s : State) : Host.Outcome State Fault Refusal :=
  .next (if s.ent.rawEn then ({ s with ent := { s.ent with rawBits := raw } } : State).answer raw else s.answer 0)

/-- RNG_DATA_READ (R432): 4 bytes once only, or zero fill with its flags. -/
def execRngDataRead (fn : Nat) (s : State) : Host.Outcome State Fault Refusal :=
  if !s.fnExists fn then .next (s.answer 0)
  else
    let f := s.getFn fn
    let w := f.rng
    if 4 ≤ w.fifo.length ∧ s.ent.hostEn then
      .next (((s.setFn fn { f with rng := { w with fifo := w.fifo.drop 4 } }).event 0x31 4 (some fn) 1).answer
        (BitVec.ofNat 32 (unLe (w.fifo.take 4))))
    else
      .next (((s.setFn fn { f with rng := { w with
        err := true, notSeeded := w.notSeeded || !s.hostSeeded, empty := satAdd w.empty 1 0xFFFFFFFF } }).event 0x31 5 (some fn) 1).answer 0)

/-- RNG_FIFO_REFILL (R431): the host DRBG adds 16 bytes to a function's FIFO of 64. -/
def execRngFifoRefill (fn : Nat) (s : State) : Host.Outcome State Fault Refusal :=
  if s.fnExists fn && s.hostSeeded && decide ((s.getFn fn).rng.fifo.length ≤ 48) then
    let (bs, s1) := s.drawHost 16
    let f := s1.getFn fn
    .next (s1.setFn fn { f with rng := { f.rng with fifo := f.rng.fifo ++ bs } })
  else .next s

/-- The ENT registers (R435). -/
def State.readEnt (s : State) (off : Nat) : W32 :=
  let e := s.ent
  let mask (st : SrcState) : Nat := (List.range 8).foldl (fun a n => a + b2n (decide ((vget e.sources n {}).state = st)) * 2 ^ n) 0
  let dr (d : Drbg) : W32 := BitVec.ofNat 32
    ((match d.state with | .uninstantiated => 0 | .seeded => 1 | .stopped => 2) * 2 ^ 30 + d.left)
  match off with
  | 0x100 => BitVec.ofNat 32 (b2n e.startupDone * 2 ^ 31 + mask .retired * 65536 + mask .inService)
  | 0x104 => dr e.int
  | 0x108 => dr e.host
  | 0x10C => BitVec.ofNat 32 (b2n e.hostEn)
  | 0x130 => BitVec.ofNat 32 e.made
  | 0x134 => BitVec.ofNat 32 (e.made / 2 ^ 32)
  | 0x138 => BitVec.ofNat 32 e.int.reseeds
  | 0x13C => BitVec.ofNat 32 e.host.reseeds
  | 0x140 => BitVec.ofNat 32 (b2n e.rawEn * 2 ^ 31 + e.rawSrc)
  | _ =>
    if 0x110 ≤ off ∧ off < 0x130 then
      let x := vget e.sources ((off - 0x110) / 4) {}
      BitVec.ofNat 32 ((match x.state with | .startup => 0 | .inService => 1 | .retired => 2 | .raw => 3) * 2 ^ 30
        + x.rctFails * 256 + x.aptFails)
    else 0

/-- The RNG window registers (R431). -/
def State.readRng (s : State) (fn off : Nat) : W32 :=
  let w := (s.getFn fn).rng
  match off with
  | 0x010 => BitVec.ofNat 32 (b2n s.hostSeeded * 2 ^ 31 + b2n w.err * 2 ^ 30 + b2n w.notSeeded * 2 ^ 29 + w.fifo.length)
  | 0x014 => BitVec.ofNat 32 w.empty
  | _ => 0

/-- Writes to ENT registers without a row of their own (R435). -/
def State.writeEnt (s : State) (off : Nat) (v : W32) : State :=
  if off = 0x10C ∧ !(s.getBlk 0x31).lock then { s with ent := { s.ent with hostEn := bit v 0 } } else s

/-- A write of `RNG_STATUS` (R431). -/
def State.writeRng (s : State) (fn off : Nat) (v : W32) : State :=
  if off = 0x010 then
    let f := s.getFn fn
    s.setFn fn { f with rng := { f.rng with err := f.rng.err && !bit v 30, notSeeded := f.rng.notSeeded && !bit v 29 } }
  else s

end Sys2Proof.Machine
end

