-- ==== Sys2Proof/Machine/Leakage.lean ====
section
/-! DEFINITION. The Leakage Assessor (R474 to R494). -/

namespace Sys2Proof.Machine

def State.getLka (s : State) (e : Nat) : LkaEngine := vget s.lka.engines e {}
def State.setLka (s : State) (e : Nat) (x : LkaEngine) : State := { s with lka := { s.lka with engines := vset s.lka.engines e x } }
def State.lkaCount (s : State) (i n : Nat) : State := { s with lka := { s.lka with cnt := vmod s.lka.cnt i 0 (· + n) } }

/-- The level in force on an engine (R479). -/
def State.cmOf (s : State) (e : Nat) : Nat := max (s.getLka e).cm s.lka.floorCm
/-- The minimum masking order in force on an engine (R479). -/
def State.minOrder (s : State) (e : Nat) : Nat := max (s.getLka e).order s.lka.floorOrder

/-- The budget factor of a level, in eighths (R474). -/
def cmFactor (cm : Nat) : Nat := if cm = 0 then 8 else if cm = 1 then 9 else if cm = 2 then 10 else 12
/-- The BNE dummy ratio limit of a level (R474). -/
def cmRatio (cm : Nat) : Nat := if cm = 0 then 8 else if cm = 1 then 4 else if cm = 2 then 3 else 2
/-- W multiplied by the factor of the level, rounded up (R476). -/
def cmBudget (cm w : Nat) : Nat := ceilDiv (w * cmFactor cm) 8

/-- A campaign in progress is discarded (R488). -/
def State.discard (s : State) (e : Nat) : State :=
  let x := s.getLka e
  if x.running then
    (s.setLka e { x with running := false, confirm := false, slots := 0, fixed := 0, random := 0 }).lkaCount 5 1
  else s

/-- All campaigns in progress are discarded (R488: a power warning, BANK, Damper stage 3). -/
def State.discardAll (s : State) : State := (List.range 24).foldl State.discard s

/-- The engine exists and has not been retired. -/
def State.assessable (s : State) (e : Nat) : Bool :=
  s.present (engCode e) && !s.retired (engCode e) && !(s.getLka e).sensorFail

/-- Assessed level and order change at the next admission edge (R478, R489); the Fireguard holds them (R480). -/
def State.setAssessed (s : State) (e : Nat) (cm order : Nat) : State :=
  let s1 := s.setLka e { s.getLka e with cm := cm, order := order, next := none }
  { s1 with held := { s1.held with lka := vset s1.held.lka e (cm, order) } }

/-- The changes due at an admission edge take effect (R478, R489): a changed level discards the engine's campaign. -/
def State.applyLka (s : State) : State :=
  (List.range 24).foldl (fun t e =>
    let x := t.getLka e
    let t1 := match x.next with
      | some (cm, o) => if cm = x.cm ∧ o = x.order then t.setLka e { x with next := none } else (t.discard e).setAssessed e cm o
      | none => t
    if x.exhaust then (t1.setLka e { t1.getLka e with exhaust := false }).raise { src := 0x7202, detail := engCode e } else t1) s

/-- A campaign's FAIL (R489). -/
def State.lkaFail (s : State) (e : Nat) : State :=
  let x := s.getLka e
  if x.cm < 3 then
    ((s.setLka e { x with next := some (x.cm + 1, x.order) }).lkaCount 6 1).raise { src := 0x7201, detail := engCode e }
  else if e < 16 ∧ x.order < 3 then
    ((s.setLka e { x with next := some (x.cm, x.order + 1) }).lkaCount 7 1).raise { src := 0x7201, detail := engCode e }
  else s.setLka e { x with exhaust := true, verdict := 4 }

/-- A campaign ends with a largest |t| × 256 (R487). A provisional level is made final by a PASS; a SUSPECT restores the
previous value, without a confirmation campaign (R491). -/
def State.lkaVerdict (s : State) (e : Nat) (m : AssessMeasure) : State :=
  let x := s.getLka e
  let base := { x with
    running := false, confirm := false, slots := 0, fixed := 0, random := 0,
    maxT := min 0xFFFF m.maxT, point := m.point % 64, second := m.second }
  let s1 := (s.setLka e base).lkaCount 0 1
  let s2 := (s1.cause 0x72 0).event 0x72 2 none 1
  if m.maxT ≤ 1152 then
    (s2.setLka e { base with verdict := 1, provisional := false }).lkaCount 1 1
  else if x.confirm then
    (((s2.setLka e { base with verdict := 3 }).lkaCount 3 1).cause 0x72 2).lkaFail e
  else if x.provisional then
    (((s2.setLka e { base with verdict := 2, provisional := false, next := some x.previous }).lkaCount 2 1).cause 0x72 1).raise
      { src := 0x7200, detail := engCode e }
  else
    (((s2.setLka e { base with verdict := 2, confirm := true }).lkaCount 2 1).cause 0x72 1).raise
      { src := 0x7200, detail := engCode e }

/-- Traces of a slot (R484): the largest even number of trace operations that fit the usable cycles. -/
def State.slotTraces (s : State) (e : Nat) : Nat :=
  let usable := if e < 16 then s.trd.period * (if (s.getPvu e).derated then 1200 else 1600) - 1000 else s.trd.period * 1200 - 1000
  usable / (if e < 16 then 64 else 80) / 2 * 2

/-- The classes of a slot's traces are drawn, one bit each, and the secrets that they use: the campaign's fixed one at its start and a fresh
one for each RANDOM trace (R485). Answers the numbers of FIXED and RANDOM traces. -/
def State.drawTraces (s : State) (e : Nat) : (Nat × Nat) × State :=
  let n := s.slotTraces e
  let r := s.drawInt (ceilDiv n 8)
  let fixed := ((r.1.flatMap (fun b => bitsOf 8 b.toNat)).take n).countP (fun b => b)
  let first := b2n !(s.getLka e).running
  ((fixed, n - fixed), (r.2.drawInt ((first + (n - fixed)) * Config.traceSecret (decide (e < 16)))).2)

/-- The measure of a campaign that ends: 16 or 20 sample points, and the second order only where it is tested (R484, R486). -/
def State.tested (s : State) (e : Nat) (m : AssessMeasure) : AssessMeasure :=
  { m with point := m.point % (if e < 16 then 16 else 20), second := m.second && decide (e < 16) && decide (2 ≤ s.minOrder e) }

/-- ASSESSMENT_SLOT_END (R482 to R490): the slot of one engine ends with what its sensor and statistic gave. -/
def execAssessmentSlotEnd (code : Nat) (m : AssessMeasure) (s : State) : Host.Outcome State Fault Refusal :=
  let e := engIndex code
  if code < 0x10 ∨ 0x28 ≤ code ∨ !s.assessable e ∨ s.pcr.frozen ∨ s.pcr.warn ∨ 3 ≤ s.pcr.stage ∨ !s.lka.en then .next s
  else
    let s0 : State := { s with lka := { s.lka with last := code } }
    if m.noiseFail then
      let x := s0.getLka e
      let order := (x.next.map (·.2)).getD x.order
      .next ((((s0.discard e).setLka e { (s0.discard e).getLka e with sensorFail := true, verdict := 5, next := some (3, order) }).cause
        0x72 3).raise { src := 0x7203, detail := code })
    else if m.computeFault then
      .next ((s0.discard e).raise { src := code * 256, detail := 0 })
    else
      let x := s0.getLka e
      let d := s0.drawTraces e
      let n := s0.slotTraces e
      let x1 := { x with running := true, slots := x.slots + 1, fixed := x.fixed + d.1.1, random := x.random + d.1.2 }
      let s1 := ((d.2.setLka e x1).lkaCount 4 n).event 0x72 1 none n
      .next (if 50000 ≤ x1.fixed ∧ 50000 ≤ x1.random then s1.lkaVerdict e (s.tested e m) else s1)

/-- LKA_RELAX (R491): one step down, in MAINTENANCE only, provisional until the next campaign ends. -/
def execLkaRelax (val : W32) (s : State) : Host.Outcome State Fault Refusal :=
  .next (s.onPage 0x72 (fun t =>
    let code := bits val 7 0
    let e := engIndex code
    let x := t.getLka e
    let (cm, order) := x.next.getD (x.cm, x.order)
    if code < 0x10 ∨ 0x28 ≤ code ∨ !t.present code ∨ t.retired code ∨ !t.maintenance ∨ (cm = 0 ∧ order ≤ 1) then
      t.raise { src := 0x7205, detail := code }
    else
      let nxt := if 1 < order then (cm, order - 1) else (cm - 1, order)
      t.setLka e { x with
        provisional := true, previous := if x.provisional then x.previous else (x.cm, x.order), next := some nxt }))

/-- The LKA registers (R492, R493). -/
def State.readLka (s : State) (off : Nat) : W32 :=
  let k := s.lka
  let verdict (e : Nat) : W32 :=
    if !s.present (engCode e) then 0x70000000
    else
      let x := s.getLka e
      BitVec.ofNat 32 (x.verdict * 2 ^ 28 + x.cm * 2 ^ 26 + (if e < 16 then x.order else 0) * 2 ^ 24 + b2n x.provisional * 2 ^ 23
        + b2n x.second * 2 ^ 22 + x.point * 65536 + x.maxT)
  match off with
  | 0x100 => BitVec.ofNat 32 (k.floorOrder * 256 + k.floorCm * 4 + b2n k.en)
  | 0x104 =>
    let x := s.getLka (engIndex k.last)
    BitVec.ofNat 32 (b2n x.running * 2 ^ 31 + b2n x.confirm * 2 ^ 30 + k.last * 65536 + min 0xFFFF x.slots)
  | 0x108 =>
    let x := s.getLka (engIndex k.last)
    BitVec.ofNat 32 (x.random % 65536 * 65536 + x.fixed % 65536)
  | 0x110 => BitVec.ofNat 32 (engCode k.nextEng * 2 ^ 24 + k.nextTicks % 2 ^ 24)
  | 0x114 => BitVec.ofNat 32 ((List.range 24).foldl (fun a e => a + b2n (s.getLka e).sensorFail * 2 ^ e) 0)
  | _ =>
    if 0x140 ≤ off ∧ off < 0x180 then
      let c := vget k.cnt ((off - 0x140) / 8) 0
      BitVec.ofNat 32 (if off % 8 = 0 then c else c / 2 ^ 32)
    else if 0x200 ≤ off ∧ off < 0x240 then verdict ((off - 0x200) / 4)
    else if 0x240 ≤ off ∧ off < 0x260 then verdict (16 + (off - 0x240) / 4)
    else 0

/-- A write of `LKA_CFG` (R493); a refused write fires CFG_REJECT (R494). -/
def State.writeLka (s : State) (off : Nat) (v : W32) : State :=
  if off = 0x100 ∧ !(s.getBlk 0x72).lock then
    if bits v 9 8 = 0 then s.raise { src := 0x7205 }
    else
      let before := (List.range 24).map (fun e => (s.cmOf e, s.minOrder e))
      let s1 : State := { s with lka := { s.lka with floorOrder := bits v 9 8, floorCm := bits v 3 2, en := bit v 0 } }
      (List.range 24).foldl (fun t e => if before.getD e (0, 0) = (t.cmOf e, t.minOrder e) then t else t.discard e) s1
  else s

end Sys2Proof.Machine
end

