-- ==== Sys2Proof/Machine/Integrity.lean ====
section
/-! DEFINITION. MEM and FLS: Darning, row retirement, error injection, flash refresh (R555 to R575). -/

namespace Sys2Proof.Machine

def State.memCount (s : State) (i n : Nat) : State := { s with mem := { s.mem with cnt := vmod s.mem.cnt i 0 (· + n) } }

/-- `DETAIL` of a MEM event (R742). -/
def memDetail (addr kind region : Nat) : Nat := addr * 65536 + kind % 4 * 256 + region % 256

/-- A correction is counted against its row (R557, R565): up to 256 rows per region, the row whose first correction is oldest
giving way. Answers whether the row is to be retired. -/
def State.trackRow (s : State) (region row : Nat) : State × Bool :=
  let now := s.us / 1000000
  let win := s.mem.hours * 3600
  let old := (s.mem.rows.find? (fun x => decide (x.region = region) && decide (x.row = row))).map (·.times)
  let times := now :: ((old.getD []).filter (fun t => decide (now < t + win)))
  let rest := s.mem.rows.filter (fun x => !(decide (x.region = region) && decide (x.row = row)))
  let mine := rest.filter (fun x => decide (x.region = region))
  let rest1 := if old.isNone ∧ 256 ≤ mine.length then
      (match (mine.mergeSort (fun a b => a.times.getLastD 0 ≤ b.times.getLastD 0)).head? with
        | some v => rest.filter (fun x => !(decide (x.region = v.region) && decide (x.row = v.row)))
        | none => rest)
    else rest
  let retire := decide (s.mem.count ≠ 0) && decide (s.mem.count ≤ times.length)
  ({ s with mem := { s.mem with rows := if retire then rest1 else { region := region, row := row, times := times } :: rest1 } },
    retire)

/-- A row or page is due for its copy to a spare (R565, R566). Control stores have no spares. -/
def State.dueRow (s : State) (region row : Nat) (ue : Bool) : State :=
  if spareFitted region = 0 then s
  else if s.mem.due.any (fun d => decide (d.1 = region) && decide (d.2.1 = row)) then s
  else { s with mem := { s.mem with due := s.mem.due ++ [(region, row, ue)] } }

/-- The input in staging that covers a byte becomes scorched there (R560, R562). -/
def State.scorchStaged (s : State) (addr : Nat) : State :=
  { s with jobs := KV.mapV (fun id j =>
      let a := Config.stagingBase id
      if a ≤ addr ∧ addr < a + j.input.length ∧ !j.finished then { j with scorched := true, scorchAt := (addr - a) / 8 } else j) s.jobs }

/-- Darning rewrites an uncorrectable word: scorched in an allocated area, zero elsewhere (R560). -/
def State.darnWord (s : State) (e : MemError) : State :=
  if e.stored then s
  else if e.region < 16 then
    let p := s.getPvu e.region
    if e.allocated then s.setPvu e.region { p with lsScorch := KV.set p.lsScorch (e.addr / 8) true }
    else
      let a := e.addr / 8 * 8
      s.setPvu e.region { p with
        ls := p.ls.filter (fun c => decide (c.1 < a) || decide (a + 8 ≤ c.1)), lsScorch := KV.erase p.lsScorch (e.addr / 8) }
  else if e.region < 24 then
    let n := e.region - 16
    let b := s.getBne n
    let slot := e.addr / 2048
    let w := e.addr % 2048 / 8
    if e.allocated then
      s.setBne n { b with scorch := vset b.scorch slot (vget b.scorch slot 0 ||| BitVec.ofNat 256 (2 ^ w)) }
    else
      let v := vget b.slots slot 0 &&& ~~~(BitVec.ofNat 16384 ((2 ^ 64 - 1) * 2 ^ (64 * w)))
      s.setBne n { b with slots := vset b.slots slot v }
  else if e.region = 24 then
    let h := Config.keyCacheOwner e.addr
    match s.getKey h with
    | some k => if k.inCache then s.setKey h (if k.holders = [] then { k with inCache := false } else { k with scorched := true }) else s
    | none => s
  else if e.region = 25 ∧ e.allocated then s.scorchStaged e.addr
  else if e.region = 51 ∧ e.allocated then
    let h := Config.dramOwner e.addr
    match s.getKey h with
    | some k => if k.inDram then s.setKey h { k with dramBad := true } else s
    | none => s
  else s

/-- A control-store word, its address below bit 14 and its upper half told by that bit, has been found wrong (R496, R497,
R522): patch RAM waits for its reload. -/
def bobUncorrected (addr : Nat) (b : Bobbin) : Bobbin :=
  { b with uncorr := satAdd b.uncorr 1 0xFF, reloading := b.reloading || decide (0x3000 ≤ addr % 16384) }
def bobCorrected (addr : Nat) (b : Bobbin) : Bobbin :=
  { b with corr := satAdd b.corr 1 0xFFFF, lastCorr := some (decide (addr / 16384 % 2 = 1), addr % 16384) }

/-- Every sequencer's patch RAM has been scrubbed (R497, R522). -/
def State.bobPass (s : State) : State :=
  let f (b : Bobbin) : Bobbin := { b with passes := satAdd b.passes 1 0xFFFF, lastTick := s.trd.edge % 65536 }
  { s with pvu := s.pvu.map (fun p => { p with bob := f p.bob }), bne := s.bne.map (fun b => { b with bob := f b.bob }) }

/-- An uncorrectable error is met (R558, R571, R742): the event names the source, and the job if there is one. -/
def State.memUe (s : State) (e : Event) (region kind addr : Nat) : State :=
  let s1 : State := { s with mem := { s.mem with ueLast := some (region, kind % 4), ueAddr := addr } }
  let s2 := ((s1.memCount (e.src - 0x4000) 1).cause 0x40 1).event 0x40 2 none 1
  s2.raise { e with detail := memDetail addr kind region }

/-- A correctable error is met and corrected (R557, R571, R742). -/
def State.memCe (s : State) (e : Event) (region kind addr syndrome : Nat) : State :=
  let s1 : State := { s with mem := { s.mem with
    ceAddr := addr, ceRegion := region, ceSynd := syndrome % 256,
    ce := KV.set s.mem.ce region (satAdd (KV.getD s.mem.ce region 0) 1 0xFFFF) } }
  ((s1.memCount (e.src - 0x4000) 1).event 0x40 1 none 1).raise { e with detail := memDetail addr kind region }

/-- An armed injection at a write that covers its address (R572): the kind of error, and the injection is spent. -/
def State.injectAt (s : State) (region : Nat) (hit : Nat → Bool) : Option (Nat × Nat) × State :=
  let m := s.mem
  let addr := m.injAddrLo.toNat + 2 ^ 32 * m.injAddrHi.toNat
  if m.injArmed && decide (m.injRegion = region) && hit addr then
    (some (m.injKind, addr), { s with mem := { m with injArmed := false } })
  else (none, s)

/-- A word is left with an injected error, single or double, until it is written anew. -/
def State.keepInjected (s : State) (region word : Nat) (dbl : Bool) : State :=
  { s with mem := { s.mem with injected := (region, word, dbl) :: s.mem.injected } }
def State.dropInjected (s : State) (f : Nat × Nat × Bool → Bool) : State :=
  { s with mem := { s.mem with injected := s.mem.injected.filter (fun x => !f x) } }

/-- A correction counts against its row, which may be due for a spare (R557, R565). -/
def State.correctedRow (s : State) (region row : Nat) : State :=
  let r := s.trackRow region row
  if r.2 then r.1.dueRow region row false else r.1

/-- One word that Darning found wrong (R557 to R561). -/
def State.darnError (s : State) (e : MemError) : State :=
  let cs := decide (27 ≤ e.region) && decide (e.region < 51)
  let dram := decide (e.region = 51)
  let base := if cs then 2 else if dram then 4 else 0
  let addr := e.addr
  let s := s.dropInjected (fun x => decide (x.1 = e.region) && decide (x.2.1 = e.addr / 8))
  if e.uncorrectable then
    let fatal := decide (e.region = 26) && decide (s.spares 26 = 0)
    let s3 := s.memUe { src := 0x4000 + base + 1, raw := if fatal then some 4 else none } e.region e.kind addr
    let s4 := if e.kind = 3 then
      (s3.memCount 6 1).raise { src := 0x4006, detail := memDetail addr 3 e.region } else s3
    let s5 : State := if cs then
        (if e.region < 43 then
          let p := s4.getPvu (e.region - 27)
          s4.setPvu (e.region - 27) { p with bob := bobUncorrected e.addr p.bob }
        else
          let b := s4.getBne (e.region - 43)
          s4.setBne (e.region - 43) { b with bob := bobUncorrected e.addr b.bob })
      else s4.darnWord e
    let s6 := if e.stored then s5.memCount 9 1 else (s5.memCount 8 1).event 0x40 4 none 1
    s6.dueRow e.region e.row true
  else
    let s2 := s.memCe { src := 0x4000 + base } e.region e.kind addr e.syndrome
    let s3 := if e.stored then s2.memCount 9 1 else (s2.memCount 8 1).event 0x40 4 none 1
    if cs then
      (if e.region < 43 then
        let p := s3.getPvu (e.region - 27)
        s3.setPvu (e.region - 27) { p with bob := bobCorrected e.addr p.bob }
      else
        let b := s3.getBne (e.region - 43)
        s3.setBne (e.region - 43) { b with bob := bobCorrected e.addr b.bob })
    else s3.correctedRow e.region e.row

/-- The first injected error of a region that a read meets is reported (R557, R558); an uncorrectable word is rewritten scorched. -/
def State.readInjected (s : State) (region : Nat) (hit : Nat → Bool) : State :=
  match s.mem.injected.find? (fun x => decide (x.1 = region) && hit x.2.1) with
  | none => s
  | some (_, w, dbl) =>
    if dbl then ((s.memUe { src := 0x4001 } region 0 (8 * w)).dueRow region (w / 16) true).dropInjected (fun x => decide (x.1 = region) && decide (x.2.1 = w))
    else (s.memCe { src := 0x4000 } region 0 (8 * w) (Config.syndrome w)).correctedRow region (w / 16)

/-- A key's cache copy or DRAM record is written where an injection is armed: a scorch mark, or an error that the next read meets (R572).
The errors of an address check are kept under the region number above that of the DRAM. -/
def State.injectKey (s : State) (region : Nat) (h : W32) : State :=
  match s.injectAt region (fun a => decide ((if region = 24 then Config.keyCacheOwner a else Config.dramOwner a) = h)) with
  | (none, t) => t
  | (some (kind, a), t) =>
    if kind = 2 then (match t.getKey h with
      | some k => t.setKey h (if region = 24 then { k with scorched := true } else { k with dramBad := true })
      | none => t)
    else if kind = 3 then (if region = 51 then t.keepInjected 52 (a / 8) true else t)
    else t.keepInjected region (a / 8) (decide (kind = 1))

/-- A key's cache copy is read (R558). -/
def State.meetCacheError (s : State) (h : W32) : State :=
  let hit (w : Nat) : Bool := decide (Config.keyCacheOwner (8 * w) = h)
  let bad := s.mem.injected.any (fun x => decide (x.1 = 24) && hit x.2.1 && x.2.2)
  let t := s.readInjected 24 hit
  match t.getKey h with | some k => if bad then t.setKey h { k with scorched := true } else t | none => t

/-- A key's DRAM record is read (R555, R556, R558). -/
def State.meetDramError (s : State) (h : W32) : State :=
  match s.mem.injected.find? (fun x => (decide (x.1 = 51) || decide (x.1 = 52)) && decide (Config.dramOwner (8 * x.2.1) = h)) with
  | none => s
  | some (r, w, dbl) =>
    if dbl then
      let t := (s.memUe { src := 0x4005 } 51 (if r = 52 then 3 else 2) (8 * w)).dueRow 51 (w / 512) true
      let u := if r = 52 then (t.memCount 6 1).raise { src := 0x4006, detail := memDetail (8 * w) 3 51 } else t
      let v := u.dropInjected (fun x => decide (x.1 = r) && decide (x.2.1 = w))
      match v.getKey h with | some k => v.setKey h { k with dramBad := true } | none => v
    else (s.memCe { src := 0x4004 } 51 2 (8 * w) (Config.syndrome w)).correctedRow 51 (w / 512)

/-- The bound of a pass in ms (R559). -/
def passBound : MemKind → Nat
  | .sram => 2000
  | .controlStore => 1000
  | .dram => 60000
  | .nand => 2592000000

/-- DARNING_PASS (R559): a pass over one memory ends. -/
def execDarningPass (kind : MemKind) (durationMs : Nat) (found : List MemError) (s : State) :
    Host.Outcome State Fault Refusal :=
  if !s.mem.darnEn ∨ s.pcr.frozen ∨ !s.pcr.powered then .next s
  else
    let s1 := found.foldl State.darnError s
    let (a, b, c) := s1.mem.passMs
    let s2 : State := match kind with
      | .sram => ({ s1 with mem := { s1.mem with passMs := (durationMs, b, c) } } : State).memCount 12 1
      | .controlStore => (({ s1 with mem := { s1.mem with passMs := (a, durationMs, c) } } : State).memCount 13 1).bobPass
      | .dram => ({ s1 with mem := { s1.mem with passMs := (a, b, durationMs) } } : State).memCount 14 1
      | .nand => s1
    .next (if passBound kind < durationMs then
      (({ s2 with mem := { s2.mem with late := true } } : State).cause 0x40 3).raise { src := 0x4009 } else s2)

/-- ROW_RETIREMENT (R566, R567): a row's copy to its spare ends, or the region has no spare left. -/
def execRowRetirement (region row : Nat) (ue : Bool) (s : State) : Host.Outcome State Fault Refusal :=
  if spareFitted region = 0 ∨ !s.regionPresent region then .next s
  else
    let s0 : State := { s with mem := { s.mem with
      due := s.mem.due.filter (fun d => !(decide (d.1 = region) && decide (d.2.1 = row))) } }
    if 0 < s0.spares region then
      let entry : W32 := BitVec.ofNat 32 (2 ^ 31 + b2n ue * 2 ^ 30 + region % 64 * 2 ^ 24 + row % 2 ^ 24)
      let s1 : State := { s0 with mem := { s0.mem with
        spares := KV.set s0.mem.spares region (s0.spares region - 1),
        retire := KV.set s0.mem.retire s0.mem.ptr entry, ptr := (s0.mem.ptr + 1) % 16 } }
      .next (((s1.memCount (if region = 51 then 11 else 10) 1).cause 0x40 0).raise
        { src := 0x4007, detail := memDetail row (if region = 51 then 2 else 0) region })
    else
      let s1 : State := if region = 24 ∨ region = 25 ∨ region = 51 then
        { s0 with mem := { s0.mem with removed := (region, row) :: s0.mem.removed } } else s0
      .next (s1.raise { src := 0x4008, detail := memDetail row (if region = 51 then 2 else 0) region })

/-- The fields KIND and REGION of `MEM_INJ_CTRL` (R572). -/
def State.injFields (s : State) (v : W32) : State :=
  if (s.getBlk 0x40).lock ∨ 52 ≤ bits v 5 0 then s
  else { s with mem := { s.mem with injKind := bits v 9 8, injRegion := bits v 5 0 } }

/-- INJECTION_ARM (R572): accepted only in MAINTENANCE. -/
def execInjectionArm (val : W32) (s : State) : Host.Outcome State Fault Refusal :=
  .next (s.onPage 0x40 (fun t =>
    let t1 := t.injFields val
    if bit val 31 && t.maintenance then
      ({ t1 with mem := { t1.mem with injArmed := true } } : State).memCount 15 1
    else t1))

/-- The records in a flash block fail their tags (R569). -/
def State.flashLost (s : State) (block : Nat) : State :=
  { s with kst := { s.kst with
      objs := KV.mapV (fun _ k => if k.inFlash ∧ Config.flashBlock k.serial % 4096 = block % 4096 then { k with flashBad := true } else k)
        s.kst.objs } }

/-- FLASH_REFRESH (R469, R569): housekeeping reads a block and rewrites it above half the correction limit; a sector above the
limit is read 8 times more and is then uncorrectable. Paused during a power warning (R721). -/
def execFlashRefresh (block correctedBits : Nat) (warnPause : Bool) (s : State) : Host.Outcome State Fault Refusal :=
  if s.pcr.frozen ∨ s.fls.state = 0 then .next s
  else if warnPause ∨ s.pcr.warn then .next (s.flsCount 15 1)
  else
    let s0 := (((s.flsCount 0 1).flsCount 8 1).flsBusy).event 0x41 1 none 1
    .next (if 72 < correctedBits then
      let s1 : State := { s0 with fls := { s0.fls with lastFail := some (3, block % 4096) } }
      (((s1.flsCount 4 8).flsCount 5 1).flashLost block).raise { src := 0x4101, detail := block }
    else
      let s1 := s0.flsCount 3 correctedBits
      if 36 < correctedBits then
        ((((s1.flsCount 12 1).flsCount 9 1).kstCount 27 1).programPages 1).raise { src := 0x4100, detail := block }
      else s1)

/-- The MEM registers (R571, R572). -/
def State.readMem (s : State) (off : Nat) : W32 :=
  let m := s.mem
  match off with
  | 0x100 => BitVec.ofNat 32 (m.state * 2 ^ 28 + b2n m.trained)
  | 0x104 => BitVec.ofNat 32 (b2n m.darnEn)
  | 0x108 => BitVec.ofNat 32 (b2n m.late * 2 ^ 31)
  | 0x10C => BitVec.ofNat 32 (m.hours * 256 + m.count)
  | 0x110 => BitVec.ofNat 32 (s.spares 51)
  | 0x114 => match m.ueLast with | some (r, k) => BitVec.ofNat 32 (2 ^ 31 + r * 256 + k) | none => 0
  | 0x118 => BitVec.ofNat 32 m.ueAddr
  | 0x11C => BitVec.ofNat 32 (m.ueAddr / 2 ^ 32)
  | 0x120 => BitVec.ofNat 32 m.ceAddr
  | 0x124 => BitVec.ofNat 32 (m.ceAddr / 2 ^ 32)
  | 0x128 => BitVec.ofNat 32 (m.ceRegion * 256 + m.ceSynd)
  | 0x12C => BitVec.ofNat 32 m.passMs.1
  | 0x130 => BitVec.ofNat 32 m.passMs.2.1
  | 0x134 => BitVec.ofNat 32 m.passMs.2.2
  | 0x140 => BitVec.ofNat 32 (b2n m.injArmed * 2 ^ 31 + m.injKind * 256 + m.injRegion)
  | 0x144 => m.injAddrLo
  | 0x148 => m.injAddrHi
  | 0x14C => BitVec.ofNat 32 m.ptr
  | _ =>
    if 0x150 ≤ off ∧ off < 0x1D0 then
      let c := vget m.cnt ((off - 0x150) / 8) 0
      BitVec.ofNat 32 (if off % 8 = 0 then c else c / 2 ^ 32)
    else if 0x200 ≤ off ∧ off < 0x2D0 then
      let r := (off - 0x200) / 4
      BitVec.ofNat 32 (s.regionState r * 2 ^ 30 + min 16383 (s.spares r) * 65536 + KV.getD m.ce r 0)
    else if 0x2D0 ≤ off ∧ off < 0x310 then KV.getD m.retire ((off - 0x2D0) / 4) 0
    else 0

/-- Writes to MEM registers without a row of their own (R572). -/
def State.writeMem (s : State) (off : Nat) (v : W32) : State :=
  let lock := (s.getBlk 0x40).lock
  if off = 0x108 then { s with mem := { s.mem with late := s.mem.late && !bit v 31 } }
  else if lock then s
  else match off with
  | 0x104 => if bit v 0 || s.maintenance then { s with mem := { s.mem with darnEn := bit v 0 } } else s
  | 0x10C =>
    let h := bits v 15 8
    { s with mem := { s.mem with hours := (if 1 ≤ h ∧ h ≤ 168 then h else s.mem.hours), count := bits v 7 0 } }
  | 0x140 => s.injFields v
  | 0x144 => { s with mem := { s.mem with injAddrLo := v } }
  | 0x148 => { s with mem := { s.mem with injAddrHi := v } }
  | _ => s

/-- The FLS registers (R574). -/
def State.readFls (s : State) (off : Nat) : W32 :=
  let f := s.fls
  match off with
  | 0x100 => BitVec.ofNat 32 (f.state * 2 ^ 28)
  | 0x104 => 0x1000
  | 0x108 => BitVec.ofNat 32 f.good
  | 0x10C => BitVec.ofNat 32 f.spare
  | 0x110 => 0x4824
  | 0x114 => match f.lastFail with | some (k, b) => BitVec.ofNat 32 (2 ^ 31 + k * 2 ^ 28 + b % 4096) | none => 0
  | _ =>
    if 0x140 ≤ off ∧ off < 0x1C0 then
      let c := vget f.cnt ((off - 0x140) / 8) 0
      BitVec.ofNat 32 (if off % 8 = 0 then c else c / 2 ^ 32)
    else 0

end Sys2Proof.Machine
end

