-- ==== Sys2Proof/Machine/Seam.lean ====
section
/-! DEFINITION. The seam code of the data fabric, the control fabric and the key path: what each transfer carries (R611), and
what a receiver does with a transfer whose code fails (R17, R59, R612). -/

namespace Sys2Proof.Machine

/-- One bit into a CRC-32C register: the Castagnoli polynomial, least significant bit first (PRESUMED: iSCSI's; log entry 53). -/
def crc32cBit (c : W32) (b : Bool) : W32 := if (c.getLsbD 0) != b then (c >>> 1) ^^^ 0x82F63B78 else c >>> 1

/-- The CRC-32C of a byte string. -/
def crc32c (bs : List Byte) : W32 :=
  ~~~(bs.foldl (fun c b => (List.range 8).foldl (fun c i => crc32cBit c (b.getLsbD i)) c) 0xFFFFFFFF)

/-- What the CRC of a beat covers, in the order of R611 (DESIGN CHOICE; log entry 53). -/
def beatCovered (b : FabricBeat) : List Byte := le 64 b.data.toNat ++ [b.scorch, b.sender, b.receiver, b.seq]

/-- What the CRC of a share word covers. -/
def wordCovered (w : ShareWord) : List Byte := le 16 w.data.toNat ++ [w.share] ++ le 2 w.handle.toNat ++ [w.seq]

/-- What the CRC of an access covers. -/
def ctlCovered (c : CtlCopy) : List Byte := le 8 c.addr.toNat ++ le 4 c.data.toNat ++ [c.be.setWidth 8, c.sender]

/-- The code of an access holds. -/
def ctlSound (c : CtlCopy) : Bool := decide (c.crc = Config.crc16 (ctlCovered c))

/-- Key of a link: path (0 data fabric, 1 key path), sender and receiver. -/
def linkKey (path : Nat) (sender receiver : Byte) : Nat := path * 65536 + sender.toNat * 256 + receiver.toNat

/-- The sequence number of a link's next transfer (R611). -/
def State.linkSeq (s : State) (key : Nat) : Nat := KV.getD s.tmp.seamSeq key 0

/-- A link has delivered a transfer. -/
def State.linkPassed (s : State) (key : Nat) : State :=
  { s with tmp := { s.tmp with seamSeq := KV.set s.tmp.seamSeq key ((s.linkSeq key + 1) % 256) } }

/-- The code of a beat holds, and it is the beat that the link expects. -/
def State.beatSound (s : State) (b : FabricBeat) : Bool :=
  decide (b.seq.toNat = s.linkSeq (linkKey 0 b.sender b.receiver)) && decide (b.crc = crc32c (beatCovered b))

/-- The code of a share word holds, and it is the word that the link expects. -/
def State.shareSound (s : State) (w : ShareWord) : Bool :=
  decide (w.seq.toNat = s.linkSeq (linkKey 1 w.sender w.receiver)) && decide (w.crc = crc32c (wordCovered w))

/-- A receiving block notes a failed transfer in its `SEAM_STATUS` (R17, R59). -/
def State.seamNote (s : State) (blk sender : Nat) : State :=
  let b := s.getBlk blk
  (s.setBlk blk { b with
    seamErr := true, seamOvf := b.seamOvf || b.seamErr, seamCount := satAdd b.seamCount 1 0xFFFF, seamSender := sender }).irqSync blk

/-- A failure on the data or control fabric before its event: `SEAM_STATUS`, `TMP_SEAM_CNT` and the counted occurrence. -/
def State.fabricNote (s : State) (blk sender : Nat) : State :=
  let t := s.seamNote blk sender
  ({ t with tmp := { t.tmp with seamFabric := satAdd t.tmp.seamFabric 1 0xFFFF } } : State).event 0x51 2 none 1

/-- A failure on the data or control fabric that a resend may mend: one FABRIC_SEAM event (R612). -/
def State.fabricFailure (s : State) (blk sender : Nat) : State := (s.fabricNote blk sender).raise { src := 0x5101 }

/-- A failure on the key path (R612): its counts; the event is KEY_SEAM's, when the resend fails too. -/
def State.keyFailure (s : State) (blk sender : Nat) : State :=
  let t := s.seamNote blk sender
  ({ t with tmp := { t.tmp with seamKey := satAdd t.tmp.seamKey 1 0xFFFF } } : State).event 0x51 3 none 1

/-- A beat as it arrived, and its resend (R17, R612): consumed while its code holds; discarded and sent once more otherwise.
Answers whether the transfer was lost. -/
def State.beatArrives (s : State) (b r : FabricBeat) : State × Bool :=
  let key := linkKey 0 b.sender b.receiver
  if s.beatSound b then (s.linkPassed key, false)
  else
    let t := s.fabricFailure b.receiver.toNat b.sender.toNat
    if t.beatSound r then (t.linkPassed key, false) else (t.fabricNote b.receiver.toNat b.sender.toNat, true)

/-- A share word as it arrived, and its resend: the second failure raises KEY_SEAM (R612). -/
def State.shareArrives (s : State) (w r : ShareWord) : State :=
  let key := linkKey 1 w.sender w.receiver
  if s.shareSound w then s.linkPassed key
  else
    let t := s.keyFailure w.receiver.toNat w.sender.toNat
    if t.shareSound r then t.linkPassed key else (t.keyFailure w.receiver.toNat w.sender.toNat).realAlarm 62 t.batteryFlag 0

/-- Beats in the order of their arrival; answers the state and how many transfers were lost. -/
def State.beatsArrive (s : State) (l : List (FabricBeat × FabricBeat)) : State × Nat :=
  l.foldl (fun (a : State × Nat) x => let r := a.1.beatArrives x.1 x.2; (r.1, a.2 + b2n r.2)) (s, 0)

/-- An access over the control fabric to a block's page (R612): what the receiver notes, and whether it takes the access. A list
with no copy is an access that arrived as it was sent. -/
def State.ctlArrive (s : State) (page : Option Nat) (copies : List CtlCopy) : State × Bool :=
  match page, copies with
  | some k, c :: rest =>
    if ctlSound c then (s, true)
    else
      let t := s.fabricFailure k c.sender.toNat
      match rest with
      | [] => (t, true)
      | d :: _ => if ctlSound d then (t, true) else (t.fabricFailure k d.sender.toNat, false)
  | _, _ => (s, true)

end Sys2Proof.Machine
end

