-- ==== Sys2Proof/Machine/Queue.lean ====
section
/-! DEFINITION. QE: doorbells, scans, the entry cache and the checks before admission (R73 to R116, R124 to R133). -/

namespace Sys2Proof.Machine

/-- The entry of a 64-byte image (R77); on version 1 `FLAGS` bits 31:2 are ignored (R152). -/
def entryOf (ver : Nat) (bs : List Byte) : Entry :=
  { ctl := BitVec.ofNat 32 (field bs 0 4), keyHandle := BitVec.ofNat 32 (field bs 4 4), tag := BitVec.ofNat 64 (field bs 8 8),
    inAddr := BitVec.ofNat 64 (field bs 16 8), inLen := field bs 24 4,
    flags := BitVec.ofNat 32 (if ver = 1 then field bs 28 4 % 4 else field bs 28 4),
    outAddr := BitVec.ofNat 64 (field bs 32 8), outCap := field bs 40 4, params := slice bs 44 20 }

/-- A loaded pattern of a function, unloading ones included. -/
def State.patFind (s : State) (fn id : Nat) : Option Pattern :=
  (s.patterns.find? (fun p => decide (p.2.fn = fn) && decide (p.2.id = id))).map (·.2)

/-- `IN_MIN`, `IN_MAX` and `OUT_MAX` of the pattern an entry names (R278). -/
def State.patInfo (s : State) (fn : Nat) (p : List Byte) : Option (Nat × Nat × Nat) :=
  (s.patFind fn (p16 p 0)).map (fun x => (field x.container 16 4, field x.container 20 4, field x.container 24 4))

/-- The key an entry names is EPHEMERAL. -/
def State.ephemeralKey (s : State) (e : Entry) : Bool :=
  match s.getKey e.keyHandle with | some k => k.ephemeral | none => false

/-- Round up to 4 KiB. -/
def up4k (n : Nat) : Nat := ceilDiv n 4096 * 4096

/-- The largest output of a command whose output length depends on its key (R88, R737): for HSS four levels of height 15 with W = 1
and n = 32, for XMSS the twelve layers of XMSSMT-SHA2_60/12_256. -/
def keyOutMax (op : Nat) : Nat :=
  if op = 0x0103 then 1357824 else if op = 0x0101 then 1376256 else if op = 0x0700 then 64
  else if op = 0x0311 then hssSigLen 7 1 4 else xmssSigLen true 8

/-- Staging reserved for an entry that has passed checks 1 to 3 (R88). -/
def stagingNeed (op : Nat) (p : List Byte) (e : Entry) (pat : Option (Nat × Nat × Nat)) : Nat :=
  let out := if [0x0030, 0x0091, 0x009B].contains op then min e.outCap 4194304
    else match outNeed op p pat with
      | some n => n
      | none => min e.outCap (keyOutMax op)
  max 4096 (up4k e.inLen + up4k out)

/-- Capacity of the staging buffer: 16 MiB less 1 MiB for each macro removed (R88, R567). -/
def State.stagingSize (s : State) : Nat :=
  16777216 - 1048576 * (s.mem.removed.filter (fun p => decide (p.1 = 25))).length

/-- Staging in use. -/
def State.stagingUsed (s : State) : Nat := s.jobs.foldl (fun n p => n + p.2.staging) 0

/-- Taken, unfinished entries of a function's I/O queues (R87). -/
def State.takenCount (s : State) (fn : Nat) : Nat :=
  (s.jobs.filter (fun p => decide (p.2.fn = fn) && decide (p.2.q ≠ 64) && !p.2.finished && p.2.cluster.isNone)).length

/-- PENDING records of a window. -/
def pendingCount (w : List WinRec) : Nat := (w.filter (fun r => !r.done)).length

/-- Taken entries of a queue whose reads go on and that will ask for a record of its window (R110). -/
def State.recordsDue (s : State) (fn q : Nat) : Nat :=
  (s.jobs.filter (fun p => decide (p.2.fn = fn) && decide (p.2.q = q) && decide (p.2.phase = .fetching) && !p.2.finished && p.2.cluster.isNone
    && decide (p.2.e.tag ≠ 0) && sideEffecting p.2.opcode (p.2.e.par p.2.ver) (s.ephemeralKey p.2.e))).length

/-- The staging buffer or the instance's limit has no room for a further entry that needs `need` bytes (R87). -/
def State.scanFull (s : State) (fn q need : Nat) : Bool :=
  decide (s.stagingSize < s.stagingUsed + need) || (decide (q ≠ 64) && decide ((s.getFn fn).takenLimit ≤ s.takenCount fn))

/-- Checks 1 to 3 of R99; with a device response in force only 1 and 2 (R615). -/
def earlyStatus (fn q ver : Nat) (e : Entry) (noLength : Bool) : Option Nat :=
  if bits e.ctl 27 24 ≠ ver then some 0x0013
  else if !opcodeAllowed fn q (bits e.ctl 15 0) then some 0x0012
  else if !noLength && decide (4194304 < e.inLen) then some 0x0016
  else none

/-- Check 2 also refuses `CLUSTER_STATUS` on a module that is no head (R665). -/
def State.notHead (s : State) (op : Nat) : Bool := decide (op = 0x0F00) && decide (bits s.plk.cfg 25 24 ≠ 1)

/-- Checks 1 to 3 as the module stands. -/
def State.early (s : State) (fn q ver : Nat) (e : Entry) (noLength : Bool) : Option Nat :=
  match earlyStatus fn q ver e noLength with
  | some st => some st
  | none => if s.notHead (bits e.ctl 15 0) then some 0x0012 else none

/-- Admin commands that execute while LOCKED, HALTED, ZEROIZED or DEFERRED_POWER would answer the others (R136, R595, R722). -/
def alwaysAdmin (q op : Nat) : Bool := decide (q = 64) && (decide (op = 0x0001) || decide (op = 0x0030))

/-- Admin entries that are taken during a power warning complete `DEFERRED_POWER` (R722). -/
def State.entryStatus (s : State) (q op : Nat) : Option Nat :=
  if alwaysAdmin q op then none
  else match s.deviceStatus with
    | some st => some st
    | none => if q = 64 ∧ s.pcr.warn then some 0x00A3 else none

/-- The scan pauses at this entry (R87); the window's room is counted with the records that entries under their reads will take,
so that it never holds more than 4,096 (R110). -/
def State.pauses (s : State) (fn q : Nat) (x : Queue) (e : Entry) : Bool :=
  let op := bits e.ctl 15 0
  let p := e.par x.ver
  let need := if (s.early fn q x.ver e false).isSome then 4096 else stagingNeed op p e (s.patInfo fn p)
  s.scanFull fn q need
    || (decide (q ≠ 64) && decide (4096 ≤ pendingCount x.window + s.recordsDue fn q) && sideEffecting op p (s.ephemeralKey e))

/-- `CTL` that QE writes when it takes a version 1 entry (R154). -/
def takenCtl (ctl : W32) : W32 := ctl &&& 0x3FFFFFFF

/-- QE takes the entry at SP (R86, R88, R99 checks 1 to 3, R154). -/
def State.takeEntry (s : State) (fn q : Nat) (x : Queue) (e : Entry) : State :=
  let op := bits e.ctl 15 0
  let p := e.par x.ver
  let dev := s.entryStatus q op
  let early := s.early fn q x.ver e dev.isSome
  let need := if early.isSome ∨ dev.isSome then 4096 else stagingNeed op p e (s.patInfo fn p)
  let id := s.nextJob
  let j : Job := {
    fn := fn, q := q, num := x.sp, ver := x.ver, e := e, staging := need, taken := s.trd.edge,
    phase := if dev.isSome then .staged else .fetching }
  let x1 := { x with sp := x.sp + 1, retried := false, cache := x.cache.filter (fun c => decide (c.1 ≠ x.sp % x.depth)) }
  let s1 : State := { (s.setQueue fn q x1).setJob id j with nextJob := id + 1 }
  let s2 := if x.ver = 1 then s1.hostWrite fn (slotAddr x x.sp) (le 4 (takenCtl e.ctl).toNat) else s1
  let s3 := s2.event 2 1 (some fn) 1
  match early with
  | some st => s3.finishWith id st
  | none => s3

/-- The slot at SP is taken after its read has failed twice (R91, R156): the record carries no field of the entry. -/
def State.takeFailed (s : State) (fn q : Nat) (x : Queue) : State :=
  let id := s.nextJob
  let e : Entry := { ctl := BitVec.ofNat 32 (x.ver * 2 ^ 24) }
  let j : Job := { fn := fn, q := q, num := x.sp, ver := x.ver, e := e, staging := 4096, taken := s.trd.edge }
  let s1 : State := { (s.setQueue fn q { x with sp := x.sp + 1, retried := false }).setJob id j with nextJob := id + 1 }
  let s2 := (s1.event 2 1 (some fn) 1).raise { src := 0x0201, detail := x.sp % x.depth, fn := fn, queue := if q = 64 then 0xFFFF else q }
  let s3 := if x.ver = 1 then s2.hostWrite fn (slotAddr x x.sp) (le 4 0x40000000) else s2
  s3.finishWith id 0x0017

/-- Whether QE keeps copies of a queue's entries from one scan to the next: in the entry cache of NRN-4808 and NRN-4804, not on
NRN-4816 and not for admin queues (R92, R94, R133). -/
def keepsCopies (part q : Nat) : Bool := decide (part ≠ 0) && decide (q ≠ 64)

/-- The entries that a scan at SP reads together: the rest of the aligned group of 8 that holds SP and the next group on NRN-4816, the rest
of the aligned group of 4 on the other parts, one entry on an admin queue (R92, R94, R133). Slots behind SP and slots whose entries are
unfinished hold nothing to take and are left out (log entry 55), and so are copies that are there or on their way. -/
def scanPlan (part q : Nat) (x : Queue) : List Nat :=
  let g := if q = 64 then 1 else if part = 0 then 8 else 4
  let last := if q = 64 then x.sp + 1 else (x.sp / g + (if part = 0 then 2 else 1)) * g
  ((List.range 16).map (x.sp + ·)).filter (fun n => decide (n < last) && decide (n < x.head + x.depth) && !x.want.contains n
    && !x.cache.any (fun c => decide (c.1 = n % x.depth)))

/-- How far a slot lies ahead of SP in ring order (R94). -/
def slotAhead (x : Queue) (slot : Nat) : Nat := (slot + x.depth - x.sp % x.depth) % x.depth

/-- The reads of a group are issued; the untaken copies farthest ahead of SP make room for them in the cache of 8 (R94). -/
def issueReads (part q : Nat) (x : Queue) : Queue :=
  let plan := scanPlan part q x
  { x with
    want := x.want ++ plan
    cache := if keepsCopies part q then
        (x.cache.mergeSort (fun a b => slotAhead x a.1 ≤ slotAhead x b.1)).take (8 - (x.want.length + plan.length)) else x.cache }

/-- A read beyond SP has returned: its copy is held, a failed one discarded (R91). -/
def addCopy (x : Queue) (n : Nat) (f : Fetched) : Queue :=
  match f with
  | .data bs => { x with want := x.want.tail, cache := (n % x.depth, bs) :: x.cache.filter (fun c => decide (c.1 ≠ n % x.depth)) }
  | .failed => { x with want := x.want.tail }

/-- The reads that have returned and have not been looked at. -/
def addCopies : Queue → List Fetched → Queue
  | x, [] => x
  | x, f :: fs => match x.want with
    | [] => x
    | n :: _ => addCopies (addCopy x n f) fs

/-- A copy shows OWN = 1 (R74). -/
def ownedCopy (bs : List Byte) : Bool := bit (BitVec.ofNat 32 (field bs 0 4)) 31

/-- The scan stops or pauses: untaken copies with OWN = 1 stay in the entry cache, all others go (R92, R94). -/
def State.stopScan (s : State) (fn q : Nat) (x : Queue) (paused : Bool) (left : List Fetched) : State :=
  let y := addCopies x left
  let x1 := { y with
    scanning := false, paused := paused, retried := false, want := [],
    cache := if keepsCopies s.part q then y.cache.filter (fun c => ownedCopy c.2) else [] }
  let s1 := s.setQueue fn q x1
  if paused && !x.paused then s1.event 2 4 (some fn) 1 else s1

/-- QE takes nothing from the queue now: it is stopped, its function is not ENABLED (R529, R538, R540), the module has not
reached READY or is frozen (R680), or a power warning holds its I/O queues (R721). -/
def State.mayScan (s : State) (fn q : Nat) (x : Queue) : Bool :=
  s.pcr.ready && !s.pcr.frozen && !x.stopped && decide ((s.getFn fn).state = 2)
    && !(s.pcr.warn && decide (q ≠ 64)) && !s.hrt.haltPath

/-- The read of the entry at SP has failed: it is retried once, alone; then the slot is taken, unless a pause holds it (R87, R91). -/
def State.failedAtSp (s : State) (fn q : Nat) (x : Queue) (left : List Fetched) : State × Bool :=
  if !x.retried then (s.setQueue fn q { x with retried := true }, true)
  else if s.scanFull fn q 4096 then (s.stopScan fn q { x with want := x.want.tail } true left, false)
  else (s.takeFailed fn q { x with want := x.want.tail }, true)

/-- A scan from SP over the reads that have returned, in the order of their issue, a retry first (R86, R87, R91, R92, R94). -/
def State.scanLoop : Nat → State → Nat → Nat → List Fetched → State
  | 0, s, _, _, _ => s
  | fuel + 1, s, fn, q, reads =>
    match s.getQueue fn q with
    | none => s
    | some x =>
      if !s.mayScan fn q x then s
      else if x.sp - x.head = x.depth then s.stopScan fn q x true reads
      else
        match x.cache.find? (fun c => decide (c.1 = x.sp % x.depth)) with
        | some (_, bs) =>
          let e := entryOf x.ver bs
          if !bit e.ctl 31 then s.stopScan fn q x false reads
          else if s.pauses fn q x e then s.stopScan fn q x true reads
          else State.scanLoop fuel (s.takeEntry fn q x e) fn q reads
        | none =>
          if !x.want.contains x.sp then State.scanLoop fuel (s.setQueue fn q (issueReads s.part q x)) fn q reads
          else match x.want, reads with
            | n :: _, r :: rs =>
              if n = x.sp ∧ r = .failed then
                (let u := s.failedAtSp fn q x rs
                 if u.2 then State.scanLoop fuel u.1 fn q rs else u.1)
              else State.scanLoop fuel (s.setQueue fn q (addCopy x n r)) fn q rs
            | _, _ => s.setQueue fn q { x with scanning := true, paused := false }

/-- Run the scan of a queue over the reads. -/
def State.runScan (s : State) (fn q : Nat) (reads : List Fetched) : State :=
  match s.getQueue fn q with
  | none => s
  | some x => s.scanLoop (3 * (reads.length + x.cache.length) + 4) fn q reads

/-- DOORBELL (R48, R86, R89): a scan of the queue is requested; the doorbell of an index with no queue is discarded with
its fault, and every doorbell of a function that does not exist or is being reset is discarded (R538). -/
def State.doorbell (s : State) (fn idx : Nat) : State :=
  if (s.getFn fn).state = 0 ∨ (s.getFn fn).state = 7 then s
  else match (if idx < 64 then s.getQueue fn idx else none) with
  | none => s.raise { src := 0x0200, detail := idx, fn := fn }
  | some x => s.setQueue fn idx { x with rescan := true }

def execDoorbell (fn idx size : Nat) (s : State) : Host.Outcome State Fault Refusal :=
  if !s.hostOpen || !s.fnExists fn then .next s
  else if size < 4 then .next (s.raise { src := 0x0100, fn := fn })
  else .next (s.doorbell fn idx)

/-- INST_ADB (R124, R129): the admin doorbell; discarded while ENABLED = 0 and in a reset (R538). -/
def execInstAdb (fn size : Nat) (s : State) : Host.Outcome State Fault Refusal :=
  if !s.hostOpen || !s.fnExists fn then .next s
  else if size < 4 then .next (s.raise { src := 0x0100, fn := fn })
  else if !(s.getFn fn).aqEnabled then .next s
  else match s.getQueue fn 64 with
    | none => .next s
    | some x => .next (s.setQueue fn 64 { x with rescan := true })

/-- The copies that a write of `INST_ECINV` drops (R95, R96). -/
def dropCopies (v : W32) (x : Queue) : Queue :=
  if bit v 31 then { x with cache := [], want := [] }
  else { x with
    cache := x.cache.filter (fun c => decide (c.1 ≠ bits v 15 0)),
    want := if x.want.any (fun n => decide (n % x.depth = bits v 15 0)) then [] else x.want }

/-- INST_ECINV (R95, R96): drop one untaken copy or all of a queue, and the copies that reads on their way would bring; on NRN-4816
a write has no effect (R4). -/
def execInstEcinv (fn : Nat) (val : W32) (s : State) : Host.Outcome State Fault Refusal :=
  if !s.hostOpen || !s.fnExists fn then .next s
  else match s.getQueue fn (bits val 21 16) with
    | none => .next s
    | some x => .next (if s.part = 0 then s else s.setQueue fn (bits val 21 16) (dropCopies val x))

/-- The writable fields of `INST_AQ_CFG` (R125). -/
def aqMask : W32 := 0x000FF03F

/-- A configuration that enables the admin queue (R127). -/
def aqConfigOk (f : Func) (v : W32) : Bool :=
  within (bits v 15 12) 4 12 && within (bits v 19 16) 1 2 && decide (bits v 5 0 < f.tableSize)

/-- The admin queue is enabled with the configuration in the registers (R127). -/
def State.aqEnable (s : State) (fn : Nat) (v : W32) : State :=
  let f := s.getFn fn
  let x : Queue := { ring := f.aqBase, headAddr := f.aqHw, depth := 2 ^ bits v 15 12, ver := bits v 19 16, vector := bits v 5 0, ordered := true }
  let s1 := s.setFn fn { f with aqCfg := (v &&& aqMask) ||| 0x80000000, aqErr := false, aqEnabled := true }
  (s1.setQueue fn 64 x).writeHead fn x

/-- ADMIN_QUEUE_ENABLE (R127, R128); its completions are in entry order (R132). With EN = 1 already the write is ignored; while a disable still
drains, so that the queue that would be enabled is still there, the enable is refused with CFG_ERR (DESIGN CHOICE; log entry 57). -/
def execAdminQueueEnable (fn : Nat) (val : W32) (s : State) : Host.Outcome State Fault Refusal :=
  let f := s.getFn fn
  if !s.hostOpen || !s.fnExists fn || bit f.aqCfg 31 then .next s
  else if aqConfigOk f val && decide (f.state ≠ 1) && !f.aqEnabled then .next (s.aqEnable fn val)
  else .next (s.setFn fn { f with aqCfg := val &&& aqMask, aqErr := true })

/-- Entries of a queue that are taken and not started complete `CANCELLED` (R119, R129, R143). -/
def State.cancelWaiting (s : State) (fn q : Nat) : State :=
  (s.queueJobs fn q).foldl (fun t id =>
    let j := t.getJob id
    if j.phase = .admitted ∨ j.started then t else t.finishWith id 0x0060) s

/-- The scan of the admin queue stops and its unstarted entries are cancelled (R129). -/
def State.aqDisable (s : State) (fn : Nat) : State :=
  let f := s.getFn fn
  let s1 := s.setFn fn { f with aqCfg := f.aqCfg &&& 0x7FFFFFFF }
  match s1.getQueue fn 64 with
  | some x => ((s1.setQueue fn 64 { x with stopped := true }).cancelWaiting fn 64).aqClose fn
  | none => s1

/-- ADMIN_QUEUE_DISABLE (R128, R129): with EN = 0 already, the write sets the configuration fields. -/
def execAdminQueueDisable (fn : Nat) (val : W32) (s : State) : Host.Outcome State Fault Refusal :=
  let f := s.getFn fn
  if !s.hostOpen || !s.fnExists fn then .next s
  else if bit f.aqCfg 31 then .next (s.aqDisable fn)
  else .next (s.setFn fn { f with aqCfg := val &&& aqMask })

/-- SCAN (R86, R89): a requested scan starts once no scan of the queue is running or paused. -/
def execScan (fn q : Nat) (reads : List Fetched) (s : State) : Host.Outcome State Fault Refusal :=
  match s.getQueue fn q with
  | none => .next s
  | some x =>
    if !x.rescan || x.scanning || x.paused || !s.mayScan fn q x then .next s
    else .next ((s.setQueue fn q { x with rescan := false }).runScan fn q reads)

/-- SCAN_RESUME (R87): a paused scan resumes when its condition has cleared. -/
def execScanResume (fn q : Nat) (reads : List Fetched) (s : State) : Host.Outcome State Fault Refusal :=
  match s.getQueue fn q with
  | none => .next s
  | some x => if x.paused && s.mayScan fn q x then .next (s.runScan fn q reads) else .next s

/-- ENTRY_FETCH (R74, R76, R91): one more read of a running scan returns. -/
def execEntryFetch (fn q : Nat) (read : Fetched) (s : State) : Host.Outcome State Fault Refusal :=
  match s.getQueue fn q with
  | none => .next s
  | some x => if x.scanning then .next (s.runScan fn q [read]) else .next s

/-- The pieces of a table's bytes (R82). -/
def pieceOf (bs : List Byte) : Piece :=
  { addr := BitVec.ofNat 64 (field bs 0 8), len := BitVec.ofNat 32 (field bs 8 4), flags := BitVec.ofNat 32 (field bs 12 4) }

/-- The whole pieces that a table read returned, at most 256 (R82). -/
def piecesIn (bs : List Byte) : List Piece := (List.range (min 256 (bs.length / 16))).map (fun k => pieceOf (slice bs (16 * k) 16))

/-- One table (R83): its data pieces and the next table's address, if it is a chain; none = an invalid table. -/
def readTable : Nat → List Piece → Option (List (Nat × Nat) × Option Nat)
  | 0, _ => none
  | _, [] => none
  | n + 1, p :: ps =>
    if bit p.flags 31 && bit p.flags 30 then none
    else if bit p.flags 31 then some ([(p.addr.toNat, p.len.toNat)], none)
    else if bit p.flags 30 then some ([], some p.addr.toNat)
    else (readTable n ps).map (fun r => ((p.addr.toNat, p.len.toNat) :: r.1, r.2))

/-- The pieces of a chain of tables, or the status that ends the entry (R83, R736). `n` counts the tables still allowed. -/
def readTables : Nat → Nat → List TableRead → List (Nat × Nat) ⊕ Nat
  | 0, _, _ => .inr 0x0015
  | n + 1, addr, ts =>
    if addr % 16 ≠ 0 then .inr 0x0015
    else match ts with
      | [] => .inr 0x0017
      | .failed :: _ => .inr 0x0017
      | .bytes bs :: rest =>
        match readTable 256 (piecesIn bs) with
        | none => .inr 0x0015
        | some (d, none) => .inl d
        | some (d, some next) =>
          match readTables n next rest with
          | .inl more => .inl (d ++ more)
          | .inr st => .inr st

/-- Pieces of an indirect buffer; address 0 means no pieces (R84). -/
def piecesOf (indirect : Bool) (addr : Nat) (ts : List TableRead) : Option (List (Nat × Nat)) ⊕ Nat :=
  if !indirect then .inl none
  else if addr = 0 then .inl (some [])
  else match readTables 16 addr ts with
    | .inl ps => .inl (some (ps.filter (fun p => decide (p.2 ≠ 0))))
    | .inr st => .inr st

/-- The summed length of pieces. -/
def pieceSum (ps : List (Nat × Nat)) : Nat := ps.foldl (fun n p => n + p.2) 0

/-- What a data read at an address returned, to its length. -/
def readAt (rd : InputReads) (addr len : Nat) : Option (List Byte) :=
  ((rd.input.find? (fun r => decide (r.1 = addr))).bind (·.2)).map (fit len)

/-- The input: the concatenation of the data pieces in order, or the buffer at `IN_ADDR` (R85); none where a read failed twice. -/
def readInput (e : Entry) (rd : InputReads) : Option (List Byte) :=
  if e.inLen = 0 then some []
  else match piecesOf (bit e.flags 0) e.inAddr.toNat rd.inTables with
    | .inl (some ps) => (ps.mapM (fun p => readAt rd p.1 p.2)).map List.flatten
    | _ => readAt rd e.inAddr.toNat e.inLen

/-- PVUs present and not retired (R316). -/
def State.activePvus (s : State) : List Nat := (List.range s.pvus).filter (fun n => !s.retired (0x10 + n))

/-- Check 8 of R99 for admin commands, the reason code of R135 being that of the first failure: the operation of `PMU_CONFIG` (R147) and
the version of `MIGRATE_SAVE` (R546). The spec names no reason for an operation out of range: RESERVED_NONZERO, which R526 gives to a
field out of range (DESIGN CHOICE; log entry 57). -/
def adminParams (op : Nat) (p : List Byte) : Option Nat :=
  match op with
  | 0x0040 => if within (p8 p 0) 1 4 then none else some 0x0C
  | 0x008A => if within (p8 p 2) 1 2 then none else some 0x05
  | _ => none

/-- Check 8 of R99: the failure of a command's `PARAMS`, as its completion carries it. -/
def State.paramFail (s : State) (j : Job) : Option Result :=
  let p := j.e.par j.ver
  if j.q = 64 then (adminParams j.opcode p).map (statusDetail 0x0014)
  else if paramsOk j.opcode p j.e.keyHandle s.activePvus.length then none else some (status 0x0014)

/-- Checks 4 to 8 of R99 on a taken entry: the output pieces, or the result that ends it, with `OUT_LEN` for `OUT_TOO_SMALL` (R104). -/
def State.checks (s : State) (j : Job) (rd : InputReads) : List (Nat × Nat) ⊕ Result :=
  let e := j.e
  let op := j.opcode
  let p := e.par j.ver
  let pat := if op = 0x0900 then s.patInfo j.fn p else none
  match piecesOf (bit e.flags 0) e.inAddr.toNat rd.inTables with
  | .inr st => .inr (status st)
  | .inl ins =>
    match piecesOf (bit e.flags 1) e.outAddr.toNat rd.outTables with
    | .inr st => .inr (status st)
    | .inl outs =>
      if (match ins with | some l => decide (pieceSum l ≠ e.inLen) | none => false)
          || (match outs with | some l => decide (pieceSum l ≠ e.outCap) | none => false) then .inr (status 0x0010)
      else if !(if j.q = 64 then adminInOk op p e.inLen else inLenOk op p (decide (e.keyHandle ≠ 0)) e.inLen pat) then .inr (status 0x0010)
      else
        let need := (outNeed op p pat).getD 0
        if e.outCap < need then .inr { status := 0x0011, outLen := need }
        else match s.paramFail j with
          | some r => .inr r
          | none => .inl (outs.getD [])

/-- The fingerprint of a request (R111): the first 16 bytes of SHA-256 over its covered fields and its input. The spec gives the
fields and their order and not their widths: `OPCODE` enters as 2 bytes and ENTRY_VER as 1 (DESIGN CHOICE; log entry 56). -/
def fingerprint (j : Job) (input : List Byte) : List Byte :=
  (sha256 (le 2 j.opcode ++ le 1 (bits j.e.ctl 27 24) ++ le 4 j.e.keyHandle.toNat ++ le 4 j.e.inLen ++ le 4 j.e.outCap
    ++ j.e.par j.ver ++ input)).take 16

/-- A PENDING record is inserted; a full window drops its oldest DONE record first (R115): the one inserted first (DESIGN CHOICE; log
entry 56). A window of 4,096 PENDING records takes no further one: the scan has paused before it came to that (R87). -/
def insertRec (w : List WinRec) (r : WinRec) : List WinRec :=
  if w.length < 4096 then w ++ [r]
  else match w.findIdx? (fun x => x.done) with
    | some i => w.eraseIdx i ++ [r]
    | none => w

/-- The key that a consuming command names is gone and the window holds this very request: it was side-effecting when it ran,
so it is a duplicate (R296). -/
def State.spentDuplicate (s : State) (j : Job) : Bool :=
  consuming j.opcode && (s.getKey j.e.keyHandle).isNone
    && (match s.getQueue j.fn j.q with
      | some x => x.window.any (fun r => decide (r.tag = j.e.tag) && decide (r.fp = j.fp))
      | none => false)

/-- Check 9 of R99 (R112, R116): the replay rules of a side-effecting job, then staging. -/
def State.tagCheck (s : State) (id : Nat) (j : Job) : State :=
  let staged := { j with phase := .staged }
  if j.q = 64 then s.setJob id staged
  else if statefulSign j.opcode && decide (j.e.tag = 0) then (s.setJob id j).finishWith id 0x0071
  else if !(sideEffecting j.opcode (j.e.par j.ver) (s.ephemeralKey j.e) || s.spentDuplicate j) || decide (j.e.tag = 0) then
    s.setJob id staged
  else match s.getQueue j.fn j.q with
    | none => s.setJob id staged
    | some x =>
      match x.window.find? (fun r => decide (r.tag = j.e.tag)) with
      | none =>
        let r : WinRec := {
          tag := j.e.tag, fp := j.fp, done := false, status := 0, cflags := 0, outLen := 0, handle := 0, detail := 0, job := id }
        (s.setQueue j.fn j.q { x with window := insertRec x.window r }).setJob id staged
      | some r =>
        if r.job = id ∧ !r.done then s.setJob id staged
        else if r.fp ≠ j.fp then (s.setJob id j).finishWith id 0x0070
        else if r.done then s.setJob id { staged with replay := some r }
        else s.setJob id { j with phase := .duplicate, dupOf := some r.job }

/-- An injection at the input's place in staging is met as the input is written and read back (R572): which word it scorches. -/
def State.injectInput (s : State) (id : Nat) (input : List Byte) : Option Nat × State :=
  let base := Config.stagingBase id
  match s.injectAt 25 (fun a => decide (base ≤ a) && decide (a < base + input.length)) with
  | (none, t) => (none, t)
  | (some (kind, a), t) =>
    let w := (a - base) / 8
    if kind = 0 then (none, (t.memCe (t.jobEvent 0x4000 (some id) 0 0) 25 0 a (Config.syndrome (a / 8))).correctedRow 25 (a / 128))
    else if kind = 1 then (some w, (t.memUe (t.jobEvent 0x4001 (some id) 0 0) 25 0 a).dueRow 25 (a / 128) true)
    else (if kind = 2 then some w else none, t)

/-- An uncorrectable error meets the input in staging (R558): which word, the source having fired. -/
def State.spoilInput (s : State) (id : Nat) (input : List Byte) : Nat × State :=
  let w := Config.stagingWord s.free % max 1 (ceilDiv input.length 8)
  let a := Config.stagingBase id + 8 * w
  (w, (({ s with free := s.free + 1 } : State).memUe (s.jobEvent 0x4001 (some id) 0 0) 25 0 a).dueRow 25 (a / 128) true)

/-- The input has been read: it stands in staging with its fingerprint; a scorched word has fired its source (R558). -/
def State.stageInput (s : State) (id : Nat) (j : Job) (outs : List (Nat × Nat)) (input : List Byte) (scorched : Bool) : State :=
  let (mark, s1) := if scorched then (let r := s.spoilInput id input; (some r.1, r.2)) else s.injectInput id input
  s1.tagCheck id { j with
    pieces := outs, input := input, scorched := mark.isSome, scorchAt := mark.getD 0, fp := fingerprint j input }

/-- A transfer of the input to staging has failed twice (R612): a computation fault of the job, which is read again, at most twice
(R588; log entry 53). The second failure counts its event as the first does. -/
def State.inputLost (s : State) (id : Nat) (j : Job) : State :=
  let t := s.raise (s.jobEvent 0x5101 (some id) 0 0)
  if 2 ≤ j.retries then t.finish id { status := 0x0051, detail := 0x5101 } else t.modJob id (fun x => { x with retries := x.retries + 1 })

/-- What the reads of a taken entry lead to: checks 4 to 9 of R99, in order. -/
def State.inputRead (s : State) (job : Nat) (j : Job) (rd : InputReads) : State :=
  match s.checks j rd with
  | .inr r => (if r.status = 0x0017 then s.raise (s.jobEvent 0x0201 (some job) 0 0x0017) else s).finish job r
  | .inl outs =>
    match readInput j.e rd with
    | none => (s.raise (s.jobEvent 0x0201 (some job) 0 0x0017)).finishWith job 0x0017
    | some bs => s.stageInput job j outs bs rd.scorched

/-- INPUT_FETCH (R17, R736); a difference of the duplicated entry fields is reported and harms nothing (R563, R586). -/
def execInputFetch (job : Nat) (rd : InputReads) (s : State) : Host.Outcome State Fault Refusal :=
  match KV.get? s.jobs job with
  | none => .next s
  | some j =>
    if j.phase ≠ .fetching ∨ s.pcr.frozen then .next s
    else
      let r := (if rd.copyDiffers then s.raise (s.jobEvent 0x0202 (some job) 0 0) else s).beatsArrive rd.arrived
      .next (if r.2 = 0 then r.1.inputRead job (r.1.getJob job) rd else r.1.inputLost job j)

end Sys2Proof.Machine
end

