-- ==== Sys2Proof/Machine/Cost.lean ====
section
/-! DEFINITION. What each job needs: declared cycles of the kernels (R307, R308, R330, R335, R338, R356, R357, R364, R376,
R390, R396, R463, R738, R741) at the order, level and dummy ratio in force on an engine. -/

namespace Sys2Proof.Machine

/-- How a PVU kernel's cycles grow with the order: the lattice rule (R307), the permutations of a SHAKE set (R330), a fixed
unmasked figure, or the budgets of a pattern's segments by order (R280). -/
inductive PvuCost where
  | lattice (w : Nat)
  | shake (perms : Nat)
  | flat (w : Nat)
  | pattern (budgets : List (List Nat))
  deriving DecidableEq, Repr

/-- The PVU part of a job. `base` is the order before the engine's minimum is applied. -/
structure PvuNeed where
  cost   : PvuCost
  base   : Nat := 0
  secret : Bool := false
  whole  : Bool := false
  pages  : Nat := 1
  deriving DecidableEq, Repr

/-- What a job needs. BNE runs are given by their real cycles and the cycles added at any ratio. The Hash Array cost is in
quarters of an equivalent. `kst`: bytes to wrap, and whether a journal record is written (R453). -/
structure Need where
  pvu  : Option PvuNeed := none
  sign : Option (Nat × Nat) := none
  runs : List (Nat × Nat) := []
  hsa  : Option Nat := none
  kst  : Option (Nat × Bool) := none
  deriving DecidableEq, Repr

/-- Usable PVU cycles for new bookings (R26, R183). -/
def State.usable (s : State) : Nat := s.trd.period * (if 1 ≤ s.pcr.stage then 1200 else 1600) - 1000

/-- PVU cycles of a permutation of a Keccak unit at an order (R191, R330). -/
def permCycles (d : Nat) : Nat := if d = 0 then 25 else if d = 1 then 26 else if d = 2 then 50 else 74

/-- The cost of a SHAKE set at an order (R330). -/
def shakeCycles (perms d : Nat) : Nat := ceilDiv perms 2 * permCycles d + 2000

/-- A lattice kernel at an order (R307). -/
def latticeCycles (w d : Nat) : Nat := if d ≤ 1 then w else if d = 2 then ceilDiv (w * 22) 10 else ceilDiv (w * 45) 10

/-- A budget split into segments that fit the usable cycles (R307). -/
def splitCycles (w u : Nat) : List Nat :=
  if u = 0 then [] else let p := max 1 (ceilDiv w u); List.replicate p (ceilDiv w p)

/-- The order a job runs at on a PVU (R279, R306, R331); none where a pattern declares no such order. -/
def State.orderOn (s : State) (e : Nat) (n : PvuNeed) : Option Nat :=
  let m := s.minOrder e
  match n.cost with
  | .lattice _ => some (max n.base m)
  | .shake _ => some (if !n.secret ∨ n.base = 0 then 0 else max n.base m)
  | .flat _ => some 0
  | .pattern bs =>
    if !n.secret then some 0
    else [0, 1, 2, 3].find? (fun d => decide (max n.base m ≤ d) && bs.all (fun b => decide (0 < b.getD d 0)))

/-- The segments of a job on a PVU (R307, R330, R476); a pattern's segments are as its container declares. -/
def State.segmentsOn (s : State) (e : Nat) (n : PvuNeed) : Option (Nat × List Nat) :=
  match s.orderOn e n with
  | none => none
  | some d =>
    let f (w : Nat) : Nat := if n.secret then cmBudget (s.cmOf e) w else w
    match n.cost with
    | .lattice w => some (d, splitCycles (f (latticeCycles w d)) s.usable)
    | .shake p => some (d, splitCycles (f (shakeCycles p d)) s.usable)
    | .flat w => some (d, splitCycles (f w) s.usable)
    | .pattern bs => some (d, bs.map (fun b => f (b.getD d 0)))

/-- The dummy ratio in force for new bookings of a BNE (R378). -/
def State.ratioOf (s : State) (n : Nat) : Nat := min (s.getBne n).ratio (cmRatio (s.cmOf (16 + n)))

/-- Declared cycles of a run at ratio 1:k (R376, R396). -/
def runCycles (r : Nat × Nat) (k : Nat) : Nat := r.1 + ceilDiv r.1 k + r.2

/-- Real cycles of a kernel whose declared cycles are given at 1:4. -/
def realOf (w : Nat) : Nat := w * 4 / 5

/-- The cost formulas of the BNE commands (R372). -/
def cL (l : Nat) : Nat := 2 * l * ceilDiv l 16 + 4
def sL (l : Nat) : Nat := ceilDiv l 4

/-- Cycles of one BNE command by its OP; `e` is the exponent length of `MEXP` (R372). -/
def bneCycles (op l e : Nat) : Nat :=
  match op with
  | 0x00 => 1
  | 0x01 => sL l + 4
  | 0x02 => sL l + 8
  | 0x03 => sL l + 4
  | 0x04 => 2 * cL l + 16
  | 0x05 => sL l + 4
  | 0x06 => sL l + 4
  | 0x07 => sL l + 4
  | 0x08 => cL l
  | 0x09 => cL l
  | 0x0A => 64 * l * (2 * sL l + 2) + 8
  | 0x0B => (e + ceilDiv e 5) * cL l + 40
  | 0x0C => 2 * sL l + 24
  | 0x0D => sL l + 2
  | 0x0E => 2 * sL l + 2
  | 0x0F => sL l + 2
  | _ => 1

/-- Real cycles of a raw modular operation (R390): `LDIN` of each operand, `SETMOD`, `RANGE`, the command and `STOUT`. -/
def rawCycles (op l exp : Nat) : Nat :=
  let ld := bneCycles 1 l 0
  let rg := bneCycles 5 l 0
  let base := bneCycles 4 l 0 + bneCycles 3 l 0
  match op with
  | 0x0803 => 2 * ld + rg + base + bneCycles 9 l 0
  | 0x0804 => 2 * ld + rg + base + bneCycles 0x0A l 0
  | 0x0805 => 2 * ld + bneCycles 1 (max 1 (ceilDiv exp 8)) 0 + rg + base + bneCycles 0x0B l (8 * exp)
  | 0x0806 => ld + base + bneCycles 0x0C l 0
  | 0x0802 => 3 * ld + 2 * rg + base + bneCycles 8 l 0
  | _ => 3 * ld + 2 * rg + base + bneCycles 6 l 0

/-- Position of an SLH-DSA set in the tables of R335. -/
def slhIdx (pset : Nat) : Nat := (pset - 1) / 4 * 2 + (pset - 1) % 2

/-- The cost of a hash-based job: equivalents on the Hash Array, or permutations on a PVU (R330, R335, R338). -/
def hashNeed (shake : Bool) (cost base : Nat) (secret : Bool) : Need :=
  if shake then { pvu := some { cost := .shake cost, base := base, secret := secret } } else { hsa := some (4 * cost) }

/-- The signing, leaf-build and verify costs of R338 by Winternitz parameter. -/
def otsSign (w : Nat) : Nat := if w = 1 then 160 else if w = 2 then 240 else if w = 4 then 600 else 5160
def otsLeaf (w : Nat) : Nat := if w ≤ 2 then 541 else if w = 4 then 1111 else 8721
def otsVerify (w h : Nat) : Nat := (if w = 1 then 200 else if w = 2 then 270 else if w = 4 then 620 else 5200) + h

/-- The levels an HSS signature declares, top first: LM-OTS and LMS types. The string must be used up exactly. -/
def hssLevels : Nat → Nat → List Byte → Option (List (Nat × Nat))
  | 0, _, _ => none
  | fuel + 1, more, bs =>
    let ots := unBe (slice bs 4 4)
    match otsSet ots with
    | none => none
    | some (sh, n, w) =>
      let body := 8 + n + otsP n w * n
      let lms := unBe (slice bs body 4)
      match lmsSet lms with
      | none => none
      | some (sh', n', h) =>
        let len := body + 4 + h * n
        if sh ≠ sh' ∨ n ≠ n' ∨ bs.length < len then none
        else if more = 0 then (if bs.length = len then some [(ots, lms)] else none)
        else
          let next := len + lmsPubLen (unBe (slice bs len 4))
          if bs.length ≤ next then none
          else (hssLevels fuel (more - 1) (bs.drop next)).map ((ots, lms) :: ·)

/-- The level structure of a whole HSS signature (R336, R741): its level count and types. -/
def hssSigLevels (sig : List Byte) : Option (List (Nat × Nat)) :=
  let l := unBe (slice sig 0 4)
  if l ≤ 7 then hssLevels 8 l (sig.drop 4) else none

/-- Verify cost of one level. -/
def levelVerify (ots lms : Nat) : Nat :=
  match otsSet ots, lmsSet lms with
  | some (_, _, w), some (_, _, h) => otsVerify w h
  | _, _ => otsVerify 1 5

/-- The hash function of an LMS type is SHAKE256. -/
def lmsShake (lms : Nat) : Bool := match lmsSet lms with | some (sh, _, _) => sh | none => false

/-- The top level's types: of the key object, or of the given key's header (R741). -/
def State.lmsTop (s : State) (j : Job) : Nat × Nat :=
  match s.jobKey j with
  | some k => (match k.st.bind (·.levels.head?) with
      | some l => (l.ots, l.lms)
      | none => (unBe (slice k.pub 8 4), unBe (slice k.pub 4 4)))
  | none => (unBe (slice j.input 8 4), unBe (slice j.input 4 4))

/-- A given HSS public key names supported types and has its length (R336, R337). -/
def hssKeyOk (pk : List Byte) : Bool :=
  let l := unBe (slice pk 0 4)
  let lms := unBe (slice pk 4 4)
  let ots := unBe (slice pk 8 4)
  decide (1 ≤ l ∧ l ≤ 8) && (match lmsSet lms, otsSet ots with
    | some (sh, n, _), some (sh', n', _) => decide (sh = sh') && decide (n = n') && decide (pk.length = 28 + n)
    | _, _ => false)

/-- `LMS_VERIFY` is booked with the sum over the levels its signature declares; where that structure is unsupported, or the
given key fails R337, with one level of the top types (R741). -/
def State.lmsVerifyNeed (s : State) (j : Job) (p : List Byte) : Need :=
  let pklen := p16 p 8
  let siglen := p16 p 10
  let keyOk := (s.jobKey j).isSome || hssKeyOk (j.input.take pklen)
  match keyOk, hssSigLevels (slice j.input pklen siglen) with
  | true, some ls => hashNeed (lmsShake (ls.headD (0, 0)).2) (ls.foldl (fun n l => n + levelVerify l.1 l.2) 0) 0 false
  | _, _ =>
    let (o, l) := s.lmsTop j
    hashNeed (lmsShake l && (otsSet o).isSome) (levelVerify o l) 0 false

/-- The OID of an XMSS key given or held: first four bytes of its public encoding, and whether it is XMSS^MT. The values of the two kinds
meet in 1 to 3: a given key is of the kind whose values hold its OID, and where both do, XMSS^MT when the signature has that set's length
(R336, R337; DEDUCED: nothing else in the command tells them apart). -/
def State.xmssKey (s : State) (j : Job) : Bool × Nat :=
  match s.jobKey j with
  | some k => (decide (k.pset = 2), unBe (slice k.pub 0 4))
  | none =>
    let oid := unBe (slice j.input 0 4)
    (decide ((xmssSet true oid).isSome) && (decide ((xmssSet false oid).isNone) || decide (p16 (j.e.par j.ver) 10 = xmssSigLen true oid)), oid)

def State.xmssVerifyNeed (s : State) (j : Job) : Need :=
  let (mt, oid) := s.xmssKey j
  match xmssSet mt oid with
  | some (sh, _, h, d) => hashNeed sh (d * (2500 + 4 * (h / d))) 0 false
  | none => hashNeed false (otsVerify 1 5) 0 false

/-- The cost of a stateful signature (R338): the cached cost, and without CACHE_TREES half the bottom height in leaf builds. -/
def statefulCost (typ : Nat) (st : Stateful) (k : KeyObj) : Bool × Nat :=
  let bottom := st.levels.getLast?.getD {}
  if typ = 6 then
    let sh := match xmssSet (decide (k.pset = 2)) bottom.lms with | some (x, _, _, _) => x | none => false
    (sh, 2400 + (if st.cacheTrees then 0 else ceilDiv bottom.height 2 * 4901))
  else
    let w := match otsSet bottom.ots with | some (_, _, w) => w | none => 1
    (lmsShake bottom.lms, otsSign w + (if st.cacheTrees then 0 else ceilDiv bottom.height 2 * otsLeaf w))

/-- Equivalents or permutations of one leaf of a level (R338). -/
def leafCost (typ : Nat) (l : TreeLevel) : Nat :=
  if typ = 6 then 4901 else match otsSet l.ots with | some (_, _, w) => otsLeaf w | none => otsLeaf 1

/-- Quarter equivalents of an HMAC over `m` bytes (R463). -/
def hmacCost (h m : Nat) : Nat :=
  if h = 1 then 4 * (ceilDiv (m + 9) 64 + 1) else 5 * (ceilDiv (m + 17) 128 + 1)

/-- HKDF: one extraction and the expansion's blocks, each at the cost of an HMAC (DEDUCED from R463). -/
def hkdfCost (h saltless info out key : Nat) : Nat :=
  let n := ceilDiv out (phLen h)
  hmacCost h key + 0 * saltless + (List.range n).foldl (fun c i => c + hmacCost h ((if i = 0 then 0 else phLen h) + info + 1)) 0

/-- KBKDF with HMAC: each block covers a counter, the input and the length (DEDUCED from R463). -/
def kbkdfCost (h m out : Nat) : Nat := ceilDiv out (phLen h) * hmacCost h (m + 8)

/-- KMAC256: prefix, key and input blocks and the output (DEDUCED from R330 and SP 800-185). -/
def kmacPerms (m out : Nat) : Nat := 2 + ceilDiv (m + 4) 136 + (ceilDiv out 136 - 1)

/-- `HASH` (R738). -/
def digestNeed (h m out : Nat) : Need :=
  if h = 1 then { hsa := some (4 * ceilDiv (m + 9) 64) }
  else if h ≤ 3 then { hsa := some (5 * ceilDiv (m + 17) 128) }
  else
    let r := if h = 4 then 136 else if h = 5 then 104 else if h = 6 then 72 else if h = 7 then 168 else 136
    let o := if h = 7 ∨ h = 8 then out else phLen h
    { pvu := some { cost := .flat ((ceilDiv (m + 1) r + ceilDiv o r - 1) * 25 + 2000) } }

/-- A given or held RSA exponent that passes R388, as its bit length; 64 where it fails. -/
def rsaExpBits (pset : Nat) (pk : List Byte) : Nat :=
  let e := unBe (slice pk (rsaBytes pset) 8)
  let n := unBe (slice pk 0 (rsaBytes pset))
  if n % 2 = 0 ∨ e % 2 = 0 ∨ e < 3 then 64 else bitLen e

/-- An RSA public operation: real cycles R_e and the 2,000 more of the kernel (R396). -/
def rsaPublic (pset : Nat) (pk : List Byte) : Nat × Nat :=
  (let b := rsaExpBits pset pk; (b + ceilDiv b 5) * cL (rsaBytes pset / 8) + 40, 2000)

/-- The public key a command works with: of the key object, or the first bytes of the input. -/
def State.publicOf (s : State) (j : Job) (len : Nat) : List Byte :=
  if j.e.keyHandle = 0 then slice j.input 0 len else match s.jobKey j with | some k => k.pub | none => []

/-- Budgets by order of the segments of a container (R274). -/
def containerBudgets (c : List Byte) : List (List Nat) :=
  (List.range (field c 6 1)).map (fun i => (List.range 4).map (fun d => field c (64 + 24 * i + 4 + 4 * d) 4))

/-- What an admitted job of an I/O queue needs of the engines. -/
def State.jobNeed (s : State) (j : Job) : Need :=
  let p := j.e.par j.ver
  let ps := p8 p 0
  let ord := p8 p 1
  let key := s.jobKey j
  let ko := match key with | some k => k.order | none => 0
  let base1 := if ord = 0 then 1 else ord
  let held := max ko ord
  let lat (w base : Nat) (whole : Bool) : Need := { pvu := some { cost := .lattice w, base := base, secret := true, whole := whole } }
  let flat (w : Nat) : Need := { pvu := some { cost := .flat w } }
  let run (w : Nat) : Need := { runs := [(realOf w, 0)] }
  let slh (t : List Nat) (base : Nat) (secret : Bool) : Need := hashNeed (slhShake ps) (t.getD (slhIdx ps) 0) base secret
  let m := mceIdx ps
  let kemKg := byPset [5200, 7600, 10000] ps
  let kemDc := byPset [7600, 10000, 15000] ps
  match j.opcode with
  | 0x0200 => lat kemKg base1 false
  | 0x0201 => lat kemKg base1 false
  | 0x0202 => lat kemDc held false
  | 0x0210 => lat (byPset [16000, 24000, 30000] ps) base1 false
  | 0x0211 => { sign := some (ps, held) }
  | 0x0213 => { sign := some (ps, held) }
  | 0x0212 => flat (byPset [14000, 15500, 30000] ps)
  | 0x0214 => flat (byPset [14000, 15500, 30000] ps)
  | 0x0220 => flat (byPset [4000, 7600] ps)
  | 0x0300 => slh [290000, 4500, 420000, 6600, 275000, 17500] ord true
  | 0x0301 => slh [2200000, 100000, 3850000, 175000, 3370000, 355000] held true
  | 0x0303 => slh [2200000, 100000, 3850000, 175000, 3370000, 355000] held true
  | 0x0302 => slh [1200, 3200, 1800, 4700, 2600, 4800] 0 false
  | 0x0304 => slh [1200, 3200, 1800, 4700, 2600, 4800] 0 false
  | 0x0311 => (match key.bind (fun k => k.st.map (fun st => (statefulCost 5 st k))) with
      | some (sh, c) => hashNeed sh c held true | none => {})
  | 0x0319 => (match key.bind (fun k => k.st.map (fun st => (statefulCost 6 st k))) with
      | some (sh, c) => hashNeed sh c held true | none => {})
  | 0x0312 => s.lmsVerifyNeed j p
  | 0x031A => s.xmssVerifyNeed j
  | 0x0400 => lat (byPset [12000, 24000, 38000] ps) base1 false
  | 0x0401 => lat (byPset [18000, 36000, 57000] ps) base1 false
  | 0x0402 => lat (byPset [31000, 62000, 93000] ps) held true
  | 0x0410 => lat ([214, 915, 1930, 1739, 2364].getD m 0 * 31000) base1 false
  | 0x0411 => lat ([8000, 15000, 30000, 30000, 44000].getD m 0) base1 false
  | 0x0412 => lat ([62000, 93000, 124000, 124000, 124000].getD m 0) held true
  | 0x0500 => { runs := [(Config.rsaCandidateCycles ps, 0)] }
  | 0x0501 => run (byPset [118000, 467000, 815000, 2700000, 6350000, 50450000] ps)
  | 0x0504 => run (byPset [118000, 467000, 815000, 2700000, 6350000, 50450000] ps)
  | 0x0502 => { runs := [rsaPublic ps (s.publicOf j (rsaBytes ps + 8))] }
  | 0x0503 => { runs := [rsaPublic ps (s.publicOf j (rsaBytes ps + 8))] }
  | 0x0510 => run (byPset [48000, 100000, 184000] ps)
  | 0x0511 => run (byPset [57000, 118000, 213000] ps)
  | 0x0512 => run (byPset [88000, 182000, 328000] ps)
  | 0x0513 => run (byPset [52000, 108000, 196000] ps)
  | 0x0520 => run (byPset [42000, 108000] ps)
  | 0x0521 => run (byPset [44000, 112000] ps)
  | 0x0522 => run (byPset [104000, 265000] ps)
  | 0x0530 => run (byPset [46000, 121000] ps)
  | 0x0531 => run (byPset [46000, 121000] ps)
  | 0x0600 => { lat 7600 base1 false with runs := [(realOf 46000, 0)] }
  | 0x0601 => { lat 7600 base1 false with runs := [(realOf 46000, 0), (realOf 46000, 0)] }
  | 0x0602 => { lat 10000 held false with runs := [(realOf 46000, 0)] }
  | 0x0610 => { lat (byPset [16000, 24000, 24000, 30000] ps) base1 false with
      runs := [(realOf (byPset [48000, 48000, 100000, 100000] ps), 0)] }
  | 0x0611 => { sign := some (byPset [1, 2, 2, 3] ps, held), runs := [(realOf (byPset [57000, 57000, 118000, 118000] ps), 0)] }
  | 0x0612 => { flat (byPset [14000, 15500, 15500, 30000] ps) with
      runs := [(realOf (byPset [88000, 88000, 182000, 182000] ps), 0)] }
  | 0x0700 => { hsa := some (hmacCost (match key with | some k => k.pset | none => 1) j.e.inLen) }
  | 0x0701 => { hsa := some (hkdfCost (p8 p 8) 0 (j.e.inLen - p8 p 3) (p16 p 10) (match key with | some k => k.priv.length | none => 0)) }
  | 0x0702 => if p8 p 8 = 8 then { pvu := some { cost := .shake (kmacPerms j.e.inLen (p16 p 10)), base := ko, secret := true } }
      else { hsa := some (kbkdfCost (p8 p 8) j.e.inLen (p16 p 10)) }
  | 0x0710 => digestNeed (p8 p 8) j.e.inLen (p16 p 10)
  | 0x0800 => { runs := [(rawCycles 0x0800 (p16 p 0) 0, 0)] }
  | 0x0801 => { runs := [(rawCycles 0x0801 (p16 p 0) 0, 0)] }
  | 0x0802 => { runs := [(rawCycles 0x0802 (p16 p 0) 0, 0)] }
  | 0x0803 => { runs := [(rawCycles 0x0803 (p16 p 0) 0, 0)] }
  | 0x0804 => { runs := [(rawCycles 0x0804 (p16 p 0) 0, 0)] }
  | 0x0805 => { runs := [(rawCycles 0x0805 (p16 p 0) (p16 p 2), 0)] }
  | 0x0806 => { runs := [(rawCycles 0x0806 (p16 p 0) 0, 0)] }
  | 0x0900 => (match s.patFind j.fn (p16 p 0) with
      | some x => { pvu := some {
          cost := .pattern (containerBudgets x.container), base := ko, secret := decide (field x.container 5 1 % 2 = 1),
          pages := field x.container 7 1 } }
      | none => {})
  | 0x0100 => { kst := some (j.e.inLen, decide (p32 p 4 / 2 ^ 19 % 2 = 1)) }
  | 0x0101 => { kst := some (match key with | some k => k.priv.length + k.pub.length | none => 0, false) }
  | 0x0102 => { kst := some (0, decide (p32 p 4 / 2 ^ 19 % 2 = 1)) }
  | 0x0104 => { kst := some (0, match key with | some k => k.inFlash | none => false) }
  | 0x0106 => { kst := some (0, match key with | some k => k.inFlash | none => false) }
  | 0x0107 => { kst := some (0, match key with | some k => k.inFlash | none => false) }
  | 0x0108 => { kst := some (0, decide (p32 p 4 / 2 ^ 19 % 2 = 1)) }
  | 0x0321 => { kst := some (0, match key.bind (·.st) with
      | some st => decide (st.durable < min st.keyEnd (st.next + p32 p 8)) | none => false) }
  | _ => { kst := some (0, false) }

end Sys2Proof.Machine
end

