-- ==== Sys2Proof/Machine/Book.lean ====
section
/-! DEFINITION. Treadle's plan: where a segment, a run, an allotment, a fill or a sign slot fits, and the earliest booking
of a job (R165 to R168, R175 to R177, R181, R182, R214, R309 to R316, R325, R358, R359). -/

namespace Sys2Proof.Machine

/-- Ticks that the plan covers (R165): at edge a, those up to tick a + 65,536 (DEDUCED; log entry 58). -/
def horizon : Nat := 65536

/-- Bookings of an engine in a tick. -/
def State.slot (s : State) (e t : Nat) : List Booking := s.trd.plan.filter (fun b => decide (b.eng = e) && decide (b.tick = t))

/-- Declared cycles of a booking in its slot. -/
def bookedCycles (b : Booking) : Nat := match b.kind with | .signSlot _ _ k => k * b.cycles | _ => b.cycles

/-- Summed cycles of bookings. -/
def loadOf (bs : List Booking) : Nat := bs.foldl (fun n b => n + bookedCycles b) 0

/-- A booking that leaves no room beside it. -/
def wholeSlot (b : Booking) : Bool :=
  match b.kind with | .whole _ _ => true | .signSlot _ _ _ => true | .assess => true | _ => false

/-- Engines in the ring of assessment: present and not retired (R483). -/
def State.activeEngines (s : State) : List Nat :=
  (List.range 24).filter (fun e => s.present (engCode e) && !s.retired (engCode e))

/-- Ticks between two assessment slots of the module (R483). -/
def State.assessInterval (s : State) : Nat := 10000000 / (s.trd.period * max 1 s.activeEngines.length)

/-- The engine and tick hold an assessment slot (R32, R33, R483), unless a self-test has the engine (R235); the ring's phase is a
choice of the model. -/
def State.assessSlot (s : State) (e t : Nat) : Bool :=
  let ring := s.activeEngines
  let first := s.trd.edge + s.lka.nextTicks
  let iv := s.assessInterval
  !(s.getTest (engCode e)).busy && decide (ring ≠ []) && decide (iv ≠ 0) && decide (first ≤ t) && decide ((t - first) % iv = 0)
    && decide (ring.getD ((ring.findIdx (fun x => decide (s.lka.nextEng ≤ x)) % ring.length + (t - first) / iv) % ring.length) 24 = e)

/-- The function that reserves an engine's position in a tick (R181). -/
def State.reservedTo (s : State) (e t : Nat) : Option Nat :=
  (s.funcs.find? (fun p => p.2.reserved.contains (e, t % 64))).map (·.1)

/-- The places of R182, in their order; the last with the engines whose reserved positions in tick a+2 were still empty after every
candidate of the edge had been considered. -/
inductive Place where
  | own
  | free
  | lent (engines : List Nat)
  deriving DecidableEq, Repr

/-- A position lies in a place for a function at admission edge `a`. Lent positions lie in tick a+2. -/
def State.placeOk (s : State) (fn : Nat) (pl : Place) (a e t : Nat) : Bool :=
  !s.assessSlot e t &&
  (match s.reservedTo e t, pl with
    | some f, .own => decide (f = fn)
    | none, .own => false
    | none, _ => true
    | some _, .free => false
    | some _, .lent es => decide (t = a + 2) && es.contains e)

/-- The reserved positions of tick a+2 that are still empty (R182). -/
def State.lentOpen (s : State) : List Nat :=
  (List.range 24).filter (fun e => (s.reservedTo e (s.trd.edge + 2)).isSome && (s.slot e (s.trd.edge + 2)).isEmpty)

/-- The places of a job, in order: in the first pass those of its own and the unreserved ones, in the second the lent ones (R182). -/
def State.places (s : State) (fn : Nat) (lent : Option (List Nat)) : List Place :=
  match lent with
  | some es => [.lent es]
  | none => if (s.getFn fn).reserved.isEmpty then [.free] else [.own, .free]

/-- The first answer along the places. -/
def firstPlace {α : Type} (ps : List Place) (f : Place → Option α) : Option α := ps.findSome? f

/-- What the booking of one candidate depends on besides the job: its function, place, admission edge, and whether it is
exempt from the limit of Damper stage 2 (R183). -/
structure Ctx where
  fn     : Nat
  place  : Place
  a      : Nat
  exempt : Bool
  /-- the last tick before the release of the job's other parts: its pages are held to it (R214) -/
  hold   : Nat := 0
  deriving DecidableEq, Repr

/-- A PVU slot has room for a segment of `c` cycles (R27, R183, R220). -/
def State.roomFor (s : State) (x : Ctx) (e t c : Nat) (whole : Bool) : Bool :=
  let b := s.slot e t
  let load := loadOf b
  s.placeOk x.fn x.place x.a e t && b.all (fun y => !wholeSlot y) && (!whole || b.isEmpty)
    && decide (load + c ≤ s.usable) && decide (b.length < 63)
    && (x.exempt || decide (s.pcr.stage < 2) || decide (4 * load < s.usable))

/-- The first tick at or after `t` that meets a condition. -/
def firstTick : Nat → Nat → (Nat → Bool) → Option Nat
  | 0, _, _ => none
  | n + 1, t, f => if f t then some t else firstTick n (t + 1) f

/-- The engine's domain is stopped by a SEVERE response (R578). -/
def State.domainStopped (s : State) (code : Nat) : Bool := s.hrt.severe.any (fun p => p.2.contains code)

/-- New bookings may go to the engine: present, not retired or retiring, its domain on, not held by a patch turn, a
reload of patch RAM or a self-test, and not in a stopped domain. -/
def State.engineOpen (s : State) (code : Nat) : Bool :=
  s.present code && !s.retired code && !s.trd.retiring.contains code && !s.trd.noBook.contains code && !s.domainStopped code
    && !(s.getTest code).busy
    && !(if code < 0x20 then (s.getPvu (code - 0x10)).bob.reloading else (s.getBne (code - 0x20)).bob.reloading)

/-- A PVU takes ordinary segments; secret-handling ones only while its MRG is not STALE (R207, R218). -/
def State.pvuOpen (s : State) (e : Nat) (secret : Bool) : Bool :=
  let p := s.getPvu e
  s.engineOpen (0x10 + e) && decide (e < 16) && p.powered && decide (p.pin = none) && decide (p.pinning = none)
    && !(secret && p.mrgStale)

/-- A BNE takes runs. -/
def State.bneOpen (s : State) (n : Nat) : Bool :=
  s.engineOpen (0x20 + n) && decide (n < 8) && (s.getBne n).powered && !(s.getBne n).mrgStale

/-- The queue of a chain and its first use: PVU, parameter set, order, parts and their cycles, level, and the first tick that may serve it. -/
structure ChainAt where
  pvu   : Nat
  pset  : Nat
  order : Nat
  parts : Nat
  part  : Nat
  cm    : Nat
  from_ : Nat
  deriving DecidableEq, Repr

/-- What a booking of a job comes to: its bookings, its release edge and its pages. -/
structure Booked where
  bookings : List Booking := []
  release  : Nat := 0
  pages    : List (Nat × Nat × Nat × List Nat) := []
  chain    : Option ChainAt := none
  deriving DecidableEq, Repr

/-- Job pages free on a PVU over a span of ticks (R214): of its 128 pages, or on a pinned PVU one of its areas of 256 bytes (R362). -/
def State.freePages (s : State) (e first last n : Nat) : Option (List Nat) :=
  let held := s.trd.pages.filter (fun p => decide (p.2.1 = e) && decide (p.2.2.1 ≤ last) && decide (first ≤ p.2.2.2.1))
  let taken := held.flatMap (fun p => p.2.2.2.2)
  let (all, need) := match (s.getPvu e).pin with
    | some (_, len) => ((1048576 - len) / 256, 1)
    | none => (128, n)
  let avail := (List.range all).filter (fun g => !taken.contains g)
  if need ≤ avail.length then some (avail.take need) else none

/-- Ticks of successive segments, each in the earliest later tick with room (R166). -/
def State.segTicks (s : State) (x : Ctx) (e : Nat) (whole : Bool) (extra : Nat → Bool) : Nat → List Nat → Option (List Nat)
  | _, [] => some []
  | t, c :: cs =>
    match firstTick (x.a + horizon + 1 - t) t (fun u => s.roomFor x e u c whole && extra u) with
    | none => none
    | some u => (State.segTicks s x e whole extra (u + 1) cs).map (u :: ·)

/-- The earliest booking of segments with pages on one PVU. -/
def State.bookSegs : Nat → State → Ctx → Nat → Nat → PvuNeed → Nat → List Nat → (Nat → Bool) → (Nat → BookKind) → Option Booked
  | 0, _, _, _, _, _, _, _, _, _ => none
  | fuel + 1, s, x, e, t, n, d, segs, extra, kind =>
    match s.segTicks x e n.whole extra t segs with
    | none => none
    | some [] => none
    | some (u :: us) =>
      let ends := us.getLastD u
      let last := max ends x.hold
      match s.freePages e (u - 1) last n.pages with
      | none => State.bookSegs fuel s x e (u + 1) n d segs extra kind
      | some pg =>
        some {
          bookings := ((u :: us).zip segs).zipIdx.map (fun p =>
            { job := none, eng := e, tick := p.1.1, kind := kind p.2, cycles := p.1.2, start := 0, order := d }),
          release := ends + 1, pages := [(e, u - 1, last, pg)] }

/-- The earlier of two bookings; the first stands on equal release edges. -/
def better (a b : Option Booked) : Option Booked :=
  match a, b with
  | none, b => b
  | a, none => a
  | some x, some y => if y.release < x.release then some y else some x

/-- The best booking over candidate engines, lowest-numbered on equal edges. -/
def bestOf (es : List Nat) (f : Nat → Option Booked) : Option Booked := es.foldl (fun b e => better b (f e)) none

/-- Kind of part `i` of `parts` of a PVU job. -/
def segKind (n : PvuNeed) (parts i : Nat) : BookKind := if n.whole then .whole i parts else .segment i parts

/-- A PVU job on one PVU from tick `t`. -/
def State.bookOn (s : State) (x : Ctx) (e t : Nat) (n : PvuNeed) : Option Booked :=
  match s.segmentsOn e n with
  | none => none
  | some (d, segs) =>
    if segs.isEmpty || segs.any (fun c => decide (s.usable < c)) then none
    else State.bookSegs horizon s x e t n d segs (fun _ => true) (segKind n segs.length)

/-- The earliest booking of a PVU job over the PVUs that may take it. -/
def State.bookPvu (s : State) (x : Ctx) (t : Nat) (n : PvuNeed) (es : List Nat) : Option Booked :=
  bestOf (es.filter (fun e => s.pvuOpen e n.secret)) (fun e => s.bookOn x e t n)

-- Big-Number Engines.

/-- BNE cycles of a tick. -/
def State.bneTick (s : State) : Nat := s.trd.period * 1200

/-- Bookings of a BNE. -/
def State.bneRuns (s : State) (n : Nat) : List Booking := s.trd.plan.filter (fun b => decide (b.eng = 16 + n))

/-- Booked interval time of a BNE inside a tick. -/
def State.bneLoad (s : State) (n t : Nat) : Nat :=
  let tc := s.bneTick
  (s.bneRuns n).foldl (fun k b => k + (min ((t + 1) * tc) (b.start + 1000 + b.cycles) - max (t * tc) b.start)) 0

/-- The interval of a run fits at a point of the time line (R167, R182, R183). -/
def State.runFits (s : State) (x : Ctx) (n pt w : Nat) : Bool :=
  let tc := s.bneTick
  let fin := pt + 1000 + w
  let ticks := (List.range (ceilDiv fin tc - pt / tc)).map (· + pt / tc)
  (s.bneRuns n).all (fun b => decide (b.start + 1000 + b.cycles ≤ pt) || decide (fin ≤ b.start))
    && ticks.all (fun t => s.placeOk x.fn x.place x.a (16 + n) t
      && (x.exempt || decide (s.pcr.stage < 2) || decide (4 * s.bneLoad n t < tc)))

/-- Points at which a run may start: ends of booked runs and tick edges (R167). -/
def State.runPoints (s : State) (n t : Nat) : List Nat :=
  let tc := s.bneTick
  let ends := ((s.bneRuns n).map (fun b => b.start + 1000 + b.cycles)).filter (fun p => decide (t * tc ≤ p))
  let far := ends.foldl max (t * tc)
  (ends ++ (List.range (far / tc + 67 - t)).map (fun i => (t + i) * tc)).mergeSort (· ≤ ·)

/-- The earliest booking of a run on one BNE; it is released at the first edge after its worst case ends. -/
def State.bookRunOn (s : State) (x : Ctx) (t n : Nat) (r : Nat × Nat) : Option Booked :=
  let k := s.ratioOf n
  let w := runCycles r k
  let tc := s.bneTick
  match (s.runPoints n t).find? (fun p => s.runFits x n p w) with
  | none => none
  | some p =>
    let rel := (p + 1000 + w) / tc + 1
    if x.a + horizon + 1 < rel then none
    else some {
      bookings := [{ job := none, eng := 16 + n, tick := p / tc, kind := .run k, cycles := w, start := p, order := 0 }], release := rel }

/-- The plan with further bookings. -/
def State.withPlan (s : State) (bs : List Booking) : State := { s with trd := { s.trd with plan := s.trd.plan ++ bs } }

/-- Runs of one job, each at its earliest on any BNE (R399). -/
def State.bookRuns : State → Ctx → Nat → List Nat → List (Nat × Nat) → Option Booked
  | _, _, _, _, [] => some {}
  | s, x, t, ns, r :: rs =>
    match bestOf (ns.filter s.bneOpen) (fun n => s.bookRunOn x t n r) with
    | none => none
    | some b =>
      match State.bookRuns (s.withPlan b.bookings) x t ns rs with
      | none => none
      | some c => some { bookings := b.bookings ++ c.bookings, release := max b.release c.release }

-- Hash Array.

/-- Core `c` is fitted and works. -/
def State.coreActive (s : State) (c : Nat) : Bool := decide (c < s.cores) && !s.held.hsaRetired.getLsbD c

/-- Capacity of a group per tick in quarters of an equivalent (R324). -/
def State.groupCap (s : State) (g : Nat) : Nat :=
  ((List.range 16).filter (fun i => s.coreActive (16 * g + i))).length * s.trd.period * 100

/-- Allotments of a job on a group from tick `t` (R325). -/
def State.allot : Nat → State → Ctx → Nat → Nat → Nat → List Booking
  | 0, _, _, _, _, _ => []
  | fuel + 1, s, x, g, t, c =>
    if c = 0 then []
    else
      let e := s.groupCap g
      let used := loadOf (s.slot (24 + g) t)
      let free := if x.exempt || decide (s.pcr.stage < 2) || decide (4 * used < e) then e - used else 0
      if free = 0 then State.allot fuel s x g (t + 1) c
      else
        { job := none, eng := 24 + g, tick := t, kind := .hsa, cycles := min free c, start := 0, order := 0 }
          :: State.allot fuel s x g (t + 1) (c - min free c)

/-- The earliest booking of a cost on the Hash Array. -/
def State.bookHsa (s : State) (x : Ctx) (t c : Nat) (gs : List Nat) : Option Booked :=
  if !s.engineOpen 0x28 then none
  else bestOf (gs.filter (fun g => decide (s.groupCap g ≠ 0) && s.hsa.powered.getLsbD g)) (fun g =>
    let bs := State.allot (x.a + horizon + 1 - t) s x g t c
    if loadOf bs < c then none else some { bookings := bs, release := (bs.getLast?.map (·.tick)).getD t + 1 })

def State.groups (s : State) : List Nat := List.range (s.cores / 16)

-- Matrix cache.

/-- Blocks of a signing set and of a verify set (R310). -/
def setBlocks (pset : Nat) (verify : Bool) : Nat := byPset (if verify then [20, 36, 64] else [16, 30, 56]) pset

/-- ML-DSA parameter set of an ML-DSA or composite key. -/
def mldsaSet (typ pset : Nat) : Nat := if typ = 14 then byPset [1, 2, 2, 3] pset else pset

/-- A PVU holds a set of a key. -/
def State.holdsSet (s : State) (e : Nat) (h : W32) (verify : Bool) : Bool :=
  s.trd.sets.any (fun x => decide (x.1 = e) && decide (x.2.1 = h) && decide (x.2.2.1 = verify))

/-- A booking up to tick `t`, or a live chain, on the PVU reads the set (R314). -/
def State.setInUse (s : State) (e : Nat) (h : W32) (verify : Bool) (t : Nat) : Bool :=
  (verify && s.trd.plan.any (fun b => decide (b.eng = e) && decide (b.tick ≤ t) && decide (b.kind = .cached h)))
  || (!verify && s.trd.signQ.any (fun q => decide (q.pvu = e) && q.chains.any (fun c => decide ((s.getJob c.1).e.keyHandle = h) && (s.getJob c.1).cluster.isNone)))

/-- Blocks reserved by fills booked on a PVU up to tick `t`. -/
def State.fillBlocks (s : State) (e t : Nat) : Nat :=
  s.trd.plan.foldl (fun n b => match b.kind with | .fill _ _ k => if b.eng = e ∧ b.tick ≤ t then n + k else n | _ => n) 0

/-- Blocks of the sets on a PVU that a booking or a live chain reads. -/
def State.usedBlocks (s : State) (e : Nat) : Nat :=
  s.trd.sets.foldl (fun k x => if x.1 = e ∧ s.setInUse e x.2.1 x.2.2.1 (s.trd.edge + 2 * horizon) then k + x.2.2.2.1 else k) 0

/-- A fill of `n` blocks can be placed on a PVU (R314): what is in use and what earlier fills reserve stays. A set that is read only after
the fill's tick counts too, for a set in use is never evicted (log entry 61). -/
def State.fillRoom (s : State) (e n t : Nat) : Bool := decide (s.usedBlocks e + s.fillBlocks e (t + 2 * horizon) + n ≤ 448)

/-- A set that a PVU holds can still be read in tick `t`: it is in use already, or the blocks that earlier fills have reserved leave it (R314). -/
def State.keepsSet (s : State) (e : Nat) (h : W32) (verify : Bool) (t : Nat) : Bool :=
  s.trd.sets.any (fun x => decide (x.1 = e) && decide (x.2.1 = h) && decide (x.2.2.1 = verify)
    && (s.setInUse e h verify (s.trd.edge + 2 * horizon) || decide (s.usedBlocks e + s.fillBlocks e t + x.2.2.2.1 ≤ 448)))

/-- Cycles of a matrix fill (R308). -/
def fillCycles : Nat := 12000

/-- The earliest fill of a set on a PVU from tick `t` (R312 to R316). -/
def State.bookFill (s : State) (x : Ctx) (e t : Nat) (h : W32) (verify : Bool) (blocks : Nat) : Option Booked :=
  (firstTick (x.a + horizon + 1 - t) t (fun u => s.roomFor x e u fillCycles false && s.fillRoom e blocks u)).map (fun u =>
    { bookings := [{ job := none, eng := e, tick := u, kind := .fill h verify blocks, cycles := fillCycles, start := 0, order := 0 }],
      release := u + 1 })

-- Sign queues.

/-- Expected attempts, rounded up, and promised attempts of R177. -/
def expectedAttempts (pset : Nat) : Nat := byPset [5, 6, 4] pset
def promisedAttempts (pset : Nat) : Nat := byPset [81, 98, 72] pset
/-- Cycles of an attempt at order 1 (R309). -/
def attemptCycles (pset : Nat) : Nat := byPset [10000, 15000, 15500] pset

/-- The hard attempt limit of a key (R177, R441). -/
def attemptLimit (k : KeyObj) : Nat := let a := k.usage.toNat / 2 ^ 24; if a = 0 then 256 else a

/-- Order, parts, part cycles and positions per slot of a sign queue at a countermeasure level and a masking order (R309, R476). -/
def State.shapeAt (s : State) (cm d pset : Nat) : Nat × Nat × Nat × Nat :=
  let w := cmBudget cm (latticeCycles (attemptCycles pset) d)
  let u := max 1 s.usable
  let p := max 1 (ceilDiv w u)
  let part := ceilDiv w p
  (d, p, part, u / max 1 part)

/-- The same on a PVU, with the order and the level in force there (R306). -/
def State.signShape (s : State) (e pset base : Nat) : Nat × Nat × Nat × Nat := s.shapeAt (s.cmOf e) (max base (s.minOrder e)) pset

/-- Sign slots of a queue from tick `t`, in tick order: tick and positions. -/
def State.signSlots (s : State) (e pset d parts cm t : Nat) : List (Nat × Nat) :=
  (s.trd.plan.filterMap (fun b =>
    match b.kind with
    | .signSlot ps pa k => if b.eng = e ∧ ps = pset ∧ pa = parts ∧ b.order = d ∧ b.cm = cm ∧ t ≤ b.tick then some (b.tick, k) else none
    | _ => none)).mergeSort (fun x y => x.1 ≤ y.1)

def State.findQueue (s : State) (e pset d parts cm : Nat) : Option SignQueue :=
  s.trd.signQ.find? (fun q => decide (q.pvu = e) && decide (q.pset = pset) && decide (q.order = d) && decide (q.parts = parts)
    && decide (q.cm = cm))

/-- The slots of a queue from tick `t`. -/
def State.queueSlots (s : State) (q : SignQueue) (t : Nat) : List (Nat × Nat) := s.signSlots q.pvu q.pset q.order q.parts q.cm t

/-- Two queues are the same one. -/
def SignQueue.same (x q : SignQueue) : Bool :=
  decide (x.pvu = q.pvu) && decide (x.pset = q.pset) && decide (x.order = q.order) && decide (x.parts = q.parts) && decide (x.cm = q.cm)

/-- The sum of the expected attempts of chains less those they have run (R176). -/
def State.chainWork (s : State) (pset : Nat) (chains : List (Nat × Nat)) : Nat :=
  chains.length * expectedAttempts pset - (chains.map (fun c => (s.getJob c.1).attempts)).sum

/-- Book further sign slots of a queue until the positions cover a target. -/
def State.addSlots : Nat → State → Ctx → Nat → Nat → Nat → Nat → Nat → Nat → Nat → Nat → Nat → List Booking
  | 0, _, _, _, _, _, _, _, _, _, _, _ => []
  | fuel + 1, s, x, e, pset, d, parts, cm, part, k, t, short =>
    if short = 0 then []
    else
      match firstTick (x.a + horizon + 1 - t) t (fun u => s.roomFor x e u s.usable true) with
      | none => []
      | some u =>
        let b : Booking := { job := none, eng := e, tick := u, kind := .signSlot pset parts k, cycles := part, start := 0, order := d, cm := cm }
        b :: State.addSlots fuel s x e pset d parts cm part k (u + 1) (short - k)

/-- The tick that holds position `n` (from 1) of slots in tick order. -/
def positionTick : List (Nat × Nat) → Nat → Option Nat
  | [], _ => none
  | (t, k) :: r, n => if n ≤ k then some t else positionTick r (n - k)

/-- A signing chain on one PVU (R176, R309, R313): its promise edge is the release edge of the booking. -/
def State.bookChainOn (s : State) (x : Ctx) (t e pset base limit : Nat) (h : W32) : Option Booked :=
  let (d, parts, part, k) := s.signShape e pset base
  let cm := s.cmOf e
  if k = 0 then none
  else
    let fillAt : Option (Option Booked × Nat) :=
      if s.keepsSet e h false (t + 2 * horizon) then some (none, t - 1)
      else (s.bookFill x e t h false (setBlocks pset false)).map (fun b => (some b, b.release - 1))
    match fillAt with
    | none => none
    | some (fb, f) =>
      let s1 := match fb with | some b => s.withPlan b.bookings | none => s
      let chains := match s1.findQueue e pset d parts cm with | some q => q.chains | none => []
      let w := s1.chainWork pset chains
      let have_ := s1.signSlots e pset d parts cm t
      let pf := (have_.filter (fun y => decide (y.1 ≤ f))).foldl (fun n y => n + y.2) 0
      let target := max (parts * w) pf + parts * min (promisedAttempts pset) limit
      let have0 := have_.foldl (fun n y => n + y.2) 0
      let more := State.addSlots (horizon - 1) s1 x e pset d parts cm part k (max t (f + 1)) (target - have0)
      let s2 := s1.withPlan more
      match positionTick (s2.signSlots e pset d parts cm t) target, s2.freePages e (t - 1) (x.a + horizon) 1 with
      | some u, some pg => some {
          bookings := (match fb with | some b => b.bookings | none => []) ++ more, release := u + 1,
          pages := [(e, t - 1, x.a + horizon, pg)], chain := some { pvu := e, pset := pset, order := d, parts := parts, part := part, cm := cm, from_ := f + 1 } }
      | _, _ => none

/-- A signing chain on the PVU with the earliest promise edge (R176). -/
def State.bookChain (s : State) (x : Ctx) (t pset base limit : Nat) (h : W32) (es : List Nat) : Option Booked :=
  bestOf (es.filter (fun e => s.pvuOpen e true)) (fun e => s.bookChainOn x t e pset base limit h)

-- Classic McEliece streams.

/-- Public-key bytes booked in a tick (R359). -/
def State.streamBytes (s : State) (t : Nat) : Nat :=
  s.trd.plan.foldl (fun n b => match b.kind with | .stream k _ _ => if b.tick = t then n + k else n | _ => n) 0

/-- The DRAM stream budget admits `b` more bytes in a tick (R359). -/
def State.streamRoom (s : State) (b t : Nat) : Bool :=
  decide (s.streamBytes t + b ≤ 108800 * s.trd.period)
    && decide (s.streamBytes (t - 1) + s.streamBytes t + b ≤ 163200 * s.trd.period)
    && decide (s.streamBytes t + s.streamBytes (t + 1) + b ≤ 163200 * s.trd.period)

/-- `MCE_ENCAPS` with a key object: pinned or streamed, whichever releases first (R358). -/
def State.bookMce (s : State) (x : Ctx) (t : Nat) (n : PvuNeed) (pset : Nat) (h : W32) (es : List Nat) : Option Booked :=
  let pk := (pubLen 8 pset).getD 0
  let pin : PvuNeed := { n with cost := .lattice ([3000, 5500, 10000, 10000].getD (mceIdx pset) 0) }
  let pinned := bestOf (es.filter (fun e => s.engineOpen (0x10 + e) && (s.getPvu e).powered && !(s.getPvu e).unpinning
      && !(s.getPvu e).mrgStale && decide (((s.getPvu e).pin.map (·.1)) = some h))) (fun e =>
    match s.segmentsOn e pin with
    | none => none
    | some (d, segs) => State.bookSegs horizon s x e t pin d segs (fun _ => true) (fun _ => .pinned))
  let streamed := bestOf (es.filter (fun e => s.pvuOpen e true)) (fun e =>
    match s.segmentsOn e n with
    | none => none
    | some (d, segs) =>
      let b := ceilDiv pk (max 1 segs.length)
      State.bookSegs horizon s x e t n d segs (s.streamRoom b) (fun i => .stream b i segs.length))
  better pinned streamed

/-- The verification of a key object (R311): cached on a PVU that holds its verify set, or uncached on any. -/
def State.bookVerify (s : State) (x : Ctx) (t : Nat) (n : PvuNeed) (pset : Nat) (h : W32) (es : List Nat) : Option Booked :=
  let c : PvuNeed := { n with cost := .flat (byPset [6000, 7600, 10000] pset) }
  let cached := bestOf (es.filter (fun e => s.pvuOpen e false && s.holdsSet e h true)) (fun e =>
    match s.segmentsOn e c with
    | none => none
    | some (d, segs) => State.bookSegs horizon s x e t c d segs (s.keepsSet e h true) (fun _ => .cached h))
  better cached (s.bookPvu x t n es)

/-- The engines a booking may use: all, or one named kind of choice for a retry (R588). -/
structure Engines where
  pvus : List Nat
  bnes : List Nat
  groups : List Nat
  deriving DecidableEq, Repr

def State.allEngines (s : State) : Engines := { pvus := List.range s.pvus, bnes := List.range s.bnes, groups := s.groups }

/-- Two parts of one job: both must be booked, and the later release edge counts (R399). -/
def joinBooked (a b : Option Booked) : Option Booked :=
  match a, b with
  | some x, some y => some {
      bookings := x.bookings ++ y.bookings, release := max x.release y.release, pages := x.pages ++ y.pages,
      chain := if x.chain.isSome then x.chain else y.chain }
  | _, _ => none

/-- The earliest booking of a job's need in one place; its pages last to the release of all its parts (R214). -/
def State.bookIn (s : State) (x0 : Ctx) (t : Nat) (j : Job) (n : Need) (g : Engines) : Option Booked :=
  let op := j.opcode
  let hsa : Option Booked := match n.hsa with | none => some {} | some c => s.bookHsa x0 t c g.groups
  let rest := joinBooked (s.bookRuns x0 t g.bnes n.runs) hsa
  let x : Ctx := { x0 with hold := match rest with | some b => b.release - 1 | none => 0 }
  let h := j.e.keyHandle
  let pvu : Option Booked := match n.pvu with
    | none => some {}
    | some p =>
      if (op = 0x0212 ∨ op = 0x0214) ∧ h ≠ 0 then s.bookVerify x t p (p8 (j.e.par j.ver) 0) h g.pvus
      else if op = 0x0411 ∧ h ≠ 0 then s.bookMce x t p (p8 (j.e.par j.ver) 0) h g.pvus
      else s.bookPvu x t p g.pvus
  let sign : Option Booked := match n.sign with
    | none => some {}
    | some (ps, base) =>
      s.bookChain x t ps base (match s.jobKey j with | some k => attemptLimit k | none => 256) h g.pvus
  joinBooked (joinBooked pvu sign) rest

/-- A release edge meets a deadline edge. -/
def meets (rel : Nat) (d : Option Nat) : Bool := match d with | some x => decide (rel ≤ x) | none => true

/-- The booking of a job in the first of the places that takes it by its deadline edge (R182). -/
def State.bookJob (s : State) (ps : List Place) (j : Job) (n : Need) (a t : Nat) (exempt : Bool) (g : Engines) (deadline : Option Nat) : Option Booked :=
  firstPlace ps (fun pl => (s.bookIn { fn := j.fn, place := pl, a := a, exempt := exempt } t j n g).filter (fun y => meets y.release deadline))

/-- A job booked again without its PVU part keeps its pages to its new release where nothing else is to have them (R214). -/
def State.holdPages (s : State) (id rel : Nat) : State :=
  let clash (y : Nat × Nat × Nat × Nat × List Nat) : Bool := s.trd.pages.any (fun z => decide (z.1 ≠ id) && decide (z.2.1 = y.2.1)
    && decide (y.2.2.2.1 < z.2.2.2.1) && decide (z.2.2.1 < rel) && z.2.2.2.2.any y.2.2.2.2.contains)
  { s with trd := { s.trd with pages := s.trd.pages.map (fun y =>
      if y.1 = id ∧ y.2.2.2.1 + 1 < rel ∧ !clash y then (y.1, y.2.1, y.2.2.1, rel - 1, y.2.2.2.2) else y) } }

/-- Commit a booking of a job to the plan (R172); new pages on a PVU take the place of old ones. -/
def State.commit (s : State) (id : Nat) (b : Booked) : State :=
  let mine := b.bookings.map (fun y => match y.kind with
    | .signSlot _ _ _ => y
    | _ => { y with job := some id, cm := s.cmOf y.eng })
  let q := match b.chain with
    | none => s.trd.signQ
    | some c =>
      match s.findQueue c.pvu c.pset c.order c.parts c.cm with
      | some q => s.trd.signQ.map (fun x => if x.same q then { x with part := c.part, chains := x.chains ++ [(id, c.from_)] } else x)
      | none => s.trd.signQ ++ [
          { pvu := c.pvu, pset := c.pset, order := c.order, parts := c.parts, part := c.part, cm := c.cm, chains := [(id, c.from_)], done := 0 }]
  { s with trd := { s.trd with
      plan := s.trd.plan ++ mine, signQ := q, pages := s.trd.pages.filter (fun p => !b.pages.any (fun y => decide (p.1 = id) && decide (p.2.1 = y.1)))
        ++ b.pages.map (fun p => (id, p.1, p.2.1, p.2.2.1, p.2.2.2)) } }

end Sys2Proof.Machine
end

