-- ==== Sys2Proof/Machine/Keccak.lean ====
section
/-! DEFINITION. Keccak-f[1600] and the sponge functions of FIPS 202, which the spec names by its standard (R201, R410):
PRESUMED from FIPS 202. -/

namespace Sys2Proof.Machine

/-- Round constants of ι. -/
def keccakRc : List W64 := [
  0x0000000000000001, 0x0000000000008082, 0x800000000000808A, 0x8000000080008000, 0x000000000000808B, 0x0000000080000001,
  0x8000000080008081, 0x8000000000008009, 0x000000000000008A, 0x0000000000000088, 0x0000000080008009, 0x000000008000000A,
  0x000000008000808B, 0x800000000000008B, 0x8000000000008089, 0x8000000000008003, 0x8000000000008002, 0x8000000000000080,
  0x000000000000800A, 0x800000008000000A, 0x8000000080008081, 0x8000000000008080, 0x0000000080000001, 0x8000000080008008]

/-- Rotation offsets of ρ, lane x + 5y. -/
def keccakRot : List Nat := [
  0, 1, 62, 28, 27, 36, 44, 6, 55, 20, 3, 10, 43, 25, 39, 41, 45, 15, 21, 8, 18, 2, 61, 56, 14]

/-- Lane x + 5y of a state. -/
def lane (a : List W64) (x y : Nat) : W64 := a.getD (x % 5 + 5 * (y % 5)) 0

/-- θ. -/
def keccakTheta (a : List W64) : List W64 :=
  let c := (List.range 5).map (fun x => lane a x 0 ^^^ lane a x 1 ^^^ lane a x 2 ^^^ lane a x 3 ^^^ lane a x 4)
  let d := (List.range 5).map (fun x => c.getD ((x + 4) % 5) 0 ^^^ (c.getD ((x + 1) % 5) 0).rotateLeft 1)
  (List.range 25).map (fun i => a.getD i 0 ^^^ d.getD (i % 5) 0)

/-- ρ and π: lane (x, y) of the result comes from lane (x + 3y, x). -/
def keccakRhoPi (a : List W64) : List W64 :=
  (List.range 25).map (fun i =>
    let x := i % 5
    let y := i / 5
    let j := (x + 3 * y) % 5 + 5 * x
    (a.getD j 0).rotateLeft (keccakRot.getD j 0))

/-- χ. -/
def keccakChi (a : List W64) : List W64 :=
  (List.range 25).map (fun i =>
    let x := i % 5
    let y := i / 5
    lane a x y ^^^ (~~~(lane a (x + 1) y) &&& lane a (x + 2) y))

/-- One round. -/
def keccakRound (a : List W64) (rc : W64) : List W64 :=
  match keccakChi (keccakRhoPi (keccakTheta a)) with
  | [] => []
  | x :: xs => (x ^^^ rc) :: xs

/-- Keccak-f[1600]. -/
def keccakF (a : List W64) : List W64 := keccakRc.foldl keccakRound a

/-- The all-zero state. -/
def keccakZero : List W64 := List.replicate 25 0

/-- Lanes of a byte string, eight bytes to a lane, least significant first. -/
def lanesOf : Nat → List Byte → List W64
  | 0, _ => []
  | n + 1, bs => BitVec.ofNat 64 (unLe (bs.take 8)) :: lanesOf n (bs.drop 8)

/-- Bytes of a state. -/
def laneBytes (a : List W64) : List Byte := a.flatMap (fun w => le 8 w.toNat)

/-- A block exclusive-ored into the state. -/
def xorBlock (a : List W64) (block : List Byte) : List W64 :=
  (a.zip (lanesOf 25 block)).map (fun p => p.1 ^^^ p.2)

/-- Padding of a last partial block of `r` bytes: domain suffix, zeros, final bit. -/
def padBlock (r : Nat) (suffix : Byte) (bs : List Byte) : List Byte :=
  let b := fit r (bs ++ [suffix])
  b.take (r - 1) ++ [b.getD (r - 1) 0 ^^^ 0x80]

/-- Absorb a whole message: full blocks, then the padded last one. -/
def absorbAll (r : Nat) (suffix : Byte) : Nat → List W64 → List Byte → List W64
  | 0, a, _ => a
  | fuel + 1, a, m =>
    if m.length < r then keccakF (xorBlock a (padBlock r suffix m))
    else absorbAll r suffix fuel (keccakF (xorBlock a (m.take r))) (m.drop r)

/-- Squeeze `n` bytes. -/
def squeezeN (r : Nat) : Nat → List W64 → Nat → List Byte
  | 0, _, _ => []
  | fuel + 1, a, n =>
    if n ≤ r then (laneBytes a).take n else (laneBytes a).take r ++ squeezeN r fuel (keccakF a) (n - r)

/-- A sponge function of FIPS 202. -/
def sponge (r : Nat) (suffix : Byte) (m : List Byte) (n : Nat) : List Byte :=
  squeezeN r (n / r + 1) (absorbAll r suffix (m.length / r + 1) keccakZero m) n

def sha3_256 (m : List Byte) : List Byte := sponge 136 0x06 m 32
def sha3_384 (m : List Byte) : List Byte := sponge 104 0x06 m 48
def sha3_512 (m : List Byte) : List Byte := sponge 72 0x06 m 64
def shake128 (m : List Byte) (n : Nat) : List Byte := sponge 168 0x1F m n
def shake256 (m : List Byte) (n : Nat) : List Byte := sponge 136 0x1F m n

end Sys2Proof.Machine
end

