-- ==== Sys2Proof/Machine/Digest.lean ====
section
/-! DEFINITION. The hash functions by their numbers of R295, and what is built from one: HMAC and MGF1. -/

namespace Sys2Proof.Machine

/-- A digest function 1–8 of R295 with its output length. -/
def digestOf (h : Nat) (m : List Byte) (out : Nat) : List Byte :=
  match h with
  | 1 => sha256 m | 2 => sha384 m | 3 => sha512 m | 4 => sha3_256 m | 5 => sha3_384 m | 6 => sha3_512 m
  | 7 => shake128 m out | _ => shake256 m out

/-- Bytes of a block of a hash function 1–6. -/
def hashBlock (h : Nat) : Nat := [64, 128, 128, 136, 104, 72].getD (h - 1) 64

/-- Bytes of a digest of a hash function 1–6. -/
def hashBytes (h : Nat) : Nat := [32, 48, 64, 32, 48, 64].getD (h - 1) 32

/-- HMAC with a hash function 1–6. -/
def hmacOf (h : Nat) (key m : List Byte) : List Byte := hmacWith (fun x => digestOf h x 0) (hashBlock h) key m

/-- MGF1. -/
def mgf1 (hash : List Byte → List Byte) (hlen : Nat) (seed : List Byte) (n : Nat) : List Byte :=
  ((List.range (ceilDiv n hlen)).flatMap (fun i => hash (seed ++ be 4 i))).take n

/-- DER object identifiers of the pre-hash functions (R295; PRESUMED from the standards' arcs). -/
def hashOid (ph : Nat) : List Byte :=
  [0x06, 0x09, 0x60, 0x86, 0x48, 0x01, 0x65, 0x03, 0x04, 0x02,
    ([1, 2, 3, 8, 9, 10, 11, 12].getD (ph - 1) 0 : Nat) |> BitVec.ofNat 8]

end Sys2Proof.Machine
end

