-- ==== Sys2Proof/Machine/Numbers.lean ====
section
/-! DEFINITION. Numbers modulo m: powers (R374) and inverses (R372). -/

namespace Sys2Proof.Machine

/-- a^e mod m by squaring, over the bits of e from the most significant. -/
def powBits (m a : Nat) : List Bool → Nat → Nat
  | [], acc => acc
  | b :: bs, acc => powBits m a bs (let q := acc * acc % m; if b then q * a % m else q)

/-- a^e mod m; 0⁰ = 1 (R374). -/
def modExp (m a e : Nat) : Nat := powBits m a ((bitsOf (bitLen e) e).reverse) (1 % m)

/-- Extended Euclid: the coefficient of the second argument in the greatest common divisor. -/
def egcd : Nat → Nat → Nat → Int → Int → Nat × Int
  | 0, a, _, x, _ => (a, x)
  | fuel + 1, a, b, x, y => if b = 0 then (a, x) else egcd fuel b (a % b) y (x - (a / b : Nat) * y)

/-- The inverse of a mod m; none where there is none. -/
def modInv (m a : Nat) : Option Nat :=
  let r := egcd (2 * bitLen m + 2) m (a % m) 0 1
  if r.1 = 1 then some ((r.2 % (m : Int)).toNat) else none

end Sys2Proof.Machine
end

