-- ==== Sys2Proof/Machine/Curves.lean ====
section
/-! DEFINITION. ECDSA and ECDH on P-256, P-384 and P-521 as R388 to R395 take them from FIPS 186-5, SP 800-186 and SEC 1: PRESUMED from
those standards (log entry 60). -/

namespace Sys2Proof.Machine

/-- A curve y² = x³ − 3x + b over a prime field, with its base point and the order of that point. -/
structure Curve where
  p  : Nat
  b  : Nat
  gx : Nat
  gy : Nat
  n  : Nat

/-- The curves by PSET (R393). -/
def curve256 : Curve where
  p := 2 ^ 256 - 2 ^ 224 + 2 ^ 192 + 2 ^ 96 - 1
  b := 0x5AC635D8AA3A93E7B3EBBD55769886BC651D06B0CC53B0F63BCE3C3E27D2604B
  gx := 0x6B17D1F2E12C4247F8BCE6E563A440F277037D812DEB33A0F4A13945D898C296
  gy := 0x4FE342E2FE1A7F9B8EE7EB4A7C0F9E162BCE33576B315ECECBB6406837BF51F5
  n := 0xFFFFFFFF00000000FFFFFFFFFFFFFFFFBCE6FAADA7179E84F3B9CAC2FC632551
def curve384 : Curve where
  p := 2 ^ 384 - 2 ^ 128 - 2 ^ 96 + 2 ^ 32 - 1
  b := 0xB3312FA7E23EE7E4988E056BE3F82D19181D9C6EFE8141120314088F5013875AC656398D8A2ED19D2A85C8EDD3EC2AEF
  gx := 0xAA87CA22BE8B05378EB1C71EF320AD746E1D3B628BA79B9859F741E082542A385502F25DBF55296C3A545E3872760AB7
  gy := 0x3617DE4A96262C6F5D9E98BF9292DC29F8F41DBD289A147CE9DA3113B5F0B8C00A60B1CE1D7E819D7A431D7C90EA0E5F
  n := 0xFFFFFFFFFFFFFFFFFFFFFFFFFFFFFFFFFFFFFFFFFFFFFFFFC7634D81F4372DDF581A0DB248B0A77AECEC196ACCC52973
def curve521 : Curve where
  p := 2 ^ 521 - 1
  b := 0x51953EB9618E1C9A1F929A21A0B68540EEA2DA725B99B315F3B8B489918EF109E156193951EC7E937B1652C0BD3BB1BF073573DF883D2C34F1EF451FD46B503F00
  gx := 0xC6858E06B70404E9CD9E3ECB662395B4429C648139053FB521F828AF606B4D3DBAA14B5E77EFE75928FE1DC127A2FFA8DE3348B3C1856A429BF97E7E31C2E5BD66
  gy := 0x11839296A789A3BC0045C8A5FB42C7D1BD998F54449579B446817AFBD17273E662C97EE72995EF42640C550B9013FAD0761353C7086A272C24088BE94769FD16650
  n := 0x1FFFFFFFFFFFFFFFFFFFFFFFFFFFFFFFFFFFFFFFFFFFFFFFFFFFFFFFFFFFFFFFFFA51868783BF2F966B7FCC0148F709A5D03BB5C9B8899C47AEBB6FB71E91386409
def curveOf (ps : Nat) : Curve := if ps = 1 then curve256 else if ps = 2 then curve384 else curve521

/-- Bytes of a coordinate or scalar. -/
def Curve.width (c : Curve) : Nat := ceilDiv (bitLen c.p) 8

/-- Quotients modulo m; 0 where there is none. -/
def modDiv (m a b : Nat) : Nat := match modInv m b with | some v => a * v % m | none => 0

/-- A point: none is the point at infinity. -/
abbrev Point := Option (Nat × Nat)

/-- The point on the line of slope `l` through two points, reflected. -/
def Curve.third (c : Curve) (l : Nat) (a b : Nat × Nat) : Nat × Nat :=
  let x := (l * l + 2 * c.p - a.1 - b.1) % c.p
  (x, (l * (a.1 + c.p - x) + c.p - a.2) % c.p)

/-- The sum of two points. -/
def Curve.add (c : Curve) : Point → Point → Point
  | none, q => q
  | p, none => p
  | some a, some b =>
    if a.1 = b.1 ∧ (a.2 + b.2) % c.p = 0 then none
    else if a = b then some (c.third (modDiv c.p (3 * a.1 * a.1 + 3 * (c.p - 1)) (2 * a.2)) a b)
    else some (c.third (modDiv c.p (b.2 + c.p - a.2) (b.1 + c.p - a.1)) a b)

/-- A multiple of a point, over the bits of the factor from the most significant. -/
def Curve.mul (c : Curve) (k : Nat) (p : Point) : Point :=
  ((bitsOf (bitLen k) k).reverse).foldl (fun q b => let d := c.add q q; if b then c.add d p else d) none

def Curve.base (c : Curve) : Point := some (c.gx, c.gy)

/-- A point lies on the curve. -/
def Curve.has (c : Curve) (a : Nat × Nat) : Bool :=
  decide (a.1 < c.p ∧ a.2 < c.p) && decide (a.2 * a.2 % c.p = (a.1 * a.1 * a.1 + (c.p - 3) * a.1 + c.b) % c.p)

/-- The uncompressed form of a point, and the point that a string spells (SEC 1): none where it is none of the curve (R388). -/
def Curve.encode (c : Curve) : Point → List Byte
  | some a => 0x04 :: (be c.width a.1 ++ be c.width a.2)
  | none => zeros (2 * c.width + 1)
def Curve.decode (c : Curve) (bs : List Byte) : Point :=
  let a := (unBe (slice bs 1 c.width), unBe (slice bs (1 + c.width) c.width))
  if bs.getD 0 0 = 0x04 ∧ bs.length = 2 * c.width + 1 ∧ c.has a then some a else none

/-- A scalar in [1, n) from random bytes that carry 64 bits more than n (FIPS 186-5 A.2.1 and A.3.1). -/
def Curve.scalar (c : Curve) (bs : List Byte) : Nat := unBe bs % (c.n - 1) + 1
/-- Bytes of such a draw. -/
def Curve.drawLen (c : Curve) : Nat := ceilDiv (bitLen c.n + 64) 8

/-- A key pair from a draw: the scalar and the public point (R395). -/
def ecKeys (ps : Nat) (seed : List Byte) : List Byte × List Byte :=
  let c := curveOf ps
  let d := c.scalar (seed.take c.drawLen)
  (be c.width d, c.encode (c.mul d c.base))

/-- The number of a string's leftmost bits, as many as n has. -/
def Curve.leftBits (c : Curve) (bs : List Byte) : Nat := unBe bs / 2 ^ (8 * bs.length - bitLen c.n)

/-- r and s of a digest with the nonce `k`. -/
def Curve.signWith (c : Curve) (d e k : Nat) : Nat × Nat :=
  let r := match c.mul k c.base with | some a => a.1 % c.n | none => 0
  (r, modDiv c.n (e + r * d) k)

/-- Candidates for the deterministic nonce (FIPS 186-5 A.3.3): the generator's K and V go on until one lies in [1, n). -/
def Curve.nonceLoop (c : Curve) (h : Nat) : Nat → List Byte → List Byte → Nat
  | 0, _, _ => 1
  | fuel + 1, k, v =>
    let blocks := ceilDiv (ceilDiv (bitLen c.n) 8) (hashBytes h)
    let vs := (List.range blocks).foldl (fun (acc : List (List Byte)) _ => acc ++ [hmacOf h k (acc.getLastD v)]) []
    let x := c.leftBits vs.flatten
    if 1 ≤ x ∧ x < c.n then x
    else
      let v1 := vs.getLastD v
      let k1 := hmacOf h k (v1 ++ [0x00])
      c.nonceLoop h fuel k1 (hmacOf h k1 v1)

/-- The deterministic nonce of a key and a digest under hash function `h`. -/
def Curve.nonce (c : Curve) (h d : Nat) (digest : List Byte) : Nat :=
  let w := ceilDiv (bitLen c.n) 8
  let x := be w d ++ be w (c.leftBits digest % c.n)
  let v0 : List Byte := List.replicate (hashBytes h) 0x01
  let k1 := hmacOf h (zeros (hashBytes h)) (v0 ++ [0x00] ++ x)
  let v1 := hmacOf h k1 v0
  let k2 := hmacOf h k1 (v1 ++ [0x01] ++ x)
  c.nonceLoop h 64 k2 (hmacOf h k2 v1)

/-- An ECDSA signature: the nonce comes from a draw, or is deterministic under `h` where the draw is empty (R394). -/
def ecdsaSign (ps h : Nat) (sk digest draw : List Byte) : List Byte :=
  let c := curveOf ps
  let d := unBe sk
  let k := if draw.isEmpty then c.nonce h d digest else c.scalar draw
  let (r, s) := c.signWith d (c.leftBits digest) k
  be c.width r ++ be c.width s

/-- ECDSA verification of a digest (R388): r and s lie in [1, n). -/
def ecdsaVerify (ps : Nat) (pk digest sig : List Byte) : Bool :=
  let c := curveOf ps
  let r := unBe (sig.take c.width)
  let s := unBe (slice sig c.width c.width)
  decide (1 ≤ r ∧ r < c.n ∧ 1 ≤ s ∧ s < c.n) &&
    (match c.add (c.mul (modDiv c.n (c.leftBits digest) s) c.base) (c.mul (modDiv c.n r s) (c.decode pk)) with
      | some a => decide (a.1 % c.n = r)
      | none => false)

/-- ECDH: the shared x-coordinate; none where the peer's string is no point of the curve (R388). -/
def ecAgree (ps : Nat) (sk peer : List Byte) : Option (List Byte) :=
  let c := curveOf ps
  match c.decode peer with
  | none => none
  | some a => (match c.mul (unBe sk) (some a) with
    | some b => some (be c.width b.1)
    | none => none)

end Sys2Proof.Machine
end

