-- ==== Sys2Proof/Machine/Edwards.lean ====
section
/-! DEFINITION. Ed25519 and Ed448 as R388 to R395 take them from RFC 8032, X25519 and X448 from RFC 7748: PRESUMED from those standards (log
entry 60). -/

namespace Sys2Proof.Machine

/-- A curve a·x² + y² = 1 + d·x²·y², its base point, the order L of that point, the bytes of an encoding and the cofactor's exponent. -/
structure EdCurve where
  p  : Nat
  a  : Nat
  d  : Nat
  bx : Nat
  by_ : Nat
  l  : Nat
  w  : Nat
  c  : Nat

def ed25519 : EdCurve where
  p := 2 ^ 255 - 19
  a := 2 ^ 255 - 20
  d := 37095705934669439343138083508754565189542113879843219016388785533085940283555
  bx := 15112221349535400772501151409588531511454012693041857206046113283949847762202
  by_ := 46316835694926478169428394003475163141307993866256225615783033603165251855960
  l := 2 ^ 252 + 27742317777372353535851937790883648493
  w := 32
  c := 3
def ed448 : EdCurve where
  p := 2 ^ 448 - 2 ^ 224 - 1
  a := 1
  d := 2 ^ 448 - 2 ^ 224 - 1 - 39081
  bx := 224580040295924300187604334099896036246789641632564134246125461686950415467406032909029192869357953282578032075146446173674602635247710
  by_ := 298819210078481492676017930443930673437544040154080242095928241372331506189835876003536878655418784733982303233503462500531545062832660
  l := 2 ^ 446 - 13818066809895115352007386748515426880336692474882178609894547503885
  w := 57
  c := 2
def edCurve (ps : Nat) : EdCurve := if ps = 1 then ed25519 else ed448

/-- The inverse modulo a prime; 0 of 0. -/
def fieldInv (p a : Nat) : Nat := (modInv p a).getD 0

/-- The sum of two points. -/
def EdCurve.add (e : EdCurve) (s t : Nat × Nat) : Nat × Nat :=
  let m := e.d * (s.1 * t.1 % e.p) % e.p * (s.2 * t.2 % e.p) % e.p
  ((s.1 * t.2 + s.2 * t.1) * fieldInv e.p (1 + m) % e.p,
    (s.2 * t.2 + (e.p - e.a * (s.1 * t.1 % e.p) % e.p)) * fieldInv e.p (1 + e.p - m) % e.p)

/-- A multiple of a point. -/
def EdCurve.mul (e : EdCurve) (k : Nat) (s : Nat × Nat) : Nat × Nat :=
  ((bitsOf (bitLen k) k).reverse).foldl (fun q b => let t := e.add q q; if b then e.add t s else t) (0, 1)

def EdCurve.base (e : EdCurve) : Nat × Nat := (e.bx, e.by_)

/-- A string of a point: y little-endian, with the low bit of x as its top bit. -/
def EdCurve.encode (e : EdCurve) (s : Nat × Nat) : List Byte := le e.w (s.2 + 2 ^ (8 * e.w - 1) * (s.1 % 2))

/-- A square root modulo p, where there is one. -/
def EdCurve.root (e : EdCurve) (u : Nat) : Option Nat :=
  let r0 := if e.p % 4 = 3 then modExp e.p u ((e.p + 1) / 4) else modExp e.p u ((e.p + 3) / 8)
  let r1 := if r0 * r0 % e.p = u then r0 else r0 * modExp e.p 2 ((e.p - 1) / 4) % e.p
  if r1 * r1 % e.p = u then some r1 else none

/-- The point that a string spells: y below p, an x that satisfies the curve, and no sign on x = 0. -/
def EdCurve.decode (e : EdCurve) (bs : List Byte) : Option (Nat × Nat) :=
  let v := unLe bs
  let sign := v / 2 ^ (8 * e.w - 1) % 2
  let y := v % 2 ^ (8 * e.w - 1)
  if e.p ≤ y then none
  else
    let u := (y * y + e.p - 1) % e.p
    let x2 := u * fieldInv e.p ((e.d * (y * y % e.p) + e.p - e.a) % e.p) % e.p
    match e.root x2 with
    | none => none
    | some x => if x = 0 then (if sign = 1 then none else some (0, y)) else some (if x % 2 = sign then x else e.p - x, y)

/-- The hash of the scheme, with twice as many bytes as an encoding. -/
def EdCurve.hash (e : EdCurve) (m : List Byte) : List Byte := if e.w = 32 then sha512 m else shake256 m 114

/-- The prefix of a mode: PH and context; pure Ed25519 has none (RFC 8032). -/
def EdCurve.dom (e : EdCurve) (ctxMode ph : Bool) (ctx : List Byte) : List Byte :=
  let tail := [BitVec.ofNat 8 (b2n ph), BitVec.ofNat 8 ctx.length] ++ ctx
  let ascii (s : String) : List Byte := s.toList.map (fun c => BitVec.ofNat 8 c.toNat)
  if e.w = 57 then ascii "SigEd448" ++ tail
  else if ctxMode || ph then ascii "SigEd25519 no Ed25519 collisions" ++ tail else []

/-- The secret scalar of the low half of a key's hash. -/
def EdCurve.clamp (e : EdCurve) (h : List Byte) : Nat :=
  let v := unLe (h.take e.w)
  if e.w = 32 then v % 2 ^ 254 / 8 * 8 + 2 ^ 254 else v % 2 ^ 447 / 4 * 4 + 2 ^ 447

/-- The public key of a seed. -/
def edPub (ps : Nat) (seed : List Byte) : List Byte :=
  let e := edCurve ps
  e.encode (e.mul (e.clamp (e.hash seed)) e.base)

/-- A signature over a message or digest in a mode. -/
def edSign (ps : Nat) (seed : List Byte) (ctxMode ph : Bool) (ctx m : List Byte) : List Byte :=
  let e := edCurve ps
  let h := e.hash seed
  let s := e.clamp h
  let a := e.encode (e.mul s e.base)
  let d := e.dom ctxMode ph ctx
  let r := unLe (e.hash (d ++ h.drop e.w ++ m)) % e.l
  let rr := e.encode (e.mul r e.base)
  rr ++ le e.w ((r + unLe (e.hash (d ++ rr ++ a ++ m)) % e.l * s) % e.l)

/-- A public key decodes and is not of small order (R388). -/
def edKeyOk (ps : Nat) (pk : List Byte) : Bool :=
  let e := edCurve ps
  match e.decode pk with
  | some a => decide (e.mul (2 ^ e.c) a ≠ (0, 1))
  | none => false

/-- Verification (R388): S below L, R decodes, and the cofactored equation of RFC 8032 holds. -/
def edVerify (ps : Nat) (pk : List Byte) (ctxMode ph : Bool) (ctx m sig : List Byte) : Bool :=
  let e := edCurve ps
  let s := unLe (sig.drop e.w)
  let k := unLe (e.hash (e.dom ctxMode ph ctx ++ sig.take e.w ++ pk ++ m)) % e.l
  match e.decode pk, e.decode (sig.take e.w) with
  | some a, some r => decide (s < e.l) && decide (e.mul (2 ^ e.c * s) e.base = e.mul (2 ^ e.c) (e.add r (e.mul k a)))
  | _, _ => false

-- X25519 and X448.

/-- The field, the constant (A − 2)/4 and the base coordinate. -/
structure XCurve where
  p    : Nat
  a24  : Nat
  u    : Nat
  w    : Nat

def xCurve (ps : Nat) : XCurve :=
  if ps = 1 then { p := 2 ^ 255 - 19, a24 := 121665, u := 9, w := 32 }
  else { p := 2 ^ 448 - 2 ^ 224 - 1, a24 := 39081, u := 5, w := 56 }

/-- The two registers of the ladder in projective form. -/
structure Ladder where
  x2 : Nat
  z2 : Nat
  x3 : Nat
  z3 : Nat

/-- One step: the first register is doubled and the second becomes their sum, whose difference is the base point. -/
def XCurve.step (x : XCurve) (x1 : Nat) (s : Ladder) : Ladder :=
  let a := (s.x2 + s.z2) % x.p
  let b := (s.x2 + x.p - s.z2) % x.p
  let aa := a * a % x.p
  let bb := b * b % x.p
  let e := (aa + x.p - bb) % x.p
  let da := (s.x3 + x.p - s.z3) * a % x.p
  let cb := (s.x3 + s.z3) * b % x.p
  { x2 := aa * bb % x.p, z2 := e * (aa + x.a24 * e) % x.p, x3 := (da + cb) ^ 2 % x.p, z3 := x1 * ((da + x.p - cb) ^ 2 % x.p) % x.p }

/-- Registers exchanged. -/
def Ladder.swap (s : Ladder) : Ladder := { x2 := s.x3, z2 := s.z3, x3 := s.x2, z3 := s.z2 }

/-- The ladder over the bits of a scalar from the most significant. -/
def XCurve.mul (x : XCurve) (k u : Nat) : Nat :=
  let s := ((bitsOf (8 * x.w) k).reverse).foldl (fun s b => if b then (x.step u s.swap).swap else x.step u s)
    { x2 := 1, z2 := 0, x3 := u, z3 := 1 }
  s.x2 * fieldInv x.p s.z2 % x.p

/-- A scalar and a coordinate from their strings (RFC 7748). -/
def XCurve.scalar (x : XCurve) (bs : List Byte) : Nat :=
  let v := unLe (bs.take x.w)
  if x.w = 32 then v % 2 ^ 254 / 8 * 8 + 2 ^ 254 else v % 2 ^ 447 / 4 * 4 + 2 ^ 447
def XCurve.coord (x : XCurve) (bs : List Byte) : Nat := unLe (bs.take x.w) % 2 ^ (if x.w = 32 then 255 else 448) % x.p

/-- The public coordinate of a private key. -/
def xPub (ps : Nat) (sk : List Byte) : List Byte :=
  let x := xCurve ps
  le x.w (x.mul (x.scalar sk) x.u)

/-- The shared secret; none where it is all zero (R388). -/
def xAgree (ps : Nat) (sk peer : List Byte) : Option (List Byte) :=
  let x := xCurve ps
  let v := x.mul (x.scalar sk) (x.coord peer)
  if v = 0 then none else some (le x.w v)

end Sys2Proof.Machine
end

