-- ==== Sys2Proof/Machine/BinaryField.lean ====
section
/-! DEFINITION. Fields of characteristic two and the decoding of the codes over them that HQC and Classic McEliece use. Elements are numbers
below 2^deg whose bits are the coefficients. -/

namespace Sys2Proof.Machine

/-- The field of the residues modulo an irreducible polynomial over two elements. -/
structure BinField where
  deg  : Nat
  poly : Nat

/-- Product without carries; the second factor has at most `n` bits. -/
def clmul (n a b : Nat) : Nat := (List.range n).foldl (fun v i => if b.testBit i then v ^^^ (a <<< i) else v) 0

namespace BinField

def mul (f : BinField) (a b : Nat) : Nat :=
  (List.range f.deg).reverse.foldl (fun v i => if v.testBit (i + f.deg) then v ^^^ (f.poly <<< i) else v) (clmul f.deg a b)

/-- a^e, `e` of at most `n` bits. -/
def powF (f : BinField) : Nat → Nat → Nat → Nat
  | 0, _, _ => 1
  | n + 1, a, e => f.mul (if e % 2 = 1 then a else 1) (f.powF n (f.mul a a) (e / 2))

def pow (f : BinField) (a e : Nat) : Nat := f.powF (bitLen e) a e

/-- The inverse; that of 0 is 0. -/
def inv (f : BinField) (a : Nat) : Nat := f.pow a (2 ^ f.deg - 2)

/-- The value of a polynomial, coefficient of 1 first. -/
def eval (f : BinField) (p : List Nat) (x : Nat) : Nat := p.foldr (fun c v => c ^^^ f.mul x v) 0

/-- Sum of polynomials. -/
def add : List Nat → List Nat → List Nat
  | [], b => b
  | a, [] => a
  | x :: a, y :: b => (x ^^^ y) :: add a b

/-- A polynomial times a constant and a power of the variable. -/
def scale (f : BinField) (c k : Nat) (p : List Nat) : List Nat := List.replicate k 0 ++ p.map (f.mul c)

/-- Product of polynomials. -/
def prod (f : BinField) (a b : List Nat) : List Nat := a.zipIdx.foldl (fun v x => add v (f.scale x.1 x.2 b)) []

/-- Where the search for a shortest recurrence stands. -/
structure Recurrence where
  conn  : List Nat := [1]
  prev  : List Nat := [1]
  len   : Nat := 0
  scale : Nat := 1
  shift : Nat := 1

/-- One term of the sequence is taken in. -/
def recStep (f : BinField) (s : List Nat) (r : Recurrence) (i : Nat) : Recurrence :=
  let d := (List.range (r.len + 1)).foldl (fun v j => v ^^^ f.mul (r.conn.getD j 0) (s.getD (i - j) 0)) 0
  let next := add r.conn (f.scale (f.mul d (f.inv r.scale)) r.shift r.prev)
  if d = 0 then { r with shift := r.shift + 1 }
  else if 2 * r.len ≤ i then { conn := next, prev := r.conn, len := i + 1 - r.len, scale := d, shift := 1 }
  else { r with conn := next, shift := r.shift + 1 }

/-- The connection polynomial of the shortest recurrence of a sequence (Berlekamp and Massey). -/
def connection (f : BinField) (s : List Nat) : List Nat := ((List.range s.length).foldl (f.recStep s) {}).conn

end BinField

end Sys2Proof.Machine
end

