-- ==== Sys2Proof/Machine/Hqc.lean ====
section
/-! DEFINITION. HQC as R354 and R355 take it from its round 4 specification: PRESUMED from that specification (log entry 60). Vectors are
numbers, bit i the coefficient of X^i. -/

namespace Sys2Proof.Machine

/-- What the sets fix, by PSET: bits of a vector, symbols and message bytes of the outer code, copies of the inner code, weights. -/
structure HqcSet where
  n      : Nat
  n1     : Nat
  k      : Nat
  copies : Nat
  w      : Nat
  wr     : Nat

def hqcSet (ps : Nat) : HqcSet :=
  if ps = 1 then { n := 17669, n1 := 46, k := 16, copies := 3, w := 66, wr := 75 }
  else if ps = 2 then { n := 35851, n1 := 56, k := 24, copies := 5, w := 100, wr := 114 }
  else { n := 57637, n1 := 90, k := 32, copies := 5, w := 131, wr := 149 }

namespace HqcSet

/-- Bytes of a vector; bits and bytes of a code word. -/
def bytes (p : HqcSet) : Nat := ceilDiv p.n 8
def codeBits (p : HqcSet) : Nat := p.n1 * 128 * p.copies
def codeBytes (p : HqcSet) : Nat := p.codeBits / 8

/-- X^i times a vector, modulo X^n − 1. -/
def shift (p : HqcSet) (a i : Nat) : Nat := (a <<< i) % 2 ^ p.n ^^^ a >>> (p.n - i)

/-- The product of a vector and one given by the positions of its ones. -/
def mul (p : HqcSet) (a : Nat) (ones : List Nat) : Nat := ones.foldl (fun v i => v ^^^ p.shift a i) 0

/-- The positions of a vector of fixed weight from 32-bit draws: the i-th lies at or above i, and one that a later draw repeats is i. -/
def support (p : HqcSet) : List (Nat × Nat) → List Nat
  | [] => []
  | (r, i) :: rs =>
    let rest := support p rs
    let x := i + r % (p.n - i)
    (if rest.contains x then i else x) :: rest

/-- Such a vector at an offset of an expanded seed; a draw takes a multiple of 8 bytes. -/
def drawn (p : HqcSet) (w : Nat) (stream : List Byte) : List Nat × List Byte :=
  (p.support ((List.range w).map (fun i => (field stream (4 * i) 4, i))), stream.drop (ceilDiv (4 * w) 8 * 8))

/-- The number whose ones stand at the positions. -/
def vector (ones : List Nat) : Nat := ones.foldl (fun v i => v ^^^ 2 ^ i) 0

end HqcSet

/-- The expansion of a seed, and the hash functions G and K, told apart by a last byte. -/
def hqcExpand (seed : List Byte) (n : Nat) : List Byte := shake256 (seed ++ [0x02]) n
def hqcHash (domain : Byte) (m : List Byte) : List Byte := shake256 (m ++ [domain]) 64

/-- The field of the outer code. -/
def rsField : BinField := { deg := 8, poly := 0x11D }

/-- Powers of the root of the outer code. -/
def rsRoot (i : Nat) : Nat := rsField.pow 2 (i % 255)

/-- The number of errors that the outer code corrects. -/
def HqcSet.delta (p : HqcSet) : Nat := (p.n1 - p.k) / 2

/-- The generator of the outer code. -/
def HqcSet.generator (p : HqcSet) : List Nat :=
  (List.range (2 * p.delta)).foldl (fun g i => rsField.prod g [rsRoot (i + 1), 1]) [1]

/-- The remainder modulo the generator once a symbol, the highest first, has come in. -/
def rsShift (g : List Nat) (rem : List Nat) (m : Nat) : List Nat :=
  let top := m ^^^ rem.getLastD 0
  BinField.add (0 :: rem.dropLast) ((g.dropLast).map (rsField.mul top))

/-- A code word of the outer code: parity below the message. -/
def HqcSet.rsEncode (p : HqcSet) (m : List Nat) : List Nat := m.reverse.foldl (rsShift p.generator) (List.replicate (2 * p.delta) 0) ++ m

/-- The message of a received word of the outer code. -/
def HqcSet.rsDecode (p : HqcSet) (r : List Nat) : List Nat :=
  let f := rsField
  let synd := (List.range (2 * p.delta)).map (fun i => f.eval r (rsRoot (i + 1)))
  let loc := f.connection synd
  let val := (f.prod synd loc).take (2 * p.delta)
  let diff := (loc.zipIdx.map (fun x => if x.2 % 2 = 1 then x.1 else 0)).drop 1
  let fixed := r.zipIdx.map (fun x =>
    let y := rsRoot (255 - x.2)
    if f.eval loc y = 0 then x.1 ^^^ f.mul (f.eval val y) (f.inv (f.eval diff y)) else x.1)
  fixed.drop (p.n1 - p.k)

/-- Bit `i` of the inner code's word for a byte: bit 7, and the products of the other bits with those of `i`. -/
def rmBit (m i : Nat) : Bool := ((List.range 7).foldl (fun v b => v != (m.testBit b && i.testBit b)) (m.testBit 7))

/-- The inner code word of a byte. -/
def rmWord (m : Nat) : Nat := ofBits ((List.range 128).map (rmBit m))

/-- The Hadamard transform of a list of 2^n numbers. -/
def hadamard : Nat → List Int → List Int
  | 0, x => x
  | n + 1, x =>
    let a := hadamard n (x.take (2 ^ n))
    let b := hadamard n (x.drop (2 ^ n))
    a.zipWith (· + ·) b ++ a.zipWith (· - ·) b

/-- The byte whose word lies nearest to the copies received, the lowest position first where two are as near. -/
def HqcSet.rmDecode (p : HqcSet) (v : Nat) : Nat :=
  let ones (i : Nat) : Nat := ((List.range p.copies).map (fun c => b2n (v.testBit (i + 128 * c)))).sum
  let sums : List Int := (List.range 128).map (fun i => Int.ofNat (ones i))
  let centred (x : Int × Nat) : Int × Nat := if x.2 = 0 then (x.1 - Int.ofNat (64 * p.copies), 0) else x
  let best := ((hadamard 7 sums).zipIdx.map centred).foldl (fun (b : Int × Nat) x => if b.1.natAbs < x.1.natAbs then x else b) (0, 0)
  best.2 + (if 0 < best.1 then 128 else 0)

/-- Encoding of a message by both codes, and decoding. -/
def HqcSet.encode (p : HqcSet) (m : List Byte) : Nat :=
  (p.rsEncode (m.map (·.toNat))).zipIdx.foldl (fun v x =>
    v + (List.range p.copies).foldl (fun u c => u + rmWord x.1 <<< (128 * (p.copies * x.2 + c))) 0) 0

def HqcSet.decode (p : HqcSet) (v : Nat) : List Byte :=
  (p.rsDecode ((List.range p.n1).map (fun i => p.rmDecode (v >>> (128 * p.copies * i))))).map (BitVec.ofNat 8)

/-- The private key: seed of x and y, and what the implicit rejection takes for the message. The positions of x and y. -/
def hqcSecret (p : HqcSet) (seed : List Byte) : List Nat × List Nat :=
  let r := p.drawn p.w (hqcExpand seed (2 * (ceilDiv (4 * p.w) 8 * 8)))
  (r.1, (p.drawn p.w r.2).1)

/-- h of a public key. -/
def hqcH (p : HqcSet) (pk : List Byte) : Nat := unLe (hqcExpand (pk.take 40) p.bytes) % 2 ^ p.n

/-- Key generation from seed of x and y, rejection value and seed of h: private and public encodings. -/
def hqcKeys (ps : Nat) (draw : List Byte) : List Byte × List Byte :=
  let p := hqcSet ps
  let pkSeed := slice draw (40 + p.k) 40
  let (x, y) := hqcSecret p (draw.take 40)
  let pk := pkSeed ++ le p.bytes (HqcSet.vector x ^^^ p.mul (hqcH p pkSeed) y)
  (fit (40 + p.k) draw ++ pk, pk)

/-- The encryption of a message under a seed: u and v. -/
def hqcEncrypt (p : HqcSet) (pk m theta : List Byte) : Nat × Nat :=
  let one := ceilDiv (4 * p.wr) 8 * 8
  let a := p.drawn p.wr (hqcExpand (theta.take 40) (3 * one))
  let b := p.drawn p.wr a.2
  let e := p.drawn p.wr b.2
  let s := unLe (pk.drop 40) % 2 ^ p.n
  (HqcSet.vector a.1 ^^^ p.mul (hqcH p pk) b.1, (p.encode m ^^^ p.mul s b.1 ^^^ HqcSet.vector e.1) % 2 ^ p.codeBits)

/-- u and v as bytes. -/
def hqcBytes (p : HqcSet) (c : Nat × Nat) : List Byte := le p.bytes c.1 ++ le p.codeBytes c.2

/-- Encapsulation of a drawn message and salt: ciphertext and shared key. -/
def hqcEncaps (ps : Nat) (pk draw : List Byte) : List Byte × List Byte :=
  let p := hqcSet ps
  let m := fit p.k draw
  let salt := slice draw p.k 16
  let c := hqcBytes p (hqcEncrypt p pk m (hqcHash 0x03 (m ++ pk ++ salt)))
  (c ++ salt, hqcHash 0x04 (m ++ c))

/-- Decapsulation, with the key of the implicit rejection where the ciphertext is not that of its message (R355). -/
def hqcDecaps (ps : Nat) (sk ct : List Byte) : List Byte :=
  let p := hqcSet ps
  let pk := sk.drop (40 + p.k)
  let c := ct.take (p.bytes + p.codeBytes)
  let u := field ct 0 p.bytes % 2 ^ p.n
  let v := field ct p.bytes p.codeBytes
  let (_, y) := hqcSecret p (sk.take 40)
  let m := fit p.k (p.decode ((v ^^^ p.mul u y) % 2 ^ p.codeBits))
  let again := hqcBytes p (hqcEncrypt p pk m (hqcHash 0x03 (m ++ pk ++ ct.drop (p.bytes + p.codeBytes))))
  hqcHash 0x04 ((if again = c then m else slice sk 40 p.k) ++ c)

end Sys2Proof.Machine
end

