-- ==== Sys2Proof/Machine/Der.lean ====
section
/-! DEFINITION. DER as R398, R454 and R638 use it: lengths, INTEGERs and what a string begins with (PRESUMED from X.690, log entry 60). -/

namespace Sys2Proof.Machine

/-- A length, in its shortest form. -/
def derLen (n : Nat) : List Byte :=
  if n < 128 then [BitVec.ofNat 8 n] else let k := ceilDiv (bitLen n) 8; BitVec.ofNat 8 (128 + k) :: be k n

/-- An element: tag, length, contents. -/
def derTlv (tag : Byte) (body : List Byte) : List Byte := tag :: derLen body.length ++ body

/-- An INTEGER. -/
def derNat (n : Nat) : List Byte := derTlv 0x02 (be (bitLen n / 8 + 1) n)

/-- The length at the head of a string, with what follows; none where its form is not the shortest. -/
def derReadLen : List Byte → Option (Nat × List Byte)
  | [] => none
  | b :: bs =>
    let k := b.toNat - 128
    let n := unBe (bs.take k)
    if b.toNat < 128 then some (b.toNat, bs)
    else if k ≤ bs.length ∧ derLen n = b :: bs.take k then some (n, bs.drop k) else none

/-- The contents of the element with a given tag that a string begins with, and the rest. -/
def derGet (tag : Byte) : List Byte → Option (List Byte × List Byte)
  | [] => none
  | t :: bs => if t = tag then (derReadLen bs).bind (fun r => if r.1 ≤ r.2.length then some (r.2.take r.1, r.2.drop r.1) else none) else none

/-- The INTEGER that a string begins with, not negative, and the rest; none where its form is not the shortest. -/
def derGetNat (bs : List Byte) : Option (Nat × List Byte) :=
  (derGet 0x02 bs).bind (fun r => if derNat (unBe r.1) = derTlv 0x02 r.1 then some (unBe r.1, r.2) else none)

/-- The INTEGERs that make up a whole string, at most `fuel`. -/
def derNats : Nat → List Byte → Option (List Nat)
  | 0, bs => if bs.isEmpty then some [] else none
  | fuel + 1, bs => if bs.isEmpty then some [] else (derGetNat bs).bind (fun r => (derNats fuel r.2).map (r.1 :: ·))

/-- A string that is one SEQUENCE of `k` INTEGERs. -/
def derSeqNats (k : Nat) (bs : List Byte) : Option (List Nat) :=
  (derGet 0x30 bs).bind (fun r => if r.2.isEmpty then (derNats k r.1).bind (fun l => if l.length = k then some l else none) else none)

/-- The DER form of a signature given as its fixed-length halves r and s (R398). -/
def derSignature (sig : List Byte) : List Byte :=
  derTlv 0x30 (derNat (unBe (sig.take (sig.length / 2))) ++ derNat (unBe (sig.drop (sig.length / 2))))

/-- The fixed-length halves of a signature in DER. -/
def derReadSignature (half : Nat) (bs : List Byte) : Option (List Byte) :=
  (derSeqNats 2 bs).bind (fun l => if l.all (fun v => decide (v < 256 ^ half)) then some (l.flatMap (be half)) else none)

end Sys2Proof.Machine
end

