-- ==== Sys2Proof/Machine/McEliece.lean ====
section
/-! DEFINITION. Classic McEliece as R357 and R364 take it from its round 4 specification: PRESUMED from that specification (log entry 60).
Bit strings are numbers, bit 0 first. -/

namespace Sys2Proof.Machine

/-- What the sets fix: bits of a field element, code length, errors, terms of the field's polynomial and of that of its extension below the
highest, and whether the matrix may be semi-systematic (the f variants). -/
structure MceSet where
  m    : Nat
  n    : Nat
  t    : Nat
  poly : Nat
  ext  : List Nat
  semi : Bool

def mceSet (ps : Nat) : MceSet :=
  let p : MceSet := match mceIdx ps with
    | 0 => { m := 12, n := 3488, t := 64, poly := 0x1009, ext := [3, 1], semi := false }
    | 1 => { m := 13, n := 4608, t := 96, poly := 0x201B, ext := [10, 9, 6, 0], semi := false }
    | 2 => { m := 13, n := 6688, t := 128, poly := 0x201B, ext := [7, 2, 1, 0], semi := false }
    | 3 => { m := 13, n := 6960, t := 119, poly := 0x201B, ext := [8, 0], semi := false }
    | _ => { m := 13, n := 8192, t := 128, poly := 0x201B, ext := [7, 2, 1, 0], semi := false }
  { p with semi := decide (ps % 2 = 0) }

namespace MceSet

def field (p : MceSet) : BinField := { deg := p.m, poly := p.poly }

/-- The size of the field, and the rows of the parity-check matrix. -/
def q (p : MceSet) : Nat := 2 ^ p.m
def rows (p : MceSet) : Nat := p.m * p.t

/-- The constant term of the extension's polynomial: 1, but z where `ext` says nothing of it. -/
def extConst (p : MceSet) : Nat := if p.ext.contains 0 then 1 else 2

/-- The polynomial of the extension below its highest term. -/
def extPoly (p : MceSet) : List Nat :=
  (List.range p.t).map (fun i => if i = 0 then p.extConst else if p.ext.contains i then 1 else 0)

/-- Product in the extension. -/
def extMul (p : MceSet) (a b : List Nat) : List Nat :=
  b.reverse.foldl (fun v c =>
    let top := v.getD (p.t - 1) 0
    let up := 0 :: v.take (p.t - 1)
    BinField.add (BinField.add up (p.extPoly.map (p.field.mul top))) (a.map (p.field.mul c))) (List.replicate p.t 0)

end MceSet

/-- One column of a reduction to the identity over a field; none where no row is left with a pivot. -/
def reduceColumn (f : BinField) (acc : Option (List (List Nat) × List (List Nat))) (c : Nat) : Option (List (List Nat) × List (List Nat)) :=
  acc.bind (fun x =>
    let i := x.2.findIdx (fun r => decide (r.getD c 0 ≠ 0))
    if x.2.length ≤ i then none
    else
      let r := x.2.getD i []
      let p := r.map (f.mul (f.inv (r.getD c 0)))
      let clear (y : List Nat) : List Nat := BinField.add y (p.map (f.mul (y.getD c 0)))
      some (x.1.map clear ++ [p], (x.2.eraseIdx i).map clear))

/-- The minimal polynomial of degree t of an element of the extension, its coefficients below the highest; none where the degree is lower. -/
def MceSet.minPoly (p : MceSet) (b : List Nat) : Option (List Nat) :=
  let powers := (List.range p.t).foldl (fun v _ => v ++ [p.extMul (v.getLastD []) b]) [1 :: List.replicate (p.t - 1) 0]
  let rows := (List.range p.t).map (fun i => powers.map (fun v => v.getD i 0))
  ((List.range p.t).foldl (reduceColumn p.field) (some ([], rows))).map (fun x => x.1.map (fun r => r.getLastD 0))

/-- The bits of an element in the opposite order. -/
def MceSet.reversed (p : MceSet) (i : Nat) : Nat := ofBits (bitsOf p.m i).reverse

/-- The order that 32-bit numbers give to the field; none where two are equal. -/
def MceSet.ordering (p : MceSet) (a : List Nat) : Option (List Nat) :=
  let s := (a.zipIdx).mergeSort (fun x y => decide (x.1 < y.1) || (decide (x.1 = y.1) && decide (x.2 ≤ y.2)))
  if (s.zip s.tail).any (fun x => decide (x.1.1 = x.2.1)) then none else some (s.map (·.2))

/-- The rows of the parity-check matrix of a Goppa code: polynomial without its highest term, support. -/
def MceSet.parity (p : MceSet) (g supp : List Nat) : List Nat :=
  let f := p.field
  let cols := supp.map (fun a => (f.inv (f.eval (g ++ [1]) a), a))
  let blocks := ((List.range p.t).foldl (fun (acc : List (List Nat) × List (Nat × Nat)) _ =>
    (acc.1 ++ [acc.2.map (·.1)], acc.2.map (fun x => (f.mul x.1 x.2, x.2)))) ([], cols)).1
  blocks.flatMap (fun r => (List.range p.m).map (fun b => ofBits (r.map (fun x => x.testBit b))))

/-- One column of a reduction over two elements: pivot columns and their rows, and the rows left. -/
def reduceBits (x : List (Nat × Nat) × List Nat) (c : Nat) : List (Nat × Nat) × List Nat :=
  let i := x.2.findIdx (fun r => r.testBit c)
  if x.2.length ≤ i then x
  else
    let r := x.2.getD i 0
    let clear (y : Nat) : Nat := if y.testBit c then y ^^^ r else y
    (x.1.map (fun y => (y.1, clear y.2)) ++ [(c, r)], (x.2.eraseIdx i).map clear)

/-- Two bits of a number change places; two entries of a list. -/
def swapBits (v i j : Nat) : Nat := if v.testBit i = v.testBit j then v else v ^^^ 2 ^ i ^^^ 2 ^ j
def swapAt (l : List Nat) (i j : Nat) : List Nat := (l.set i (l.getD j 0)).set j (l.getD i 0)

/-- The matrix in (semi-)systematic form: pivots of the last 32 rows, rows right of the identity, order of the field as swapped with the
columns; none where the form does not exist. -/
def MceSet.matrix (p : MceSet) (g order : List Nat) : Option (List Nat × List Nat × List Nat) :=
  let free := if p.semi then 32 else 0
  let fixed := p.rows - free
  let r := (List.range (fixed + 2 * free)).foldl reduceBits ([], p.parity g ((order.take p.n).map p.reversed))
  let cols := r.1.map (·.1)
  if r.1.length < p.rows ∨ cols.take fixed ≠ List.range fixed then none
  else
    let swaps := (cols.drop fixed).zipIdx.map (fun x => (fixed + x.2, x.1))
    some (cols.drop fixed, (r.1.map (fun x => (swaps.foldl (fun v y => swapBits v y.1 y.2) x.2) >>> p.rows)),
      swaps.foldl (fun l y => swapAt l y.1 y.2) order)

/-- c composed with the inverse of a permutation. -/
def composeInv (c perm : List Nat) : List Nat := ((perm.zip c).mergeSort (fun x y => decide (x.1 ≤ y.1))).map (·.2)

/-- The lists taken in turn. -/
def riffle : List Nat → List Nat → List Nat
  | a :: x, b :: y => a :: b :: riffle x y
  | _, _ => []

/-- The control bits of a permutation of 2^m numbers. -/
def controlBits : Nat → List Nat → List Nat
  | 0, _ => []
  | 1, perm => [perm.getD 0 0]
  | m + 2, perm =>
    let n := 2 ^ (m + 2)
    let ids := List.range n
    let at_ (l : List Nat) (i : Nat) : Nat := l.getD i 0
    let p0 := ids.map (fun x => at_ perm (x ^^^ 1))
    let q0 := ids.map (fun x => at_ perm x ^^^ 1)
    let inv := composeInv ids perm
    let p1 := composeInv p0 q0
    let q1 := composeInv q0 p0
    let c1 := ids.zipWith min p1
    let p2 := composeInv p1 q1
    let q2 := composeInv q1 p1
    let r := (List.range m).foldl (fun (x : List Nat × List Nat × List Nat) _ =>
      let cp := composeInv x.1 x.2.2
      (x.1.zipWith min cp, composeInv x.2.1 x.2.2, composeInv x.2.2 x.2.1)) (c1, p2, q2)
    let half := List.range (n / 2)
    let f := half.map (fun j => at_ r.1 (2 * j) % 2)
    let fPerm := composeInv (ids.map (fun x => x ^^^ at_ f (x / 2))) inv
    let l := half.map (fun k => at_ fPerm (2 * k) % 2)
    let mid := composeInv fPerm (ids.map (fun y => y ^^^ at_ l (y / 2)))
    let sub (e : Nat) : List Nat := half.map (fun j => at_ mid (2 * j + e) / 2)
    f ++ riffle (controlBits (m + 1) (sub 0)) (controlBits (m + 1) (sub 1)) ++ l

/-- The permutation of 2^m numbers that control bits stand for. -/
def benes (m : Nat) (c : Nat) : List Nat :=
  (List.range (2 * m - 1)).foldl (fun l i =>
    let gap := 2 ^ min i (2 * m - 2 - i)
    (List.range (2 ^ m)).map (fun x =>
      let low := if x / gap % 2 = 0 then x else x - gap
      let j := low / (2 * gap) * gap + low % gap
      l.getD (if c.testBit (i * 2 ^ (m - 1) + j) then (if low = x then x + gap else low) else x) 0)) (List.range (2 ^ m))

/-- One attempt of a key generation from its seed (R364): the private and public encodings, or none; and the next attempt's seed. -/
def mceAttempt (p : MceSet) (seed : List Byte) : Option (List Byte × List Byte) × List Byte :=
  let e := shake256 (0x40 :: seed) (p.n / 8 + 4 * p.q + 2 * p.t + 32)
  let draws := e.drop (p.n / 8)
  let b := (List.range p.t).map (fun i => Sys2Proof.Machine.field draws (4 * p.q + 2 * i) 2 % p.q)
  let keys := (p.ordering ((parts 4 p.q draws).map unLe)).bind (fun order =>
    (p.minPoly b).bind (fun g => (p.matrix g order).map (fun r =>
      let pivots := if p.semi then (r.1.map (fun c => 2 ^ (c - (p.rows - 32)))).sum else 2 ^ 32 - 1
      let width := ceilDiv (p.n - p.rows) 8
      (fit 32 seed ++ le 8 pivots ++ g.flatMap (le 2) ++ le ((2 * p.m - 1) * p.q / 16) (ofBits ((controlBits p.m r.2.2).map (· == 1))) ++ e.take (p.n / 8),
        r.2.1.flatMap (le width)))))
  (keys, slice draws (4 * p.q + 2 * p.t) 32)

/-- A key generation (R364): attempts run, private and public encodings; none after `fuel` failed attempts. -/
def mceKeysF (p : MceSet) : Nat → Nat → List Byte → Option (Nat × List Byte × List Byte)
  | 0, _, _ => none
  | fuel + 1, k, seed => match mceAttempt p seed with
    | (some x, _) => some (k, x.1, x.2)
    | (none, next) => mceKeysF p fuel (k + 1) next

/-- The attempts are at most 64 (R364). -/
def mceKeys (ps : Nat) (seed : List Byte) : Option (Nat × List Byte × List Byte) := mceKeysF (mceSet ps) 64 1 seed

/-- The bytes one try at an error vector draws. -/
def mceDraw (ps : Nat) : Nat := let p := mceSet ps; 2 * (if p.n = p.q then p.t else 2 * p.t)

/-- The error vector that a draw gives; none where it is to be drawn again. -/
def mceErrors (ps : Nat) (draw : List Byte) : Option Nat :=
  let p := mceSet ps
  let ds := (((parts 2 (draw.length / 2) draw).map (fun b => unLe b % p.q)).filter (fun d => decide (d < p.n))).take p.t
  if ds.length < p.t ∨ ds.eraseDups.length < p.t then none else some ((ds.map (2 ^ ·)).sum)

/-- Whether a number has an odd number of ones. -/
def oddOnes (n v : Nat) : Bool := (bitsOf n v).foldl (· != ·) false

/-- Encapsulation of an error vector: ciphertext and shared key. -/
def mceEncaps (ps : Nat) (pk : List Byte) (e : Nat) : List Byte × List Byte :=
  let p := mceSet ps
  let k := p.n - p.rows
  let rows := parts (ceilDiv k 8) p.rows pk
  let c := le (ceilDiv p.rows 8) (ofBits (rows.zipIdx.map (fun r => e.testBit r.2 != oddOnes k (unLe r.1 &&& (e >>> p.rows)))))
  (c, shake256 (0x01 :: le (p.n / 8) e ++ c) 32)

/-- The syndromes of a word of the code, twice as many as the errors. -/
def MceSet.syndromes (p : MceSet) (g supp : List Nat) (v : Nat) : List Nat :=
  let f := p.field
  let cols := supp.zipIdx.filterMap (fun x =>
    if v.testBit x.2 then (let y := f.inv (f.eval (g ++ [1]) x.1); some (f.mul y y, x.1)) else none)
  ((List.range (2 * p.t)).foldl (fun (acc : List Nat × List (Nat × Nat)) _ =>
    (acc.1 ++ [acc.2.foldl (fun s x => s ^^^ x.1) 0], acc.2.map (fun x => (f.mul x.1 x.2, x.2)))) ([], cols)).1

/-- The error vector of weight t with a syndrome, if there is one. -/
def MceSet.decode (p : MceSet) (g supp : List Nat) (c : Nat) : Option Nat :=
  let f := p.field
  let s := p.syndromes g supp c
  let loc := ((f.connection s).take (p.t + 1) ++ List.replicate (p.t + 1) 0).take (p.t + 1)
  let e := ofBits (supp.map (fun a => decide (f.eval loc.reverse a = 0)))
  if ((bitsOf p.n e).map b2n).sum = p.t ∧ p.syndromes g supp e = s then some e else none

/-- Decapsulation, with the key of the implicit rejection where no error vector fits (R357). -/
def mceDecaps (ps : Nat) (sk c : List Byte) : List Byte :=
  let p := mceSet ps
  let g := (parts 2 p.t (sk.drop 40)).map unLe
  let bits_ := (2 * p.m - 1) * p.q / 16
  let supp := ((benes p.m (Sys2Proof.Machine.field sk (40 + 2 * p.t) bits_)).take p.n).map p.reversed
  let word := unLe c
  match (if word < 2 ^ p.rows then p.decode g supp word else none) with
  | some e => shake256 (0x01 :: le (p.n / 8) e ++ c) 32
  | none => shake256 (0x00 :: slice sk (40 + 2 * p.t + bits_) (p.n / 8) ++ c) 32

end Sys2Proof.Machine
end

