-- ==== Sys2Proof/Machine/Poly.lean ====
section
/-! DEFINITION. Polynomials over a modulus context: transforms, products (R262, R263) and the encodings of R264. The POLY
instructions and the lattice schemes work with the same functions. -/

namespace Sys2Proof.Machine

/-- The low `c` elements of `b` bits of a number. -/
def splitE (b : Nat) : Nat → Nat → List Nat
  | 0, _ => []
  | c + 1, v => v % 2 ^ b :: splitE b c (v / 2 ^ b)

/-- Elements of `b` bits put together. -/
def joinE (b : Nat) : List Nat → Nat
  | [] => 0
  | x :: xs => x % 2 ^ b + 2 ^ b * joinE b xs

/-- The pairs of a list, first of each. -/
def evens {α : Type} : List α → List α
  | a :: _ :: r => a :: evens r
  | [a] => [a]
  | [] => []

/-- The odd positions of a list. -/
def odds {α : Type} (xs : List α) : List α := evens (xs.drop 1)

/-- The power of a number modulo `q`, `fuel` bits of exponent. -/
def powModF (q : Nat) : Nat → Nat → Nat → Nat
  | 0, _, _ => 1 % q
  | fuel + 1, b, e =>
    if e = 0 then 1 % q
    else (if e % 2 = 1 then b else 1) * powModF q fuel (b * b % q) (e / 2) % q

/-- b^e mod q. -/
def powMod (q b e : Nat) : Nat := powModF q (bitLen e) (b % q) e

/-- `n` bits of a number reversed. -/
def brv (n i : Nat) : Nat := ofBits (bitsOf n i).reverse

/-- The number of points of a transform: N, or N/2 for INCOMPLETE. -/
def ModCtx.points (c : ModCtx) : Nat := if c.incomplete then c.n / 2 else c.n

/-- The exponents 2·brv(i) + 1 (R262). -/
def ModCtx.exps (c : ModCtx) : List Nat := (List.range c.points).map (fun i => 2 * brv (Nat.log2 c.points) i + 1)

/-- The points γ(i), and their inverses; the order of ω is 2N for FULL and N for INCOMPLETE (R197). -/
def ModCtx.gammas (c : ModCtx) : List Nat := c.exps.map (powMod c.q c.omega)

def ModCtx.gammaInvs (c : ModCtx) : List Nat := c.exps.map (fun e => powMod c.q c.omega (2 * c.points - e))

/-- A polynomial's value at a point. -/
def evalAt (q x : Nat) (a : List Nat) : Nat := a.foldr (fun c acc => (c + x * acc) % q) 0

/-- The forward transform (R262). -/
def nttPoly (c : ModCtx) (a : List Nat) : List Nat :=
  if c.incomplete then c.gammas.flatMap (fun g => [evalAt c.q g (evens a), evalAt c.q g (odds a)])
  else c.gammas.map (fun g => evalAt c.q g a)

/-- Sums of the terms, multiplied by their factor from one coefficient to the next. -/
def inttLoop (q : Nat) (gs : List Nat) : Nat → List Nat → List Nat
  | 0, _ => []
  | n + 1, ts => ts.foldl (fun acc t => (acc + t) % q) 0 :: inttLoop q gs n ((ts.zip gs).map (fun x => x.1 * x.2 % q))

/-- The inverse of the values at the points, with the factor 1/points. -/
def inttHalf (c : ModCtx) (v : List Nat) : List Nat :=
  let ninv := powMod c.q ((c.q + 1) / 2) (Nat.log2 c.points)
  (inttLoop c.q c.gammaInvs c.points (v.map (· % c.q))).map (fun x => x * ninv % c.q)

/-- Two lists interleaved. -/
def interleave : List Nat → List Nat → List Nat
  | a :: as, b :: bs => a :: b :: interleave as bs
  | _, _ => []

/-- The inverse transform (R262). -/
def inttPoly (c : ModCtx) (v : List Nat) : List Nat :=
  if c.incomplete then interleave (inttHalf c (evens v)) (inttHalf c (odds v)) else inttHalf c v

/-- The product of residues modulo X² − γ (R263). -/
def pairMul (q : Nat) : List Nat → List Nat → List Nat → List Nat
  | g :: gs, a0 :: a1 :: as, b0 :: b1 :: bs =>
    (a0 * b0 + a1 * b1 % q * g) % q :: (a0 * b1 + a1 * b0) % q :: pairMul q gs as bs
  | _, _, _ => []

/-- The pointwise product of two polynomials (R263). -/
def pwPoly (c : ModCtx) (a b : List Nat) : List Nat :=
  if c.incomplete then pairMul c.q c.gammas a b else (a.zip b).map (fun x => x.1 * x.2 % c.q)

/-- c(x) of R264. -/
def centred (q x : Nat) : Int := if x % q ≤ (q - 1) / 2 then (x % q : Nat) else (x % q : Nat) - (q : Int)

/-- round((2ᵇ/q)·a) mod 2ᵇ, ties upward. -/
def compressE (q b a : Nat) : Nat := (2 * 2 ^ b * a + q) / (2 * q) % 2 ^ b

/-- round((q/2ᵇ)·a), ties upward, reduced. -/
def decompressE (q b a : Nat) : Nat := (2 * q * a + 2 ^ b) / (2 * 2 ^ b) % q

/-- r mod± m for even m. -/
def modPm (m r : Nat) : Int := if r % m ≤ m / 2 then (r % m : Nat) else (r % m : Nat) - (m : Int)

/-- A signed value modulo q. -/
def toMod (q : Nat) (v : Int) : Nat := (v % q).toNat

/-- Power2Round of FIPS 204 with d = 13: r1 and r0 mod q. -/
def power2Round (q a : Nat) : Nat × Nat :=
  let r := a % q
  let r0 := modPm 8192 r
  (((r - r0) / 8192).toNat, toMod q r0)

/-- Decompose of FIPS 204: r1 and r0. -/
def decompose (q g a : Nat) : Nat × Int :=
  let r := a % q
  let r0 := modPm (2 * g) r
  if r - r0 = q - 1 then (0, r0 - 1) else (((r - r0) / (2 * g)).toNat, r0)

/-- MakeHint and UseHint of FIPS 204. -/
def makeHint (q g z r : Nat) : Nat := b2n (decide ((decompose q g r).1 ≠ (decompose q g (r + z)).1))

def useHint (q g h r : Nat) : Nat :=
  let m := (q - 1) / (2 * g)
  let (r1, r0) := decompose q g r
  if h = 1 then (if 0 < r0 then (r1 + 1) % m else (r1 + (m - 1)) % m) else r1

end Sys2Proof.Machine
end

