-- ==== Sys2Proof/Machine/MlKem.lean ====
section
/-! DEFINITION. ML-KEM as R290 to R293 take it from FIPS 203: PRESUMED from that standard (log entry 60). Polynomials are lists of 256
coefficients below q; the transforms and encodings are those of the PVU (R262 to R264). -/

namespace Sys2Proof.Machine

/-- The modulus context of ML-KEM (R197, R200). -/
def kemCtx : ModCtx := { valid := true, q := 3329, n := 256, incomplete := true, omega := 17 }

/-- What the parameter sets fix, by PSET: k, η₁, dᵤ and dᵥ; η₂ is 2. -/
structure KemSet where
  k    : Nat
  eta1 : Nat
  du   : Nat
  dv   : Nat

def kemSet (ps : Nat) : KemSet :=
  if ps = 1 then { k := 2, eta1 := 3, du := 10, dv := 4 }
  else if ps = 2 then { k := 3, eta1 := 2, du := 10, dv := 4 }
  else { k := 4, eta1 := 2, du := 11, dv := 5 }

/-- Sums and differences of polynomials. -/
def polyAdd (q : Nat) (a b : List Nat) : List Nat := List.zipWith (fun x y => (x + y) % q) a b
def polySub (q : Nat) (a b : List Nat) : List Nat := List.zipWith (fun x y => (x + (q - y % q)) % q) a b

/-- A row times a column, both transformed. -/
def dotNtt (c : ModCtx) (a b : List (List Nat)) : List Nat :=
  (List.zipWith (pwPoly c) a b).foldl (polyAdd c.q) (List.replicate 256 0)

/-- Coefficients of `d` bits as bytes, and the coefficients that bytes spell (ByteEncode and ByteDecode). -/
def polyBytes (d : Nat) (a : List Nat) : List Byte := le (32 * d) (joinE d a)
def bytesPoly (d : Nat) (bs : List Byte) : List Nat := splitE d 256 (unLe (bs.take (32 * d)))

/-- Candidates of 12 bits of a byte stream that lie below q (SampleNTT). -/
def nttCandidates : List Byte → List Nat
  | a :: b :: c :: r =>
    [a.toNat + 256 * (b.toNat % 16), b.toNat / 16 + 16 * c.toNat].filter (fun x => decide (x < 3329)) ++ nttCandidates r
  | _ => []

/-- SampleNTT, from ten blocks of the stream. -/
def kemNttPoly (seed : List Byte) : List Nat := ((nttCandidates (shake128 seed 1680)) ++ List.replicate 256 0).take 256

/-- The matrix Â by rows. -/
def kemMatrix (k : Nat) (rho : List Byte) : List (List (List Nat)) :=
  (List.range k).map (fun i => (List.range k).map (fun j => kemNttPoly (rho ++ [BitVec.ofNat 8 j, BitVec.ofNat 8 i])))

/-- Rows and columns exchanged. -/
def transposeN {α : Type} (k : Nat) (m : List (List α)) (d : α) : List (List α) :=
  (List.range k).map (fun j => (List.range k).map (fun i => (m.getD i []).getD j d))

/-- SamplePolyCBD: each coefficient is the difference of two sums of η bits. -/
def kemCbd (eta : Nat) (bs : List Byte) : List Nat :=
  (splitE (2 * eta) 256 (unLe bs)).map (fun v =>
    let ones (x : Nat) : Nat := ((bitsOf eta x).map b2n).sum
    (ones v + 3329 - ones (v / 2 ^ eta)) % 3329)

/-- PRF and the polynomial that it gives for a counter. -/
def kemNoise (eta : Nat) (seed : List Byte) (n : Nat) : List Nat :=
  kemCbd eta (shake256 (seed ++ [BitVec.ofNat 8 n]) (64 * eta))

/-- `k` noise polynomials from counter `n` on. -/
def kemNoises (eta k : Nat) (seed : List Byte) (n : Nat) : List (List Nat) := (List.range k).map (fun i => kemNoise eta seed (n + i))

/-- K-PKE.KeyGen: the encryption key and the decryption key. -/
def kpkeKeys (ps : Nat) (d : List Byte) : List Byte × List Byte :=
  let p := kemSet ps
  let g := sha3_512 (d ++ [BitVec.ofNat 8 p.k])
  let rho := g.take 32
  let s := (kemNoises p.eta1 p.k (g.drop 32) 0).map (nttPoly kemCtx)
  let e := (kemNoises p.eta1 p.k (g.drop 32) p.k).map (nttPoly kemCtx)
  let t := List.zipWith (fun row ei => polyAdd 3329 (dotNtt kemCtx row s) ei) (kemMatrix p.k rho) e
  (t.flatMap (polyBytes 12) ++ rho, s.flatMap (polyBytes 12))

/-- K-PKE.Encrypt. -/
def kpkeEncrypt (ps : Nat) (ek m r : List Byte) : List Byte :=
  let p := kemSet ps
  let t := (parts 384 p.k ek).map (bytesPoly 12)
  let y := (kemNoises p.eta1 p.k r 0).map (nttPoly kemCtx)
  let at' := transposeN p.k (kemMatrix p.k (slice ek (384 * p.k) 32)) []
  let u := List.zipWith (fun row e => polyAdd 3329 (inttPoly kemCtx (dotNtt kemCtx row y)) e) at' (kemNoises 2 p.k r p.k)
  let mu := (bytesPoly 1 m).map (decompressE 3329 1)
  let v := polyAdd 3329 (polyAdd 3329 (inttPoly kemCtx (dotNtt kemCtx t y)) (kemNoise 2 r (2 * p.k))) mu
  u.flatMap (fun a => polyBytes p.du (a.map (compressE 3329 p.du))) ++ polyBytes p.dv (v.map (compressE 3329 p.dv))

/-- K-PKE.Decrypt. -/
def kpkeDecrypt (ps : Nat) (dk c : List Byte) : List Byte :=
  let p := kemSet ps
  let u := (parts (32 * p.du) p.k c).map (fun b => (bytesPoly p.du b).map (decompressE 3329 p.du))
  let v := (bytesPoly p.dv (c.drop (32 * p.du * p.k))).map (decompressE 3329 p.dv)
  let s := (parts 384 p.k dk).map (bytesPoly 12)
  let w := polySub 3329 v (inttPoly kemCtx (dotNtt kemCtx s (u.map (nttPoly kemCtx))))
  polyBytes 1 (w.map (compressE 3329 1))

/-- ML-KEM.KeyGen_internal on d and z: ek and dk (R290). -/
def mlkemKeys (ps : Nat) (seed : List Byte) : List Byte × List Byte :=
  let (ek, dk) := kpkeKeys ps (seed.take 32)
  (ek, dk ++ ek ++ sha3_256 ek ++ slice seed 32 32)

/-- ML-KEM.Encaps_internal: c and K (R291). -/
def mlkemEncaps (ps : Nat) (ek m : List Byte) : List Byte × List Byte :=
  let g := sha3_512 (m ++ sha3_256 ek)
  (kpkeEncrypt ps ek m (g.drop 32), g.take 32)

/-- ML-KEM.Decaps_internal: K, or J(z ‖ c) where the re-encryption differs (R292, R293). -/
def mlkemDecaps (ps : Nat) (dk c : List Byte) : List Byte :=
  let k := (kemSet ps).k
  let ek := slice dk (384 * k) (384 * k + 32)
  let m := kpkeDecrypt ps (dk.take (384 * k)) c
  let g := sha3_512 (m ++ slice dk (768 * k + 32) 32)
  if kpkeEncrypt ps ek m (g.drop 32) = c then g.take 32 else shake256 (slice dk (768 * k + 64) 32 ++ c) 32

end Sys2Proof.Machine
end

