-- ==== Sys2Proof/Machine/MlDsa.lean ====
section
/-! DEFINITION. ML-DSA as R297 to R301 take it from FIPS 204: PRESUMED from that standard (log entry 60). Polynomials are lists of 256
coefficients below q; the transforms, roundings and hints are those of the PVU (R262 to R264). -/

namespace Sys2Proof.Machine

/-- The modulus of ML-DSA and its context (R197, R200). -/
def dsaQ : Nat := 8380417
def dsaCtx : ModCtx := { valid := true, q := dsaQ, n := 256, incomplete := false, omega := 1753 }

/-- What the parameter sets fix, by PSET; β = τη, c̃ takes λ/4 bytes. -/
structure DsaSet where
  k      : Nat
  l      : Nat
  eta    : Nat
  tau    : Nat
  ctilde : Nat
  gamma1 : Nat
  gamma2 : Nat
  omega  : Nat

def dsaSet (ps : Nat) : DsaSet :=
  if ps = 1 then { k := 4, l := 4, eta := 2, tau := 39, ctilde := 32, gamma1 := 2 ^ 17, gamma2 := 95232, omega := 80 }
  else if ps = 2 then { k := 6, l := 5, eta := 4, tau := 49, ctilde := 48, gamma1 := 2 ^ 19, gamma2 := 261888, omega := 55 }
  else { k := 8, l := 7, eta := 2, tau := 60, ctilde := 64, gamma1 := 2 ^ 19, gamma2 := 261888, omega := 75 }

def DsaSet.beta (p : DsaSet) : Nat := p.tau * p.eta

/-- Coefficients in the range −a to b as bits of b − x, and back (BitPack and BitUnpack). -/
def packSigned (bitsN b : Nat) (a : List Nat) : List Byte := polyBytes bitsN (a.map (fun x => (b + dsaQ - x % dsaQ) % dsaQ))
def unpackSigned (bitsN b : Nat) (bs : List Byte) : List Nat := (bytesPoly bitsN bs).map (fun v => (b + dsaQ - v) % dsaQ)

/-- Candidates of 23 bits below q (RejNTTPoly). -/
def dsaCandidates : List Byte → List Nat
  | a :: b :: c :: r =>
    let z := a.toNat + 256 * b.toNat + 65536 * (c.toNat % 128)
    (if z < dsaQ then [z] else []) ++ dsaCandidates r
  | _ => []

/-- One polynomial of Â, from eight blocks of the stream. -/
def rejNtt (seed : List Byte) : List Nat := (dsaCandidates (shake128 seed 1344) ++ List.replicate 256 0).take 256

/-- ExpandA: Â by rows. -/
def dsaMatrix (p : DsaSet) (rho : List Byte) : List (List (List Nat)) :=
  (List.range p.k).map (fun r => (List.range p.l).map (fun s => rejNtt (rho ++ [BitVec.ofNat 8 s, BitVec.ofNat 8 r])))

/-- CoeffFromHalfByte: the coefficient that a nibble gives, if any. -/
def halfByte (eta z : Nat) : List Nat :=
  if eta = 2 then (if z < 15 then [(2 + dsaQ - z % 5) % dsaQ] else [])
  else if z < 9 then [(4 + dsaQ - z) % dsaQ] else []

/-- RejBoundedPoly, from eight blocks of the stream. -/
def rejBounded (eta : Nat) (seed : List Byte) : List Nat :=
  ((shake256 seed 1088).flatMap (fun (b : Byte) => halfByte eta (b.toNat % 16) ++ halfByte eta (b.toNat / 16)) ++ List.replicate 256 0).take 256

/-- `n` short polynomials from counter `r` on (ExpandS). -/
def expandS (eta n : Nat) (rho : List Byte) (r : Nat) : List (List Nat) :=
  (List.range n).map (fun i => rejBounded eta (rho ++ le 2 (r + i)))

/-- The bits of a coefficient of the mask. -/
def DsaSet.maskBits (p : DsaSet) : Nat := bitLen (p.gamma1 - 1) + 1

/-- ExpandMask. -/
def expandMask (p : DsaSet) (rho : List Byte) (kappa : Nat) : List (List Nat) :=
  (List.range p.l).map (fun r => unpackSigned p.maskBits p.gamma1 (shake256 (rho ++ le 2 (kappa + r)) (32 * p.maskBits)))

/-- The steps of SampleInBall from position `i` on: candidates above `i` are passed over. -/
def ballSteps (h : List Bool) (tau : Nat) : Nat → List Byte → List Nat → List Nat
  | _, [], c => c
  | i, b :: bs, c =>
    if 256 ≤ i then c
    else if i < b.toNat then ballSteps h tau i bs c
    else ballSteps h tau (i + 1) bs
      ((c.set i (c.getD b.toNat 0)).set b.toNat (if h.getD (i + tau - 256) false then dsaQ - 1 else 1))

/-- SampleInBall: 8 bytes of signs, then candidates. -/
def sampleInBall (tau : Nat) (ct : List Byte) : List Nat :=
  let s := shake256 ct 1088
  ballSteps (bitsOf 64 (unLe (s.take 8))) tau (256 - tau) (s.drop 8) (List.replicate 256 0)

/-- The largest absolute value of a vector's coefficients. -/
def infNorm (v : List (List Nat)) : Nat := (v.flatMap (fun a => a.map (fun x => (centred dsaQ x).natAbs))).foldl max 0

/-- A matrix of rows times a transformed vector, transformed back. -/
def matVec (rows : List (List (List Nat))) (v : List (List Nat)) : List (List Nat) := rows.map (fun r => inttPoly dsaCtx (dotNtt dsaCtx r v))

/-- A transformed polynomial times the polynomials of a transformed vector. -/
def scaleVec (c : List Nat) (v : List (List Nat)) : List (List Nat) := v.map (fun a => inttPoly dsaCtx (pwPoly dsaCtx c a))

def vecAdd (a b : List (List Nat)) : List (List Nat) := List.zipWith (polyAdd dsaQ) a b
def vecSub (a b : List (List Nat)) : List (List Nat) := List.zipWith (polySub dsaQ) a b

/-- w1Encode: the high bits. -/
def w1Bytes (p : DsaSet) (w1 : List (List Nat)) : List Byte :=
  w1.flatMap (polyBytes (bitLen ((dsaQ - 1) / (2 * p.gamma2) - 1)))

/-- HintBitPack: the positions of the hints polynomial by polynomial, then the running counts. -/
def packHints (p : DsaSet) (h : List (List Nat)) : List Byte :=
  let pos := h.map (fun a => (List.range 256).filter (fun i => decide (a.getD i 0 ≠ 0)))
  let counts := (List.range p.k).map (fun i => ((pos.take (i + 1)).map List.length).sum)
  fit p.omega (pos.flatten.map (BitVec.ofNat 8)) ++ counts.map (BitVec.ofNat 8)

/-- The positions of one polynomial must rise. -/
def rising : List Nat → Bool
  | a :: b :: r => decide (a < b) && rising (b :: r)
  | _ => true

/-- HintBitUnpack: none where the counts fall or pass ω, positions do not rise, or the unused places are not zero (R301). -/
def unpackHints (p : DsaSet) (bs : List Byte) : Option (List (List Nat)) :=
  let ends := (bs.drop p.omega).map BitVec.toNat
  let starts := 0 :: ends
  let pos := (bs.take p.omega).map BitVec.toNat
  let runs := (List.range p.k).map (fun i => (pos.take (ends.getD i 0)).drop (starts.getD i 0))
  if (List.range p.k).all (fun i => decide (starts.getD i 0 ≤ ends.getD i 0) && decide (ends.getD i 0 ≤ p.omega))
      && runs.all rising && (pos.drop (ends.getLastD 0)).all (· == 0)
  then some (runs.map (fun r => (List.range 256).map (fun i => b2n (r.contains i))))
  else none

/-- t of the key: A·s₁ + s₂. -/
def dsaT (rows : List (List (List Nat))) (s1 s2 : List (List Nat)) : List (List Nat) :=
  vecAdd (matVec rows (s1.map (nttPoly dsaCtx))) s2

/-- Power2Round of a vector: t₁ and t₀. -/
def roundVec (t : List (List Nat)) : List (List Nat) × List (List Nat) :=
  (t.map (fun a => a.map (fun x => (power2Round dsaQ x).1)), t.map (fun a => a.map (fun x => (power2Round dsaQ x).2)))

/-- ML-DSA.KeyGen_internal on ξ: pk and sk (R297). -/
def mldsaKeys (ps : Nat) (xi : List Byte) : List Byte × List Byte :=
  let p := dsaSet ps
  let g := shake256 (xi ++ [BitVec.ofNat 8 p.k, BitVec.ofNat 8 p.l]) 128
  let rho := g.take 32
  let s1 := expandS p.eta p.l (slice g 32 64) 0
  let s2 := expandS p.eta p.k (slice g 32 64) p.l
  let (t1, t0) := roundVec (dsaT (dsaMatrix p rho) s1 s2)
  let pk := rho ++ t1.flatMap (polyBytes 10)
  let e := bitLen (2 * p.eta)
  (pk, rho ++ g.drop 96 ++ shake256 pk 64 ++ (s1 ++ s2).flatMap (packSigned e p.eta) ++ t0.flatMap (packSigned 13 4096))

/-- A private key's parts: ρ, K, the secret vectors and t₀ (skDecode). -/
structure DsaKey where
  rho : List Byte
  k   : List Byte
  s1  : List (List Nat)
  s2  : List (List Nat)
  t0  : List (List Nat)

def readDsaKey (p : DsaSet) (sk : List Byte) : DsaKey :=
  let e := bitLen (2 * p.eta)
  { rho := sk.take 32, k := slice sk 32 32,
    s1 := (parts (32 * e) p.l (sk.drop 128)).map (unpackSigned e p.eta),
    s2 := (parts (32 * e) p.k (sk.drop (128 + 32 * e * p.l))).map (unpackSigned e p.eta),
    t0 := (parts 416 p.k (sk.drop (128 + 32 * e * (p.l + p.k)))).map (unpackSigned 13 4096) }

/-- One iteration of the rejection loop (R300): the signature, or none where it rejects. -/
def dsaAttempt (p : DsaSet) (key : DsaKey) (rows : List (List (List Nat))) (mu rho : List Byte) (kappa : Nat) : Option (List Byte) :=
  let y := expandMask p rho kappa
  let w := matVec rows (y.map (nttPoly dsaCtx))
  let ct := shake256 (mu ++ w1Bytes p (w.map (fun a => a.map (fun x => (decompose dsaQ p.gamma2 x).1)))) p.ctilde
  let c := nttPoly dsaCtx (sampleInBall p.tau ct)
  let z := vecAdd y (scaleVec c (key.s1.map (nttPoly dsaCtx)))
  let r := vecSub w (scaleVec c (key.s2.map (nttPoly dsaCtx)))
  let r0 := (r.flatMap (fun a => a.map (fun x => (decompose dsaQ p.gamma2 x).2.natAbs))).foldl max 0
  let ct0 := scaleVec c (key.t0.map (nttPoly dsaCtx))
  let h := List.zipWith (fun a b => List.zipWith (fun t x => makeHint dsaQ p.gamma2 ((dsaQ - t) % dsaQ) ((x + t) % dsaQ)) a b) ct0 r
  if p.gamma1 - p.beta ≤ infNorm z ∨ p.gamma2 - p.beta ≤ r0 ∨ p.gamma2 ≤ infNorm ct0 ∨ p.omega < (h.map List.sum).sum then none
  else some (ct ++ z.flatMap (packSigned p.maskBits p.gamma1) ++ packHints p h)

/-- The rejection loop of ML-DSA.Sign_internal: at most `fuel` attempts from attempt `n` on; answers the signature and the attempts. -/
def dsaLoop (p : DsaSet) (key : DsaKey) (rows : List (List (List Nat))) (mu rho : List Byte) : Nat → Nat → Option (List Byte × Nat)
  | 0, _ => none
  | fuel + 1, n =>
    match dsaAttempt p key rows mu rho (n * p.l) with
    | some s => some (s, n + 1)
    | none => dsaLoop p key rows mu rho fuel (n + 1)

/-- ML-DSA.Sign_internal with μ given, within a limit of attempts: the signature and the attempts run (R298 to R300). -/
def mldsaSign (ps : Nat) (sk mu rnd : List Byte) (limit : Nat) : Option (List Byte × Nat) :=
  let p := dsaSet ps
  let key := readDsaKey p sk
  dsaLoop p key (dsaMatrix p key.rho) mu (shake256 (key.k ++ rnd ++ mu) 64) limit 0

/-- ML-DSA.Verify_internal with μ given (R301). -/
def mldsaVerify (ps : Nat) (pk mu sig : List Byte) : Bool :=
  let p := dsaSet ps
  let zl := 32 * p.maskBits
  let ct := sig.take p.ctilde
  let z := (parts zl p.l (sig.drop p.ctilde)).map (unpackSigned p.maskBits p.gamma1)
  match unpackHints p (sig.drop (p.ctilde + zl * p.l)) with
  | none => false
  | some h =>
    let t1 := (parts 320 p.k (pk.drop 32)).map (fun b => nttPoly dsaCtx ((bytesPoly 10 b).map (fun x => x * 8192 % dsaQ)))
    let c := nttPoly dsaCtx (sampleInBall p.tau ct)
    let w := vecSub (matVec (dsaMatrix p (pk.take 32)) (z.map (nttPoly dsaCtx))) (scaleVec c t1)
    let w1 := List.zipWith (List.zipWith (useHint dsaQ p.gamma2)) h w
    decide (infNorm z < p.gamma1 - p.beta) && decide ((h.map List.sum).sum ≤ p.omega)
      && decide (shake256 (mu ++ w1Bytes p w1) p.ctilde = ct)

/-- The contents of a key's matrix sets (R310), polynomial by polynomial: Â by rows, and for a verify set NTT(t₁ · 2ᵈ) after it. -/
def dsaSetPolys (ps : Nat) (pk : List Byte) (verify : Bool) : List (List Nat) :=
  let p := dsaSet ps
  (dsaMatrix p (pk.take 32)).flatten
    ++ (if verify then (parts 320 p.k (pk.drop 32)).map (fun b => nttPoly dsaCtx ((bytesPoly 10 b).map (fun x => x * 8192 % dsaQ))) else [])

end Sys2Proof.Machine
end

