-- ==== Sys2Proof/Machine/Rsa.lean ====
section
/-! DEFINITION. The RSA operations as R388 to R395 take them from RFC 8017: PRESUMED from that standard (log entry 60). A private key is
the string of its two primes, its exponent following from that of the public key; which primes a seed gives is a free function. -/

namespace Sys2Proof.Machine

/-- The private exponent of two primes for e. -/
def rsaD (p q e : Nat) : Nat := (modInv ((p - 1) * (q - 1)) e).getD 0

/-- The private operation of a key of `k` bytes on a number; the public one under n ‖ e. -/
def rsaPrivateOp (k : Nat) (sk pk : List Byte) (x : Nat) : Nat :=
  let p := unBe (slice sk 0 (k / 2))
  let q := unBe (slice sk (k / 2) (k / 2))
  modExp (p * q) x (rsaD p q (unBe (slice pk k 8)))
def rsaPublicOp (k : Nat) (pk : List Byte) (x : Nat) : Nat := modExp (unBe (slice pk 0 k)) x (unBe (slice pk k 8))

/-- EMSA-PKCS1-v1_5 of a digest under hash function `h`. -/
def emsaV15 (k h : Nat) (digest : List Byte) : List Byte :=
  let t : List Byte := [0x30, BitVec.ofNat 8 (17 + digest.length), 0x30, 0x0D] ++ hashOid h ++ [0x05, 0x00, 0x04, BitVec.ofNat 8 digest.length] ++ digest
  [0x00, 0x01] ++ List.replicate (k - 3 - t.length) 0xFF ++ [0x00] ++ t

/-- MGF1 under hash function `h`, applied to a string. -/
def mgfMask (h : Nat) (seed bs : List Byte) : List Byte := xorBytes bs (mgf1 (fun m => digestOf h m 0) (hashBytes h) seed bs.length)

/-- A string with its top bit cleared. -/
def clearTop (bs : List Byte) : List Byte := match bs with | b :: r => (b &&& 0x7F) :: r | [] => []

/-- EMSA-PSS of a digest with a salt; n has 8k bits. -/
def emsaPss (k h : Nat) (digest salt : List Byte) : List Byte :=
  let hh := digestOf h (zeros 8 ++ digest ++ salt) 0
  let db := zeros (k - salt.length - hashBytes h - 2) ++ [0x01] ++ salt
  clearTop (mgfMask h hh db) ++ hh ++ [0xBC]

/-- An encoded message is the PSS encoding of a digest with some salt of the given length. -/
def pssOk (k h salt : Nat) (digest em : List Byte) : Bool :=
  let n := k - hashBytes h - 1
  let hh := slice em n (hashBytes h)
  let db := clearTop (mgfMask h hh (em.take n))
  let s := db.drop (n - salt)
  decide (em.getLastD 0 = 0xBC) && decide (hashBytes h + salt + 2 ≤ k) && decide ((em.getD 0 0).toNat < 128)
    && decide (db.take (n - salt) = zeros (n - salt - 1) ++ [0x01])
    && decide (hh = digestOf h (zeros 8 ++ digest ++ s) 0)

/-- A signature over a digest: PSS with its salt, or PKCS #1 v1.5. -/
def rsaSign (k h : Nat) (pss : Bool) (sk pk digest salt : List Byte) : List Byte :=
  be k (rsaPrivateOp k sk pk (unBe (if pss then emsaPss k h digest salt else emsaV15 k h digest)))
/-- It verifies: a signature at or above n does not (R388). -/
def rsaVerify (k h : Nat) (pss : Bool) (salt : Nat) (pk digest sig : List Byte) : Bool :=
  let em := be k (rsaPublicOp k pk (unBe sig))
  decide (unBe sig < unBe (slice pk 0 k)) && (if pss then pssOk k h salt digest em else decide (em = emsaV15 k h digest))

/-- OAEP encryption of a message with a label and a seed. -/
def oaepEncrypt (k h : Nat) (pk label m seed : List Byte) : List Byte :=
  let db := digestOf h label 0 ++ zeros (k - m.length - 2 * hashBytes h - 2) ++ [0x01] ++ m
  let mdb := mgfMask h seed db
  be k (rsaPublicOp k pk (unBe (0x00 :: (mgfMask h mdb seed ++ mdb))))

/-- The message after the zeros and the one; none where there is no one. -/
def afterOne : List Byte → Option (List Byte)
  | [] => none
  | b :: r => if b = 0 then afterOne r else if b = 1 then some r else none

/-- OAEP decryption; none for every error. -/
def oaepDecrypt (k h : Nat) (sk pk label c : List Byte) : Option (List Byte) :=
  let em := be k (rsaPrivateOp k sk pk (unBe c))
  let hl := hashBytes h
  let mdb := em.drop (hl + 1)
  let db := mgfMask h (mgfMask h mdb (slice em 1 hl)) mdb
  if em.getD 0 0 = 0 ∧ db.take hl = digestOf h label 0 then afterOne (db.drop hl) else none

end Sys2Proof.Machine
end

