-- ==== Sys2Proof/Machine/Wrap.lean ====
section
/-! DEFINITION. The wrapped formats of R454 and the checks of R455: PRESUMED from RFC 5958, RFC 8017 and SEC 1 (log entry 60), with the
algorithm identifiers and the whole of X9.143 free. -/

namespace Sys2Proof.Machine

/-- The parts of an RSA key: the two primes, and the modulus and exponent of its public part. -/
def rsaNumbers (ps : Nat) (priv pub : List Byte) : Nat × Nat × Nat × Nat :=
  let k := rsaBytes ps
  (unBe (slice priv 0 (k / 2)), unBe (slice priv (k / 2) (k / 2)), unBe (slice pub 0 k), unBe (slice pub k 8))

/-- The contents of the privateKey field (R454). -/
def oakPrivate (typ ps : Nat) (priv pub : List Byte) : List Byte :=
  if typ = 9 then
    let (p, q, n, e) := rsaNumbers ps priv pub
    let d := rsaD p q e
    derTlv 0x30 ([0, n, e, d, p, q, d % (p - 1), d % (q - 1), (modInv p q).getD 0].flatMap derNat)
  else if typ = 10 then derTlv 0x30 (derNat 1 ++ derTlv 0x04 priv) else priv

/-- The contents of the publicKey field. -/
def oakPublic (typ ps : Nat) (pub : List Byte) : List Byte :=
  if typ = 9 then derTlv 0x30 (derNat (unBe (slice pub 0 (rsaBytes ps))) ++ derNat (unBe (slice pub (rsaBytes ps) 8))) else pub

/-- A OneAsymmetricKey of version 2 with its public key. -/
def oakEncode (typ ps : Nat) (priv pub : List Byte) : List Byte :=
  derTlv 0x30 (derNat 1 ++ derTlv 0x30 (Config.algorithmId typ ps) ++ derTlv 0x04 (oakPrivate typ ps priv pub)
    ++ derTlv 0x81 (0x00 :: oakPublic typ ps pub))

/-- An element that may be missing. -/
def derSkip (tag : Byte) (bs : List Byte) : List Byte := match derGet tag bs with | some r => r.2 | none => bs

/-- The algorithm identifier and the two keys of a OneAsymmetricKey, its attributes passed over. -/
def oakParse (bs : List Byte) : Option (List Byte × List Byte × List Byte) := do
  let (body, after) ← derGet 0x30 bs
  let (version, r1) ← derGetNat body
  let (alg, r2) ← derGet 0x30 r1
  let (priv, r3) ← derGet 0x04 r2
  let (pub, r4) ← derGet 0x81 (derSkip 0xA0 r3)
  if after.isEmpty ∧ version = 1 ∧ r4.isEmpty ∧ pub.head? = some 0x00 then some (alg, priv, pub.drop 1) else none

/-- An RSA private key: its primes, where n = p · q and e · d ≡ 1 modulo λ(n), with n and e (R455). -/
def rsaImport (ps : Nat) (priv : List Byte) : Option (Option (List Byte × List Byte)) :=
  (derSeqNats 9 priv).map (fun l =>
    let k := rsaBytes ps
    let g (i : Nat) : Nat := l.getD i 0
    let lam := (g 4 - 1) * (g 5 - 1) / Nat.gcd (g 4 - 1) (g 5 - 1)
    if g 0 = 0 ∧ 1 < g 4 ∧ 1 < g 5 ∧ g 1 = g 4 * g 5 ∧ g 2 * g 3 % lam = 1 % lam ∧ g 4 < 256 ^ (k / 2) ∧ g 5 < 256 ^ (k / 2) ∧ g 2 < 2 ^ 64 then
      some (be (k / 2) (g 4) ++ be (k / 2) (g 5), be k (g 1) ++ be 8 (g 2)) else none)

/-- The private string of an ECPrivateKey, its parameters and public key passed over. -/
def ecImport (ps : Nat) (bs : List Byte) : Option (List Byte) := do
  let (body, after) ← derGet 0x30 bs
  let (version, r1) ← derGetNat body
  let (priv, r2) ← derGet 0x04 r1
  if after.isEmpty ∧ version = 1 ∧ (derSkip 0xA1 (derSkip 0xA0 r2)).isEmpty ∧ priv.length = privLen 10 ps then some priv else none

/-- A pair's private and public parts belong together (R455): the hash of a dk and the key in it, t₁ recomputed, the point of a scalar, the
public part that a private key holds. FN-DSA has no private encoding. -/
def pairOk : Nat → Nat → List Byte → List Byte → Bool
  | 1, ps, priv, pub =>
    let k := 384 * (kemSet ps).k
    decide (slice priv k (k + 32) = pub) && decide (slice priv (2 * k + 32) 32 = sha3_256 pub)
  | 2, ps, priv, pub =>
    let p := dsaSet ps
    let key := readDsaKey p priv
    decide (pub = key.rho ++ (roundVec (dsaT (dsaMatrix p key.rho) key.s1 key.s2)).1.flatMap (polyBytes 10))
  | 4, ps, priv, pub => decide (priv.drop (2 * slhN ps) = pub)
  | 7, _, priv, pub => decide (priv.take pub.length = pub)
  | 8, ps, priv, pub => decide ((mceAttempt (mceSet ps) (priv.take 32)).1 = some (priv, pub))
  | 9, ps, priv, pub =>
    let (p, q, n, _) := rsaNumbers ps priv pub
    decide (n = p * q)
  | 10, ps, priv, pub =>
    let c := curveOf ps
    decide (0 < unBe priv) && decide (unBe priv < c.n) && decide (pub = c.encode (c.mul (unBe priv) c.base))
  | 11, ps, priv, pub => decide (pub = edPub ps priv)
  | 12, ps, priv, pub => decide (pub = xPub ps priv)
  | _, _, _, _ => false

/-- The consistency of a key, a hybrid or composite one by its parts (R455). -/
def keyOk (typ ps : Nat) (priv pub : List Byte) : Bool :=
  if typ = 13 then pairOk 1 2 (priv.take 2400) (pub.take 1184) && pairOk 12 1 (priv.drop 2400) (pub.drop 1184)
  else if typ = 14 then
    let d := byPset [1, 2, 2, 3] ps
    let c := byPset [1, 1, 2, 2] ps
    let n := (pubLen 2 d).getD 0
    pairOk 2 d (priv.take (privLen 2 d)) (pub.take n) && pairOk 10 c (priv.drop (privLen 2 d)) (pub.drop n)
  else pairOk typ ps priv pub

/-- What unwrapping gives: whether the integrity check failed, the status, and the two parts. -/
structure Unwrapped where
  broken : Bool := false
  status : Nat := 0
  priv   : List Byte := []
  pub    : List Byte := []
  deriving DecidableEq, Repr

/-- The key in a OneAsymmetricKey, with the checks of R455 in their order. -/
def oakImport (typ ps : Nat) (bs : List Byte) : Unwrapped :=
  match oakParse bs with
  | none => { status := 0x0030 }
  | some (alg, priv, pub) =>
    if alg ≠ Config.algorithmId typ ps then { status := 0x0023 }
    else if typ = 9 then
      (match rsaImport ps priv with
        | some (some (sk, pk)) => if pub = oakPublic 9 ps pk then { priv := sk, pub := pk } else { status := 0x0030 }
        | _ => { status := 0x0030 })
    else
      (match (if typ = 10 then ecImport ps priv else some priv) with
        | some sk => if sk.length = privLen typ ps ∧ some pub.length = pubLen typ ps ∧ keyOk typ ps sk pub then { priv := sk, pub := pub } else { status := 0x0030 }
        | none => { status := 0x0030 })

/-- The private encoding in a OneAsymmetricKey, without the checks of an import. -/
def oakPriv (typ ps : Nat) (bs : List Byte) : List Byte :=
  match oakParse bs with
  | none => []
  | some (_, priv, _) =>
    if typ = 9 then (match rsaImport ps priv with | some (some (sk, _)) => sk | _ => [])
    else if typ = 10 then (ecImport ps priv).getD []
    else priv

/-- Raw key bytes of the length that the type asks for: an AES key's by its set, a secret of 16 to 64 bytes, an HMAC key of any length
(R454, R460). -/
def rawImport (typ ps : Nat) (bs : List Byte) : Unwrapped :=
  if (match typ with | 16 => decide (bs ≠ []) | 17 => decide (bs.length = byPset [16, 24, 32] ps) | _ => decide (16 ≤ bs.length ∧ bs.length ≤ 64)) then
    { priv := bs } else { status := 0x0030 }

/-- Exportability in the header of an X9.143 block, and the character for a key that may not leave. -/
def x9143NoExport (c : List Byte) : Bool := decide (c.getD 11 0 = 0x4E)

/-- A wrapped key of a format opened under a wrapping key (R454, R455). -/
def unwrapKey (format : Nat) (kek : List Byte) (typ ps usage : Nat) (c : List Byte) : Unwrapped :=
  if format = 3 then
    let st := Config.x9143Status kek typ ps usage c
    let sk := Config.x9143Priv kek typ ps c
    let pk := if typ < 16 then fit ((pubLen typ ps).getD 64) (Config.x9143Pub kek typ ps c) else []
    let raw := rawImport typ ps sk
    if st = 0x0023 ∨ st = 0x0024 then { status := st }
    else if st ≠ 0 then { broken := true, status := 0x0030 }
    else if 16 ≤ typ ∧ raw.status ≠ 0 then raw
    else if typ < 16 ∧ !keyOk typ ps (fit (privLen typ ps) sk) pk then { status := 0x0030 }
    else if x9143NoExport c ∧ usage / 2 ^ 12 % 4 ≠ 0 then { status := 0x0024 }
    else { priv := if typ < 16 then fit (privLen typ ps) sk else sk, pub := pk }
  else match kwpOpen kek c with
    | none => { broken := true, status := 0x0030 }
    | some bs => if format = 1 then oakImport typ ps bs else rawImport typ ps bs

/-- A key wrapped in a format under a wrapping key (R454). -/
def wrapKey (format : Nat) (kek : List Byte) (typ ps usage : Nat) (priv pub : List Byte) : List Byte :=
  if format = 1 then kwpSeal kek (oakEncode typ ps priv pub)
  else if format = 2 then kwpSeal kek priv
  else Config.x9143Seal kek typ ps usage priv pub

end Sys2Proof.Machine
end

