-- ==== Sys2Proof/Machine/Keys.lean ====
section
/-! DEFINITION. KST at the admission edge: which key a command takes (R283, R318, R391, R398, R451, R463), the order of
the key checks (R739), policy (R294, R299, R331, R456, R464), room in the tiers (R440, R444 to R446), index assignment
(R440), leaf assignment (R343 to R346) and key objects created by a job. -/

namespace Sys2Proof.Machine

/-- What a command needs of the key its handle names: key types (none listed: any), one of the usage bits of a mask
(0: none), a private part, and whether the key's set must equal `PSET`. -/
structure KeyRule where
  required : Bool
  types    : List Nat
  usage    : Nat := 0
  priv     : Bool := false
  matchSet : Bool := true
  deriving DecidableEq, Repr

/-- The key rule of an opcode; none where the handle is ignored. -/
def keyRule (op : Nat) (keyed : Bool) : Option KeyRule :=
  match op with
  | 0x0201 => some { required := false, types := [1], usage := 0x004 }
  | 0x0202 => some { required := true, types := [1], usage := 0x004, priv := true }
  | 0x0211 => some { required := true, types := [2], usage := 0x001, priv := true }
  | 0x0213 => some { required := true, types := [2], usage := 0x001, priv := true }
  | 0x0212 => some { required := false, types := [2], usage := 0x002 }
  | 0x0214 => some { required := false, types := [2], usage := 0x002 }
  | 0x0220 => some { required := false, types := [3], usage := 0x002 }
  | 0x0230 => some { required := true, types := [2], usage := 0x003 }
  | 0x0301 => some { required := true, types := [4], usage := 0x001, priv := true }
  | 0x0303 => some { required := true, types := [4], usage := 0x001, priv := true }
  | 0x0302 => some { required := false, types := [4], usage := 0x002 }
  | 0x0304 => some { required := false, types := [4], usage := 0x002 }
  | 0x0311 => some { required := true, types := [5], usage := 0x001, priv := true, matchSet := false }
  | 0x0312 => some { required := false, types := [5], usage := 0x002, matchSet := false }
  | 0x0319 => some { required := true, types := [6], usage := 0x001, priv := true, matchSet := false }
  | 0x031A => some { required := false, types := [6], usage := 0x002, matchSet := false }
  | 0x0320 => some { required := true, types := [5, 6], priv := true, matchSet := false }
  | 0x0321 => some { required := true, types := [5, 6], priv := true, matchSet := false }
  | 0x0401 => some { required := false, types := [7], usage := 0x004 }
  | 0x0402 => some { required := true, types := [7], usage := 0x004, priv := true }
  | 0x0411 => some { required := false, types := [8], usage := 0x004 }
  | 0x0412 => some { required := true, types := [8], usage := 0x004, priv := true }
  | 0x0418 => some { required := true, types := [8], usage := 0x004 }
  | 0x0419 => some { required := true, types := [8] }
  | 0x0501 => some { required := true, types := [9], usage := 0x001, priv := true }
  | 0x0502 => some { required := false, types := [9], usage := 0x002 }
  | 0x0503 => some { required := false, types := [9], usage := 0x020 }
  | 0x0504 => some { required := true, types := [9], usage := 0x010, priv := true }
  | 0x0511 => some { required := true, types := [10], usage := 0x001, priv := true }
  | 0x0512 => some { required := false, types := [10], usage := 0x002 }
  | 0x0513 => some { required := true, types := [10], usage := 0x008, priv := true }
  | 0x0521 => some { required := true, types := [11], usage := 0x001, priv := true }
  | 0x0522 => some { required := false, types := [11], usage := 0x002 }
  | 0x0531 => some { required := true, types := [12], usage := 0x008, priv := true }
  | 0x0601 => some { required := false, types := [13], usage := 0x004 }
  | 0x0602 => some { required := true, types := [13], usage := 0x004, priv := true }
  | 0x0611 => some { required := true, types := [14], usage := 0x001, priv := true }
  | 0x0612 => some { required := false, types := [14], usage := 0x002 }
  | 0x0100 => some { required := true, types := [17], usage := 0x100, priv := true, matchSet := false }
  | 0x0101 => some { required := true, types := [], priv := true, matchSet := false }
  | 0x0103 => some { required := true, types := [1, 2, 3, 4, 5, 6, 7, 8, 9, 10, 11, 12, 13, 14], matchSet := false }
  | 0x0104 => some { required := true, types := [], matchSet := false }
  | 0x0105 => some { required := true, types := [], matchSet := false }
  | 0x0106 => some { required := true, types := [], matchSet := false }
  | 0x0107 => some { required := true, types := [], matchSet := false }
  | 0x0700 => some { required := true, types := [16], usage := 0x400, priv := true, matchSet := false }
  | 0x0701 => some { required := true, types := [], usage := 0x040, priv := true, matchSet := false }
  | 0x0702 => some { required := true, types := [], usage := 0x040, priv := true, matchSet := false }
  | 0x0900 => if keyed then some { required := true, types := [], usage := 0x800, priv := true, matchSet := false } else none
  | _ => none

/-- The type a command creates, with its parameter set; none where it creates no key object. -/
def createsType (op : Nat) (p : List Byte) : Option (Nat × Nat) :=
  match op with
  | 0x0200 => some (1, p8 p 0) | 0x0210 => some (2, p8 p 0) | 0x0300 => some (4, p8 p 0) | 0x0310 => some (5, p8 p 0)
  | 0x0318 => some (6, p8 p 0) | 0x0400 => some (7, p8 p 0) | 0x0410 => some (8, p8 p 0) | 0x0500 => some (9, p8 p 0)
  | 0x0510 => some (10, p8 p 0) | 0x0520 => some (11, p8 p 0) | 0x0530 => some (12, p8 p 0) | 0x0600 => some (13, p8 p 0)
  | 0x0610 => some (14, p8 p 0)
  | 0x0100 => some (p8 p 0, p8 p 1) | 0x0102 => some (p8 p 0, p8 p 1) | 0x0108 => some (p8 p 0, p8 p 1)
  | 0x0701 => some (p8 p 0, p8 p 1) | 0x0702 => some (p8 p 0, p8 p 1)
  | _ => if ssStore op p then some (18, 0) else none

/-- Words of the usage word. -/
def usagePersist (u : W32) : Bool := bit u 19
def usageExport (u : W32) : Nat := bits u 13 12
def usageNoK (u : W32) : Bool := bit u 14
def usageNoDet (u : W32) : Bool := bit u 15
def usageCache (u : W32) : Bool := bit u 16

/-- A pattern entry's container is KEYED (R274). -/
def State.patKeyed (s : State) (j : Job) : Bool :=
  match s.patFind j.fn (p16 (j.e.par j.ver) 0) with
  | some x => decide (field x.container 5 1 % 2 = 1)
  | none => false

/-- The key rule of a job. -/
def State.jobRule (s : State) (j : Job) : Option KeyRule := keyRule j.opcode (s.patKeyed j)

/-- The job names a key, creates one or reads one: it needs KST OPEN (R450). -/
def State.needsKst (s : State) (j : Job) : Bool :=
  (match s.jobRule j with | some r => r.required || decide (j.e.keyHandle ≠ 0) | none => false)
    || (createsType j.opcode (j.e.par j.ver)).isSome

/-- The domain of a handle (R438). -/
def handleDomain (h : W32) : Nat := bits h 31 24

/-- The key's set matches the command's `PSET` (R285, R322, R393): HMAC commands take the SHA-2 keys, wrapping takes
AES-256. -/
def setMatches (op : Nat) (r : KeyRule) (k : KeyObj) (p : List Byte) : Bool :=
  if op = 0x0100 then decide (k.pset = 3)
  else if op = 0x0700 then decide (k.pset ≤ 3)
  else !r.matchSet || decide (k.pset = p8 p 0)

/-- Deterministic signing is asked for (R299, R333, R394). -/
def deterministic (op : Nat) (p : List Byte) : Bool :=
  [0x0211, 0x0213, 0x0301, 0x0303, 0x0511, 0x0611].contains op && decide (p8 p 2 / 4 % 2 = 1)

/-- Private-key commands that output a shared secret (R294, R355, R394, R398). -/
def releasesSecret (op : Nat) (p : List Byte) : Bool :=
  [0x0202, 0x0402, 0x0412, 0x0513, 0x0531, 0x0602].contains op && !ssStore op p

/-- `KEY_EXPORT` formats by type (R454). -/
def formatFits (f typ : Nat) : Bool :=
  match f with
  | 1 => decide (typ < 16)
  | 2 => decide (16 ≤ typ)
  | _ => [9, 10, 16, 17].contains typ

/-- The policy of `KEY_EXPORT` (R456). -/
def State.exportAllowed (s : State) (j : Job) (k : KeyObj) : Bool :=
  let w := BitVec.ofNat 32 (p32 (j.e.par j.ver) 8)
  decide (usageExport k.usage = 1) && decide (handleDomain w = j.fn) &&
    (match s.getKey w with
      | some x => !x.deleted && !x.consumed && decide (x.typ = 17 ∧ x.pset = 3) && bit x.usage 7 && decide (usageExport x.usage ≤ usageExport k.usage)
      | none => false)

/-- The binding that lets a KEYED pattern use a key (R279, R459). -/
def State.bindingOk (s : State) (j : Job) (k : KeyObj) : Bool :=
  match s.patFind j.fn (p16 (j.e.par j.ver) 0) with
  | some x => k.bindings.any (fun b => decide (b.1 = x.digest) && (b.2 || decide (field x.container 5 1 / 2 % 2 = 0)))
  | none => false

/-- A stateful key's hash is SHAKE256. -/
def statefulShake (k : KeyObj) : Bool :=
  match k.st with | some st => (statefulCost k.typ st k).1 | none => false

/-- A hash-based key whose set is a SHA-2 one: it carries order 0, and `ORDER` must be 0 for it (R331). -/
def sha2Key (k : KeyObj) : Bool := (decide (k.typ = 4) && !slhShake k.pset) || ((decide (k.typ = 5) || decide (k.typ = 6)) && !statefulShake k)

/-- Policy and binding checks of a command (R739 step 7), with the parameter rule of R331 that depends on the key. -/
def State.policyStatus (s : State) (j : Job) (k : KeyObj) : Option Nat :=
  let op := j.opcode
  let p := j.e.par j.ver
  if deterministic op p && usageNoDet k.usage then some 0x0024
  else if releasesSecret op p && usageNoK k.usage then some 0x0024
  else if statefulSign op && decide (p8 p 1 ≠ 0) && sha2Key k then some 0x0014
  else if op = 0x0106 ∧ p8 p 2 ≠ 0 ∧ sha2Key k = true then some 0x0014
  else if op = 0x0101 ∧ !formatFits (p8 p 3) k.typ then some 0x0014
  else if op = 0x0101 ∧ !s.exportAllowed j k then some 0x0024
  else if (op = 0x0701 ∨ op = 0x0702) ∧ usageExport k.usage < usageExport (BitVec.ofNat 32 (p32 p 4)) then some 0x0024
  else if op = 0x0900 ∧ !s.bindingOk j k then some 0x00B2
  else none

/-- The key checks of R739 in their order: the status, and `DETAIL` for a DAMAGED object (R740). -/
def State.keyStatus (s : State) (j : Job) (r : KeyRule) : Option (Nat × Nat) :=
  let op := j.opcode
  let p := j.e.par j.ver
  let h := j.e.keyHandle
  if h = 0 then (if r.required then some (0x0020, 0) else none)
  else if j.cluster.isNone ∧ handleDomain h ≠ j.fn then some (0x0021, 0)
  else match s.jobKey j with
    | none => some (0x0020, 0)
    | some k =>
      if k.deleted ∨ (k.consumed ∧ op ≠ 0x0201 ∧ op ≠ 0x0401 ∧ op ≠ 0x0411 ∧ op ≠ 0x0601) then some (0x0020, 0)
      else if k.damaged ∧ op ≠ 0x0104 ∧ op ≠ 0x0105 then some (0x0050, 0x3200)
      else if (r.types ≠ [] ∧ !r.types.contains k.typ) ∨ !setMatches op r k p ∨ (r.priv ∧ k.publicOnly)
          ∨ (op = 0x0101 ∧ (k.typ = 5 ∨ k.typ = 6)) then some (0x0023, 0)
      else if r.usage ≠ 0 ∧ r.usage &&& k.usage.toNat = 0 then some (0x0022, 0)
      else (s.policyStatus j k).map (fun st => (st, 0))

/-- KST's counter of a key status (R471). -/
def keyCounter (st : Nat) : Option Nat :=
  if st = 0x0020 then some 16 else if st = 0x0021 then some 15 else if st = 0x0022 then some 14
  else if st = 0x0024 then some 13 else if st = 0x0025 then some 17 else none

/-- A key status is counted. -/
def State.countStatus (s : State) (st : Nat) : State :=
  match keyCounter st with | some i => s.kstCount i 1 | none => s

/-- The output length that KST checks at admission (R323, R737). -/
def State.outNeedKey (s : State) (j : Job) (k : KeyObj) : Option Nat :=
  match j.opcode with
  | 0x0103 => some k.pub.length
  | 0x0101 => some (wrapKey (p8 (j.e.par j.ver) 3)
      (match s.getKey (BitVec.ofNat 32 (p32 (j.e.par j.ver) 8)) with | some w => w.priv | none => []) k.typ k.pset k.usage.toNat
      k.priv k.pub).length
  | 0x0700 => some (phLen k.pset)
  | 0x0311 => (k.st.bind (·.levels.head?)).map (fun l =>
      hssSigLen l.lms l.ots (match k.st with | some st => st.levels.length | none => 1))
  | 0x0319 => (k.st.bind (·.levels.head?)).map (fun l => xmssSigLen (decide (k.pset = 2)) l.lms)
  | _ => none

-- Room in the tiers.

/-- Round up to 64 bytes. -/
def up64 (n : Nat) : Nat := ceilDiv n 64 * 64

/-- Bytes of an object in the key cache (R444); a McEliece public key is read from the DRAM tier or a pin. -/
def cacheSize (k : KeyObj) : Nat := up64 ((k.order + 1) * k.priv.length) + (if k.typ = 8 then 0 else up64 k.pub.length)

/-- Bytes of an object's record. -/
def recordSize (k : KeyObj) : Nat := k.priv.length + k.pub.length

/-- Bytes in use of the cache, the DRAM tier and the object area. -/
def State.cacheUsed (s : State) : Nat := s.kst.objs.foldl (fun n p => if p.2.inCache then n + cacheSize p.2 else n) 0
def State.cacheHeld (s : State) : Nat :=
  s.kst.objs.foldl (fun n p => if p.2.inCache ∧ p.2.holders ≠ [] then n + cacheSize p.2 else n) 0
def State.dramUsed (s : State) : Nat := s.kst.objs.foldl (fun n p => if p.2.inDram then n + recordSize p.2 else n) 0
def State.flashUsed (s : State) : Nat := s.kst.objs.foldl (fun n p => if p.2.inFlash then n + recordSize p.2 else n) 0

/-- The key cache: 32 MiB less the rows Darning has removed (R444, R567). -/
def cacheCapacity : Nat := 33554432

/-- Evict the least recently used keys that are not held until `n` bytes fit (R446); none where they cannot. -/
def State.makeRoom : Nat → State → Nat → Option State
  | 0, _, _ => none
  | fuel + 1, s, n =>
    if s.cacheUsed + n ≤ cacheCapacity then some s
    else
      let c := s.kst.objs.filter (fun p => p.2.inCache && p.2.holders.isEmpty)
      match c with
      | [] => none
      | x :: xs =>
        let v := xs.foldl (fun m p => if p.2.lastUse < m.2.lastUse then p else m) x
        let s1 : State := { s with kst := { s.kst with objs := KV.set s.kst.objs v.1 { v.2 with inCache := false } } }
        State.makeRoom fuel ((s1.kstCount 4 1).event 0x32 4 none 1) n

/-- Copies of persistent objects leave the DRAM tier, oldest use first, until `n` bytes fit (R446). -/
def State.makeDram : Nat → State → Nat → Option State
  | 0, _, _ => none
  | fuel + 1, s, n =>
    if s.dramUsed + n ≤ s.kst.dramGib * 1073741824 then some s
    else
      match s.kst.objs.filter (fun p => p.2.inDram && p.2.inFlash && p.2.holders.isEmpty) with
      | [] => none
      | x :: xs =>
        let v := xs.foldl (fun m p => if p.2.lastUse < m.2.lastUse then p else m) x
        State.makeDram fuel { s with kst := { s.kst with objs := KV.set s.kst.objs v.1 { v.2 with inDram := false } } } n

/-- Where KST finds a key at the admission edge, in extra ticks before the first segment (R445). -/
def State.fetchTicks (s : State) (k : KeyObj) : Nat :=
  if k.inCache || k.inDram then 0 else ceilDiv 150 s.trd.period

/-- KST writes a record into the DRAM tier under a fresh nonce (R430, R444). -/
def State.dramNonce (s : State) : State := (s.drawInt 12).2

/-- KST sends a key over the key path as d + 1 shares with fresh masks (R16, R448). -/
def State.sendKey (s : State) (d : Nat) (priv : List Byte) : List (List Byte) × State :=
  let r := if d = 0 then ([], s) else s.drawInt (d * priv.length)
  let masks := parts priv.length d r.1
  (masks.foldl xorBytes priv :: masks, r.2.kstCount 5 1)

/-- Room for a new object's record and its cache copy, and whether the cache had it (R444, R446). -/
def State.keyRoom (s : State) (k : KeyObj) : State × Bool :=
  let n := s.kst.objs.length + 1
  let s1 := match State.makeDram n s (recordSize k) with | some u => u | none => s
  match State.makeRoom n s1 (cacheSize k) with | some u => (u, true) | none => (s1, false)

/-- A key record fails its tag in a fetch for a job (R473, R740). -/
def State.recordAuth (s : State) (id : Nat) : State := s.raise (s.jobEvent 0x3200 (some id) 0 0)

/-- The job whose fetch damages its object completes POISONED at its release edge (R740). -/
def State.recordLost (s : State) (id : Nat) : State :=
  (s.kstCount 30 1).modJob id (fun j => { j with failed := some (0x0050, 0x3200) })

/-- A record is read from flash (R444, R445): its pages are read, and a record that fails its tag leaves no good copy (R569). -/
def State.flashFetch (s : State) (id : Nat) (k : KeyObj) : State :=
  let s1 := ((s.kstCount 3 1).event 0x32 3 (some (s.getJob id).fn) 1)
  let n := ceilDiv (recordSize k) 4096
  let s2 := (((s1.flsCount 0 n).flsBusy).event 0x41 1 none n)
  if k.flashBad then (s2.recordAuth id).recordLost id else s2

/-- What the read of a key's record meets in the cache or the DRAM (R558). -/
def State.meetKeyError (s : State) (h : W32) : State :=
  match s.getKey h with
  | none => s
  | some k => if k.inCache then s.meetCacheError h else if k.inDram then s.meetDramError h else s

/-- A key is held in the cache for a job (R445), its record coming from the tier that has it (R740): none where the cache cannot make room. -/
def State.holdKey (s0 : State) (id : Nat) (h : W32) : Option State :=
  let s := s0.meetKeyError h
  match s.getKey h with
  | none => some s
  | some k =>
    let held (t : State) (x : KeyObj) : State :=
      let u := (t.setKey h { x with inCache := true, holders := x.holders ++ [id], lastUse := s.trd.edge }).modJob id (fun j => { j with heldKey := some h })
      if x.inCache then u else u.injectKey 24 h
    if k.inCache then some (held ((s.kstCount 0 1).event 0x32 1 (some (s.getJob id).fn) 1) k)
    else
      match State.makeRoom (s.kst.objs.length + 1) s (cacheSize k) with
      | none => none
      | some t =>
        let t1 := (t.kstCount 1 1).event 0x32 2 (some (s.getJob id).fn) 1
        if k.inDram ∧ ¬k.dramBad then some (held (t1.kstCount 2 1) k)
        else
          let t2 := if k.inDram then ((t1.kstCount 2 1).recordAuth id)
            else match State.makeDram (s.kst.objs.length + 1) t1 (recordSize k) with | some u => u | none => t1
          some (if k.inFlash then held (t2.flashFetch id k).dramNonce { k with inDram := true, dramBad := false, damaged := k.damaged || k.flashBad }
            else held (t2.recordLost id) { k with damaged := true })

-- Creation.

/-- Objects of a domain. -/
def State.domainCount (s : State) (d : Nat) : Nat := (s.kst.objs.filter (fun p => decide (p.1 / 16777216 = d))).length

/-- The handles that jobs have been given and whose objects do not exist yet. -/
def State.promised (s : State) : List Nat := s.jobs.filterMap (fun p => if p.2.finished then none else p.2.created.map (·.toNat))

/-- The lowest free index above the one assigned last, from 1 again after the last (R440). -/
def State.freeIndex (s : State) (d : Nat) : Nat → Nat → Option Nat
  | 0, _ => none
  | fuel + 1, last =>
    let i := if 0xFFFFFF ≤ last then 1 else last + 1
    if (KV.get? s.kst.objs (d * 16777216 + i)).isNone && !s.promised.contains (d * 16777216 + i) then some i
    else State.freeIndex s d fuel i

/-- Bytes an object of a command takes, before it exists. -/
def newSize (j : Job) (typ pset : Nat) : Nat :=
  if j.opcode = 0x0100 then j.e.inLen
  else if j.opcode = 0x0102 then j.e.inLen
  else privLen typ pset + (pubLen typ pset).getD 64

/-- The key limit of a domain: the function's (R440). -/
def State.keyLimitOf (s : State) (fn : Nat) : Nat := (s.getFn fn).keyLimit

/-- A creation finds no room (R440): domain limit, module limit, or the tier that must hold the object. -/
def State.storeFull (s : State) (j : Job) (typ pset : Nat) : Bool :=
  let n := newSize j typ pset
  let pr := (s.promised.filter (fun h => decide (h / 16777216 = j.fn) && (KV.get? s.kst.objs h).isNone)).length
  decide (s.keyLimitOf j.fn ≤ s.domainCount j.fn + pr) || decide (16777216 ≤ s.kst.objs.length)
    || (State.makeDram (s.kst.objs.length + 1) s n).isNone
    || (usagePersist (BitVec.ofNat 32 (p32 (j.e.par j.ver) 4)) && decide (12884901888 < s.flashUsed + n))

/-- KST assigns the index of a new object to a job at its admission edge. -/
def State.assignIndex (s : State) (id : Nat) (j : Job) : Option State :=
  match s.freeIndex j.fn (s.kst.objs.length + s.jobs.length + 2) (KV.getD s.kst.lastIdx j.fn 0) with
  | none => none
  | some i =>
    some (({ s with kst := { s.kst with lastIdx := KV.set s.kst.lastIdx j.fn i } } : State).setJob id
      { j with created := some (BitVec.ofNat 32 (j.fn * 16777216 + i)) })

/-- KST creates the object of a job (R290, R294, R444): a volatile one at once, a persistent one with a CREATE record whose
durability puts it into the flash tier (R453, R467). -/
def State.createKey (s : State) (id : Nat) (h : W32) (k : KeyObj) : State :=
  let serial := s.kst.nextSerial
  let r := s.dramNonce.keyRoom k
  let s := r.1
  let k1 := { k with created := s.trd.edge, serial := serial, inCache := r.2, inDram := true, inFlash := false, lastUse := s.trd.edge }
  let s1 : State := { s with kst := { s.kst with nextSerial := serial + 1 } }
  let s2 := ((s1.setKey h k1).kstCount 6 1).injectKey 51 h
  let s2 := if r.2 then s2.injectKey 24 h else s2
  if usagePersist k.usage then
    s2.journal { typ := 6, handle := h, a := serial, b := serial, obj := none, job := some id, issued := s.trd.edge }
  else s2

/-- The object of a key pair. -/
def pairObj (typ pset order usage : Nat) (priv pub : List Byte) : KeyObj :=
  { typ := typ, pset := pset, order := order, usage := BitVec.ofNat 32 usage, priv := priv, pub := pub, pair := true }

-- Stateful keys.

/-- Every level holds the current tree of the next leaf, or its successor is built (R340, R345), and a key without CACHE_TREES has its
traversal state there (R338). A worker signs from its grants alone (R353). -/
def offersLeaf (st : Stateful) : Bool :=
  st.worker || ((st.cacheTrees || decide (st.traversal = some st.next)) && st.levels.zipIdx.all (fun p =>
    let t := st.next / levelSpan st.levels p.2
    (decide (t = p.1.cur) && p.1.curBuilt) || (decide (t = p.1.cur + 1) && p.1.nextBuilt)))

/-- A leaf is at hand (R343, R345). -/
def hasLeaf (st : Stateful) : Bool := !st.stopped && decide (st.next < st.durable) && offersLeaf st

/-- The levels once leaf `n` is assigned: a level whose tree has changed takes its successor into use, and the previous tree goes once
half the leaves of the current one are assigned (R339, R340). -/
def advanceLevels (ls : List TreeLevel) (n : Nat) : List TreeLevel :=
  ls.zipIdx.map (fun p =>
    let span := levelSpan ls p.2
    let t := n / span
    let l := p.1
    let assigned := n % span / levelSpan ls (p.2 + 1) + 1
    if t = l.cur then { l with prevHeld := l.prevHeld && decide (2 * assigned < 2 ^ l.height) }
    else if t = l.cur + 1 then { l with cur := t, curBuilt := l.nextBuilt, nextBuilt := false, prevHeld := l.curBuilt && decide (2 * assigned < 2 ^ l.height) }
    else { l with cur := t, curBuilt := false, nextBuilt := false, prevHeld := false })

/-- The key once leaves up to `n`, its next one, are out (R338, R340). -/
def Stateful.goTo (st : Stateful) (n : Nat) : Stateful :=
  { st with
    next := n, traversal := if st.cacheTrees then none else some n,
    levels := if n = 0 then st.levels else advanceLevels st.levels (n - 1) }

/-- Bytes of a tree in the tree cache (R339): its key's type and parameter set. -/
def treeBytes (typ pset : Nat) (l : TreeLevel) : Nat :=
  let n := if typ = 6 then (match xmssSet (decide (pset = 2)) l.lms with | some (_, n, _, _) => n | none => 32)
    else match lmsSet l.lms with | some (_, n, _) => n | none => 32
  2 ^ (l.height + 1) * n

/-- Bytes of the tree cache that a key's trees take. -/
def keyTrees (k : KeyObj) : Nat :=
  match k.st with
  | some st => if st.cacheTrees then
      (st.levels.map (fun l => treeBytes k.typ k.pset l * (b2n l.curBuilt + b2n l.nextBuilt + b2n l.prevHeld))).sum else 0
  | none => 0

/-- Bytes of the tree cache in use, the trees being built among them (R339). -/
def State.treeCacheUsed (s : State) : Nat :=
  s.kst.objs.foldl (fun n p => n + keyTrees p.2) 0 + (s.trd.builds.map (fun b => b.bytes)).sum

/-- Leaf builds of one tree. -/
def treeCost (typ : Nat) (l : TreeLevel) : Nat := 2 ^ l.height * leafCost typ l

/-- The build of tree `t` of a level. -/
def newBuild (h : W32) (k : KeyObj) (cached : Bool) (i t : Nat) (l : TreeLevel) : TreeBuild :=
  { key := h, level := i, tree := t, left := treeCost k.typ l, bytes := if cached then treeBytes k.typ k.pset l else 0 }

/-- The current tree of level `i` is its last. -/
def lastTree (st : Stateful) (i : Nat) (l : TreeLevel) : Bool := decide (i = 0) || decide (st.keyEnd ≤ (l.cur + 1) * levelSpan st.levels i)

/-- The trees a key still needs (R340, R341): a level's current tree where it is missing, else its next tree, unless there is none. -/
def treesWanted (h : W32) (k : KeyObj) (st : Stateful) : List TreeBuild :=
  st.levels.zipIdx.filterMap (fun p =>
    let l := p.1
    if !l.curBuilt then some (newBuild h k st.cacheTrees p.2 l.cur l)
    else if !l.nextBuilt && !lastTree st p.2 l then some (newBuild h k st.cacheTrees p.2 (l.cur + 1) l) else none)

/-- A build joins the pending ones if it is not among them and the tree cache has room for it (R339). Answers whether it had none. -/
def State.addBuild (acc : State × Bool) (b : TreeBuild) : State × Bool :=
  let s := acc.1
  if s.trd.builds.any (fun x => decide (x.key = b.key ∧ x.level = b.level ∧ x.tree = b.tree)) then acc
  else if b.bytes ≠ 0 ∧ 4294967296 < s.treeCacheUsed + b.bytes then (s, true)
  else ({ s with trd := { s.trd with builds := s.trd.builds ++ [b] } }, acc.2)

/-- The builds a key needs are started, as soon as a tree is taken into use (R340, R341); a build of a tree that the key has passed ends. -/
def State.addBuilds (s : State) (h : W32) (k : KeyObj) (st : Stateful) : State × Bool :=
  let passed (b : TreeBuild) : Bool := decide (b.key = h) && st.levels.zipIdx.any (fun p => decide (p.2 = b.level) && decide (b.tree < p.1.cur))
  (if st.worker then [] else treesWanted h k st).foldl State.addBuild
    ({ s with trd := { s.trd with builds := s.trd.builds.filter (fun b => !passed b) } }, false)

/-- A build that the tree cache has no room for ends `KEY_STORE_FULL` (R339); the edge tries it again (log entry 61). -/
def State.startBuilds (s : State) (h : W32) (k : KeyObj) (st : Stateful) : State :=
  let r := s.addBuilds h k st
  if r.2 then (r.1.cause 0x32 0).countStatus 0x0025 else r.1

/-- The tree of a level is finished, the current one or the next (R340). -/
def builtLevel (ls : List TreeLevel) (i t : Nat) : List TreeLevel :=
  ls.zipIdx.map (fun p => if p.2 ≠ i then p.1 else if t = p.1.cur then { p.1 with curBuilt := true }
    else if t = p.1.cur + 1 then { p.1 with nextBuilt := true } else p.1)

/-- A leaf is assigned to a job at its admission edge (R38, R343); a tree taken into use starts the build of the next (R340). -/
def State.assignLeaf (s : State) (id : Nat) (h : W32) (k : KeyObj) (st : Stateful) : State :=
  let st1 := st.goTo (st.next + 1)
  let s1 := (s.setKey h { k with st := some st1 }).modJob id (fun j => { j with leaf := some st.next })
  let moved := decide (st1.levels.map (·.cur) ≠ st.levels.map (·.cur))
  ((((if moved then s1.startBuilds h k st1 else s1).reserveLeaves h).kstCount 19 1)).event 0x32 5 (some (s.getJob id).fn) 1

/-- The tree that holds a leaf's path is held at every level (R348). -/
def regenerable (k : KeyObj) (leaf : Nat) : Bool :=
  match k.st with
  | none => false
  | some st => st.cacheTrees && st.levels.zipIdx.all (fun p =>
      let t := leaf / levelSpan st.levels p.2
      (decide (t = p.1.cur) && p.1.curBuilt) || (decide (t + 1 = p.1.cur) && p.1.prevHeld))

end Sys2Proof.Machine
end

