-- ==== Sys2Proof/Machine/SlhDsa.lean ====
section
/-! DEFINITION. SLH-DSA as R332 to R334 take it from FIPS 205: PRESUMED from that standard (log entry 60). -/

namespace Sys2Proof.Machine

/-- What a parameter set fixes: hash, n, tree layers and their height, FORS height and trees. -/
structure SlhSet where
  shake : Bool
  n     : Nat
  d     : Nat
  h     : Nat
  a     : Nat
  k     : Nat

/-- The sets by PSET (R322). -/
def slhSet (ps : Nat) : SlhSet :=
  let shake := decide ((ps - 1) % 4 ≥ 2)
  match (ps - 1) / 4 * 2 + (ps - 1) % 2 with
  | 0 => { shake := shake, n := 16, d := 7, h := 9, a := 12, k := 14 }
  | 1 => { shake := shake, n := 16, d := 22, h := 3, a := 6, k := 33 }
  | 2 => { shake := shake, n := 24, d := 7, h := 9, a := 14, k := 17 }
  | 3 => { shake := shake, n := 24, d := 22, h := 3, a := 8, k := 33 }
  | 4 => { shake := shake, n := 32, d := 8, h := 8, a := 14, k := 22 }
  | _ => { shake := shake, n := 32, d := 17, h := 4, a := 9, k := 35 }

/-- An address: layer, tree, type and the three words after the type. -/
structure SlhAdrs where
  layer : Nat := 0
  tree  : Nat := 0
  typ   : Nat := 0
  key   : Nat := 0
  level : Nat := 0
  index : Nat := 0

/-- The 32 bytes of an address for SHAKE, and the 22 for SHA-2. -/
def SlhAdrs.bytes (a : SlhAdrs) (shake : Bool) : List Byte :=
  let tail := be 4 a.key ++ be 4 a.level ++ be 4 a.index
  if shake then be 4 a.layer ++ be 12 a.tree ++ be 4 a.typ ++ tail else be 1 a.layer ++ be 8 a.tree ++ be 1 a.typ ++ tail

/-- The types of an address. -/
def adrsWots : Nat := 0
def adrsWotsPk : Nat := 1
def adrsTree : Nat := 2
def adrsFors : Nat := 3
def adrsForsRoots : Nat := 4
def adrsWotsPrf : Nat := 5
def adrsForsPrf : Nat := 6

/-- A set with the public seed of a key: what every hash of a tree takes. -/
structure SlhCtx where
  p    : SlhSet
  seed : List Byte

/-- A tweakable hash under the 512-bit or 256-bit SHA-2 function, or SHAKE256. -/
def SlhCtx.tweak (c : SlhCtx) (wide : Bool) (a : SlhAdrs) (m : List Byte) : List Byte :=
  let x := a.bytes c.p.shake ++ m
  if c.p.shake then shake256 (c.seed ++ x) c.p.n
  else if wide && decide (16 < c.p.n) then (sha512 (c.seed ++ zeros (128 - c.p.n) ++ x)).take c.p.n
  else (sha256 (c.seed ++ zeros (64 - c.p.n) ++ x)).take c.p.n

/-- F and PRF; H and T. -/
def SlhCtx.f (c : SlhCtx) : SlhAdrs → List Byte → List Byte := c.tweak false
def SlhCtx.t (c : SlhCtx) : SlhAdrs → List Byte → List Byte := c.tweak true

/-- H_msg. -/
def slhMsg (p : SlhSet) (r pkSeed pkRoot m : List Byte) (n : Nat) : List Byte :=
  if p.shake then shake256 (r ++ pkSeed ++ pkRoot ++ m) n
  else if p.n = 16 then mgf1 sha256 32 (r ++ pkSeed ++ sha256 (r ++ pkSeed ++ pkRoot ++ m)) n
  else mgf1 sha512 64 (r ++ pkSeed ++ sha512 (r ++ pkSeed ++ pkRoot ++ m)) n

/-- PRF_msg. -/
def slhPrfMsg (p : SlhSet) (prf opt m : List Byte) : List Byte :=
  if p.shake then shake256 (prf ++ opt ++ m) p.n
  else if p.n = 16 then (hmacWith sha256 64 prf (opt ++ m)).take p.n
  else (hmacWith sha512 128 prf (opt ++ m)).take p.n

-- WOTS+, w = 16.

/-- Digits of four bits, most significant first. -/
def nibbles (bs : List Byte) : List Nat := bs.flatMap (fun (b : Byte) => [b.toNat / 16, b.toNat % 16])

/-- The digits of a message of n bytes with the three digits of their check sum. -/
def wotsDigits (m : List Byte) : List Nat :=
  let ds := nibbles m
  let c := (ds.map (15 - ·)).sum
  ds ++ [c / 256 % 16, c / 16 % 16, c % 16]

/-- `n` steps of a hash chain from step `i` on. -/
def SlhCtx.chain (c : SlhCtx) (a : SlhAdrs) (i : Nat) : Nat → List Byte → List Byte
  | 0, x => x
  | n + 1, x => c.chain a (i + 1) n (c.f { a with index := i } x)

/-- The secret start of chain `i`, the address of that chain, and the compressed ends of the chains. -/
def SlhCtx.wotsStart (c : SlhCtx) (sk : List Byte) (a : SlhAdrs) (i : Nat) : List Byte :=
  c.f { a with typ := adrsWotsPrf, level := i, index := 0 } sk
def wotsChain (a : SlhAdrs) (i : Nat) : SlhAdrs := { a with typ := adrsWots, level := i }
def SlhCtx.wotsEnds (c : SlhCtx) (a : SlhAdrs) (ends : List (List Byte)) : List Byte :=
  c.t { a with typ := adrsWotsPk, level := 0, index := 0 } ends.flatten

/-- The public key of a WOTS+ pair. -/
def SlhCtx.wotsPub (c : SlhCtx) (sk : List Byte) (a : SlhAdrs) : List Byte :=
  c.wotsEnds a ((List.range (2 * c.p.n + 3)).map (fun i => c.chain (wotsChain a i) 0 15 (c.wotsStart sk a i)))

/-- A WOTS+ signature, and the public key that one gives. -/
def SlhCtx.wotsSign (c : SlhCtx) (sk : List Byte) (a : SlhAdrs) (m : List Byte) : List Byte :=
  ((wotsDigits m).zipIdx).flatMap (fun d => c.chain (wotsChain a d.2) 0 d.1 (c.wotsStart sk a d.2))
def SlhCtx.wotsFrom (c : SlhCtx) (a : SlhAdrs) (m sig : List Byte) : List Byte :=
  c.wotsEnds a (((wotsDigits m).zipIdx).map (fun d => c.chain (wotsChain a d.2) d.1 (15 - d.1) (slice sig (c.p.n * d.2) c.p.n)))

-- Trees.

/-- Where a node's hash is made: the address of the node at a height and index. -/
def SlhCtx.join (c : SlhCtx) (a : SlhAdrs) (z i : Nat) (l r : List Byte) : List Byte := c.t { a with level := z, index := i } (l ++ r)

/-- The node at height `z` and index `i` of a tree with the given leaves; `a` is the address of its nodes. -/
def SlhCtx.node (c : SlhCtx) (a : SlhAdrs) (leaf : Nat → List Byte) : Nat → Nat → List Byte
  | 0, i => leaf i
  | z + 1, i => c.join a (z + 1) i (c.node a leaf z (2 * i)) (c.node a leaf z (2 * i + 1))

/-- The authentication path of leaf `i`: the sibling at every height below the root at height `h`. -/
def SlhCtx.path (c : SlhCtx) (a : SlhAdrs) (leaf : Nat → List Byte) (h i : Nat) : List Byte :=
  (List.range h).flatMap (fun z => c.node a leaf z (if i / 2 ^ z % 2 = 0 then i / 2 ^ z + 1 else i / 2 ^ z - 1))

/-- The root that a node at height `z` and index `i` gives with the path above it. -/
def SlhCtx.climb (c : SlhCtx) (a : SlhAdrs) : Nat → Nat → List Byte → List (List Byte) → List Byte
  | _, _, x, [] => x
  | z, i, x, s :: r => c.climb a (z + 1) (i / 2) (if i % 2 = 0 then c.join a (z + 1) (i / 2) x s else c.join a (z + 1) (i / 2) s x) r

/-- The leaf of an XMSS tree, and the tree's nodes' address. -/
def SlhCtx.xmssLeaf (c : SlhCtx) (sk : List Byte) (layer tree i : Nat) : List Byte := c.wotsPub sk { layer := layer, tree := tree, key := i }
def treeAdrs (layer tree : Nat) : SlhAdrs := { layer := layer, tree := tree, typ := adrsTree }

/-- The root of an XMSS tree. -/
def SlhCtx.xmssRoot (c : SlhCtx) (sk : List Byte) (layer tree : Nat) : List Byte :=
  c.node (treeAdrs layer tree) (c.xmssLeaf sk layer tree) c.p.h 0

/-- An XMSS signature, and the root that one gives. -/
def SlhCtx.xmssSign (c : SlhCtx) (sk : List Byte) (layer tree i : Nat) (m : List Byte) : List Byte :=
  c.wotsSign sk { layer := layer, tree := tree, key := i } m
    ++ c.path (treeAdrs layer tree) (c.xmssLeaf sk layer tree) c.p.h i
def SlhCtx.xmssFrom (c : SlhCtx) (layer tree i : Nat) (m sig : List Byte) : List Byte :=
  let w := c.p.n * (2 * c.p.n + 3)
  c.climb (treeAdrs layer tree) 0 i (c.wotsFrom { layer := layer, tree := tree, key := i } m (sig.take w)) (parts c.p.n c.p.h (sig.drop w))

/-- The hypertree signature of the layers from `layer` on: the tree and leaf of each, and the root it signs. -/
def SlhCtx.htSign (c : SlhCtx) (sk : List Byte) : Nat → Nat → Nat → Nat → List Byte → List Byte
  | 0, _, _, _, _ => []
  | fuel + 1, layer, tree, i, m =>
    c.xmssSign sk layer tree i m
      ++ c.htSign sk fuel (layer + 1) (tree / 2 ^ c.p.h) (tree % 2 ^ c.p.h) (c.xmssRoot sk layer tree)
def SlhCtx.htFrom (c : SlhCtx) : Nat → Nat → Nat → Nat → List Byte → List Byte → List Byte
  | 0, _, _, _, m, _ => m
  | fuel + 1, layer, tree, i, m, sig =>
    let n := c.p.n * (2 * c.p.n + 3 + c.p.h)
    c.htFrom fuel (layer + 1) (tree / 2 ^ c.p.h) (tree % 2 ^ c.p.h) (c.xmssFrom layer tree i m (sig.take n)) (sig.drop n)

-- FORS.

/-- The digits of `a` bits of a message, most significant bit first. -/
def forsDigits (a k : Nat) (md : List Byte) : List Nat :=
  let v := unBe md
  let bitsN := 8 * md.length
  (List.range k).map (fun i => v / 2 ^ (bitsN - a * (i + 1)) % 2 ^ a)

/-- A secret value, the leaf over it, and the address of FORS nodes. -/
def SlhCtx.forsSecret (c : SlhCtx) (sk : List Byte) (a : SlhAdrs) (i : Nat) : List Byte :=
  c.f { a with typ := adrsForsPrf, level := 0, index := i } sk
def forsAdrs (a : SlhAdrs) : SlhAdrs := { a with typ := adrsFors }
def SlhCtx.forsLeaf (c : SlhCtx) (sk : List Byte) (a : SlhAdrs) (i : Nat) : List Byte :=
  c.f { forsAdrs a with level := 0, index := i } (c.forsSecret sk a i)

/-- The path of a leaf in its tree, whose indices go on from tree to tree. -/
def SlhCtx.forsSign (c : SlhCtx) (sk : List Byte) (a : SlhAdrs) (md : List Byte) : List Byte :=
  ((forsDigits c.p.a c.p.k md).zipIdx).flatMap (fun d =>
    let i := d.2 * 2 ^ c.p.a + d.1
    c.forsSecret sk a i ++ c.path (forsAdrs a) (c.forsLeaf sk a) c.p.a i)

/-- The compressed roots of the trees, from a signature. -/
def SlhCtx.forsFrom (c : SlhCtx) (a : SlhAdrs) (md sig : List Byte) : List Byte :=
  let n := c.p.n * (c.p.a + 1)
  c.t { a with typ := adrsForsRoots, level := 0, index := 0 } (((forsDigits c.p.a c.p.k md).zipIdx).flatMap (fun d =>
    let i := d.2 * 2 ^ c.p.a + d.1
    let s := slice sig (n * d.2) n
    c.climb (forsAdrs a) 0 i (c.f { forsAdrs a with level := 0, index := i } (s.take c.p.n)) (parts c.p.n c.p.a (s.drop c.p.n))))

-- The scheme.

/-- What a message's digest selects: the FORS message, the tree and the leaf. -/
def slhSelect (p : SlhSet) (dig : List Byte) : List Byte × Nat × Nat :=
  let a := ceilDiv (p.k * p.a) 8
  let b := ceilDiv (p.h * (p.d - 1)) 8
  let c := ceilDiv p.h 8
  (dig.take a, unBe (slice dig a b) % 2 ^ (p.h * (p.d - 1)), unBe (slice dig (a + b) c) % 2 ^ p.h)

/-- Bytes of a digest. -/
def slhDigestLen (p : SlhSet) : Nat := ceilDiv (p.k * p.a) 8 + ceilDiv (p.h * (p.d - 1)) 8 + ceilDiv p.h 8

/-- slh_keygen_internal on SK.seed, SK.prf and PK.seed: pk and sk (R332). -/
def slhKeys (ps : Nat) (seed : List Byte) : List Byte × List Byte :=
  let p := slhSet ps
  let pkSeed := slice seed (2 * p.n) p.n
  let c : SlhCtx := { p := p, seed := pkSeed }
  let pk := pkSeed ++ c.xmssRoot (seed.take p.n) (p.d - 1) 0
  (pk, seed.take (2 * p.n) ++ pk)

/-- slh_sign_internal on M' and addrnd (R333). -/
def slhSign (ps : Nat) (sk rep rnd : List Byte) : List Byte :=
  let p := slhSet ps
  let c : SlhCtx := { p := p, seed := slice sk (2 * p.n) p.n }
  let skSeed := sk.take p.n
  let r := slhPrfMsg p (slice sk p.n p.n) rnd rep
  let (md, tree, leaf) := slhSelect p (slhMsg p r c.seed (slice sk (3 * p.n) p.n) rep (slhDigestLen p))
  let a : SlhAdrs := { tree := tree, key := leaf }
  let fors := c.forsSign skSeed a md
  r ++ fors ++ c.htSign skSeed p.d 0 tree leaf (c.forsFrom a md fors)

/-- slh_verify_internal (R334): the recomputed root equals PK.root. -/
def slhVerify (ps : Nat) (pk rep sig : List Byte) : Bool :=
  let p := slhSet ps
  let c : SlhCtx := { p := p, seed := pk.take p.n }
  let (md, tree, leaf) := slhSelect p (slhMsg p (sig.take p.n) c.seed (pk.drop p.n) rep (slhDigestLen p))
  let n := p.n * p.k * (p.a + 1)
  decide (c.htFrom p.d 0 tree leaf (c.forsFrom { tree := tree, key := leaf } md (slice sig p.n n)) (sig.drop (p.n + n)) = pk.drop p.n)

end Sys2Proof.Machine
end

