-- ==== Sys2Proof/Machine/KernelBase.lean ====
section
/-! DEFINITION. What the kernels of the commands share: the run of a kernel for an admitted job, scorched inputs and keys
(R563, R564), key generation and stored secrets (R290, R294), and encodings. -/

namespace Sys2Proof.Machine

/-- A kernel: the state with its draws and objects, and the result the job is released with. -/
abbrev Kernel := State → Nat → Job → State × Result

/-- Scorched data bites in a job of a vendor kernel (R563): its input, or its key. A pattern's code meets the marks itself (R232). -/
def State.bites (s : State) (j : Job) : Bool :=
  decide (j.opcode ≠ 0x0900) && ((j.scorched && decide (j.e.inLen ≠ 0)) || match s.jobKey j with | some k => k.scorched && j.heldKey.isSome | none => false)

/-- A POISON event of a PVU (R233, R236). -/
def State.poisonEvent (s : State) (n : Nat) : State :=
  let p := s.getPvu n
  (s.setPvu n { p with cnt := vmod p.cnt 8 0 (· + 1) }).cause (0x10 + n) 3

/-- The event counts on the PVU that has the job's pages. -/
def State.poisonJob (s : State) (id : Nat) : State :=
  match s.trd.pages.find? (fun x => decide (x.1 = id)) with
  | some x => s.poisonEvent x.2.1
  | none => s

/-- A key-cache copy that bites is dropped and refetched for later jobs (R564). -/
def State.dropScorched (s : State) (j : Job) : State :=
  match j.heldKey with
  | none => s
  | some h => (match s.getKey h with
    | some k => if k.scorched then s.setKey h { k with scorched := false, inCache := false } else s
    | none => s)

/-- Statuses of a hybrid or composite job that come before the integrity statuses of its parts (R400). -/
def comesFirst (op st : Nat) : Bool := decide (0x0600 ≤ op ∧ op ≤ 0x0612) && [0x0030, 0x0031, 0x0042].contains st

/-- The result of a job: scorched data bites first, then the failure its engine met, then the kernel; of a hybrid or composite job in the
order of R400. -/
def State.runKernel (s : State) (id : Nat) (j : Job) (k : Kernel) : State × Result :=
  if comesFirst j.opcode (k s id j).2.status then k s id j
  else if s.bites j then ((s.dropScorched j).poisonJob id, statusDetail 0x0050 0x4001)
  else match j.failed with
    | some (st, d) => (s, statusDetail st d)
    | none => k s id j

/-- A job waits for its release with a result. -/
def State.hasResult (s : State) (id : Nat) : Bool := (s.getJob id).result.isSome

/-- The computation of an admitted job takes place, once, in or after its last booked tick and not before the tick after
admission (R23, R25, R453); its result waits for the release edge. A tree build must have ended (R341). -/
def State.computeAfter (s : State) (lag id : Nat) (k : Kernel) : State :=
  match KV.get? s.jobs id with
  | none => s
  | some j =>
    if j.phase ≠ .admitted ∨ j.result.isSome ∨ j.rebook ∨ j.faulted ∨ j.forward.isSome ∨ s.trd.edge < j.admitted + lag
        ∨ s.trd.plan.any (fun b => decide (b.job = some id) && decide (s.trd.edge < b.tick))
        ∨ s.trd.builds.any (fun b => decide (j.created = some b.key)) then s
    else
      let (t, r) := s.runKernel id j k
      t.modJob id (fun x => { x with result := some r })

/-- The computation of a job whose work falls in the ticks after its admission tick. -/
def State.compute (s : State) (id : Nat) (k : Kernel) : State := s.computeAfter 1 id k

/-- A row of the table that runs one command's computation. -/
def State.runJob (s : State) (op id : Nat) (k : Kernel) : Host.Outcome State Fault Refusal :=
  .next (match KV.get? s.jobs id with
    | some j => if j.opcode = op ∧ s.running then s.compute id k else s
    | none => s)

/-- Parameter bytes of a job. -/
def Job.par (j : Job) : List Byte := j.e.par j.ver

/-- The public key a command works with, and whether it was given in the input. -/
def State.pkOf (s : State) (j : Job) (len : Nat) : List Byte × Bool :=
  if j.e.keyHandle = 0 then (slice j.input 0 len, true)
  else (match s.jobKey j with | some k => k.pub | none => [], false)

/-- The input after a public key that may precede it. -/
def afterPk (j : Job) (len : Nat) : List Byte := if j.e.keyHandle = 0 then j.input.drop len else j.input

/-- The private encoding of the job's key. -/
def State.skOf (s : State) (j : Job) : List Byte := match s.jobKey j with | some k => k.priv | none => []
/-- The public encoding of the key that a job names. -/
def State.pubOf (s : State) (j : Job) : List Byte := match s.jobKey j with | some k => k.pub | none => []

/-- The key pair of a type and set from its seed, private encoding first, in the lengths of R288, R335, R354, R357 and R395. The primes of
an RSA key are a free function of it. Classic McEliece, stateful, hybrid and composite keys have generations of their own. -/
def genPair (typ pset : Nat) (seed : List Byte) : List Byte × List Byte :=
  let k := match typ with
    | 1 => (mlkemKeys pset seed).swap
    | 2 => (mldsaKeys pset seed).swap
    | 4 => (slhKeys pset seed).swap
    | 9 =>
      let r := Config.rsaPrimes pset seed
      let h := rsaBytes pset / 2
      (be h r.1 ++ be h r.2, be (2 * h) (r.1 * r.2) ++ be 8 65537)
    | 10 => ecKeys pset seed
    | 11 => (seed.take (privLen 11 pset), edPub pset (seed.take (privLen 11 pset)))
    | 12 => (seed.take (privLen 12 pset), xPub pset (seed.take (privLen 12 pset)))
    | 7 => hqcKeys pset seed
    | _ => ([], [])
  (fit (privLen typ pset) k.1, fit ((pubLen typ pset).getD 64) k.2)
def genPriv (typ pset : Nat) (seed : List Byte) : List Byte := (genPair typ pset seed).1
def genPub (typ pset : Nat) (seed : List Byte) : List Byte := (genPair typ pset seed).2

/-- The order stored with a key that the command generates (R306, R331). -/
def genOrder (typ pset ord : Nat) : Nat :=
  if typ = 4 then (if slhShake pset then ord else 0)
  else if 9 ≤ typ ∧ typ ≤ 12 then 0
  else if ord = 0 then 1 else ord

/-- The object under the handle that admission assigned is stored and the handle returned (R290). -/
def State.store (s : State) (id : Nat) (j : Job) (k : KeyObj) (out : List Byte) : State × Result :=
  match j.created with
  | none => (s, status 0x0025)
  | some h => (s.createKey id h k, { okOut out with handle := h })

/-- A key whose generation takes many runs is kept out of use until the command completes (R341, R364, R397). -/
def State.hide (s : State) (h : W32) (k : KeyObj) : State := s.setKey h { k with deleted := true }

/-- The kept key becomes an object of the store. -/
def State.reveal (s : State) (id : Nat) (j : Job) : State :=
  match j.created with
  | none => s
  | some h => (match s.getKey h with
    | some k => if k.deleted then s.createKey id h { k with deleted := false } else s
    | none => s)

/-- Key generation: the seed is drawn and the pair stored under `USAGE` (R290, R297, R332, R397). -/
def genKernel (typ seedLen : Nat) : Kernel := fun s id j =>
  let p := j.par
  let ps := p8 p 0
  let (seed, s1) := s.drawInt seedLen
  let pub := genPub typ ps seed
  let k := { pairObj typ ps (genOrder typ ps (p8 p 1)) (p32 p 4) (genPriv typ ps seed) pub with
    ephemeral := [0x0200, 0x0400, 0x0410, 0x0510, 0x0530, 0x0600].contains j.opcode && decide (p8 p 2 % 2 = 1) }
  s1.store id j k pub

/-- A shared secret is output, or stored as a secret key object that keeps a ciphertext as its public part (R294). -/
def State.secret (s : State) (id : Nat) (j : Job) (c k : List Byte) : State × Result :=
  let p := j.par
  if ssStore j.opcode p then
    s.store id j { typ := 18, pset := 0, order := max 1 (p8 p 1), usage := BitVec.ofNat 32 (p32 p 4), priv := k, pub := c, pair := false } c
  else (s, okOut (c ++ k))

/-- M' of pure and pre-hash signing (R298, R333). -/
def pureRep (ctx m : List Byte) : List Byte := [0x00, BitVec.ofNat 8 ctx.length] ++ ctx ++ m
def hashRep (ph : Nat) (ctx digest : List Byte) : List Byte :=
  [0x01, BitVec.ofNat 8 ctx.length] ++ ctx ++ hashOid ph ++ digest

end Sys2Proof.Machine
end

