-- ==== Sys2Proof/Machine/Microcode.lean ====
section
/-! DEFINITION. The Bobbin sequencer (R495, R498 to R509): the fields of a microword, the fetch through the patch-match registers, the
next-address operations, and the run of the routine of one instruction or command. -/

namespace Sys2Proof.Machine

-- The microword (R498 to R500).

/-- Bits `hi` to `lo` of a microword. -/
def uBits (w : BitVec 192) (hi lo : Nat) : Nat := w.toNat / 2 ^ lo % 2 ^ (hi + 1 - lo)

/-- Clocks of the cycle lengths C1 to C16 (R500). -/
def clenClocks (c : Nat) : Nat := [1, 2, 3, 4, 6, 8, 12, 16].getD c 1

/-- What bits 127:0 of a PVU microword drive while it holds the datapath (R499). -/
structure PvuLines where
  lane : Nat
  mul  : Nat
  ntt  : Nat
  perm : Nat
  rf   : Nat
  ls   : Nat
  ku   : Nat
  tag  : Nat
  elem : Nat
  uimm : Nat
  deriving DecidableEq, Repr

/-- The control lines of a PVU's datapath. -/
def pvuLines (w : BitVec 192) : PvuLines :=
  { lane := uBits w 127 120, mul := uBits w 119 112, ntt := uBits w 111 104, perm := uBits w 103 96, rf := uBits w 95 80,
    ls := uBits w 79 64, ku := uBits w 63 48, tag := uBits w 47 32, elem := uBits w 31 16, uimm := uBits w 15 0 }

/-- What they drive in a BNE. -/
structure BneLines where
  wmul  : Nat
  add   : Nat
  cmp   : Nat
  opa   : Nat
  opb   : Nat
  opd   : Nat
  xfer  : Nat
  res   : Nat
  mexpt : Nat
  uimm  : Nat
  deriving DecidableEq, Repr

/-- The control lines of a BNE's datapath. -/
def bneLines (w : BitVec 192) : BneLines :=
  { wmul := uBits w 127 120, add := uBits w 119 112, cmp := uBits w 111 104, opa := uBits w 103 88, opb := uBits w 87 72,
    opd := uBits w 71 56, xfer := uBits w 55 40, res := uBits w 39 24, mexpt := uBits w 23 16, uimm := uBits w 15 0 }

-- Fetch (R495, R509).

/-- The word at a control-store address, and whether it comes from patch RAM: ROM words through the match registers; nothing stands at or
above 0x4000. -/
def Bobbin.fetch (b : Bobbin) (bne : Bool) (a : Nat) : Option (BitVec 192 × Bool) :=
  if 0x4000 ≤ a then none
  else if 0x3000 ≤ a then some (KV.getD b.patchRam (a - 0x3000) 0, true)
  else match b.matches_.find? (fun m => decide (m.2.1 = a)) with
    | some m => some (KV.getD b.patchRam m.2.2 0, true)
    | none => some (Config.romWord bne a, false)

-- Sequencing (R501 to R503).

/-- What the engine offers to the condition multiplexer besides the loop counters: the VSTAT flags, whether the squeeze buffers hold what
is asked of them, and whether a check has fired. -/
structure MicroEnv where
  eq  : Bool := false
  ltu : Bool := false
  lt  : Bool := false
  ku0 : Bool := true
  ku1 : Bool := true
  deriving DecidableEq, Repr

/-- A condition (R503): the counters of the datapath that ELEM_DONE, PRED_NONE, XFER_READY and LAST_WORD read step as microword fields say
whose encoding is not published, and their answers are free. No check has fired in a routine that still runs (R506). -/
def microCond (env : MicroEnv) (bne : Bool) (m : Micro) (c : Nat) : Bool :=
  if c = 0 then true
  else if c ≤ 4 then decide (vget m.lc (c - 1) 0 = 0)
  else match c with
    | 0x08 => env.eq
    | 0x09 => !env.eq
    | 0x0A => env.ltu
    | 0x0B => !env.ltu
    | 0x0C => env.lt
    | 0x0D => !env.lt
    | 0x10 => env.ku0
    | 0x11 => env.ku1
    | 0x14 => false
    | _ => Config.microCond bne c m.words

/-- The field CNT on the loop counters of 16 bits (R498): 1 to 4 load from UIMM, 5 to 8 decrement. -/
def stepCounters (w : BitVec 192) (lc : Vector Nat 4) : Vector Nat 4 :=
  let c := uBits w 165 162
  if 1 ≤ c ∧ c ≤ 4 then vset lc (c - 1) (uBits w 15 0)
  else if 5 ≤ c ∧ c ≤ 8 then vset lc (c - 5) ((vget lc (c - 5) 0 + 0xFFFF) % 0x10000)
  else lc

/-- Where a microword leads (R502). -/
inductive MicroNext where
  | word (m : Micro)
  | dispatch
  | park
  /-- a micro-stack overflow or underflow, or an address at or above 0x4000 -/
  | fault
  deriving DecidableEq, Repr

/-- The next-address operation of a microword, formed on the last of its clocks (R501, R502). -/
def microNext (env : MicroEnv) (bne : Bool) (w : BitVec 192) (m0 : Micro) : MicroNext :=
  let m : Micro := { m0 with lc := stepCounters w m0.lc, word := w, words := m0.words + 1 }
  let to_ (a : Nat) (x : Micro) : MicroNext := if 0x4000 ≤ a then .fault else .word { x with addr := a }
  let naddr := uBits w 185 172
  match uBits w 188 186 with
  | 0 => to_ (m.addr + 1) m
  | 1 => to_ naddr m
  | 2 => to_ (if microCond env bne m (uBits w 171 166) then naddr else m.addr + 1) m
  | 3 => if 8 ≤ m.stack.length then .fault else to_ naddr { m with stack := (m.addr + 1) :: m.stack }
  | 4 => (match m.stack with
    | [] => .fault
    | a :: r => to_ a { m with stack := r })
  | 5 => .dispatch
  | 6 =>
    let k := (vget m.lc 0 0 + 0xFFFF) % 0x10000
    let m1 : Micro := { m with lc := vset m.lc 0 k }
    to_ (if k ≠ 0 then naddr else m.addr + 1) m1
  | _ => .park

/-- How the run of a routine ends; `open_`: not within the clocks given. -/
inductive MicroEnd where
  | dispatch
  | park
  | fault
  | open_
  deriving DecidableEq, Repr

/-- A routine that has run: the micro-state, its clocks (R501), the MRG words its words consume, whether a word of patch RAM was among
them, and how it ended. -/
structure MicroRun where
  micro   : Micro
  clocks  : Nat := 0
  rnd     : Nat := 0
  patched : Bool := false
  ends    : MicroEnd := .open_
  deriving DecidableEq, Repr

/-- Microwords are executed until a DISPATCH, a PARK or a fault, as long as clocks are left; every word takes at least one. -/
def microRun (b : Bobbin) (bne : Bool) (env : MicroEnv) : Nat → MicroRun → MicroRun
  | 0, r => r
  | fuel + 1, r =>
    match b.fetch bne r.micro.addr with
    | none => { r with ends := .fault }
    | some (w, p) =>
      let r1 := { r with
        clocks := r.clocks + clenClocks (uBits w 191 189), rnd := r.rnd + uBits w 151 144, patched := r.patched || p,
        micro := { r.micro with word := w } }
      match microNext env bne w r.micro with
      | .word m => microRun b bne env fuel { r1 with micro := m }
      | .dispatch => { r1 with ends := .dispatch }
      | .park => { r1 with ends := .park }
      | .fault => { r1 with ends := .fault }

/-- The routine of an instruction or command from its dispatch entry (R495); none while no match register is enabled: the ROM's routines take
the published figures (R504). A routine in which no word of patch RAM was met is a ROM routine as well. -/
def Bobbin.routine (b : Bobbin) (bne : Bool) (env : MicroEnv) (entry fuel : Nat) : Option MicroRun :=
  if b.matches_.isEmpty then none
  else
    let r := microRun b bne env fuel { micro := { b.micro with addr := entry } }
    if r.patched then some r else none

/-- Dispatch entries (R495). -/
def pvuEntry (cls func : Nat) : Nat := 0x0100 + cls * 0x100 + func
def bneEntry (op : Nat) : Nat := 0x0100 + op

/-- The sequencer after a routine. -/
def Bobbin.after (b : Bobbin) (r : MicroRun) : Bobbin :=
  { b with micro := r.micro, parked := decide (r.ends = .park) || decide (r.ends = .open_) }

/-- A micro-trap of an architectural exception (R506): the micro-state goes to the shadow set, and the trap entry is next. -/
def Bobbin.trap (b : Bobbin) (cause : Nat) : Bobbin :=
  { b with saved := some b.micro, micro := { b.micro with addr := 0x0010 + cause, stack := [] } }

/-- RESUME takes the shadow set back; SKIP and FAIL discard it (R506). -/
def Bobbin.restore (b : Bobbin) : Bobbin := { b with micro := b.saved.getD b.micro, saved := none }
def Bobbin.discard (b : Bobbin) : Bobbin := { b with saved := none }

end Sys2Proof.Machine
end

