-- ==== Sys2Proof/Machine/PvuBase.lean ====
section
/-! DEFINITION. What the PVU instructions share: register files with share tags and scorch bits (R192 to R195, R208 to R210,
R231), the operand forms and the legality of a word (R238 to R243), the timing of R244, exceptions (R225 to R230). -/

namespace Sys2Proof.Machine

/-- A register that an instruction names. -/
inductive Reg where
  | l (n : Nat)
  | s (n : Nat)
  | x (n : Nat)
  | p (n : Nat)
  | m (n : Nat)
  | stat
  deriving DecidableEq, Repr

/-- The Kind column of R243; `own`: a gadget, a stream load or a local-store access, which follows rules of its own. -/
inductive Kind where
  | l
  | l1
  | lp
  | n
  | own
  deriving DecidableEq, Repr

/-- An exception (R225). -/
structure Exc where
  cause : Nat
  eidx  : Nat := 0
  eaddr : Nat := 0
  epart : Bool := false
  /-- a failed share-consistency check fires KU_CHECK in place of COMPUTE (R204) -/
  kuCheck : Bool := false
  deriving DecidableEq, Repr

/-- An element with its scorch bit. -/
abbrev Elem := Nat × Bool

-- Elements of registers (R193, R195).

/-- Bits of a width code (R238). -/
def wBits (w : Nat) : Nat := 16 * 2 ^ w
/-- Bytes of a width code. -/
def wBytes (w : Nat) : Nat := 2 * 2 ^ w

/-- The disjunctions of neighbouring pairs. -/
def pairOr : List Bool → List Bool
  | a :: b :: r => (a || b) :: pairOr r
  | _ => []

/-- Every value twice. -/
def twice {α : Type} (xs : List α) : List α := xs.flatMap (fun a => [a, a])

/-- Scorch bits of the elements of width `w` from the 32-bit lanes. -/
def elemMarks (w : Nat) (lanes : List Bool) : List Bool :=
  if w = 0 then twice lanes else if w = 1 then lanes else pairOr lanes

/-- New values over old ones; a missing value keeps the old one. -/
def overlay {α : Type} : List (Option α) → List α → List α
  | _, [] => []
  | [], old => old
  | n :: ns, o :: os => n.getD o :: overlay ns os

/-- Lanes of pairs of 16-bit elements: an element not written keeps its lane's bit. -/
def overlayPairs : List (Option Bool) → List Bool → List Bool
  | a :: b :: r, o :: os => (a.getD o || b.getD o) :: overlayPairs r os
  | _, os => os

/-- Lane bits after some elements of width `w` have been written. -/
def newMarks (w : Nat) (new : List (Option Bool)) (lanes : List Bool) : List Bool :=
  if w = 0 then overlayPairs new lanes else if w = 1 then overlay new lanes else overlay (twice new) lanes

/-- Elements of a register of `lanes` 32-bit lanes. -/
def readV (lanes w v k : Nat) : List Elem :=
  (splitE (wBits w) (lanes * 2 / 2 ^ w) v).zip (elemMarks w (bitsOf lanes k))

/-- A register's value and scorch bits after some of its elements have been written. -/
def writeV (lanes w v k : Nat) (xs : List (Option Elem)) : Nat × Nat :=
  (joinE (wBits w) (overlay (xs.map (fun x => x.map (·.1))) (splitE (wBits w) (lanes * 2 / 2 ^ w) v)),
    ofBits (newMarks w (xs.map (fun x => x.map (·.2))) (bitsOf lanes k)))

def Pvu.getL (p : Pvu) (n w : Nat) : List Elem := readV 256 w (vget p.l n 0).toNat (vget p.lScorch n 0).toNat
def Pvu.putL (p : Pvu) (n w : Nat) (xs : List (Option Elem)) : Pvu :=
  let r := writeV 256 w (vget p.l n 0).toNat (vget p.lScorch n 0).toNat xs
  { p with l := vset p.l n (BitVec.ofNat 8192 r.1), lScorch := vset p.lScorch n (BitVec.ofNat 256 r.2) }
def Pvu.getS (p : Pvu) (n w : Nat) : List Elem := readV 4 w (vget p.s n 0).toNat (vget p.sScorch n 0).toNat
def Pvu.putS (p : Pvu) (n w : Nat) (xs : List (Option Elem)) : Pvu :=
  let r := writeV 4 w (vget p.s n 0).toNat (vget p.sScorch n 0).toNat xs
  { p with s := vset p.s n (BitVec.ofNat 128 r.1), sScorch := vset p.sScorch n (BitVec.ofNat 4 r.2) }
/-- X0 reads zero (R192). -/
def Pvu.getX (p : Pvu) (n : Nat) : Nat := if n = 0 then 0 else (vget p.x n 0).toNat
def Pvu.getXk (p : Pvu) (n : Nat) : Bool := decide (n ≠ 0) && p.xScorch.getLsbD n
/-- X0 reads zero and ignores writes (R192). -/
def Pvu.putX (p : Pvu) (n : Nat) (v : Elem) : Pvu :=
  if n = 0 then p
  else
    let b : BitVec 32 := BitVec.ofNat 32 (2 ^ n)
    { p with
      x := vset p.x n (BitVec.ofNat 64 v.1), xScorch := if v.2 then p.xScorch ||| b else p.xScorch &&& ~~~b }
/-- P0 reads all ones and ignores writes (R192). -/
def Pvu.getP (p : Pvu) (n : Nat) : List Elem :=
  if n = 0 then List.replicate 256 (1, false)
  else ((bitsOf 256 (vget p.p n 0).toNat).map b2n).zip (bitsOf 256 (vget p.pScorch n 0).toNat)
def Pvu.putP (p : Pvu) (n : Nat) (xs : List Elem) : Pvu :=
  if n = 0 then p
  else { p with
    p := vset p.p n (BitVec.ofNat 256 (ofBits (xs.map (fun x => decide (x.1 = 1))))),
    pScorch := vset p.pScorch n (BitVec.ofNat 256 (ofBits (xs.map (·.2)))) }

/-- The governing predicate bits of the elements of width `w` (R193). -/
def Pvu.governing (p : Pvu) (pg w : Nat) : List Elem :=
  let b := p.getP pg
  if w = 0 then twice b else if w = 1 then b else evens b

/-- The elements that are active (R194). -/
def Pvu.actives (p : Pvu) (pg w : Nat) : List Bool := (p.governing pg w).map (fun b => decide (b.1 = 1))

/-- Write the active elements only. -/
def Pvu.putActive (p : Pvu) (pg n w : Nat) (xs : List Elem) : Pvu :=
  p.putL n w ((xs.zip (p.actives pg w)).map (fun a => if a.2 then some a.1 else none))

-- Share tags (R208 to R210).

/-- Registers of a share group at an order: where a group may start. -/
def shareAlign (d : Nat) : Nat := if d = 0 then 1 else if d = 1 then 2 else 4

def Pvu.tag (p : Pvu) : Reg → ShareTag
  | .l n => vget p.lTag n .pub
  | .s n => vget p.sTag n .pub
  | .x n => if n = 0 then .pub else vget p.xTag n .pub
  | _ => .pub

def Pvu.setTag (p : Pvu) (r : Reg) (t : ShareTag) : Pvu :=
  match r with
  | .l n => { p with lTag := vset p.lTag n t }
  | .s n => { p with sTag := vset p.sTag n t }
  | .x n => if n = 0 then p else { p with xTag := vset p.xTag n t }
  | _ => p

/-- The group that a register lies in: file × 32 + first register. -/
def Reg.group (d : Nat) : Reg → Nat
  | .l n => n / shareAlign d * shareAlign d
  | .s n => 32 + n / shareAlign d * shareAlign d
  | .x n => 64 + n / shareAlign d * shareAlign d
  | _ => 96

/-- The position of a register in its group. -/
def Reg.pos (d : Nat) : Reg → Nat
  | .l n => n % shareAlign d
  | .s n => n % shareAlign d
  | .x n => n % shareAlign d
  | _ => 0

/-- A register of the same file, `k` further on. -/
def Reg.plus (k : Nat) : Reg → Reg
  | .l n => .l (n + k)
  | .s n => .s (n + k)
  | .x n => .x (n + k)
  | r => r

def ShareTag.isShare : ShareTag → Bool
  | .pub => false
  | .share _ _ => true

/-- No two values of a list are equal. -/
def distinct : List Nat → Bool
  | [] => true
  | a :: r => !r.contains a && distinct r

/-- The share index that the sources give the destination, none = PUBLIC; the outer none = a breach (R210, R243). -/
def shareRule (k : Kind) (tags : List ShareTag) : Option (Option Nat) :=
  let sh := tags.filterMap (fun t => match t with | .share i g => some (i, g) | .pub => none)
  match sh with
  | [] => some none
  | (i, _) :: rest =>
    match k with
    | .l => if rest.all (fun q => decide (q.1 = i)) && distinct (sh.map (·.2)) then some (some i) else none
    | .l1 => if rest.isEmpty then some (some i) else none
    | .lp => if (tags.drop 1).any ShareTag.isShare then none else some (some i)
    | .n => none
    | .own => some none

/-- The tag of share `i` in a destination; none where the destination is not at position `i` of its group. -/
def destTag (d : Nat) (i : Option Nat) (r : Reg) : Option ShareTag :=
  match i with
  | none => some .pub
  | some k => if r.pos d = k then some (.share k (r.group d)) else none

/-- A source group holds shares 0 to d of one group (R270). -/
def Pvu.groupOk (p : Pvu) (d : Nat) (r : Reg) : Bool :=
  (List.range (d + 1)).all (fun k => decide (p.tag (r.plus k) = .share k (r.group d)))

-- Timing (R244).

def Pvu.ready (p : Pvu) : Reg → Nat
  | .l n => vget p.lReady n 0
  | .s n => vget p.sReady n 0
  | .x n => vget p.xReady n 0
  | .p n => vget p.pReady n 0
  | .m n => vget p.mReady n 0
  | .stat => p.statReady

def Pvu.setReady (p : Pvu) (t : Nat) : Reg → Pvu
  | .l n => { p with lReady := vset p.lReady n t }
  | .s n => { p with sReady := vset p.sReady n t }
  | .x n => if n = 0 then p else { p with xReady := vset p.xReady n t }
  | .p n => if n = 0 then p else { p with pReady := vset p.pReady n t }
  | .m n => { p with mReady := vset p.mReady n t }
  | .stat => { p with statReady := t }

-- Instruction words (R238 to R241).

/-- The fields that an instruction uses: width codes, and the bits of each field that may be set (R240). -/
structure Use where
  w  : List Nat := [0]
  p  : Bool := false
  mc : Bool := false
  rd : Nat := 0
  ra : Nat := 0
  rb : Nat := 0
  rc : Nat := 0
  imm : Nat := 0
  deriving DecidableEq, Repr

/-- R240: unused fields are zero and the width is one the instruction's table allows. -/
def Use.fits (u : Use) (i : PvuWord) : Bool :=
  u.w.contains i.w.toNat && (u.p || decide (i.pg = 0)) && (u.mc || decide (i.mc = 0))
    && onlyBits i.rd.toNat u.rd && onlyBits i.ra.toNat u.ra && onlyBits i.rb.toNat u.rb && onlyBits i.rc.toNat u.rc
    && onlyBits i.imm.toNat u.imm

/-- The width code of a word. -/
def wOf (i : PvuWord) : Nat := i.w.toNat
/-- The immediate, zero- and sign-extended. -/
def immU (i : PvuWord) : Nat := i.imm.toNat
def immS (i : PvuWord) : Int := i.imm.toInt

/-- What an instruction does once its word is legal and its operands may be used. -/
structure PvuRes where
  p     : Pvu
  exc   : Option Exc := none
  /-- the target of a taken branch; a branch takes two more cycles where `extra` says so -/
  jump  : Option Int := none
  extra : Nat := 0
  /-- stream wait (R203) -/
  wait  : Nat := 0
  /-- END, ACCEPT or REJECT -/
  fin   : SegEnd := .none
  perms : Nat := 0
  mcBlocks : Nat := 0
  /-- element from which a resumed instruction goes on -/
  resumeAt : Nat := 0
  /-- 64-bit words of the local store read and written -/
  reads : List Nat := []
  writes : List Nat := []
  deriving DecidableEq, Repr

/-- What the tables say of an instruction. -/
structure PvuOp where
  cls  : Nat
  func : Nat
  use  : Use := {}
  vendor : Bool := false
  /-- registers in range, group alignment, and the ranges of conditions, selectors and parameters -/
  ok   : Pvu → PvuWord → Bool := fun _ _ => true
  kind : Kind := .n
  /-- sources under the Kind column, in order -/
  src  : Pvu → PvuWord → List Reg := fun _ _ => []
  /-- operands that must be PUBLIC whatever the kind: indices, offsets, conditions (R210) -/
  pub  : PvuWord → List Reg := fun _ => []
  /-- the first registers of the source groups of a gadget -/
  grp  : PvuWord → List Reg := fun _ => []
  dst  : Pvu → PvuWord → List Reg := fun _ _ => []
  /-- a Keccak unit that the instruction names -/
  unit : PvuWord → Option Nat := fun _ => none
  /-- operands whose scorch mark bites (R232) -/
  bite : Pvu → PvuWord → Bool := fun _ _ => false
  /-- faults of the governing predicate are taken per element by the body (R226) -/
  perElem : Bool := false
  /-- of a per-element instruction that is ILLEGAL: a scorched operand that bites at element 0 -/
  biteFirst : Pvu → PvuWord → Bool := fun _ _ => false
  /-- a breach of the share rules that the tags of the sources do not show: a unit's order, or shares it has absorbed (R260, R266) -/
  breach : Pvu → PvuWord → Bool := fun _ _ => false
  /-- a share-tagged source stands for its whole group (R265) -/
  wide : Bool := false
  /-- END waits for every outstanding latency (R246) -/
  drain : Bool := false
  /-- UNMASK needs the right to it (R212) -/
  needsUnmask : Bool := false
  /-- the modulus is used (R242); a Boolean form uses none -/
  modular : PvuWord → Bool := fun _ => false
  /-- issue time and latency -/
  time : Pvu → PvuWord → Nat × Nat := fun _ _ => (1, 1)
  /-- from the start cycle and the PVU's number -/
  body : Nat → Nat → Pvu → PvuWord → PvuRes

/-- Registers of a group from its first. -/
def groupRegs (d : Nat) (r : Reg) : List Reg := (List.range (d + 1)).map (fun k => r.plus k)

/-- Every register an instruction reads. -/
def PvuOp.reads (op : PvuOp) (p : Pvu) (i : PvuWord) : List Reg :=
  (op.src p i).flatMap (fun r => if op.wide && (p.tag r).isShare then groupRegs p.order r else [r])
    ++ op.pub i ++ (op.grp i).flatMap (groupRegs p.order) ++ (if op.use.p then [Reg.p i.pg.toNat] else [])
    ++ (if op.use.mc && op.modular i then [Reg.m i.mc.toNat] else [])

/-- When the Keccak unit that an instruction names is free (R244). -/
def PvuOp.unitFree (op : PvuOp) (p : Pvu) (i : PvuWord) : Nat :=
  match op.unit i with
  | none => 0
  | some u =>
    let k := vget p.ku u {}
    if k.phase = .squeeze then 0 else k.freeAt

/-- The start of an instruction (R244). -/
def PvuOp.start (op : PvuOp) (p : Pvu) (i : PvuWord) : Nat :=
  (op.reads p i ++ op.dst p i).foldl (fun t r => max t (p.ready r)) (max (if op.drain then p.lastDone else 0) (max p.cyc (op.unitFree p i)))

/-- A scorched predicate governs an active element (R232). -/
def Pvu.predBites (p : Pvu) (pg w : Nat) : Bool := (p.governing pg w).any (fun b => decide (b.1 = 1) && b.2)

/-- The context named by MC may be used at width `w` (R197, R242). -/
def Pvu.modOk (p : Pvu) (i : PvuWord) (scalar : Bool) : Bool :=
  let c := vget p.m i.mc.toNat {}
  c.valid && (scalar || decide (wOf i ≠ 0) || decide (c.q < 65536))

/-- The breach of the share rules, if any (R210, R243, R270). -/
def PvuOp.shareBreach (op : PvuOp) (p : Pvu) (i : PvuWord) : Bool :=
  (op.pub i).any (fun r => (p.tag r).isShare)
    || (op.grp i).any (fun r => !p.groupOk p.order r)
    || (match shareRule op.kind ((op.src p i).map p.tag) with
      | none => true
      | some k => decide (op.kind ≠ .own) && (op.dst p i).any (fun r => (destTag p.order k r).isNone && r.group p.order != 96))

/-- The word is ILLEGAL (R240, R248). -/
def PvuOp.illegal (op : PvuOp) (p : Pvu) (i : PvuWord) : Bool := !op.use.fits i || !op.ok p i || (op.vendor && !p.vendor)

/-- The causes that an instruction raises as a whole, the highest of R228 first; beyond the end of the program there is no
instruction (R248). -/
def PvuOp.check (op : PvuOp) (p : Pvu) (i : PvuWord) : Option Nat :=
  let bad := op.illegal p i
  if p.progLen ≤ p.pc then some 0x01
  else if i.upset = .residue then some 0x09
  else if op.bite p i || (op.use.p && (!op.perElem || bad) && p.predBites i.pg.toNat (wOf i)) || (bad && op.biteFirst p i) then some 0x08
  else if op.shareBreach p i || op.breach p i then some 0x06
  else if op.needsUnmask && !p.vendor && !p.unmaskOk then some 0x07
  else if bad then some 0x01
  else if op.modular i && !p.modOk i (decide (op.cls = 1)) then some 0x04
  else none

/-- The destinations take the tag that the sources give them (R210). -/
def PvuOp.retag (op : PvuOp) (before p : Pvu) (i : PvuWord) : Pvu :=
  if op.kind = .own then p
  else
    match shareRule op.kind ((op.src before i).map before.tag) with
    | none => p
    | some k => (op.dst before i).foldl (fun q r => q.setTag r ((destTag before.order k r).getD .pub)) p

-- Exceptions (R225 to R230).

/-- The cause can be resumed (R228). -/
def resumable (c : Nat) : Bool := [0x02, 0x03, 0x04, 0x05].contains c

/-- Job pages as spans of the local store (R213). -/
def pageBase (g : Nat) : Nat := 65536 + 4096 * g

/-- The span of a job page: on a pinned PVU, of an area of 256 bytes above the key (R218, R362). -/
def Pvu.areaBase (p : Pvu) (g : Nat) : Nat := match p.pin with | some (_, len) => len + 256 * g | none => pageBase g
def Pvu.areaSize (p : Pvu) : Nat := if p.pin.isSome then 256 else 4096

/-- The zero engine clears pages (R216). -/
def clearPages (p : Pvu) (gs : List Nat) : Pvu :=
  let inside (a : Nat) : Bool := gs.any (fun g => decide (p.areaBase g ≤ a) && decide (a < p.areaBase g + p.areaSize))
  { p with
    ls := p.ls.filter (fun c => !inside c.1),
    lsTag := p.lsTag.filter (fun c => !inside (c.1 * 1024)),
    lsScorch := p.lsScorch.filter (fun c => !inside (c.1 * 8)),
    used := p.used.filter (fun g => !gs.contains g),
    cnt := vmod p.cnt 9 0 (· + gs.length) }

/-- A job's pages on a PVU are cleared. -/
def State.clearJobPages (s : State) (n : Nat) : State :=
  let p := s.getPvu n
  s.setPvu n { clearPages p p.jobPages with jobPages := [] }

/-- What is booked again grows by a PVU part or by BNE runs (R399). -/
def addRedo (r : Option (Bool × Nat)) (pvu : Bool) (runs : Nat) : Option (Bool × Nat) :=
  some (match r with | none => (pvu, runs) | some x => (x.1 || pvu, x.2 + runs))

/-- A computation fault in a segment: its job is retried (R40, R588). -/
def State.computeFault (s : State) (src : Nat) (eng : Nat) (job : Option Nat) : State :=
  let s1 := match job with
    | none => s
    | some id => s.modJob id (fun j => {
        j with
        faulted := true, faultSrc := src, faultEng := if j.faultEng.isNone then some eng else j.faultEng, redo := addRedo j.redo (decide (eng < 16)) (b2n (decide (16 ≤ eng))) })
  s1.raise (s1.jobEvent src job 0 0)

/-- One transfer to an engine (R17, R612): when a beat is lost, the part of the job that is to run there fails as a computation fault
(R588); the second failure counts its event as the first does. -/
def State.engineArrives (eng : Nat) (job : Option Nat) (s : State) : Arrival → State
  | .fabric b r =>
    let x := s.beatArrives b r
    if x.2 then x.1.computeFault 0x5101 eng job else x.1
  | .keyPath w r => s.shareArrives w r

/-- The transfers to an engine, in the order of their arrival. -/
def State.engineArrivals (s : State) (eng : Nat) (job : Option Nat) (l : List Arrival) : State := l.foldl (State.engineArrives eng job) s

/-- Status and detail of a pattern's exception that is not resumed (R230); none = a computation fault. -/
def patternOutcome (e : Exc) (epc : Nat) : Option (Nat × Nat) :=
  if e.cause = 0x0A then some (0x00B0, 0)
  else if e.cause = 0x08 then some (0x0050, 0x4001)
  else if e.cause = 0x09 then none
  else some (0x00B3, e.cause + 65536 * (epc % 65536) + 2 ^ 32 * (e.eidx % 512))

/-- The same for a vendor kernel. -/
def vendorOutcome (e : Exc) : Option (Nat × Nat) := if e.cause = 0x08 then some (0x0050, 0x4001) else none

/-- The function number of the job in a PVU's segment. -/
def State.segFn (s : State) (p : Pvu) : Nat := match p.jobId with | some id => (s.getJob id).fn | none => 0

/-- Pattern ID or kernel ID of the job in a PVU's segment. -/
def State.segId (s : State) (p : Pvu) : Nat :=
  match p.jobId with
  | none => 0
  | some id => if p.vendor then Config.kernelId (s.getJob id).opcode % 65536 else p16 (s.getJob id).par 0

/-- The set of a key that a PVU's segment has read a scorched word of is lost there (R315). -/
def State.dropSet (s : State) (n : Nat) : State :=
  let p := s.getPvu n
  if p.mcScorched then { s with trd := { s.trd with sets := s.trd.sets.filter (fun x =>
    !(decide (x.1 = n) && decide (x.2.1 = p.mcHandle) && decide (x.2.2.2.1 = p.mcBlocks))) } }
  else s

/-- An exception ends the job (R230, R234, R236). -/
def State.segmentFails (s : State) (n : Nat) (e : Exc) (epc : Nat) : State :=
  let p := s.getPvu n
  let s1 := s.setPvu n { p with phase := .dummy, segMode := 0, segEnd := .trapped e.cause epc e.eidx, pc := epc }
  let s2 := if e.cause = 0x08 then (s1.poisonEvent n).dropSet n else s1
  match (if p.vendor then vendorOutcome e else patternOutcome e epc) with
  | none => (s2.computeFault ((0x10 + n) * 256 + b2n e.kuCheck) n p.jobId).clearJobPages n
  | some (st, d) =>
    let q := s2.getPvu n
    let s3 := s2.setPvu n { q with
      excLast := BitVec.ofNat 32 (e.cause * 2 ^ 24 + s.segFn p % 256 * 65536 + s.segId p),
      excPc := BitVec.ofNat 32 (b2n p.vendor * 2 ^ 31 + epc % 65536) }
    let s4 := match p.jobId with
      | none => s3
      | some id => s3.modJob id (fun j => { j with failed := some (j.failed.getD (st, d)) })
    let s5 := (s4.clearJobPages n).cause (0x10 + n) 0
    if p.vendor then s5 else s5.raise (s5.jobEvent ((0x10 + n) * 256 + 5) p.jobId 0 st)

/-- Exception entry (R225, R229): a resumable cause enters a pattern's handler; any other ends the segment. A resumable cause
in a handler is HANDLER_NESTED. -/
def State.pvuTrap (s : State) (n start : Nat) (p : Pvu) (e0 : Exc) : State :=
  let e := if p.phase = .handler ∧ resumable e0.cause then { e0 with cause := 0x0B } else e0
  let addr := if e.cause = 0x02 ∨ e.cause = 0x03 then e.eaddr % 2 ^ 32 else 0
  let p1 := { p with
    exc := { ecause := e.cause, epc := p.pc, eidx := e.eidx, eaddr := addr, epart := e.epart },
    resumeAt := 0, cyc := start + 12, cnt := vmod p.cnt 6 0 (· + 1),
    bob := { p.bob.trap e.cause with lastCause := e.cause, excTraps := satAdd p.bob.excTraps 1 0xFFFF } }
  let s1 := (s.setPvu n p1).event (0x10 + n) 5 (some (s.segFn p)) 1
  match p.ehandler with
  | some h =>
    if resumable e.cause && !p.vendor then s1.setPvu n { p1 with phase := .handler, pc := h }
    else s1.segmentFails n e p.pc
  | none => s1.segmentFails n e p.pc

/-- The declared worst case is reached (R222, R228). -/
def State.pvuOverrun (s : State) (n : Nat) : State :=
  let p := s.getPvu n
  let s1 := s.setPvu n { p with
    exc := { ecause := 0x0A, epc := p.pc }, bob := p.bob.fresh, cnt := vmod (vmod p.cnt 5 0 (· + 1)) 6 0 (· + 1) }
  let s2 := (s1.event (0x10 + n) 5 (some (s.segFn p)) 1).segmentFails n { cause := 0x0A } p.pc
  if p.vendor then s2
  else { s2 with trd := { s2.trd with
    plan := s2.trd.plan.filter (fun b => !(decide (b.job = p.jobId) && decide (p.jobId ≠ none) && decide (s.trd.edge < b.tick))) } }

-- Sampling (R675 to R677).

/-- A record of 32 bytes (R676); SEQ is put in when the record is kept. -/
def State.sampleRecord (s : State) (n : Nat) (p : Pvu) (op : PvuOp) (lat elem : Nat) (exc : Bool) (seq : Nat) : List Byte :=
  let secret := decide (0 < p.order)
  le 2 (s.segId p) ++ le 2 p.pc ++ le 1 op.cls ++ le 1 op.func
    ++ le 1 (b2n p.vendor + 2 * b2n secret + 4 * b2n exc) ++ le 1 n ++ le 4 lat
    ++ le 2 (if secret then 0 else elem) ++ zeros 2 ++ le 8 s.trd.edge ++ le 8 seq

/-- One function's sampling sees an instruction. -/
def State.sampleFor (s : State) (n : Nat) (p : Pvu) (op : PvuOp) (lat elem : Nat) (exc : Bool) (f : Nat) (x : Func) : State :=
  match x.sampling with
  | none => s
  | some m =>
    if !(decide (f = 0) || (decide (f = s.segFn p) && !p.vendor)) then s
    else
      let c := KV.getD m.counts n 0 + 1
      if c < m.interval then s.setFn f { x with sampling := some { m with counts := KV.set m.counts n c } }
      else
        let m1 := { m with counts := KV.set m.counts n 0 }
        let q := s.getPvu n
        if q.sampled < s.pmu.sampMax then
          (s.setPvu n { q with sampled := q.sampled + 1 }).setFn f { x with
            sampling := some { m1 with seq := m.seq + 1, waiting := m.waiting ++ [s.sampleRecord n p op lat elem exc (m.seq + 1)] } }
        else
          let s1 := s.setFn f { x with sampling := some m1 }
          (({ s1 with pmu := { s1.pmu with sampLost := satAdd s1.pmu.sampLost 1 0xFFFFFF } } : State).cause 0x70 1).raise
            { src := 0x7001 }

/-- Every sampling function sees an instruction. -/
def State.sampleAll (s : State) (n : Nat) (p : Pvu) (op : PvuOp) (lat elem : Nat) (exc : Bool) : State :=
  s.funcs.foldl (fun t f => if f.2.sampling.isSome then t.sampleFor n p op lat elem exc f.1 (t.getFn f.1) else t) s

-- The step.

/-- The address after an instruction; a target outside the program raises ILLEGAL (R248). -/
def nextPc (p : Pvu) (r : PvuRes) : Option Nat :=
  match r.jump with
  | none => some (p.pc + 1)
  | some t => if 0 ≤ t ∧ t < p.progLen then some t.toNat else none

/-- Words stored anew are free of injected errors, but for one that an armed injection meets (R572). -/
def State.injectStores (s : State) (n : Nat) (ws : List Nat) : State :=
  match (s.dropInjected (fun x => decide (x.1 = n) && ws.contains x.2.1)).injectAt n (fun a => ws.contains (a / 8)) with
  | (none, t) => t
  | (some (kind, a), t) =>
    if kind = 2 then
      let p := t.getPvu n
      t.setPvu n { p with lsScorch := KV.set p.lsScorch (a / 8) true }
    else if kind < 2 then t.keepInjected n (a / 8) (decide (kind = 1))
    else t

/-- What a routine with words of patch RAM takes in place of the published issue time and latency: its clocks, with the result as long
after them as the table has it (R501, R504). -/
def patchedTime (r : Option MicroRun) (t : Nat × Nat) : Nat × Nat :=
  match r with
  | none => t
  | some x => (x.clocks, x.clocks + (t.2 - t.1))

/-- The sequencer after the routine of an instruction, and the MRG words that a patched routine's words consume. -/
def Pvu.afterRoutine (p : Pvu) (r : Option MicroRun) : Pvu :=
  match r with
  | none => p
  | some x => { p with bob := p.bob.after x, mrgUsed := p.mrgUsed + 16 * x.rnd }

/-- Permutations and matrix-cache block reads of an instruction are counted (R233), and their events (R674). -/
def Pvu.counted (p : Pvu) (r : PvuRes) : Pvu := { p with cnt := vmod (vmod p.cnt 12 0 (· + r.perms)) 13 0 (· + r.mcBlocks) }
def State.workEvents (s : State) (n fn : Nat) (r : PvuRes) : State :=
  (s.event (0x10 + n) 6 (some fn) r.perms).event (0x10 + n) 7 (some fn) r.mcBlocks

/-- What an executed instruction leaves (R244, R246). -/
def State.pvuCommit (s : State) (n start : Nat) (op : PvuOp) (i : PvuWord) (p : Pvu) (r : PvuRes) (m : Option MicroRun) (pc : Nat) : State :=
  let (iss, lat) := patchedTime m (op.time p i)
  let done := start + lat + r.wait
  let q0 := op.retag p r.p i
  let q1 := (op.dst p i).foldl (fun q d => q.setReady done d) q0
  let q2 := { (q1.counted r).afterRoutine m with
    pc := pc, resumeAt := r.resumeAt, cyc := start + iss + r.wait + r.extra, lastDone := max p.lastDone done }
  let q3 := if r.fin = .none then q2 else { q2 with phase := .dummy, segMode := 0, segEnd := r.fin }
  let fn := s.segFn p
  let s1 := (s.setPvu n q3).workEvents n fn r
  let s2 := if p.vendor then s1 else s1.event (0x10 + n) 8 (some fn) 1
  let s3 := s2.injectStores n r.writes
  match r.fin, p.jobId with
  | .ended last, some id => if last || p.lastSeg then s3.modJob id (fun j => { j with ended := true }) else s3
  | _, _ => s3

/-- Words with an injected uncorrectable error are read scorched (R558). -/
def State.scorchInjected (s : State) (n : Nat) (p : Pvu) : Pvu :=
  s.mem.injected.foldl (fun q x => if x.1 = n ∧ x.2.2 then { q with lsScorch := KV.set q.lsScorch x.2.1 true } else q) p

-- The interleave of dummy instructions (R474 to R476, R508).

/-- Issued instructions of a group at a level; 0 at CM0: none is inserted (R474). -/
def dummyGroup (cm : Nat) : Nat := if cm = 0 then 0 else if cm = 1 then 8 else if cm = 2 then 4 else 2

/-- A DISPATCH in secret-handling code: at the first of a group the position is drawn from the MRG, and at that position a dummy instruction
of 1 to 4 issue cycles, drawn from the MRG as well, goes before the instruction (R475). Each draw takes a word of 128 bits. -/
def Pvu.interleave (p : Pvu) (eng : Nat) : Pvu :=
  let g := dummyGroup p.cm
  if g = 0 ∨ p.order = 0 then p
  else
    let p1 := if p.dummyCnt = 0 then { p with dummyAt := (Config.mrg eng p.mrgUsed).toNat % g, mrgUsed := p.mrgUsed + 16 } else p
    let p2 := if p1.dummyCnt = p1.dummyAt then
        { p1 with cyc := p1.cyc + 1 + (Config.mrg eng p1.mrgUsed).toNat % 4, mrgUsed := p1.mrgUsed + 16 } else p1
    { p2 with dummyCnt := (p2.dummyCnt + 1) % g }

/-- What the sequencer's conditions read (R503). -/
def Pvu.microEnv (p : Pvu) : MicroEnv := { eq := p.flagEq, ltu := p.flagLtu, lt := p.flagLt }

/-- An exception that the body of an instruction raises, or the share check of a masked unit that it makes permute (R204). -/
def PvuRes.fault (r : PvuRes) (p : Pvu) (i : PvuWord) (unit : Option Nat) : Option Exc :=
  match unit with
  | some u => if i.upset = .shares ∧ 0 < r.perms ∧ 0 < (vget p.ku u {}).order then some { cause := 0x09, kuCheck := true } else r.exc
  | none => r.exc

/-- An instruction on a PVU whose segment or handler runs. -/
def State.pvuRun (s : State) (op : PvuOp) (i : PvuWord) : State :=
  let n := i.pvu
  let p := (s.scorchInjected n (s.getPvu n)).interleave n
  let start := op.start p i
  if p.budget ≤ start then s.pvuOverrun n
  else
    let m := p.bob.routine false p.microEnv (pvuEntry op.cls op.func) p.budget
    match op.check p i with
    | some c => (s.pvuTrap n start p { cause := c }).sampleAll n p op 12 0 true
    | none =>
      if m.any (fun x => decide (x.ends = .fault)) then (s.pvuTrap n start p { cause := 0x09 }).sampleAll n p op 12 0 true
      else
        let r := op.body start n p i
        match r.fault p i (op.unit i), nextPc p r with
        | some e, _ =>
          (((s.workEvents n (s.segFn p) r).pvuTrap n start (r.p.counted r) e).sampleAll n p op 12 e.eidx true).readInjected n (fun w => r.reads.contains w)
        | none, none => (s.pvuTrap n start p { cause := 0x01 }).sampleAll n p op 12 0 true
        | none, some pc =>
          ((s.pvuCommit n start op i p r m pc).sampleAll n p op ((patchedTime m (op.time p i)).2 + r.wait)
            (if r.p.ffcount = p.ffcount then 0 else r.p.ffcount) false).readInjected n (fun w => r.reads.contains w)

/-- A row of the instruction table: the PVU executes the word at its program counter; outside a segment it runs dummy work
and executes none (R220). -/
def pvuExec (op : PvuOp) (i : PvuWord) (s : State) : Host.Outcome State Fault Refusal :=
  if !s.present (0x10 + i.pvu) || decide (16 ≤ i.pvu) then .fault .absentUnit
  else if !s.running || decide ((s.getPvu i.pvu).phase = .dummy) || (s.getPvu i.pvu).bob.parked then .next s
  else .next (s.pvuRun op i)

end Sys2Proof.Machine
end

