-- ==== Sys2Proof/Machine/PvuCtrl.lean ====
section
/-! DEFINITION. PVU instructions of the classes CTRL (R247 to R250), SCALAR (R251) and SHORT (R252). -/

namespace Sys2Proof.Machine

/-- Every bit of a register field; a P operand; an M operand; every bit of the immediate. -/
def anyReg : Nat := 31
def pReg : Nat := 7
def mReg : Nat := 3
def anyImm : Nat := 0x1FFFFFF

/-- A register field's number. -/
def rdN (i : PvuWord) : Nat := i.rd.toNat
def raN (i : PvuWord) : Nat := i.ra.toNat
def rbN (i : PvuWord) : Nat := i.rb.toNat
def rcN (i : PvuWord) : Nat := i.rc.toNat

/-- A group operand starts where R208 lets it. -/
def aligned (d n : Nat) : Bool := decide (n % shareAlign d = 0)

-- Powers and inverses modulo q (R197, R262).

/-- NOP. -/
def opNop : PvuOp := { cls := 0, func := 0x00, body := fun _ _ p _ => { p := p } }
/-- END (R246, R250). -/
def opEnd : PvuOp := {
  cls := 0, func := 0x01, use := { imm := 1 }, drain := true, body := fun _ _ p i =>
    { p := p, fin := .ended (decide (immU i = 1)) } }
/-- B (R248). -/
def opB : PvuOp := {
  cls := 0, func := 0x02, use := { imm := anyImm }, body := fun _ _ p i =>
    { p := p, jump := some (p.pc + immS i), extra := 2 } }

/-- The conditions of BC on the flags (R247, R249). -/
def branchCond (p : Pvu) (c : Nat) : Bool :=
  if c = 0 then p.flagEq else if c = 1 then !p.flagEq else if c = 2 then p.flagLtu else if c = 3 then !p.flagLtu
  else if c = 4 then p.flagLt else !p.flagLt

/-- BC (R247). -/
def opBc : PvuOp := {
  cls := 0, func := 0x03, use := { rd := 31, imm := anyImm }, ok := fun _ i => decide (rdN i < 6), pub := fun _ => [.stat],
  bite := fun p _ => p.flagScorch, body := fun _ _ p i =>
    if branchCond p (rdN i) then { p := p, jump := some (p.pc + immS i), extra := 2 } else { p := p } }
/-- LOOP (R247). -/
def opLoop : PvuOp := {
  cls := 0, func := 0x04, use := { ra := anyReg, imm := anyImm }, pub := fun i => [.x (raN i)], dst := fun _ i => [.x (raN i)],
  bite := fun p i => p.getXk (raN i), body := fun _ _ p i =>
    let q := p.putX (raN i) ((p.getX (raN i) + (2 ^ 64 - 1)) % 2 ^ 64, false)
    if q.getX (raN i) ≠ 0 then { p := q, jump := some (p.pc + immS i), extra := 2 } else { p := q } }
/-- CALL: a return stack of 8 entries (R248). -/
def opCall : PvuOp := {
  cls := 0, func := 0x05, use := { imm := anyImm }, ok := fun p _ => decide (p.retStack.length < 8), time := fun _ _ => (3, 3),
  body := fun _ _ p i => { p := { p with retStack := (p.pc + 1) :: p.retStack }, jump := some (p.pc + immS i) } }
/-- RET (R248). -/
def opRet : PvuOp := {
  cls := 0, func := 0x06, ok := fun p _ => decide (p.retStack ≠ []), time := fun _ _ => (3, 3), body := fun _ _ p _ =>
    { p := { p with retStack := p.retStack.drop 1 }, jump := some ((p.retStack.headD 0 : Nat) : Int) } }

/-- The transform length that IMM[1:0] selects. -/
def nttLen (n : Nat) : Nat := if n = 0 then 256 else if n = 1 then 512 else 1024

/-- The checks of a modulus context (R197). -/
def modCheck (q omega n : Nat) (incomplete : Bool) : Bool :=
  decide (q % 2 = 1) && decide (3 ≤ q) && decide (q < 2 ^ 31) && decide (omega < q)
    && decide (powMod q omega (if incomplete then n / 2 else n) = q - 1)

/-- MODSET (R197). -/
def opModset : PvuOp := {
  cls := 0, func := 0x08, use := { rd := mReg, ra := anyReg, rb := anyReg, imm := 7 }, ok := fun _ i => decide (immU i % 4 < 3),
  pub := fun i => [.x (raN i), .x (rbN i)], dst := fun _ i => [.m (rdN i)], time := fun _ _ => (40, 40), body := fun _ _ p i =>
    let q := p.getX (raN i)
    let w := p.getX (rbN i)
    let n := nttLen (immU i % 4)
    let inc := decide (immU i / 4 % 2 = 1)
    if modCheck q w n inc then
      { p := { p with m := vset p.m (rdN i) { valid := true, q := q, n := n, incomplete := inc, omega := w } } }
    else { p := p, exc := some { cause := 0x04 } } }

/-- Bytes of elements of 16 bits from a byte string, for a whole register. -/
def putBytesL (p : Pvu) (n : Nat) (bs : List Byte) (k : Bool) : Pvu :=
  { p with l := vset p.l n (BitVec.ofNat 8192 (unLe bs)), lScorch := vset p.lScorch n (if k then BitVec.allOnes 256 else 0) }
def putBytesS (p : Pvu) (n : Nat) (bs : List Byte) (k : Bool) : Pvu :=
  { p with s := vset p.s n (BitVec.ofNat 128 (unLe bs)), sScorch := vset p.sScorch n (if k then BitVec.allOnes 4 else 0) }

/-- The file of KLOAD's destination and the bytes of a share. -/
def kloadL (i : PvuWord) : Bool := decide (immU i / 65536 % 2 = 0)
def kloadReg (i : PvuWord) : Reg := if kloadL i then .l (rdN i) else .s (rdN i)
def kloadSize (i : PvuWord) : Nat := if kloadL i then 1024 else 16

/-- One share of the key enters its register with its tag (R209). -/
def kloadShare (i : PvuWord) (p : Pvu) (k : Nat) : Pvu :=
  let bs := slice (p.keyShares.getD k []) (immU i % 65536) (kloadSize i)
  let r := (kloadReg i).plus k
  let q := if kloadL i then putBytesL p (rdN i + k) bs false else putBytesS p (rdN i + k) bs false
  q.setTag r (.share k (r.group p.order))

/-- KLOAD (R209, R247, R248). -/
def opKload : PvuOp := {
  cls := 0, func := 0x09, use := { rd := anyReg, imm := 0x1FFFF }, kind := .own,
  ok := fun p i => decide (immU i % 16 = 0) && aligned p.order (rdN i) && decide (p.keyShares ≠ []),
  dst := fun p i => groupRegs p.order (kloadReg i), bite := fun p _ => p.keyScorched,
  time := fun p i => let n := (p.order + 1) * (if kloadL i then 4 else 1); (n, n + 4), body := fun _ _ p i =>
    let o := immU i % 65536
    if (p.keyShares.headD []).length < o + kloadSize i then { p := p, exc := some { cause := 0x02, eaddr := o } }
    else { p := (List.range (p.order + 1)).foldl (kloadShare i) p } }

/-- SYSRD (R247). -/
def opSysrd : PvuOp := {
  cls := 0, func := 0x0A, use := { rd := anyReg, imm := anyImm }, ok := fun _ i => decide (immU i < 4), dst := fun _ i => [.x (rdN i)],
  body := fun _ _ p i =>
    let v := if immU i = 0 then p.order else if immU i = 1 then p.segIndex else if immU i = 2 then p.jobPages.length
      else if p.signSlot then p.attempt else 0
    { p := p.putX (rdN i) (v, false) } }

/-- VSTAT (R249). -/
def Pvu.vstat (p : Pvu) : Nat := p.ffcount % 1024 + 65536 * (b2n p.flagEq + 2 * b2n p.flagLtu + 4 * b2n p.flagLt)

/-- RDSTAT (R247). -/
def opRdstat : PvuOp := {
  cls := 0, func := 0x0B, use := { rd := anyReg }, pub := fun _ => [.stat], dst := fun _ i => [.x (rdN i)], body := fun _ _ p i =>
    { p := p.putX (rdN i) (p.vstat, p.flagScorch) } }
/-- RESUME (R229). -/
def opResume : PvuOp := {
  cls := 0, func := 0x10, ok := fun p _ => decide (p.phase = .handler), time := fun _ _ => (4, 4), body := fun _ _ p _ =>
    { p := { p with phase := .running, cnt := vmod p.cnt 7 0 (· + 1), bob := p.bob.restore }, jump := some (p.exc.epc : Int),
      resumeAt := if p.exc.epart then p.exc.eidx else 0 } }
/-- SKIP (R229). -/
def opSkip : PvuOp := {
  cls := 0, func := 0x11, ok := fun p _ => decide (p.phase = .handler), time := fun _ _ => (4, 4), body := fun _ _ p _ =>
    { p := { p with phase := .running, bob := p.bob.discard }, jump := some ((p.exc.epc + 1 : Nat) : Int) } }
/-- FAIL (R229). -/
def opFail : PvuOp := { cls := 0, func := 0x12, body := fun _ _ p _ => { p := { p with bob := p.bob.discard }, exc := some { cause := 0x0C } } }
/-- ACCEPT and REJECT (R221, R247). -/
def opAccept : PvuOp := { cls := 0, func := 0x20, vendor := true, body := fun _ _ p _ => { p := p, fin := .attempt true } }
def opReject : PvuOp := { cls := 0, func := 0x21, vendor := true, body := fun _ _ p _ => { p := p, fin := .attempt false } }

def execPvuNop (i : PvuWord) (s : State) : Host.Outcome State Fault Refusal := pvuExec opNop i s
def execPvuEnd (i : PvuWord) (s : State) : Host.Outcome State Fault Refusal := pvuExec opEnd i s
def execBrB (i : PvuWord) (s : State) : Host.Outcome State Fault Refusal := pvuExec opB i s
def execBrC (i : PvuWord) (s : State) : Host.Outcome State Fault Refusal := pvuExec opBc i s
def execLoop (i : PvuWord) (s : State) : Host.Outcome State Fault Refusal := pvuExec opLoop i s
def execCall (i : PvuWord) (s : State) : Host.Outcome State Fault Refusal := pvuExec opCall i s
def execRet (i : PvuWord) (s : State) : Host.Outcome State Fault Refusal := pvuExec opRet i s
def execModset (i : PvuWord) (s : State) : Host.Outcome State Fault Refusal := pvuExec opModset i s
def execKload (i : PvuWord) (s : State) : Host.Outcome State Fault Refusal := pvuExec opKload i s
def execSysrd (i : PvuWord) (s : State) : Host.Outcome State Fault Refusal := pvuExec opSysrd i s
def execRdstat (i : PvuWord) (s : State) : Host.Outcome State Fault Refusal := pvuExec opRdstat i s
def execResume (i : PvuWord) (s : State) : Host.Outcome State Fault Refusal := pvuExec opResume i s
def execSkipH (i : PvuWord) (s : State) : Host.Outcome State Fault Refusal := pvuExec opSkip i s
def execFailH (i : PvuWord) (s : State) : Host.Outcome State Fault Refusal := pvuExec opFail i s
def execAccept (i : PvuWord) (s : State) : Host.Outcome State Fault Refusal := pvuExec opAccept i s
def execReject (i : PvuWord) (s : State) : Host.Outcome State Fault Refusal := pvuExec opReject i s

-- Scalar (R251).

/-- Xd := f(Xa, Xb). -/
def scalar2 (func : Nat) (k : Kind) (lat : Nat) (f : Nat → Nat → Nat) : PvuOp := {
  cls := 1, func := func, use := { rd := anyReg, ra := anyReg, rb := anyReg }, kind := k,
  src := fun _ i => [.x (raN i), .x (rbN i)], dst := fun _ i => [.x (rdN i)], time := fun _ _ => (1, lat), body := fun _ _ p i =>
    { p := p.putX (rdN i) (f (p.getX (raN i)) (p.getX (rbN i)), p.getXk (raN i) || p.getXk (rbN i)) } }

/-- Xd := f(Xa, IMM). -/
def scalarI (func : Nat) (k : Kind) (f : Nat → PvuWord → Nat) : PvuOp := {
  cls := 1, func := func, use := { rd := anyReg, ra := anyReg, imm := anyImm }, kind := k, src := fun _ i => [.x (raN i)],
  dst := fun _ i => [.x (rdN i)], body := fun _ _ p i => { p := p.putX (rdN i) (f (p.getX (raN i)) i, p.getXk (raN i)) } }

/-- Xd := f(Xa, Xb) mod q; the multipliers take bits 30:0 (R199, R242). -/
def scalarM (func : Nat) (k : Kind) (lat : Nat) (f : Nat → Nat → Nat) : PvuOp := {
  cls := 1, func := func, use := { rd := anyReg, ra := anyReg, rb := anyReg, mc := true }, kind := k, modular := fun _ => true,
  src := fun _ i => [.x (raN i), .x (rbN i)], dst := fun _ i => [.x (rdN i)], time := fun _ _ => (1, lat), body := fun _ _ p i =>
    let q := (vget p.m i.mc.toNat {}).q
    { p := p.putX (rdN i) (f (p.getX (raN i) % 2 ^ 31) (p.getX (rbN i) % 2 ^ 31) % q, p.getXk (raN i) || p.getXk (rbN i)) } }

/-- A number as 64 bits of two's complement. -/
def mod64 (v : Int) : Nat := (v % 2 ^ 64).toNat

/-- A 64-bit value read as signed. -/
def signed64 (v : Nat) : Int := (BitVec.ofNat 64 v).toInt

def opAddX : PvuOp := scalar2 0x00 .l 1 (fun a b => (a + b) % 2 ^ 64)
def opSubX : PvuOp := scalar2 0x01 .l 1 (fun a b => (a + (2 ^ 64 - b)) % 2 ^ 64)
def opAndX : PvuOp := scalar2 0x02 .l1 1 (fun a b => a &&& b)
def opOrX : PvuOp := scalar2 0x03 .l1 1 (fun a b => a ||| b)
def opXorX : PvuOp := scalar2 0x04 .l 1 (fun a b => a ^^^ b)
def opShlX : PvuOp := scalar2 0x05 .lp 1 (fun a b => a * 2 ^ (b % 64) % 2 ^ 64)
def opShrX : PvuOp := scalar2 0x06 .lp 1 (fun a b => a / 2 ^ (b % 64))
def opSarX : PvuOp := scalar2 0x07 .lp 1 (fun a b => ((BitVec.ofNat 64 a).sshiftRight (b % 64)).toNat)
def opMulX : PvuOp := scalar2 0x08 .l1 4 (fun a b => a * b % 2 ^ 64)
def opMulhuX : PvuOp := scalar2 0x09 .n 4 (fun a b => a * b / 2 ^ 64)
def opAddiX : PvuOp := scalarI 0x0A .l (fun a i => mod64 (a + immS i))
def opLiX : PvuOp := {
  cls := 1, func := 0x0B, use := { rd := anyReg, imm := anyImm }, dst := fun _ i => [.x (rdN i)], body := fun _ _ p i =>
    { p := p.putX (rdN i) (mod64 (immS i), false) } }
def opLisX : PvuOp := scalarI 0x0C .lp (fun a i => (a * 2 ^ 25 % 2 ^ 64) ||| immU i)

/-- The flags of a comparison (R251). -/
def setFlags (p : Pvu) (a b : Nat) (k : Bool) : Pvu :=
  { p with flagEq := decide (a = b), flagLtu := decide (a < b), flagLt := decide (signed64 a < signed64 b), flagScorch := k }

def opScmp : PvuOp := {
  cls := 1, func := 0x0D, use := { ra := anyReg, rb := anyReg }, src := fun _ i => [.x (raN i), .x (rbN i)], dst := fun _ _ => [.stat],
  body := fun _ _ p i =>
    { p := setFlags p (p.getX (raN i)) (p.getX (rbN i)) (p.getXk (raN i) || p.getXk (rbN i)) } }
def opScmpi : PvuOp := {
  cls := 1, func := 0x0E, use := { ra := anyReg, imm := anyImm }, src := fun _ i => [.x (raN i)], dst := fun _ _ => [.stat],
  body := fun _ _ p i => { p := setFlags p (p.getX (raN i)) (mod64 (immS i)) (p.getXk (raN i)) } }
def opXmmul : PvuOp := scalarM 0x0F .l1 4 (fun a b => a * b)
def opXmadd : PvuOp := scalarM 0x10 .l 2 (fun a b => a + b)

def execAddX (i : PvuWord) (s : State) : Host.Outcome State Fault Refusal := pvuExec opAddX i s
def execSubX (i : PvuWord) (s : State) : Host.Outcome State Fault Refusal := pvuExec opSubX i s
def execAndX (i : PvuWord) (s : State) : Host.Outcome State Fault Refusal := pvuExec opAndX i s
def execOrX (i : PvuWord) (s : State) : Host.Outcome State Fault Refusal := pvuExec opOrX i s
def execXorX (i : PvuWord) (s : State) : Host.Outcome State Fault Refusal := pvuExec opXorX i s
def execShlX (i : PvuWord) (s : State) : Host.Outcome State Fault Refusal := pvuExec opShlX i s
def execShrX (i : PvuWord) (s : State) : Host.Outcome State Fault Refusal := pvuExec opShrX i s
def execSarX (i : PvuWord) (s : State) : Host.Outcome State Fault Refusal := pvuExec opSarX i s
def execMulX (i : PvuWord) (s : State) : Host.Outcome State Fault Refusal := pvuExec opMulX i s
def execMulhuX (i : PvuWord) (s : State) : Host.Outcome State Fault Refusal := pvuExec opMulhuX i s
def execAddiX (i : PvuWord) (s : State) : Host.Outcome State Fault Refusal := pvuExec opAddiX i s
def execLiX (i : PvuWord) (s : State) : Host.Outcome State Fault Refusal := pvuExec opLiX i s
def execLisX (i : PvuWord) (s : State) : Host.Outcome State Fault Refusal := pvuExec opLisX i s
def execScmp (i : PvuWord) (s : State) : Host.Outcome State Fault Refusal := pvuExec opScmp i s
def execScmpi (i : PvuWord) (s : State) : Host.Outcome State Fault Refusal := pvuExec opScmpi i s
def execXmmul (i : PvuWord) (s : State) : Host.Outcome State Fault Refusal := pvuExec opXmmul i s
def execXmadd (i : PvuWord) (s : State) : Host.Outcome State Fault Refusal := pvuExec opXmadd i s

-- Short vectors (R252).

/-- Every width. -/
def allW : List Nat := [0, 1, 2]

/-- Sd := f(Sa, Sb) per element. -/
def short2 (func : Nat) (k : Kind) (f : Nat → Nat → Nat) : PvuOp := {
  cls := 2, func := func, use := { w := allW, rd := anyReg, ra := anyReg, rb := anyReg }, kind := k,
  src := fun _ i => [.s (raN i), .s (rbN i)], dst := fun _ i => [.s (rdN i)], body := fun _ _ p i =>
    { p := p.putS (rdN i) (wOf i) (((p.getS (raN i) (wOf i)).zip (p.getS (rbN i) (wOf i))).map
        (fun q => some (f q.1.1 q.2.1, q.1.2 || q.2.2))) } }

/-- Elements of an S and of an L register. -/
def countS (i : PvuWord) : Nat := 8 / 2 ^ wOf i
def countL (i : PvuWord) : Nat := 512 / 2 ^ wOf i

/-- Only element `e` of `n` is written. -/
def onlyE (n e : Nat) (v : Elem) : List (Option Elem) := (List.range n).map (fun k => if k = e then some v else none)

def opSmov : PvuOp := {
  cls := 2, func := 0x00, use := { w := allW, rd := anyReg, ra := anyReg }, kind := .l, src := fun _ i => [.s (raN i)],
  dst := fun _ i => [.s (rdN i)], body := fun _ _ p i => { p := p.putS (rdN i) (wOf i) ((p.getS (raN i) (wOf i)).map some) } }
def opSxor : PvuOp := short2 0x01 .l (fun a b => a ^^^ b)
def opSand : PvuOp := short2 0x02 .l1 (fun a b => a &&& b)
def opSor : PvuOp := short2 0x03 .l1 (fun a b => a ||| b)
def opSadd : PvuOp := short2 0x04 .l (fun a b => a + b)
def opSins : PvuOp := {
  cls := 2, func := 0x05, use := { w := allW, rd := anyReg, ra := anyReg, imm := anyImm }, kind := .l1,
  ok := fun _ i => decide (immU i < countS i), src := fun _ i => [.s (rdN i), .x (raN i)], dst := fun _ i => [.s (rdN i)],
  body := fun _ _ p i =>
    { p := p.putS (rdN i) (wOf i) (onlyE (countS i) (immU i) (p.getX (raN i) % 2 ^ wBits (wOf i), p.getXk (raN i))) } }
def opSext : PvuOp := {
  cls := 2, func := 0x06, use := { w := allW, rd := anyReg, ra := anyReg, imm := anyImm }, kind := .l,
  ok := fun _ i => decide (immU i < countS i), src := fun _ i => [.s (raN i)], dst := fun _ i => [.x (rdN i)], body := fun _ _ p i =>
    { p := p.putX (rdN i) ((p.getS (raN i) (wOf i)).getD (immU i) (0, false)) } }
def opSbcast : PvuOp := {
  cls := 2, func := 0x07, use := { w := allW, rd := anyReg, ra := anyReg }, kind := .l, src := fun _ i => [.x (raN i)],
  dst := fun _ i => [.s (rdN i)], body := fun _ _ p i =>
    { p := p.putS (rdN i) (wOf i) (List.replicate (countS i) (some (p.getX (raN i) % 2 ^ wBits (wOf i), p.getXk (raN i)))) } }

def execSmov (i : PvuWord) (s : State) : Host.Outcome State Fault Refusal := pvuExec opSmov i s
def execSxor (i : PvuWord) (s : State) : Host.Outcome State Fault Refusal := pvuExec opSxor i s
def execSand (i : PvuWord) (s : State) : Host.Outcome State Fault Refusal := pvuExec opSand i s
def execSor (i : PvuWord) (s : State) : Host.Outcome State Fault Refusal := pvuExec opSor i s
def execSadd (i : PvuWord) (s : State) : Host.Outcome State Fault Refusal := pvuExec opSadd i s
def execSins (i : PvuWord) (s : State) : Host.Outcome State Fault Refusal := pvuExec opSins i s
def execSext (i : PvuWord) (s : State) : Host.Outcome State Fault Refusal := pvuExec opSext i s
def execSbcast (i : PvuWord) (s : State) : Host.Outcome State Fault Refusal := pvuExec opSbcast i s

end Sys2Proof.Machine
end

