-- ==== Sys2Proof/Machine/PvuLong.lean ====
section
/-! DEFINITION. PVU instructions of the class LONG (R253 to R255). -/

namespace Sys2Proof.Machine

/-- The q that MC names. -/
def qOf (p : Pvu) (i : PvuWord) : Nat := (vget p.m i.mc.toNat {}).q

/-- An operand of a modular instruction: bit 31 of a 32-bit element is ignored (R242). -/
def modIn (w v : Nat) : Nat := if w = 1 then v % 2 ^ 31 else v

/-- Pairs of elements combined; the scorch bits propagate element-wise (R232). -/
def zipE (f : Nat → Nat → Nat) (a b : List Elem) : List Elem := (a.zip b).map (fun q => (f q.1.1 q.2.1, q.1.2 || q.2.2))
def mapE (f : Nat → Nat) (a : List Elem) : List Elem := a.map (fun q => (f q.1, q.2))

/-- Ld := f(La, Lb) at width W, governed by PG. -/
def long2 (func : Nat) (k : Kind) (f : Nat → Nat → Nat → Nat) : PvuOp := {
  cls := 3, func := func, use := { w := allW, p := true, rd := anyReg, ra := anyReg, rb := anyReg }, kind := k,
  src := fun _ i => [.l (raN i), .l (rbN i)], dst := fun _ i => [.l (rdN i)], time := fun _ _ => (1, 2), body := fun _ _ p i =>
    { p := p.putActive i.pg.toNat (rdN i) (wOf i) (zipE (f (wBits (wOf i))) (p.getL (raN i) (wOf i)) (p.getL (rbN i) (wOf i))) } }

/-- Ld := f(La, IMM) at width W; `imm` says whether IMM[5:0] < W is used. -/
def long1 (func : Nat) (imm : Bool) (f : Nat → Nat → Nat → Nat) : PvuOp := {
  cls := 3, func := func, use := { w := allW, p := true, rd := anyReg, ra := anyReg, imm := if imm then 0x3F else 0 }, kind := .l,
  ok := fun _ i => !imm || decide (immU i < wBits (wOf i)),
  src := fun _ i => [.l (raN i)], dst := fun _ i => [.l (rdN i)], time := fun _ _ => (1, 2), body := fun _ _ p i =>
    { p := p.putActive i.pg.toNat (rdN i) (wOf i) (mapE (fun a => f (wBits (wOf i)) a (immU i)) (p.getL (raN i) (wOf i))) } }

/-- Ld := f(q, La, Lb), modular. -/
def longM (func : Nat) (k : Kind) (t : Nat × Nat) (f : Nat → Nat → Nat → Nat) : PvuOp := {
  cls := 3, func := func, use := { w := [0, 1], p := true, mc := true, rd := anyReg, ra := anyReg, rb := anyReg }, kind := k,
  modular := fun _ => true, src := fun _ i => [.l (raN i), .l (rbN i)], dst := fun _ i => [.l (rdN i)], time := fun _ _ => t,
  body := fun _ _ p i =>
    let w := wOf i
    { p := p.putActive i.pg.toNat (rdN i) w
        (zipE (fun a b => f (qOf p i) (modIn w a) (modIn w b)) (p.getL (raN i) w) (p.getL (rbN i) w)) } }

def opVmov : PvuOp := long1 0x00 false (fun _ a _ => a)
def opVadd : PvuOp := long2 0x01 .l (fun _ a b => a + b)
def opVsub : PvuOp := long2 0x02 .l (fun b x y => x + (2 ^ b - y))
def opVand : PvuOp := long2 0x03 .l1 (fun _ a b => a &&& b)
def opVor : PvuOp := long2 0x04 .l1 (fun _ a b => a ||| b)
def opVxor : PvuOp := long2 0x05 .l (fun _ a b => a ^^^ b)
def opVnot : PvuOp := long1 0x06 false (fun b a _ => 2 ^ b - 1 - a)
def opVshli : PvuOp := long1 0x07 true (fun _ a n => a * 2 ^ n)
def opVsrli : PvuOp := long1 0x08 true (fun _ a n => a / 2 ^ n)
def opVbcast : PvuOp := {
  cls := 3, func := 0x09, use := { w := allW, p := true, rd := anyReg, ra := anyReg }, kind := .l, src := fun _ i => [.x (raN i)],
  dst := fun _ i => [.l (rdN i)], time := fun _ _ => (1, 2), body := fun _ _ p i =>
    { p := p.putActive i.pg.toNat (rdN i) (wOf i) (List.replicate (countL i) (p.getX (raN i) % 2 ^ wBits (wOf i), p.getXk (raN i))) } }
def opVmadd : PvuOp := longM 0x0A .l (1, 2) (fun q a b => (a + b) % q)
def opVmsub : PvuOp := longM 0x0B .l (1, 2) (fun q a b => (a % q + (q - b % q)) % q)
def opVmneg : PvuOp := {
  cls := 3, func := 0x0C, use := { w := [0, 1], p := true, mc := true, rd := anyReg, ra := anyReg }, kind := .l,
  modular := fun _ => true, src := fun _ i => [.l (raN i)], dst := fun _ i => [.l (rdN i)], time := fun _ _ => (1, 2),
  body := fun _ _ p i =>
    let q := qOf p i
    { p := p.putActive i.pg.toNat (rdN i) (wOf i) (mapE (fun a => (q - modIn (wOf i) a % q) % q) (p.getL (raN i) (wOf i))) } }
def opVmmul : PvuOp := longM 0x0D .l1 (2, 4) (fun q a b => a * b % q)
def opVmmulx : PvuOp := {
  cls := 3, func := 0x0E, use := { w := [0, 1], p := true, mc := true, rd := anyReg, ra := anyReg, rb := anyReg }, kind := .l1,
  modular := fun _ => true, src := fun _ i => [.l (raN i), .x (rbN i)], dst := fun _ i => [.l (rdN i)], time := fun _ _ => (2, 4),
  body := fun _ _ p i =>
    let x := p.getX (rbN i) % 2 ^ 31
    { p := p.putActive i.pg.toNat (rdN i) (wOf i)
        ((p.getL (raN i) (wOf i)).map (fun a => (modIn (wOf i) a.1 * x % qOf p i, a.2 || p.getXk (rbN i)))) } }

/-- A comparison into a predicate (R254): both bits of a 64-bit element take the result; inactive elements give 0. -/
def compare (func : Nat) (f : Nat → Nat → Bool) : PvuOp := {
  cls := 3, func := func, use := { w := [1, 2], p := true, rd := pReg, ra := anyReg, rb := anyReg }, kind := .n,
  src := fun _ i => [.l (raN i), .l (rbN i)], dst := fun _ i => [.p (rdN i)], time := fun _ _ => (1, 2), body := fun _ _ p i =>
    let w := wOf i
    let r := ((zipE (fun a b => b2n (f a b)) (p.getL (raN i) w) (p.getL (rbN i) w)).zip (p.actives i.pg.toNat w)).map
      (fun q => if q.2 then q.1 else (0, false))
    { p := p.putP (rdN i) (if w = 2 then twice r else r) } }

def opVcmpeq : PvuOp := compare 0x0F (fun a b => decide (a = b))
def opVcmpltu : PvuOp := compare 0x10 (fun a b => decide (a < b))
def opVsel : PvuOp := {
  cls := 3, func := 0x11, use := { w := allW, p := true, rd := anyReg, ra := anyReg, rb := anyReg, rc := pReg }, kind := .l,
  src := fun _ i => [.l (raN i), .l (rbN i)], pub := fun i => [.p (rcN i)], dst := fun _ i => [.l (rdN i)],
  time := fun _ _ => (1, 2), body := fun _ _ p i =>
    let w := wOf i
    { p := p.putActive i.pg.toNat (rdN i) w ((((p.getL (raN i) w).zip (p.getL (rbN i) w)).zip (p.governing (rcN i) w)).map
        (fun q => ((if q.2.1 = 1 then q.1.1 else q.1.2).1, q.1.1.2 || q.1.2.2 || q.2.2))) } }
def opVperm : PvuOp := {
  cls := 3, func := 0x12, use := { w := allW, p := true, rd := anyReg, ra := anyReg, rb := anyReg }, kind := .lp,
  src := fun _ i => [.l (raN i), .l (rbN i)], dst := fun _ i => [.l (rdN i)],
  time := fun _ i => if wOf i = 0 then (4, 6) else (2, 4),
  bite := fun p i => ((p.getL (rbN i) (wOf i)).zip (p.actives i.pg.toNat (wOf i))).any (fun q => q.1.2 && q.2),
  body := fun _ _ p i =>
    let a := p.getL (raN i) (wOf i)
    { p := p.putActive i.pg.toNat (rdN i) (wOf i) ((p.getL (rbN i) (wOf i)).map (fun b => a.getD (b.1 % countL i) (0, false))) } }
def opVext : PvuOp := {
  cls := 3, func := 0x13, use := { w := allW, rd := anyReg, ra := anyReg, imm := anyImm }, kind := .l,
  ok := fun _ i => decide (immU i < countL i), src := fun _ i => [.l (raN i)], dst := fun _ i => [.x (rdN i)],
  time := fun _ _ => (1, 2), body := fun _ _ p i =>
    { p := p.putX (rdN i) ((p.getL (raN i) (wOf i)).getD (immU i) (0, false)) } }
def opVins : PvuOp := {
  cls := 3, func := 0x14, use := { w := allW, rd := anyReg, ra := anyReg, imm := anyImm }, kind := .l1,
  ok := fun _ i => decide (immU i < countL i), src := fun _ i => [.l (rdN i), .x (raN i)], dst := fun _ i => [.l (rdN i)],
  time := fun _ _ => (1, 2), body := fun _ _ p i =>
    { p := p.putL (rdN i) (wOf i) (onlyE (countL i) (immU i) (p.getX (raN i) % 2 ^ wBits (wOf i), p.getXk (raN i))) } }

/-- The active elements of a register. -/
def activeElems (p : Pvu) (i : PvuWord) (n : Nat) : List Elem :=
  ((p.getL n (wOf i)).zip (p.actives i.pg.toNat (wOf i))).filterMap (fun q => if q.2 then some q.1 else none)

def opVred : PvuOp := {
  cls := 3, func := 0x15, use := { w := [0, 1], p := true, mc := true, rd := anyReg, ra := anyReg }, kind := .l,
  modular := fun _ => true, src := fun _ i => [.l (raN i)], dst := fun _ i => [.x (rdN i)], time := fun _ _ => (4, 8),
  body := fun _ _ p i =>
    let es := activeElems p i (raN i)
    { p := p.putX (rdN i) (es.foldl (fun n e => (n + modIn (wOf i) e.1) % qOf p i) 0, es.any (·.2)) } }

/-- Pd := f(Pa, Pb). -/
def pred2 (func : Nat) (f : Bool → Bool → Bool) : PvuOp := {
  cls := 3, func := func, use := { rd := pReg, ra := pReg, rb := pReg }, pub := fun i => [.p (raN i), .p (rbN i)],
  dst := fun _ i => [.p (rdN i)], body := fun _ _ p i =>
    { p := p.putP (rdN i) (zipE (fun a b => b2n (f (decide (a = 1)) (decide (b = 1)))) (p.getP (raN i)) (p.getP (rbN i))) } }

def opPand : PvuOp := pred2 0x20 (fun a b => a && b)
def opPor : PvuOp := pred2 0x21 (fun a b => a || b)
def opPxor : PvuOp := pred2 0x22 (fun a b => a != b)
def opPnot : PvuOp := {
  cls := 3, func := 0x23, use := { rd := pReg, ra := pReg }, pub := fun i => [.p (raN i)], dst := fun _ i => [.p (rdN i)],
  body := fun _ _ p i => { p := p.putP (rdN i) (mapE (fun a => 1 - a) (p.getP (raN i))) } }
def opPfirst : PvuOp := {
  cls := 3, func := 0x24, use := { rd := pReg, ra := anyReg }, pub := fun i => [.x (raN i)], dst := fun _ i => [.p (rdN i)],
  body := fun _ _ p i =>
    { p := p.putP (rdN i) ((List.range 256).map (fun b => (b2n (decide (b < p.getX (raN i))), p.getXk (raN i)))) } }
def opPcnt : PvuOp := {
  cls := 3, func := 0x25, use := { rd := anyReg, ra := pReg }, pub := fun i => [.p (raN i)], dst := fun _ i => [.x (rdN i)],
  body := fun _ _ p i =>
    { p := p.putX (rdN i) ((p.getP (raN i)).foldl (fun n b => n + b.1) 0, (p.getP (raN i)).any (·.2)) } }

def execVmov (i : PvuWord) (s : State) : Host.Outcome State Fault Refusal := pvuExec opVmov i s
def execVadd (i : PvuWord) (s : State) : Host.Outcome State Fault Refusal := pvuExec opVadd i s
def execVsub (i : PvuWord) (s : State) : Host.Outcome State Fault Refusal := pvuExec opVsub i s
def execVand (i : PvuWord) (s : State) : Host.Outcome State Fault Refusal := pvuExec opVand i s
def execVor (i : PvuWord) (s : State) : Host.Outcome State Fault Refusal := pvuExec opVor i s
def execVxor (i : PvuWord) (s : State) : Host.Outcome State Fault Refusal := pvuExec opVxor i s
def execVnot (i : PvuWord) (s : State) : Host.Outcome State Fault Refusal := pvuExec opVnot i s
def execVshli (i : PvuWord) (s : State) : Host.Outcome State Fault Refusal := pvuExec opVshli i s
def execVsrli (i : PvuWord) (s : State) : Host.Outcome State Fault Refusal := pvuExec opVsrli i s
def execVbcast (i : PvuWord) (s : State) : Host.Outcome State Fault Refusal := pvuExec opVbcast i s
def execVmadd (i : PvuWord) (s : State) : Host.Outcome State Fault Refusal := pvuExec opVmadd i s
def execVmsub (i : PvuWord) (s : State) : Host.Outcome State Fault Refusal := pvuExec opVmsub i s
def execVmneg (i : PvuWord) (s : State) : Host.Outcome State Fault Refusal := pvuExec opVmneg i s
def execVmmul (i : PvuWord) (s : State) : Host.Outcome State Fault Refusal := pvuExec opVmmul i s
def execVmmulx (i : PvuWord) (s : State) : Host.Outcome State Fault Refusal := pvuExec opVmmulx i s
def execVcmpeq (i : PvuWord) (s : State) : Host.Outcome State Fault Refusal := pvuExec opVcmpeq i s
def execVcmpltu (i : PvuWord) (s : State) : Host.Outcome State Fault Refusal := pvuExec opVcmpltu i s
def execVsel (i : PvuWord) (s : State) : Host.Outcome State Fault Refusal := pvuExec opVsel i s
def execVperm (i : PvuWord) (s : State) : Host.Outcome State Fault Refusal := pvuExec opVperm i s
def execVext (i : PvuWord) (s : State) : Host.Outcome State Fault Refusal := pvuExec opVext i s
def execVins (i : PvuWord) (s : State) : Host.Outcome State Fault Refusal := pvuExec opVins i s
def execVred (i : PvuWord) (s : State) : Host.Outcome State Fault Refusal := pvuExec opVred i s
def execPand (i : PvuWord) (s : State) : Host.Outcome State Fault Refusal := pvuExec opPand i s
def execPor (i : PvuWord) (s : State) : Host.Outcome State Fault Refusal := pvuExec opPor i s
def execPxor (i : PvuWord) (s : State) : Host.Outcome State Fault Refusal := pvuExec opPxor i s
def execPnot (i : PvuWord) (s : State) : Host.Outcome State Fault Refusal := pvuExec opPnot i s
def execPfirst (i : PvuWord) (s : State) : Host.Outcome State Fault Refusal := pvuExec opPfirst i s
def execPcnt (i : PvuWord) (s : State) : Host.Outcome State Fault Refusal := pvuExec opPcnt i s

end Sys2Proof.Machine
end

