-- ==== Sys2Proof/Machine/PvuMem.lean ====
section
/-! DEFINITION. The local store (R211, R213) and the PVU loads and stores (R256 to R259, R226, R227, R271). -/

namespace Sys2Proof.Machine

/-- A byte is stored; zero bytes are not listed (R216). -/
def lsPut (m : List Host.Cell) (a : Nat) (b : Byte) : List Host.Cell := if b = 0 then KV.erase m a else KV.set m a b

/-- The local store's canonical form: addresses rising, no zero byte listed. -/
def Pvu.lsWf (p : Pvu) : Bool := KV.sorted p.ls && p.ls.all (fun c => decide (c.2 ≠ 0))

/-- Bytes of a space (R213): a pinned PVU has only a job's area above its key (R218, R362). A pattern has no matrix-cache blocks (R257). -/
def spaceSize (p : Pvu) (sp : Nat) : Nat :=
  match p.pin with
  | some _ => if sp = 0 then p.jobPages.length * 256 else 0
  | none => if sp = 0 then p.jobPages.length * 4096 else if sp = 1 then 65536 else if p.vendor then p.mcBlocks * 1024 else 0

/-- The address of a JOB offset (R213). -/
def jobAddr (p : Pvu) (o : Nat) : Nat := p.areaBase (p.jobPages.getD (o / p.areaSize) 0) + o % p.areaSize

/-- The address of an offset in a space: the constant area from 0, the matrix cache from 0x9_0000 (R213). -/
def spaceAddr (p : Pvu) (sp o : Nat) : Nat :=
  if sp = 0 then jobAddr p o
  else if sp = 1 then o
  else 0x90000 + 1024 * (Config.cacheBlock p.mcKey p.mcBlocks (o / 1024) % 448) + o % 1024

/-- A byte of the matrix cache as a fill has computed it for a public key (R310): a block of 1 KiB holds one polynomial, a coefficient takes
four bytes (R213 gives the blocks their size; the order of the polynomials is that of Â by rows, PRESUMED). -/
def matrixByte (pk : List Byte) (o : Nat) : Byte :=
  let ps := if pk.length = 1312 then 1 else if pk.length = 1952 then 2 else 3
  (le 4 (((dsaSetPolys ps pk true).getD (o / 1024) []).getD (o % 1024 / 4) 0)).getD (o % 4) 0

/-- The byte at an offset of a space. -/
def readByte (p : Pvu) (sp o : Nat) : Byte :=
  if sp = 0 then KV.getD p.ls (jobAddr p o) 0 else if sp = 1 then Config.constByte o else matrixByte p.mcKey o

/-- The word at an offset of a space carries a scorch mark (R231). -/
def markAt (p : Pvu) (sp o : Nat) : Bool := KV.getD p.lsScorch (spaceAddr p sp o / 8) false

/-- An element of `n` bytes, with the mark of the words it touches. -/
def readElem (p : Pvu) (sp o n : Nat) : Elem :=
  (unLe ((List.range n).map (fun k => readByte p sp (o + k))), (List.range n).any (fun k => markAt p sp (o + k)))

/-- Tags of the blocks that `n` bytes touch (R211). -/
def blockTags (p : Pvu) (sp o n : Nat) : List ShareTag :=
  if sp = 0 then [KV.getD p.lsTag (jobAddr p o / 1024) .pub, KV.getD p.lsTag (jobAddr p (o + n - 1) / 1024) .pub] else [.pub]

/-- The space field of a local-store instruction, its base, and the stride form (R256). -/
def spaceOf (i : PvuWord) : Nat := immU i / 2 ^ 23
def baseOf (p : Pvu) (i : PvuWord) : Nat := mod64 (p.getX (raN i) + (BitVec.ofNat 23 (immU i)).toInt)

/-- How the elements of an access are addressed. -/
inductive AccessForm where
  | unit
  | strided
  | gather
  deriving DecidableEq, Repr

/-- One element of an access: index, offset, a scorched operand that bites. -/
structure Access where
  e    : Nat
  off  : Nat
  bite : Bool
  deriving DecidableEq, Repr

/-- The active elements of an access with their offsets (R256), from the element a resumed instruction goes on with. -/
def accesses (p : Pvu) (i : PvuWord) (f : AccessForm) : List Access :=
  let w := wBytes (wOf i)
  let base := baseOf p i
  let k0 := p.getXk (raN i)
  let idx : List Elem := match f with
    | .unit => (List.range (countL i)).map (fun e => (mod64 (base + e * w : Nat), k0))
    | .strided =>
      let st := signed64 (p.getX (rbN i))
      (List.range (countL i)).map (fun (e : Nat) => (mod64 (base + e * st), k0 || p.getXk (rbN i)))
    | .gather => (p.getL (rbN i) (wOf i)).map (fun b => (mod64 (base + b.1 * w : Nat), k0 || b.2))
  ((idx.zip (p.governing i.pg.toNat (wOf i))).zipIdx).filterMap (fun q =>
    if q.1.2.1 = 1 ∧ p.resumeAt ≤ q.2 then some { e := q.2, off := q.1.1.1, bite := q.1.1.2 || q.1.2.2 } else none)

/-- The element lies inside its space, and a store's in JOB (R257). -/
def inSpace (p : Pvu) (sp w : Nat) (store : Bool) (a : Access) : Bool :=
  decide (a.off + w ≤ spaceSize p sp) && (!store || decide (sp = 0))

/-- The cause of an element's fault, the highest of R228: POISON, SHARE_VIOLATION, ALIGN, LS_BOUNDS (R257). -/
def accessFault (p : Pvu) (sp w al : Nat) (f : AccessForm) (store : Bool) (a : Access) (breach : Bool) : Option Nat :=
  if a.bite then some 0x08
  else if inSpace p sp w store a && breach then some 0x06
  else if f = .unit ∧ a.off % al ≠ 0 then some 0x03
  else if !inSpace p sp w store a then some 0x02
  else none

/-- A breach of R211 at an element: a load of blocks with different tags, or whose share the destination cannot hold. -/
def loadBreach (p : Pvu) (sp w : Nat) (dst : Reg) (seen : List ShareTag) (a : Access) : Bool :=
  let ts := blockTags p sp a.off w ++ seen.take 1
  ts.any (fun t => decide (t ≠ ts.headD .pub))
    || (match ts.headD .pub with | .share k _ => decide (dst.pos p.order ≠ k) | .pub => false)

/-- A breach of R210: a share stored over another share of its group. -/
def storeBreach (p : Pvu) (w : Nat) (t : ShareTag) (a : Access) : Bool :=
  match t with
  | .pub => false
  | .share k g => (blockTags p 0 a.off w).any (fun x => match x with | .share k' g' => decide (g = g') && decide (k ≠ k') | .pub => false)

/-- The first element that faults, with its cause (R226, R273). -/
def firstLoadFault (p : Pvu) (sp w : Nat) (f : AccessForm) (dst : Reg) : List ShareTag → List Access → Option (Access × Nat)
  | _, [] => none
  | seen, a :: as =>
    match accessFault p sp w w f false a (loadBreach p sp w dst seen a) with
    | some c => some (a, c)
    | none => firstLoadFault p sp w f dst (if seen.isEmpty then blockTags p sp a.off w else seen) as

def firstStoreFault (p : Pvu) (sp w : Nat) (f : AccessForm) (t : ShareTag) : List Access → Option (Access × Nat)
  | [] => none
  | a :: as =>
    match accessFault p sp w w f true a (storeBreach p w t a) with
    | some c => some (a, c)
    | none => firstStoreFault p sp w f t as

/-- The tag that loaded blocks give a destination (R211). -/
def loadedTag (p : Pvu) (sp w : Nat) (dst : Reg) (as : List Access) : Option ShareTag :=
  match as with
  | [] => none
  | a :: _ => (match (blockTags p sp a.off w).headD .pub with
    | .share k _ => some (.share k (dst.group p.order))
    | .pub => some .pub)

/-- 64-bit words that an access touches. -/
def wordsOf (p : Pvu) (sp w : Nat) (as : List Access) : List Nat :=
  (as.flatMap (fun a => [spaceAddr p sp a.off / 8, spaceAddr p sp (a.off + w - 1) / 8])).eraseDups

/-- Matrix-cache blocks that an access reads (R233). -/
def mcBlocksOf (sp w : Nat) (as : List Access) : Nat :=
  if sp = 2 then (as.flatMap (fun a => [a.off / 1024, (a.off + w - 1) / 1024])).eraseDups.length else 0

/-- A scorched word of the matrix cache has been loaded (R315). -/
def Pvu.seen (p : Pvu) (sp w : Nat) (as : List Access) : Pvu :=
  if sp = 2 ∧ as.any (fun a => (readElem p sp a.off w).2) then { p with mcScorched := true } else p

/-- Elements are loaded into an L register. -/
def loadElems (p : Pvu) (i : PvuWord) (as : List Access) : Pvu :=
  let sp := spaceOf i
  let w := wBytes (wOf i)
  let q := (p.putL (rdN i) (wOf i) ((List.range (countL i)).map (fun e =>
    (as.find? (fun a => decide (a.e = e))).map (fun a => readElem p sp a.off w)))).seen sp w as
  match loadedTag p sp w (.l (rdN i)) as with
  | none => q
  | some t => q.setTag (.l (rdN i)) t

/-- One byte with its mark is stored. -/
def storeByte (m : List Host.Cell) (b : Nat × Byte × Bool) : List Host.Cell := lsPut m b.1 b.2.1

/-- Bytes with their marks: address, byte, mark. Words not wholly written keep their mark (R231). -/
def storeBytes (p : Pvu) (bs : List (Nat × Byte × Bool)) : Pvu :=
  let ws := (bs.map (fun b => b.1 / 8)).eraseDups
  let marked (w : Nat) : Bool := bs.any (fun b => decide (b.1 / 8 = w) && b.2.2)
  let whole (w : Nat) : Bool := (List.range 8).all (fun k => bs.any (fun b => decide (b.1 = 8 * w + k)))
  let plain := p.lsScorch.isEmpty && bs.all (fun b => !b.2.2)
  { p with
    ls := bs.foldl storeByte p.ls,
    lsScorch := if plain then [] else ws.foldl (fun m w =>
      if marked w then KV.set m w true else if whole w then KV.erase m w else m) p.lsScorch }

/-- The bytes of an element. -/
def elemBytes (p : Pvu) (w o : Nat) (v : Elem) : List (Nat × Byte × Bool) :=
  ((le w v.1).zipIdx).map (fun b => (jobAddr p (o + b.2), b.1, v.2))

/-- Blocks take the tag of a stored share (R211). -/
def tagBlocks (p : Pvu) (t : ShareTag) (w : Nat) (as : List Access) : Pvu :=
  match t with
  | .pub => p
  | .share _ _ => { p with lsTag := as.foldl (fun m a =>
      KV.set (KV.set m (jobAddr p a.off / 1024) t) (jobAddr p (a.off + w - 1) / 1024) t) p.lsTag }

/-- Elements of an L register are stored, the highest index last (R258). -/
def storeElems (p : Pvu) (i : PvuWord) (as : List Access) : Pvu :=
  let w := wBytes (wOf i)
  let v := p.getL (rdN i) (wOf i)
  tagBlocks (storeBytes p (as.flatMap (fun a => elemBytes p w a.off (v.getD a.e (0, false))))) (p.tag (.l (rdN i))) w as

/-- A fault at an element with what was committed below it (R226): nothing where a breach of the share rules forbids it, or
where the destination is a source. -/
def partialFault (p q : Pvu) (as : List Access) (a : Access) (c : Nat) (keep : Bool) (reads writes : List Nat) (blocks : Nat) : PvuRes :=
  let commit := keep && decide (c ≠ 0x06)
  let part := commit && (decide (0 < p.resumeAt) || as.any (fun x => decide (x.e < a.e)))
  { p := if commit then q else p, reads := reads, writes := if commit then writes else [], mcBlocks := blocks,
    exc := some { cause := c, eidx := a.e, eaddr := if c = 0x02 ∨ c = 0x03 then a.off % 2 ^ 32 else 0, epart := part } }

/-- A load into an L register (R226); `ff`: a first-fault load (R227). -/
def loadBody (f : AccessForm) (ff : Bool) (p : Pvu) (i : PvuWord) : PvuRes :=
  let sp := spaceOf i
  let w := wBytes (wOf i)
  let as := accesses p i f
  let same := decide (f = .gather) && decide (rdN i = rbN i)
  match firstLoadFault p sp w f (.l (rdN i)) [] as with
  | none =>
    let q := loadElems p i as
    { p := if ff then { q with ffcount := countL i } else q, reads := wordsOf p sp w as, mcBlocks := mcBlocksOf sp w as }
  | some (a, c) =>
    let below := as.filter (fun x => decide (x.e < a.e))
    let q := loadElems p i below
    if ff && !below.isEmpty then
      { p := { q with ffcount := a.e }, reads := wordsOf p sp w below, mcBlocks := mcBlocksOf sp w below }
    else partialFault p q as a c (!same) (wordsOf p sp w below) [] (mcBlocksOf sp w below)

/-- A store from an L register. -/
def storeBody (f : AccessForm) (p : Pvu) (i : PvuWord) : PvuRes :=
  let sp := spaceOf i
  let w := wBytes (wOf i)
  let as := accesses p i f
  match firstStoreFault p sp w f (p.tag (.l (rdN i))) as with
  | none => { p := storeElems p i as, writes := wordsOf p sp w as }
  | some (a, c) =>
    let below := as.filter (fun x => decide (x.e < a.e))
    partialFault p (storeElems p i below) as a c true [] (wordsOf p sp w below) 0

/-- Issue and latency of the forms (R259). -/
def accessTime (f : AccessForm) (i : PvuWord) : Nat × Nat :=
  if f = .unit then (1, 6) else if wOf i = 0 then (128, 133) else (64, 69)

/-- A scorched base, stride or index, or governing bit, bites at element 0 (R232). -/
def firstBites (f : AccessForm) (p : Pvu) (i : PvuWord) : Bool :=
  ((accesses { p with resumeAt := 0 } i f).head?.map (fun a => decide (a.e = 0) && a.bite)).getD false

/-- The operands that address: base, stride or indices (R210). -/
def accessRegs (f : AccessForm) (i : PvuWord) : List Reg :=
  match f with | .unit => [.x (raN i)] | .strided => [.x (raN i), .x (rbN i)] | .gather => [.x (raN i), .l (rbN i)]

def loadOp (func : Nat) (f : AccessForm) (ff : Bool) : PvuOp := {
  cls := 4, func := func, kind := .own, perElem := true, biteFirst := firstBites f,
  use := { w := allW, p := true, rd := anyReg, ra := anyReg, rb := if f = .unit then 0 else anyReg, imm := anyImm },
  ok := fun _ i => decide (spaceOf i < 3), pub := accessRegs f, dst := fun _ i => .l (rdN i) :: (if ff then [.stat] else []),
  time := fun _ i => accessTime f i, body := fun _ _ p i => loadBody f ff p i }

def storeOp (func : Nat) (f : AccessForm) : PvuOp := {
  cls := 4, func := func, kind := .own, perElem := true, biteFirst := firstBites f,
  use := { w := allW, p := true, rd := anyReg, ra := anyReg, rb := if f = .unit then 0 else anyReg, imm := anyImm },
  ok := fun _ i => decide (spaceOf i < 3), pub := accessRegs f, src := fun _ i => [.l (rdN i)],
  time := fun _ i => accessTime f i, body := fun _ _ p i => storeBody f p i }

def opVld : PvuOp := loadOp 0x00 .unit false
def opVst : PvuOp := storeOp 0x01 .unit
def opVlds : PvuOp := loadOp 0x02 .strided false
def opVsts : PvuOp := storeOp 0x03 .strided
def opVgather : PvuOp := loadOp 0x04 .gather false
def opVscatter : PvuOp := storeOp 0x05 .gather
def opVldff : PvuOp := loadOp 0x06 .unit true
def opVgatherff : PvuOp := loadOp 0x07 .gather true

/-- The one access of an S or X load or store. -/
def oneAccess (p : Pvu) (i : PvuWord) : Access := { e := 0, off := baseOf p i, bite := p.getXk (raN i) }

/-- A load of one value of `n` bytes, aligned to `al`. -/
def loadOne (p : Pvu) (i : PvuWord) (n al : Nat) (dst : Reg) (put : Pvu → Elem → Pvu) : PvuRes :=
  let sp := spaceOf i
  let a := oneAccess p i
  match accessFault p sp n al .unit false a (loadBreach p sp n dst [] a) with
  | some c => { p := p, exc := some { cause := c, eaddr := if c = 0x02 ∨ c = 0x03 then a.off % 2 ^ 32 else 0 } }
  | none =>
    let q := (put p (readElem p sp a.off n)).seen sp n [a]
    { p := match loadedTag p sp n dst [a] with | some t => q.setTag dst t | none => q,
      reads := wordsOf p sp n [a], mcBlocks := mcBlocksOf sp n [a] }

/-- A store of one value. -/
def storeOne (p : Pvu) (i : PvuWord) (n al : Nat) (src : Reg) (bs : Nat → List (Nat × Byte × Bool)) : PvuRes :=
  let sp := spaceOf i
  let a := oneAccess p i
  match accessFault p sp n al .unit true a (storeBreach p n (p.tag src) a) with
  | some c => { p := p, exc := some { cause := c, eaddr := if c = 0x02 ∨ c = 0x03 then a.off % 2 ^ 32 else 0 } }
  | none => { p := tagBlocks (storeBytes p (bs a.off)) (p.tag src) n [a], writes := wordsOf p sp n [a] }

/-- 16 bytes of an S register with the marks of its 32-bit parts. -/
def sBytes (p : Pvu) (n o : Nat) : List (Nat × Byte × Bool) :=
  ((p.getS n 1).zipIdx).flatMap (fun q => elemBytes p 4 (o + 4 * q.2) q.1)

/-- Marks of an S register loaded from 16 bytes. -/
def putS16 (n : Nat) (sp o : Nat) (p : Pvu) : Pvu :=
  p.putS n 1 ((List.range 4).map (fun k => some (readElem p sp (o + 4 * k) 4)))

/-- The use of an S or X access. -/
def oneUse (w : List Nat) : Use := { w := w, rd := anyReg, ra := anyReg, imm := anyImm }

/-- The S forms are unit-stride accesses of 16 bytes, the X forms of w bytes, aligned to w (R257, R259). -/
def opSld : PvuOp := {
  cls := 4, func := 0x08, biteFirst := fun p i => p.getXk (raN i), use := oneUse allW, kind := .own, ok := fun _ i => decide (spaceOf i < 3), pub := fun i => [.x (raN i)],
  dst := fun _ i => [.s (rdN i)], time := fun _ _ => (1, 6), body := fun _ _ p i =>
    loadOne p i 16 (wBytes (wOf i)) (.s (rdN i)) (fun q _ => putS16 (rdN i) (spaceOf i) (baseOf p i) q) }
def opSst : PvuOp := {
  cls := 4, func := 0x09, biteFirst := fun p i => p.getXk (raN i), use := oneUse allW, kind := .own, ok := fun _ i => decide (spaceOf i < 3), pub := fun i => [.x (raN i)],
  src := fun _ i => [.s (rdN i)], time := fun _ _ => (1, 6), body := fun _ _ p i =>
    storeOne p i 16 (wBytes (wOf i)) (.s (rdN i)) (sBytes p (rdN i)) }
def opXld : PvuOp := {
  cls := 4, func := 0x0A, biteFirst := fun p i => p.getXk (raN i), use := oneUse allW, kind := .own, ok := fun _ i => decide (spaceOf i < 3), pub := fun i => [.x (raN i)],
  dst := fun _ i => [.x (rdN i)], time := fun _ _ => (1, 6), body := fun _ _ p i =>
    loadOne p i (wBytes (wOf i)) (wBytes (wOf i)) (.x (rdN i)) (fun q v => q.putX (rdN i) v) }
def opXst : PvuOp := {
  cls := 4, func := 0x0B, biteFirst := fun p i => p.getXk (raN i), use := oneUse allW, kind := .own, ok := fun _ i => decide (spaceOf i < 3), pub := fun i => [.x (raN i)],
  src := fun _ i => [.x (rdN i)], time := fun _ _ => (1, 6), body := fun _ _ p i =>
    let w := wBytes (wOf i)
    storeOne p i w w (.x (rdN i)) (fun o => elemBytes p w o (p.getX (rdN i), p.getXk (rdN i))) }

def execVld (i : PvuWord) (s : State) : Host.Outcome State Fault Refusal := pvuExec opVld i s
def execVst (i : PvuWord) (s : State) : Host.Outcome State Fault Refusal := pvuExec opVst i s
def execVlds (i : PvuWord) (s : State) : Host.Outcome State Fault Refusal := pvuExec opVlds i s
def execVsts (i : PvuWord) (s : State) : Host.Outcome State Fault Refusal := pvuExec opVsts i s
def execVgather (i : PvuWord) (s : State) : Host.Outcome State Fault Refusal := pvuExec opVgather i s
def execVscatter (i : PvuWord) (s : State) : Host.Outcome State Fault Refusal := pvuExec opVscatter i s
def execVldff (i : PvuWord) (s : State) : Host.Outcome State Fault Refusal := pvuExec opVldff i s
def execVgatherff (i : PvuWord) (s : State) : Host.Outcome State Fault Refusal := pvuExec opVgatherff i s
def execSld (i : PvuWord) (s : State) : Host.Outcome State Fault Refusal := pvuExec opSld i s
def execSst (i : PvuWord) (s : State) : Host.Outcome State Fault Refusal := pvuExec opSst i s
def execXld (i : PvuWord) (s : State) : Host.Outcome State Fault Refusal := pvuExec opXld i s
def execXst (i : PvuWord) (s : State) : Host.Outcome State Fault Refusal := pvuExec opXst i s

end Sys2Proof.Machine
end

