-- ==== Sys2Proof/Machine/PvuKeccak.lean ====
section
/-! DEFINITION. The Keccak units and their squeeze buffers (R201 to R204, R265, R266), the stream loads (R259 to R261) and the
sampling instructions (R267 to R269). Masks are free values of the MRG (R205). -/

namespace Sys2Proof.Machine

-- Fresh shares (R205, R270).

/-- `n` bytes of an engine's MRG from a position. -/
def mrgBytes (eng used n : Nat) : List Byte := (List.range n).map (fun k => Config.mrg eng (used + k))

/-- Numbers of 8 bytes from the MRG. -/
def mrgWords (eng used n : Nat) : List Nat := (List.range n).map (fun k => unLe (mrgBytes eng (used + 8 * k) 8))

/-- Arithmetic shares modulo `q` of values, share 0 first, and the MRG bytes used. -/
def shareArith (eng used q d : Nat) (vals : List Nat) : List (List Nat) × Nat :=
  let masks := (List.range d).map (fun k => (mrgWords eng (used + 8 * k * vals.length) vals.length).map (· % q))
  let first := masks.foldl (fun acc m => (acc.zip m).map (fun x => (x.1 % q + (q - x.2)) % q)) (vals.map (· % q))
  (first :: masks, used + 8 * d * vals.length)

/-- Boolean shares of values of `b` bits. -/
def shareBool (eng used b d : Nat) (vals : List Nat) : List (List Nat) × Nat :=
  let masks := (List.range d).map (fun k => (mrgWords eng (used + 8 * k * vals.length) vals.length).map (· % 2 ^ b))
  (masks.foldl (fun acc m => (acc.zip m).map (fun x => x.1 ^^^ x.2)) vals :: masks, used + 8 * d * vals.length)

-- The unit (R201, R202).

/-- Rate in bytes and domain suffix of a function. -/
def kuRate (f : Nat) : Nat := [144, 136, 104, 72, 168, 136, 168, 136].getD f 136
def kuSuffix (f : Nat) : Byte := if f < 4 then 0x06 else if f < 6 then 0x1F else 0x04
/-- Cycles of a permutation, and bytes of output value that the buffer holds (R191, R202). -/
def kuPermCycles (d : Nat) : Nat := if d = 0 then 25 else if d = 1 then 26 else if d = 2 then 50 else 74
def kuCap (d : Nat) : Nat := 32 / (d + 1) * 128

/-- The unit of a PVU, and the unit replaced. -/
def Pvu.getKu (p : Pvu) (u : Nat) : KuState := vget p.ku u {}
def Pvu.putKu (p : Pvu) (u : Nat) (k : KuState) : Pvu := { p with ku := vset p.ku u k }

/-- The exclusive or of states. -/
def xorLanes (a b : List W64) : List W64 := (a.zip b).map (fun x => x.1 ^^^ x.2)

/-- One permutation on the shared state: the value is permuted and shared afresh. -/
def kuPermute (eng used : Nat) (k : KuState) : KuState × Nat :=
  let v := keccakF (k.shares.foldl xorLanes keccakZero)
  let masks := (List.range k.order).map (fun j => lanesOf 25 (mrgBytes eng (used + 200 * j) 200))
  ({ k with shares := masks.foldl xorLanes v :: masks }, used + 200 * k.order)

/-- Bytes of output value in the buffer. -/
def KuState.fill (k : KuState) : Nat := (k.buf.headD []).length

/-- The buffer has room for a rate block. -/
def KuState.room (k : KuState) : Bool := decide (k.fill + kuRate k.fn ≤ kuCap k.order)

/-- A permutation in SQUEEZE ends: a rate block enters the buffer; the next starts at once if there is room. -/
def kuSqueeze (eng used : Nat) (k : KuState) : KuState × Nat :=
  let (k1, used1) := kuPermute eng used k
  let k2 := { k1 with buf := (k1.buf.zip k1.shares).map (fun (x : List Byte × List W64) => x.1 ++ (laneBytes x.2).take (kuRate k.fn)) }
  (if k2.room then { k2 with freeAt := k2.freeAt + kuPermCycles k2.order } else { k2 with stalled := true }, used1)

/-- The unit runs up to a cycle: the unit, the MRG position, permutations. -/
def kuAdvance (eng t : Nat) : Nat → Nat → KuState → Nat → KuState × Nat × Nat
  | 0, used, k, n => (k, used, n)
  | fuel + 1, used, k, n =>
    if k.phase = .squeeze ∧ !k.stalled ∧ k.freeAt ≤ t then
      let (k1, used1) := kuSqueeze eng used k
      kuAdvance eng t fuel used1 k1 (n + 1)
    else (k, used, n)

/-- The unit goes on at a cycle, when bytes have left the buffer. -/
def kuRestart (k : KuState) (t : Nat) : KuState :=
  if k.stalled ∧ k.room then { k with stalled := false, freeAt := t + kuPermCycles k.order } else k

/-- What a stream load takes: the bytes per share, the unit, the MRG position, the cycle of the last byte, permutations. -/
structure Taken where
  bytes : List (List Byte)
  ku    : KuState
  used  : Nat
  t     : Nat
  perms : Nat
  deriving DecidableEq, Repr

/-- Bytes are appended share by share. -/
def appendShares (a b : List (List Byte)) : List (List Byte) := if a.isEmpty then b else (a.zip b).map (fun x => x.1 ++ x.2)

/-- `need` bytes of value from the head of the buffer, waiting where they are not there yet (R203). -/
def kuTake (eng : Nat) : Nat → Nat → KuState → Nat → Nat → Nat → List (List Byte) → Taken
  | 0, used, k, t, _, n, acc => { bytes := acc, ku := k, used := used, t := t, perms := n }
  | fuel + 1, used, k, t, need, n, acc =>
    let (k1, used1, n1) := kuAdvance eng t 64 used k n
    if need ≤ k1.fill then
      { bytes := appendShares acc (k1.buf.map (·.take need)),
        ku := kuRestart { k1 with buf := k1.buf.map (·.drop need) } t, used := used1, t := t, perms := n1 }
    else
      let k2 := kuRestart { k1 with buf := k1.buf.map (fun _ => []) } t
      kuTake eng fuel used1 k2 (max t k2.freeAt) (need - k1.fill) n1 (appendShares acc k1.buf)

/-- A stream load of `need` bytes at a cycle. -/
def streamTake (eng : Nat) (p : Pvu) (u start need : Nat) : Taken :=
  let k := p.getKu u
  kuTake eng (need / 72 + 2) p.mrgUsed k start need 0 []

/-- The PVU after a stream load. -/
def afterTake (p : Pvu) (u : Nat) (t : Taken) : Pvu := { p.putKu u t.ku with mrgUsed := t.used }

/-- Absorbed bytes, one list per share, enter the open block; a full block is permuted (R265). -/
def kuAbsorb (eng : Nat) : Nat → Nat → KuState → Nat → KuState × Nat × Nat
  | 0, used, k, n => (k, used, n)
  | fuel + 1, used, k, n =>
    let r := kuRate k.fn
    if (k.block.headD []).length < r then (k, used, n)
    else
      let k1 := { k with
        shares := (k.shares.zip k.block).map (fun x => xorBlock x.1 (x.2.take r)), block := k.block.map (·.drop r) }
      let (k2, used1) := kuPermute eng used k1
      kuAbsorb eng fuel used1 k2 (n + 1)

/-- The units of a PVU run on to a cycle with nothing that names them (R202): the PVU with the permutations counted (R233), and how many. -/
def Pvu.runUnits (p : Pvu) (eng t : Nat) : Pvu × Nat :=
  let step (x : Pvu × Nat) (u : Nat) : Pvu × Nat :=
    let (k, used, n) := kuAdvance eng t 64 x.1.mrgUsed (x.1.getKu u) 0
    ({ x.1.putKu u k with mrgUsed := used }, x.2 + n)
  let r := [0, 1].foldl step (p, 0)
  ({ r.1 with cnt := vmod r.1.cnt 12 0 (· + r.2) }, r.2)

/-- The units of a segment that has ended go on to the end of its budget. -/
def State.settleUnits (s : State) (n : Nat) : State :=
  let p := s.getPvu n
  let r := p.runUnits n p.budget
  if r.2 = 0 then s else (s.setPvu n r.1).event (0x10 + n) 6 (some (s.segFn p)) r.2

-- Unit control (R265, R266).

/-- The unit that IMM[0] or RB[0] selects. -/
def unitI (i : PvuWord) : Nat := immU i % 2
def unitB (i : PvuWord) : Nat := rbN i % 2

/-- KINIT (R201). -/
def opKinit : PvuOp := {
  cls := 6, func := 0x00, use := { imm := 0x7F }, ok := fun _ i => decide (immU i / 2 % 16 < 8), unit := fun i => some (unitI i),
  time := fun _ _ => (4, 4), body := fun start _ p i =>
    let d := immU i / 32
    { p := p.putKu (unitI i) {
        phase := .absorb, fn := immU i / 2 % 16, order := d, shares := List.replicate (d + 1) keccakZero,
        block := List.replicate (d + 1) [], buf := List.replicate (d + 1) [], freeAt := start + 4 } } }

/-- Bytes of a register. -/
def regBytes (p : Pvu) : Reg → List Byte
  | .l n => le 1024 (vget p.l n 0).toNat
  | .s n => le 16 (vget p.s n 0).toNat
  | .x n => le 8 (p.getX n)
  | _ => []

/-- A scorch mark lies on the first `n` bytes of a register. -/
def regMarked (p : Pvu) (r : Reg) (n : Nat) : Bool :=
  match r with
  | .l k => decide ((vget p.lScorch k 0).toNat % 2 ^ ceilDiv n 4 ≠ 0)
  | .s k => decide ((vget p.sScorch k 0).toNat % 2 ^ ceilDiv n 4 ≠ 0)
  | .x k => p.getXk k
  | _ => false

/-- The bytes that each share of the unit absorbs from a source; none = a breach (R266, R270). -/
def absorbed (p : Pvu) (k : KuState) (r : Reg) (n : Nat) : Option (List (List Byte)) :=
  match p.tag r with
  | .pub => some ((List.range (k.order + 1)).map (fun j => if j = 0 then (regBytes p r).take n else zeros n))
  | .share _ _ =>
    if k.order = p.order ∧ p.groupOk p.order r ∧ r.pos p.order = 0 then
      some ((List.range (k.order + 1)).map (fun j => (regBytes p (r.plus j)).take n))
    else none

/-- The absorb instructions (R265). -/
def absorbBody (src : PvuWord → Reg) (n issue : PvuWord → Nat) (start eng : Nat) (p : Pvu) (i : PvuWord) : PvuRes :=
  let u := unitI i
  let k := p.getKu u
  let r := src i
  match absorbed p k r (n i) with
  | none => { p := p, exc := some { cause := 0x06 } }
  | some bs =>
    let share := (p.tag r).isShare
    let marked := (if share then groupRegs p.order r else [r]).any (fun x => regMarked p x (n i))
    let k1 := { k with
      block := appendShares k.block bs, hasShare := k.hasShare || share, scorched := k.scorched || marked }
    let (k2, used, perms) := kuAbsorb eng 16 p.mrgUsed k1 0
    { p := { p.putKu u { k2 with freeAt := max k2.freeAt (start + issue i) + perms * kuPermCycles k2.order } with mrgUsed := used },
      perms := perms }

/-- An absorb instruction: the field of n, its bounds, the source file. -/
def absorbOp (func mask hi : Nat) (n issue : PvuWord → Nat) (src : PvuWord → Reg) : PvuOp := {
  cls := 6, func := func, use := { ra := anyReg, imm := mask }, kind := .own, wide := true,
  ok := fun p i => decide (1 ≤ n i) && decide (n i ≤ hi) && decide ((p.getKu (unitI i)).phase = .absorb),
  breach := fun p i => decide (absorbed p (p.getKu (unitI i)) (src i) (n i) = none),
  src := fun _ i => [src i], unit := fun i => some (unitI i), time := fun _ i => (issue i, issue i),
  body := absorbBody src n issue }

def opKabss : PvuOp := absorbOp 0x01 0x3F 16 (fun i => immU i / 2) (fun _ => 1) (fun i => .s (raN i))
def opKabsl : PvuOp := absorbOp 0x02 0xFFF 1024 (fun i => immU i / 2) (fun i => ceilDiv (immU i / 2) 128) (fun i => .l (raN i))
def opKabsx : PvuOp := absorbOp 0x03 0x1F 8 (fun i => immU i / 2) (fun _ => 1) (fun i => .x (raN i))

/-- KFINAL: the padding enters share 0; the first squeezed block follows one permutation later (R201, R202). -/
def opKfinal : PvuOp := {
  cls := 6, func := 0x04, use := { imm := 1 }, ok := fun p i => decide ((p.getKu (unitI i)).phase = .absorb),
  unit := fun i => some (unitI i), body := fun start _ p i =>
    let k := p.getKu (unitI i)
    let r := kuRate k.fn
    let block := (k.block.zipIdx).map (fun b => if b.2 = 0 then padBlock r (kuSuffix k.fn) b.1 else fit r b.1)
    { p := p.putKu (unitI i) { k with
        phase := .squeeze, shares := (k.shares.zip block).map (fun x => xorBlock x.1 x.2), block := k.block.map (fun _ => []),
        freeAt := max k.freeAt (start + 1) + kuPermCycles k.order, stalled := false } } }

-- Stream loads (R259 to R261).

/-- Chunks of `w` bytes as numbers. -/
def byteNums (w : Nat) : Nat → List Byte → List Nat
  | 0, _ => []
  | n + 1, bs => unLe (bs.take w) :: byteNums w n (bs.drop w)

/-- Values for the elements of given indices, in order. -/
def placeE (n : Nat) (idx vals : List Nat) (k : Bool) : List (Option Elem) :=
  (List.range n).map (fun e => ((idx.zip vals).find? (fun q => decide (q.1 = e))).map (fun q => (q.2, k)))

/-- The active elements that a stream load has still to load. -/
def streamActive (p : Pvu) (i : PvuWord) : List Nat :=
  ((p.actives i.pg.toNat (wOf i)).zipIdx).filterMap (fun q => if q.1 ∧ p.resumeAt ≤ q.2 then some q.2 else none)

/-- Those below the first whose governing bit bites. -/
def streamElems (p : Pvu) (i : PvuWord) (ff : Bool) : List Nat × Option Nat :=
  let as := streamActive p i
  let gov := p.governing i.pg.toNat (wOf i)
  let bite := as.find? (fun e => (gov.getD e (0, false)).2)
  let as1 := match bite with | some b => as.filter (fun e => decide (e < b)) | none => as
  if ff then (as1.take (p.getX (rcN i) / wBytes (wOf i)), bite) else (as1, bite)

/-- Shares of the loaded elements enter RD + k. -/
def putStream (p : Pvu) (i : PvuWord) (idx : List Nat) (t : Taken) : Pvu :=
  let k := t.ku
  ((t.bytes.zipIdx).foldl (fun q b =>
    let r := Reg.l (rdN i + b.2)
    (q.putL (rdN i + b.2) (wOf i) (placeE (countL i) idx (byteNums (wBytes (wOf i)) idx.length b.1) k.scorched)).setTag r
      (if k.order = 0 then .pub else .share b.2 (r.group k.order))) p)

/-- The unit of order 0 has absorbed a share (R260). -/
def KuState.leaks (k : KuState) : Bool := decide (k.order = 0) && k.hasShare

/-- The cause at the first element that a stream load is to load, the highest of R228 (R203, R232, R260). -/
def streamFault (p : Pvu) (i : PvuWord) (k : KuState) (e : Nat) : Option Nat :=
  if ((p.governing i.pg.toNat (wOf i)).getD e (0, false)).2 then some 0x08
  else if k.leaks then some 0x06
  else if k.phase ≠ .squeeze then some 0x05
  else none

/-- VLDK and VLDKFF (R226, R227, R260, R261). -/
def streamBody (ff : Bool) (start eng : Nat) (p : Pvu) (i : PvuWord) : PvuRes :=
  let u := unitB i
  let k := p.getKu u
  let limit := p.getX (rcN i)
  match streamActive p i with
  | [] => { p := if ff then { p with ffcount := if limit = 0 then 0 else countL i } else p }
  | e0 :: es =>
    match streamFault p i k e0 with
    | some c => { p := p, exc := some { cause := c, eidx := e0, epart := decide (c ≠ 0x06) && decide (0 < p.resumeAt) } }
    | none =>
      let (idx, bite) := streamElems p i ff
      let t := streamTake eng p u start (idx.length * wBytes (wOf i))
      let q := if idx.isEmpty then p else putStream (afterTake p u t) i idx t
      let stop := (e0 :: es).find? (fun e => !idx.contains e)
      match stop with
      | none => { p := if ff then { q with ffcount := countL i } else q, wait := t.t - start, perms := t.perms }
      | some e =>
        if ff then { p := { q with ffcount := if limit = 0 then 0 else e }, wait := t.t - start, perms := t.perms }
        else { p := q, exc := some { cause := 0x08, eidx := bite.getD e, epart := !idx.isEmpty || decide (0 < p.resumeAt) }, perms := t.perms }

/-- Issue and latency of a stream load. -/
def streamTime (ff : Bool) (p : Pvu) (i : PvuWord) : Nat × Nat :=
  let n := ceilDiv ((streamElems p i ff).1.length * wBytes (wOf i)) 128
  (n, n + 5)

/-- The order of the unit that RB[0] selects. -/
def streamOrder (p : Pvu) (i : PvuWord) : Nat := (p.getKu (unitB i)).order

def streamOp (func : Nat) (ff : Bool) : PvuOp := {
  cls := 4, func := func, kind := .own, perElem := true,
  use := { w := allW, p := true, rd := anyReg, rb := 1, rc := if ff then anyReg else 0 },
  ok := fun p i => aligned (streamOrder p i) (rdN i), pub := fun i => if ff then [.x (rcN i)] else [],
  dst := fun p i => groupRegs (streamOrder p i) (.l (rdN i)) ++ (if ff then [.stat] else []),
  unit := fun i => some (unitB i), time := streamTime ff, body := streamBody ff }

def opVldk : PvuOp := streamOp 0x0C false
def opVldkff : PvuOp := streamOp 0x0D true
def opSldk : PvuOp := {
  cls := 4, func := 0x0E, kind := .own, use := { rd := anyReg, rb := 1 }, breach := fun p i => (p.getKu (unitB i)).leaks,
  ok := fun p i => aligned (streamOrder p i) (rdN i), dst := fun p i => groupRegs (streamOrder p i) (.s (rdN i)),
  unit := fun i => some (unitB i), time := fun _ _ => (1, 6), body := fun start eng p i =>
    let u := unitB i
    let k := p.getKu u
    if k.phase ≠ .squeeze then { p := p, exc := some { cause := 0x05 } }
    else
      let t := streamTake eng p u start 16
      { p := (t.bytes.zipIdx).foldl (fun q b =>
          let r := Reg.s (rdN i + b.2)
          (putBytesS q (rdN i + b.2) b.1 k.scorched).setTag r (if k.order = 0 then .pub else .share b.2 (r.group k.order)))
          (afterTake p u t),
        wait := t.t - start, perms := t.perms } }

-- Sampling (R267 to R269).

/-- LIMIT and PARAM of a sampling instruction. -/
def limitOf (i : PvuWord) : Nat := immU i / 2 % 4096
def paramOf (i : PvuWord) : Nat := immU i / 2 ^ 13 % 64

/-- SampleNTT of FIPS 203: two 12-bit values per three bytes, kept when below q. -/
def sampleNtt (q : Nat) : Nat → List Byte → List Nat
  | 0, _ => []
  | n + 1, bs =>
    let a := (bs.getD 0 0).toNat
    let b := (bs.getD 1 0).toNat
    let c := (bs.getD 2 0).toNat
    ([a + 256 * (b % 16), b / 16 + 16 * c].filter (fun v => decide (v < q))) ++ sampleNtt q n (bs.drop 3)

/-- RejNTTPoly of FIPS 204: 23 bits of three bytes, kept when below q. -/
def sampleRej (q : Nat) : Nat → List Byte → List Nat
  | 0, _ => []
  | n + 1, bs => ([unLe (bs.take 3) % 2 ^ 23].filter (fun v => decide (v < q))) ++ sampleRej q n (bs.drop 3)

/-- CoeffFromHalfByte of FIPS 204 on both halves of each byte: η − b mod q. -/
def sampleEta (q eta : Nat) (bs : List Byte) : List Nat :=
  (bs.flatMap (fun b => [b.toNat % 16, b.toNat / 16])).filterMap (fun b =>
    if eta = 2 then (if b < 15 then some ((2 + (q * 4 - b % 5)) % q) else none)
    else (if b < 9 then some ((4 + (q * 4 - b)) % q) else none))

/-- SamplePolyCBD of FIPS 203. -/
def sampleCbd (q eta : Nat) (bs : List Byte) : List Nat :=
  let bitsAll := bs.flatMap (fun b => bitsOf 8 b.toNat)
  (List.range 256).map (fun e =>
    let b := (bitsAll.drop (2 * e * eta)).take (2 * eta)
    let x := (b.take eta).foldl (fun n c => n + b2n c) 0
    let y := (b.drop eta).foldl (fun n c => n + b2n c) 0
    (x + (q * 4 - y)) % q)

/-- SampleInBall of FIPS 204 on the bytes after the signs: positions placed and the elements. -/
def ballLoop (q tau : Nat) (signs : List Bool) : List Byte → Nat → List Nat → Nat × List Nat
  | [], n, c => (n, c)
  | b :: bs, n, c =>
    if tau ≤ n then (n, c)
    else
      let i := 256 - tau + n
      let j := b.toNat
      if i < j then ballLoop q tau signs bs n c
      else ballLoop q tau signs bs (n + 1) ((c.set i (c.getD j 0)).set j (if signs.getD n false then q - 1 else 1))

def sampleBall (q tau : Nat) (bs : List Byte) : Nat × List Nat :=
  ballLoop q tau (bitsOf 64 (unLe (bs.take 8))) (bs.drop 8) 0 (List.replicate 256 0)

/-- Values from the start index; values beyond element 255 are discarded. -/
def fillFrom (n x : Nat) (vals : List Nat) (k : Bool) : List (Option Elem) :=
  (List.range n).map (fun e => if x ≤ e ∧ e < 256 then (vals[e - x]?).map (fun v => (v, k)) else none)

/-- The bytes of value that a sampling instruction consumes. -/
def streamValue (t : Taken) : List Byte :=
  match t.bytes with
  | [] => []
  | b :: bs => bs.foldl xorBytes b

/-- STREAM_EMPTY (R203). -/
def sampleStop (k : KuState) : Option Exc := if k.phase ≠ .squeeze then some { cause := 0x05 } else none

/-- The unit that a sampling instruction names holds absorbed shares at order 0 (R260); it has order 0 (R269). -/
def sampleBreach (p : Pvu) (i : PvuWord) : Bool := (p.getKu (unitI i)).leaks
def unmasked (p : Pvu) (i : PvuWord) : Bool := decide ((p.getKu (unitI i)).order = 0)

/-- Arithmetic shares of the values of the filled elements enter the group RD (R269). -/
def putShared (eng : Nat) (p : Pvu) (i : PvuWord) (d q : Nat) (idx vals : List Nat) (k : Bool) : Pvu :=
  let (sh, used) := shareArith eng p.mrgUsed q d vals
  (sh.zipIdx).foldl (fun t b =>
    let r := Reg.l (rdN i + b.2)
    (t.putL (rdN i + b.2) (wOf i) (placeE (countL i) idx b.1 k)).setTag r (.share b.2 (r.group d))) { p with mrgUsed := used }

/-- A rejection sampler into a PUBLIC register (R267). -/
def rejectBody (f : Nat → PvuWord → List Byte → List Nat) (start eng : Nat) (p : Pvu) (i : PvuWord) : PvuRes :=
  let k := p.getKu (unitI i)
  match sampleStop k with
  | some e => { p := p, exc := some e }
  | none =>
    let t := streamTake eng p (unitI i) start (limitOf i)
    let vals := f (qOf p i) i (streamValue t)
    let x := p.getX (rbN i)
    { p := { (afterTake p (unitI i) t).putL (rdN i) (wOf i) (if 256 ≤ x then [] else fillFrom (countL i) x vals k.scorched) with
        ffcount := min 256 (x + vals.length) },
      wait := t.t - start, perms := t.perms }

/-- Issue and latency of a sampling instruction. -/
def sampleTime (n : Nat) : Nat × Nat := (n, n + 4)

def opSamplentt : PvuOp := {
  cls := 6, func := 0x08, use := { w := [0, 1], mc := true, rd := anyReg, rb := anyReg, imm := 0x1FFF }, modular := fun _ => true,
  ok := fun p i => decide (limitOf i % 3 = 0) && unmasked p i, breach := sampleBreach, pub := fun i => [.x (rbN i)], dst := fun _ i => [.l (rdN i), .stat],
  unit := fun i => some (unitI i), time := fun _ i => sampleTime (ceilDiv (limitOf i) 12),
  body := rejectBody (fun q i bs => sampleNtt q (limitOf i / 3) bs) }
def opSamplerej : PvuOp := {
  cls := 6, func := 0x09, use := { w := [1], mc := true, rd := anyReg, rb := anyReg, imm := 0x1FFF }, modular := fun _ => true,
  ok := fun p i => decide (limitOf i % 3 = 0) && unmasked p i, breach := sampleBreach, pub := fun i => [.x (rbN i)], dst := fun _ i => [.l (rdN i), .stat],
  unit := fun i => some (unitI i), time := fun _ i => sampleTime (ceilDiv (limitOf i) 12),
  body := rejectBody (fun q i bs => sampleRej q (limitOf i / 3) bs) }

/-- The group that a masked sampler writes. -/
def sampleDst (p : Pvu) (i : PvuWord) : List Reg := groupRegs (p.getKu (unitI i)).order (.l (rdN i))

def opSampleeta : PvuOp := {
  cls := 6, func := 0x0A, use := { w := [1], mc := true, rd := anyReg, rb := anyReg, imm := 0x7FFFF }, kind := .own,
  modular := fun _ => true, breach := sampleBreach, ok := fun p i => (decide (paramOf i = 2) || decide (paramOf i = 4)) && aligned (p.getKu (unitI i)).order (rdN i),
  pub := fun i => [.x (rbN i)], dst := fun p i => .stat :: sampleDst p i, unit := fun i => some (unitI i),
  time := fun _ i => sampleTime (ceilDiv (limitOf i) 8), body := fun start eng p i =>
    let k := p.getKu (unitI i)
    if k.order = 0 then
      let r := rejectBody (fun q i bs => sampleEta q (paramOf i) bs) start eng p i
      if r.exc.isSome then r else { r with p := r.p.setTag (.l (rdN i)) .pub }
    else
      match sampleStop k with
      | some e => { p := p, exc := some e }
      | none =>
        let t := streamTake eng p (unitI i) start (limitOf i)
        let x := p.getX (rbN i)
        let vals := (sampleEta (qOf p i) (paramOf i) (streamValue t)).take (256 - min 256 x)
        if vals.length < 256 then { p := p, exc := some { cause := 0x09 } }
        else
          { p := putShared eng (afterTake p (unitI i) t) i k.order (qOf p i) (List.range 256) vals k.scorched,
            wait := t.t - start, perms := t.perms } }
def opSamplecbd : PvuOp := {
  cls := 6, func := 0x0B, use := { w := [0, 1], mc := true, rd := anyReg, imm := 0x7E001 }, kind := .own, modular := fun _ => true,
  breach := sampleBreach, ok := fun p i => (decide (paramOf i = 2) || decide (paramOf i = 3)) && aligned (p.getKu (unitI i)).order (rdN i),
  dst := fun p i => sampleDst p i, unit := fun i => some (unitI i), time := fun _ i => sampleTime (8 * paramOf i),
  body := fun start eng p i =>
    let k := p.getKu (unitI i)
    match sampleStop k with
    | some e => { p := p, exc := some e }
    | none =>
      let t := streamTake eng p (unitI i) start (64 * paramOf i)
      let vals := sampleCbd (qOf p i) (paramOf i) (streamValue t)
      let q := afterTake p (unitI i) t
      { p := if k.order = 0 then (q.putL (rdN i) (wOf i) (placeE (countL i) (List.range 256) vals k.scorched)).setTag (.l (rdN i)) .pub
          else putShared eng q i k.order (qOf p i) (List.range 256) vals k.scorched,
        wait := t.t - start, perms := t.perms } }
def opSampleball : PvuOp := {
  cls := 6, func := 0x0C, use := { w := [1], mc := true, rd := anyReg, imm := 0x7FFFF }, modular := fun _ => true,
  ok := fun p i => decide (1 ≤ paramOf i) && unmasked p i, breach := sampleBreach, dst := fun _ i => [.l (rdN i), .stat], unit := fun i => some (unitI i),
  time := fun _ i => sampleTime (limitOf i), body := fun start eng p i =>
    let k := p.getKu (unitI i)
    match sampleStop k with
    | some e => { p := p, exc := some e }
    | none =>
      let t := streamTake eng p (unitI i) start (limitOf i)
      let (n, c) := sampleBall (qOf p i) (paramOf i) (streamValue t)
      { p := { (afterTake p (unitI i) t).putL (rdN i) (wOf i) (c.map (fun v => some (v, k.scorched))) with
          ffcount := 256 - paramOf i + n },
        wait := t.t - start, perms := t.perms } }

def execKinit (i : PvuWord) (s : State) : Host.Outcome State Fault Refusal := pvuExec opKinit i s
def execKabss (i : PvuWord) (s : State) : Host.Outcome State Fault Refusal := pvuExec opKabss i s
def execKabsl (i : PvuWord) (s : State) : Host.Outcome State Fault Refusal := pvuExec opKabsl i s
def execKabsx (i : PvuWord) (s : State) : Host.Outcome State Fault Refusal := pvuExec opKabsx i s
def execKfinal (i : PvuWord) (s : State) : Host.Outcome State Fault Refusal := pvuExec opKfinal i s
def execVldk (i : PvuWord) (s : State) : Host.Outcome State Fault Refusal := pvuExec opVldk i s
def execVldkff (i : PvuWord) (s : State) : Host.Outcome State Fault Refusal := pvuExec opVldkff i s
def execSldk (i : PvuWord) (s : State) : Host.Outcome State Fault Refusal := pvuExec opSldk i s
def execSamplentt (i : PvuWord) (s : State) : Host.Outcome State Fault Refusal := pvuExec opSamplentt i s
def execSamplerej (i : PvuWord) (s : State) : Host.Outcome State Fault Refusal := pvuExec opSamplerej i s
def execSampleeta (i : PvuWord) (s : State) : Host.Outcome State Fault Refusal := pvuExec opSampleeta i s
def execSamplecbd (i : PvuWord) (s : State) : Host.Outcome State Fault Refusal := pvuExec opSamplecbd i s
def execSampleball (i : PvuWord) (s : State) : Host.Outcome State Fault Refusal := pvuExec opSampleball i s

end Sys2Proof.Machine
end

