-- ==== Sys2Proof/Machine/PvuPoly.lean ====
section
/-! DEFINITION. PVU instructions of the class POLY (R262 to R264). -/

namespace Sys2Proof.Machine

/-- The context that MC names. -/
def ctxOf (p : Pvu) (i : PvuWord) : ModCtx := vget p.m i.mc.toNat {}

/-- The transform covers a register pair (R200). -/
def pairForm (p : Pvu) (i : PvuWord) : Bool := decide (wOf i = 0) && decide ((ctxOf p i).n = 1024)

/-- A form that R200 lists: N = 256 at 32 bits; pairs at even registers. -/
def nttForm (p : Pvu) (i : PvuWord) (rs : List Nat) : Bool :=
  !(ctxOf p i).valid || ((decide (wOf i = 0) || decide ((ctxOf p i).n = 256)) && (!pairForm p i || rs.all (fun r => decide (r % 2 = 0))))

/-- The registers that an operand covers. -/
def covered (p : Pvu) (i : PvuWord) (r : Nat) : List Nat := if pairForm p i then [r, r + 1] else [r]

/-- The polynomials of an operand: one or two of N elements. -/
def polysOf (p : Pvu) (i : PvuWord) (r : Nat) : List (List Nat) :=
  let xs := ((covered p i r).flatMap (fun n => (p.getL n (wOf i)))).map (fun e => modIn (wOf i) e.1)
  if wOf i = 0 ∧ (ctxOf p i).n = 256 then [xs.take 256, xs.drop 256] else [xs]

/-- A mark lies on an operand. -/
def markedOf (p : Pvu) (i : PvuWord) (r : Nat) : Bool := (covered p i r).any (fun n => decide (vget p.lScorch n 0 ≠ 0))

/-- Elements for the registers that an operand covers. -/
def putPoly (p : Pvu) (i : PvuWord) (r : Nat) (xs : List Elem) : Pvu :=
  ((covered p i r).zipIdx).foldl (fun q n => q.putL n.1 (wOf i) (((xs.drop (countL i * n.2)).take (countL i)).map some)) p

/-- Issue time of a transform (R191). -/
def nttIssue (p : Pvu) (i : PvuWord) : Nat := if wOf i = 1 then 8 else if pairForm p i then 20 else 9

def transform (func : Nat) (f : ModCtx → List Nat → List Nat) : PvuOp := {
  cls := 5, func := func, use := { w := [0, 1], mc := true, rd := anyReg, ra := anyReg }, kind := .l, modular := fun _ => true,
  ok := fun p i => nttForm p i [rdN i, raN i], src := fun p i => (covered p i (raN i)).map .l,
  dst := fun p i => (covered p i (rdN i)).map .l, time := fun p i => (nttIssue p i, nttIssue p i + 6), body := fun _ _ p i =>
    let k := markedOf p i (raN i)
    { p := putPoly p i (rdN i) (((polysOf p i (raN i)).flatMap (f (ctxOf p i))).map (fun v => (v, k))) } }

def opNtt : PvuOp := transform 0x00 nttPoly
def opIntt : PvuOp := transform 0x01 inttPoly

/-- Marks of a pointwise product: of the elements of a FULL one, of the pairs of an INCOMPLETE one. -/
def pwMarks (c : ModCtx) (a b : List Bool) : List Bool :=
  let m := (a.zip b).map (fun x => x.1 || x.2)
  if c.incomplete then twice (pairOr m) else m

/-- The operand of a pointwise product: the pair form only where the context is INCOMPLETE. -/
def pwCovered (p : Pvu) (i : PvuWord) (r : Nat) : List Nat := if (ctxOf p i).incomplete then covered p i r else [r]

def pwForm (p : Pvu) (i : PvuWord) : Bool := !(ctxOf p i).incomplete || nttForm p i [rdN i, raN i, rbN i]

/-- Values of an operand of a pointwise product. -/
def pwVals (p : Pvu) (i : PvuWord) (r : Nat) : List Elem :=
  ((pwCovered p i r).flatMap (fun n => p.getL n (wOf i))).map (fun e => (modIn (wOf i) e.1, e.2))

/-- The product of two operands, polynomial by polynomial. -/
def pwProduct (p : Pvu) (i : PvuWord) : List Elem :=
  let c := ctxOf p i
  let a := pwVals p i (raN i)
  let b := pwVals p i (rbN i)
  let two := decide (wOf i = 0) && decide (c.n = 256)
  let f (x y : List Elem) : List Nat := pwPoly c (x.map (·.1)) (y.map (·.1))
  (if two then f (a.take 256) (b.take 256) ++ f (a.drop 256) (b.drop 256) else f a b).zip (pwMarks c (a.map (·.2)) (b.map (·.2)))

/-- PWMUL, and PWMAC which adds to d. -/
def pwOp (func : Nat) (acc : Bool) : PvuOp := {
  cls := 5, func := func, use := { w := [0, 1], mc := true, rd := anyReg, ra := anyReg, rb := anyReg }, kind := .l1,
  modular := fun _ => true, ok := pwForm,
  src := fun p i => ((if acc then pwCovered p i (rdN i) else []) ++ pwCovered p i (raN i) ++ pwCovered p i (rbN i)).map .l,
  dst := fun p i => (pwCovered p i (rdN i)).map .l,
  time := fun p i => if (ctxOf p i).incomplete then (4, 8) else (2, 4), body := fun _ _ p i =>
    let q := qOf p i
    let prod := pwProduct p i
    let res := if acc then zipE (fun d x => (d + x) % q) (pwVals p i (rdN i)) prod else prod
    { p := ((pwCovered p i (rdN i)).zipIdx).foldl
        (fun t n => t.putL n.1 (wOf i) (((res.drop (countL i * n.2)).take (countL i)).map some)) p } }

def opPwmul : PvuOp := pwOp 0x02 false
def opPwmac : PvuOp := pwOp 0x03 true

-- Encodings.

/-- Ld := f(La) element-wise under q with a parameter b = 1–12. -/
def codeOp (func : Nat) (f : Nat → Nat → Nat → Nat) : PvuOp := {
  cls := 5, func := func, use := { w := [0, 1], p := true, mc := true, rd := anyReg, ra := anyReg, imm := anyImm }, kind := .n,
  modular := fun _ => true, ok := fun _ i => decide (1 ≤ immU i) && decide (immU i ≤ 12), src := fun _ i => [.l (raN i)],
  dst := fun _ i => [.l (rdN i)], time := fun _ _ => (2, 4), body := fun _ _ p i =>
    { p := p.putActive i.pg.toNat (rdN i) (wOf i)
        (mapE (fun a => f (qOf p i) (immU i) (modIn (wOf i) a)) (p.getL (raN i) (wOf i))) } }

def opVcompress : PvuOp := codeOp 0x04 compressE
def opVdecompress : PvuOp := codeOp 0x05 decompressE

/-- Any of the values from `a` to `b` of a list of marks. -/
def anyFrom (ks : List Bool) (a b : Nat) : Bool := ((ks.drop a).take (b + 1 - a)).any id

def opVpack : PvuOp := {
  cls := 5, func := 0x06, use := { w := allW, rd := anyReg, ra := anyReg, imm := anyImm }, kind := .l,
  ok := fun _ i => decide (1 ≤ immU i) && decide (immU i ≤ wBits (wOf i)), src := fun _ i => [.l (raN i)],
  dst := fun _ i => [.l (rdN i)], time := fun _ _ => (4, 6), body := fun _ _ p i =>
    let es := p.getL (raN i) (wOf i)
    let ks := es.map (·.2)
    let b := immU i
    { p := { p with
        l := vset p.l (rdN i) (BitVec.ofNat 8192 (joinE b (es.map (·.1)))),
        lScorch := vset p.lScorch (rdN i) (BitVec.ofNat 256 (ofBits ((List.range 256).map (fun n =>
          anyFrom ks (32 * n / b) ((32 * n + 31) / b))))) } } }
def opVunpack : PvuOp := {
  cls := 5, func := 0x07, use := { w := allW, rd := anyReg, ra := anyReg, imm := anyImm }, kind := .l,
  ok := fun _ i => decide (1 ≤ immU i) && decide (immU i ≤ wBits (wOf i)), src := fun _ i => [.l (raN i)],
  dst := fun _ i => [.l (rdN i)], time := fun _ _ => (4, 6), body := fun _ _ p i =>
    let b := immU i
    let ks := bitsOf 256 (vget p.lScorch (raN i) 0).toNat
    { p := p.putL (rdN i) (wOf i) (((splitE b (countL i) (vget p.l (raN i) 0).toNat).zipIdx).map (fun v =>
        some (v.1, anyFrom ks (v.2 * b / 32) ((v.2 * b + b - 1) / 32)))) } }

/-- The γ₂ that a selector names; none where it does not divide q − 1 (R264). -/
def gamma2 (q sel : Nat) : Option Nat :=
  let n := if sel = 0 then 88 else 32
  if (q - 1) % n = 0 then some ((q - 1) / n) else none

/-- Ld := first, Ld+1 := second. -/
def putTwo (p : Pvu) (i : PvuWord) (xs : List (Nat × Nat × Bool)) : Pvu :=
  (p.putActive i.pg.toNat (rdN i) (wOf i) (xs.map (fun x => (x.1, x.2.2)))).putActive i.pg.toNat (rdN i + 1) (wOf i)
    (xs.map (fun x => (x.2.1, x.2.2)))

def opVp2r : PvuOp := {
  cls := 5, func := 0x08, use := { w := [0, 1], p := true, mc := true, rd := anyReg, ra := anyReg }, kind := .n,
  modular := fun _ => true, ok := fun _ i => decide (rdN i % 2 = 0), src := fun _ i => [.l (raN i)],
  dst := fun _ i => [.l (rdN i), .l (rdN i + 1)], time := fun _ _ => (2, 4), body := fun _ _ p i =>
    { p := putTwo p i ((p.getL (raN i) (wOf i)).map (fun e =>
        let r := power2Round (qOf p i) (modIn (wOf i) e.1)
        (r.1, r.2, e.2))) } }
def opVdecomp : PvuOp := {
  cls := 5, func := 0x09, use := { w := [0, 1], p := true, mc := true, rd := anyReg, ra := anyReg, imm := 1 }, kind := .n,
  modular := fun _ => true, ok := fun _ i => decide (rdN i % 2 = 0), src := fun _ i => [.l (raN i)],
  dst := fun _ i => [.l (rdN i), .l (rdN i + 1)], time := fun _ _ => (4, 6), body := fun _ _ p i =>
    match gamma2 (qOf p i) (immU i) with
    | none => { p := p, exc := some { cause := 0x04 } }
    | some g =>
      { p := putTwo p i ((p.getL (raN i) (wOf i)).map (fun e =>
          let r := decompose (qOf p i) g (modIn (wOf i) e.1)
          (r.1, toMod (qOf p i) r.2, e.2))) } }

/-- A hint instruction: Ld := f(q, γ₂, La, Lb). -/
def hintOp (func : Nat) (f : Nat → Nat → Nat → Nat → Nat) : PvuOp := {
  cls := 5, func := func, use := { w := [0, 1], p := true, mc := true, rd := anyReg, ra := anyReg, rb := anyReg, imm := 1 }, kind := .n,
  modular := fun _ => true, src := fun _ i => [.l (raN i), .l (rbN i)], dst := fun _ i => [.l (rdN i)],
  time := fun _ _ => (4, 6), body := fun _ _ p i =>
    match gamma2 (qOf p i) (immU i) with
    | none => { p := p, exc := some { cause := 0x04 } }
    | some g =>
      { p := p.putActive i.pg.toNat (rdN i) (wOf i) (zipE (fun a b => f (qOf p i) g (modIn (wOf i) a) (modIn (wOf i) b))
          (p.getL (raN i) (wOf i)) (p.getL (rbN i) (wOf i))) } }

def opVmkhint : PvuOp := hintOp 0x0A makeHint
def opVusehint : PvuOp := hintOp 0x0B useHint

def opVinf : PvuOp := {
  cls := 5, func := 0x0C, use := { w := [0, 1], p := true, mc := true, rd := anyReg, ra := anyReg }, kind := .n,
  modular := fun _ => true, src := fun _ i => [.l (raN i)], dst := fun _ i => [.x (rdN i)], time := fun _ _ => (4, 8),
  body := fun _ _ p i =>
    let es := activeElems p i (raN i)
    { p := p.putX (rdN i) (es.foldl (fun n e => max n (centred (qOf p i) (modIn (wOf i) e.1)).natAbs) 0, es.any (·.2)) } }
def opVcenter : PvuOp := {
  cls := 5, func := 0x0D, use := { w := [0, 1], p := true, mc := true, rd := anyReg, ra := anyReg }, kind := .n,
  modular := fun _ => true, src := fun _ i => [.l (raN i)], dst := fun _ i => [.l (rdN i)], time := fun _ _ => (1, 2),
  body := fun _ _ p i =>
    { p := p.putActive i.pg.toNat (rdN i) (wOf i) (mapE (fun a =>
        (centred (qOf p i) (modIn (wOf i) a) % (2 : Int) ^ wBits (wOf i)).toNat) (p.getL (raN i) (wOf i))) } }

def execNtt (i : PvuWord) (s : State) : Host.Outcome State Fault Refusal := pvuExec opNtt i s
def execIntt (i : PvuWord) (s : State) : Host.Outcome State Fault Refusal := pvuExec opIntt i s
def execPwmul (i : PvuWord) (s : State) : Host.Outcome State Fault Refusal := pvuExec opPwmul i s
def execPwmac (i : PvuWord) (s : State) : Host.Outcome State Fault Refusal := pvuExec opPwmac i s
def execVcompress (i : PvuWord) (s : State) : Host.Outcome State Fault Refusal := pvuExec opVcompress i s
def execVdecompress (i : PvuWord) (s : State) : Host.Outcome State Fault Refusal := pvuExec opVdecompress i s
def execVpack (i : PvuWord) (s : State) : Host.Outcome State Fault Refusal := pvuExec opVpack i s
def execVunpack (i : PvuWord) (s : State) : Host.Outcome State Fault Refusal := pvuExec opVunpack i s
def execVp2r (i : PvuWord) (s : State) : Host.Outcome State Fault Refusal := pvuExec opVp2r i s
def execVdecomp (i : PvuWord) (s : State) : Host.Outcome State Fault Refusal := pvuExec opVdecomp i s
def execVmkhint (i : PvuWord) (s : State) : Host.Outcome State Fault Refusal := pvuExec opVmkhint i s
def execVusehint (i : PvuWord) (s : State) : Host.Outcome State Fault Refusal := pvuExec opVusehint i s
def execVinf (i : PvuWord) (s : State) : Host.Outcome State Fault Refusal := pvuExec opVinf i s
def execVcenter (i : PvuWord) (s : State) : Host.Outcome State Fault Refusal := pvuExec opVcenter i s

end Sys2Proof.Machine
end

