-- ==== Sys2Proof/Machine/PvuGadget.lean ====
section
/-! DEFINITION. The masking gadgets of the PVU (R212, R270). A gadget recombines its source groups, computes the value and
shares it afresh with free values of the MRG. -/

namespace Sys2Proof.Machine

/-- Element-wise sums modulo q, and exclusive ors, of the shares of a group with their marks. -/
def recombine (p : Pvu) (w q n : Nat) (arith : Bool) : List Elem :=
  (((List.range p.order).map (fun k => p.getL (n + k + 1) w)).foldl
    (zipE (fun a b => if arith then (a + modIn w b) % q else a ^^^ b))
    (mapE (fun a => if arith then modIn w a % q else a) (p.getL n w)))

/-- The elements of shares, with marks. -/
def sharesOf (eng : Nat) (p : Pvu) (w q : Nat) (arith : Bool) (es : List Elem) : List (List Elem) × Nat :=
  let r := if arith then shareArith eng p.mrgUsed q p.order (es.map (·.1)) else shareBool eng p.mrgUsed (wBits w) p.order (es.map (·.1))
  (r.1.map (fun s => s.zip (es.map (·.2))), r.2)

/-- Fresh shares of a value enter the group that starts at `n`. -/
def putGroup (eng : Nat) (p : Pvu) (w q n : Nat) (arith : Bool) (es : List Elem) : Pvu :=
  let r := sharesOf eng p w q arith es
  (r.1.zipIdx).foldl (fun t s =>
    (t.putL (n + s.2) w (s.1.map some)).setTag (.l (n + s.2)) (.share s.2 ((Reg.l n).group p.order))) { p with mrgUsed := r.2 }

/-- Issue time by order, and latency (R270). -/
def gadgetTime (ts : List Nat) (p : Pvu) : Nat × Nat := let n := ts.getD p.order 0; (n, n + 2)

/-- KIND: arithmetic shares (R270). -/
def kindArith (i : PvuWord) : Bool := decide (immU i % 2 = 0)

/-- The widths of a form whose KIND selects the shares: a modular one has no 64-bit form (R242). -/
def kindWidth (i : PvuWord) : Bool := !kindArith i || decide (wOf i < 2)

/-- The group at a register of L. -/
def lGroup (p : Pvu) (n : Nat) : List Reg := groupRegs p.order (.l n)

def opMshare : PvuOp := {
  cls := 7, func := 0x00, use := { w := allW, mc := true, rd := anyReg, ra := anyReg, imm := 1 }, kind := .own,
  ok := fun p i => aligned p.order (rdN i) && kindWidth i, modular := kindArith, pub := fun i => [.l (raN i)],
  dst := fun p i => lGroup p (rdN i), time := fun p _ => gadgetTime [1, 2, 3, 4] p, body := fun _ eng p i =>
    let q := qOf p i
    { p := putGroup eng p (wOf i) q (rdN i) (kindArith i)
        (mapE (fun a => if kindArith i then modIn (wOf i) a % q else a) (p.getL (raN i) (wOf i))) } }
def opMrefresh : PvuOp := {
  cls := 7, func := 0x01, use := { w := allW, mc := true, rd := anyReg, imm := 1 }, kind := .own,
  ok := fun p i => aligned p.order (rdN i) && kindWidth i, modular := kindArith, grp := fun i => [.l (rdN i)],
  dst := fun p i => lGroup p (rdN i), time := fun p _ => gadgetTime [1, 2, 4, 7] p, body := fun _ eng p i =>
    { p := putGroup eng p (wOf i) (qOf p i) (rdN i) (kindArith i) (recombine p (wOf i) (qOf p i) (rdN i) (kindArith i)) } }

/-- A conversion of the group La into the group Ld. -/
def convertOp (func imm : Nat) (ts : List Nat) (arithIn arithOut : Bool) (ok : PvuWord → Bool) (f : Nat → PvuWord → Nat → Nat) : PvuOp := {
  cls := 7, func := func, use := { w := [0, 1], mc := true, rd := anyReg, ra := anyReg, imm := imm }, kind := .own,
  ok := fun p i => aligned p.order (rdN i) && aligned p.order (raN i) && ok i, modular := fun _ => true, grp := fun i => [.l (raN i)],
  dst := fun p i => lGroup p (rdN i), time := fun p _ => gadgetTime ts p, body := fun _ eng p i =>
    let q := qOf p i
    { p := putGroup eng p (wOf i) q (rdN i) arithOut (mapE (f q i) (recombine p (wOf i) q (raN i) arithIn)) } }

def opMa2b : PvuOp := convertOp 0x02 0 [1, 24, 60, 110] true false (fun _ => true) (fun _ _ a => a)
def opMb2a : PvuOp := convertOp 0x03 0 [2, 20, 48, 92] false true (fun _ => true) (fun q i a => modIn (wOf i) a % q)

def opMand : PvuOp := {
  cls := 7, func := 0x04, use := { w := allW, rd := anyReg, ra := anyReg, rb := anyReg }, kind := .own,
  ok := fun p i => aligned p.order (rdN i) && aligned p.order (raN i) && aligned p.order (rbN i),
  grp := fun i => [.l (raN i), .l (rbN i)], dst := fun p i => lGroup p (rdN i), time := fun p _ => gadgetTime [1, 4, 9, 16] p,
  body := fun _ eng p i =>
    { p := putGroup eng p (wOf i) 0 (rdN i) false
        (zipE (fun a b => a &&& b) (recombine p (wOf i) 0 (raN i) false) (recombine p (wOf i) 0 (rbN i) false)) } }

/-- b of MCOMP. -/
def mcompB (i : PvuWord) : Nat := immU i / 2
def opMcomp : PvuOp := convertOp 0x05 0x1E [2, 30, 72, 130] true false (fun i => decide (1 ≤ mcompB i) && decide (mcompB i ≤ 12))
  (fun q i a => compressE q (mcompB i) a)

def opMdecomp : PvuOp := {
  cls := 7, func := 0x06, use := { w := [0, 1], mc := true, rd := anyReg, ra := anyReg, rc := anyReg, imm := 2 }, kind := .own,
  ok := fun p i => aligned p.order (rdN i) && aligned p.order (raN i) && aligned p.order (rcN i), modular := fun _ => true,
  grp := fun i => [.l (raN i)], dst := fun p i => lGroup p (rdN i) ++ lGroup p (rcN i),
  time := fun p _ => gadgetTime [4, 40, 96, 170] p, body := fun _ eng p i =>
    let q := qOf p i
    match gamma2 q (immU i / 2) with
    | none => { p := p, exc := some { cause := 0x04 } }
    | some g =>
      let es := recombine p (wOf i) q (raN i) true
      let p1 := putGroup eng p (wOf i) q (rdN i) true (mapE (fun a => (decompose q g a).1) es)
      { p := putGroup eng p1 (wOf i) q (rcN i) true (mapE (fun a => toMod q (decompose q g a).2) es) } }

/-- The active ones of some elements. -/
def onlyActive (p : Pvu) (i : PvuWord) (es : List Elem) : List Elem :=
  (es.zip (p.actives i.pg.toNat (wOf i))).filterMap (fun x => if x.2 then some x.1 else none)

def opMnorm : PvuOp := {
  cls := 7, func := 0x07, use := { w := [0, 1], p := true, mc := true, rd := anyReg, ra := anyReg, imm := 0xFFFFFE }, kind := .own,
  ok := fun p i => aligned p.order (raN i), modular := fun _ => true, grp := fun i => [.l (raN i)], dst := fun _ i => [.x (rdN i)],
  time := fun p _ => gadgetTime [4, 36, 84, 150] p, body := fun _ _ p i =>
    let es := onlyActive p i (recombine p (wOf i) (qOf p i) (raN i) true)
    { p := (p.putX (rdN i) (b2n (es.all (fun e => decide ((centred (qOf p i) e.1).natAbs < immU i / 2))), es.any (·.2))).setTag
        (.x (rdN i)) .pub } }

/-- Boolean shares of a one-bit value enter a group of S. -/
def putBitS (eng : Nat) (p : Pvu) (n : Nat) (b : Bool) (k : Bool) : Pvu :=
  let r := shareBool eng p.mrgUsed 128 p.order [b2n b]
  (r.1.zipIdx).foldl (fun t s =>
    (putBytesS t (n + s.2) (le 16 (s.1.headD 0)) k).setTag (.s (n + s.2)) (.share s.2 ((Reg.s n).group p.order))) { p with mrgUsed := r.2 }

def opMeq : PvuOp := {
  cls := 7, func := 0x08, use := { w := allW, p := true, rd := anyReg, ra := anyReg, rb := anyReg }, kind := .own,
  ok := fun p i => aligned p.order (rdN i) && aligned p.order (raN i) && aligned p.order (rbN i),
  grp := fun i => [.l (raN i), .l (rbN i)], dst := fun p i => groupRegs p.order (.s (rdN i)),
  time := fun p _ => gadgetTime [2, 32, 76, 136] p, body := fun _ eng p i =>
    let es := onlyActive p i (zipE (fun a b => b2n (decide (a = b))) (recombine p (wOf i) 0 (raN i) false) (recombine p (wOf i) 0 (rbN i) false))
    { p := putBitS eng p (rdN i) (es.all (fun e => decide (e.1 = 1))) (es.any (·.2)) } }

/-- Bit 0 of element 0 of a Boolean group of S, and its mark. -/
def bitS (p : Pvu) (n : Nat) : Bool × Bool :=
  ((List.range (p.order + 1)).foldl (fun b k => b != (vget p.s (n + k) 0).getLsbD 0) false,
    (List.range (p.order + 1)).any (fun k => (vget p.sScorch (n + k) 0).getLsbD 0))

def opMsel : PvuOp := {
  cls := 7, func := 0x09, use := { w := allW, rd := anyReg, ra := anyReg, rb := anyReg, rc := anyReg }, kind := .own,
  ok := fun p i => aligned p.order (rdN i) && aligned p.order (raN i) && aligned p.order (rbN i) && aligned p.order (rcN i),
  grp := fun i => [.l (raN i), .l (rbN i), .s (rcN i)], dst := fun p i => lGroup p (rdN i),
  time := fun p _ => gadgetTime [1, 8, 18, 32] p, body := fun _ eng p i =>
    let c := bitS p (rcN i)
    { p := putGroup eng p (wOf i) 0 (rdN i) false
        (((recombine p (wOf i) 0 (raN i) false).zip (recombine p (wOf i) 0 (rbN i) false)).map
          (fun x => ((if c.1 then x.1.1 else x.2.1), x.1.2 || x.2.2 || c.2))) } }

def opUnmask : PvuOp := {
  cls := 7, func := 0x0A, use := { w := allW, mc := true, rd := anyReg, ra := anyReg, imm := 1 }, kind := .own, needsUnmask := true,
  ok := fun p i => aligned p.order (raN i) && kindWidth i, modular := kindArith, grp := fun i => [.l (raN i)],
  dst := fun _ i => [.l (rdN i)], time := fun p _ => gadgetTime [1, 3, 4, 5] p, body := fun _ _ p i =>
    { p := (p.putL (rdN i) (wOf i) ((recombine p (wOf i) (qOf p i) (raN i) (kindArith i)).map some)).setTag (.l (rdN i)) .pub } }

def execMshare (i : PvuWord) (s : State) : Host.Outcome State Fault Refusal := pvuExec opMshare i s
def execMrefresh (i : PvuWord) (s : State) : Host.Outcome State Fault Refusal := pvuExec opMrefresh i s
def execMa2b (i : PvuWord) (s : State) : Host.Outcome State Fault Refusal := pvuExec opMa2b i s
def execMb2a (i : PvuWord) (s : State) : Host.Outcome State Fault Refusal := pvuExec opMb2a i s
def execMand (i : PvuWord) (s : State) : Host.Outcome State Fault Refusal := pvuExec opMand i s
def execMcomp (i : PvuWord) (s : State) : Host.Outcome State Fault Refusal := pvuExec opMcomp i s
def execMdecomp (i : PvuWord) (s : State) : Host.Outcome State Fault Refusal := pvuExec opMdecomp i s
def execMnorm (i : PvuWord) (s : State) : Host.Outcome State Fault Refusal := pvuExec opMnorm i s
def execMeq (i : PvuWord) (s : State) : Host.Outcome State Fault Refusal := pvuExec opMeq i s
def execMsel (i : PvuWord) (s : State) : Host.Outcome State Fault Refusal := pvuExec opMsel i s
def execUnmask (i : PvuWord) (s : State) : Host.Outcome State Fault Refusal := pvuExec opUnmask i s

end Sys2Proof.Machine
end

