-- ==== Sys2Proof/Machine/FnDsa.lean ====
section
/-! DEFINITION. FN-DSA verification as R302 to R304 take it from the FIPS 206 draft: PRESUMED from the Falcon specification on which the
draft rests (log entry 60). -/

namespace Sys2Proof.Machine

/-- The modulus. -/
def fnQ : Nat := 12289

/-- Coefficients of a set. -/
def fnN (ps : Nat) : Nat := if ps = 1 then 512 else 1024

/-- n coefficients of 14 bits, most significant bit first (R303). -/
def coefs14 : Nat → List Bool → List Nat
  | 0, _ => []
  | n + 1, bs => (bs.take 14).foldl (fun a b => 2 * a + b2n b) 0 :: coefs14 n (bs.drop 14)

/-- Bits of a byte string, most significant bit of each byte first. -/
def msbBits (bs : List Byte) : List Bool := bs.flatMap (fun b => (bitsOf 8 b.toNat).reverse)

/-- The polynomial of a public key, after its header byte (R303). -/
def fnKeyPoly (ps : Nat) (pk : List Byte) : List Nat := coefs14 (fnN ps) (msbBits (pk.drop 1))

/-- The header and coefficient check of an FN-DSA public key (R303). -/
def fndsaKeyOk (ps : Nat) (pk : List Byte) : Bool :=
  decide (pk.getD 0 0 = (if ps = 1 then 0x09 else 0x0A)) && (fnKeyPoly ps pk).all (fun c => decide (c < fnQ))

/-- Zeros up to the next one: their count and what follows it. -/
def unary : Nat → List Bool → Option (Nat × List Bool)
  | _, [] => none
  | k, true :: r => some (k, r)
  | k, false :: r => unary (k + 1) r

/-- One coefficient of the compressed encoding: sign, seven low bits, the rest in unary. A negative zero is not canonical; a value of 12
bits or more is over-long (R304). -/
def fnCoef : List Bool → Option (Int × List Bool)
  | [] => none
  | s :: r =>
    match unary 0 (r.drop 7) with
    | none => none
    | some (k, rest) =>
      let v := (r.take 7).foldl (fun a b => 2 * a + b2n b) 0 + 128 * k
      if (s && decide (v = 0)) || decide (2048 ≤ v) then none else some (if s then -(v : Int) else v, rest)

/-- `n` coefficients, and the bits that are left. -/
def fnCoefs : Nat → List Bool → Option (List Int × List Bool)
  | 0, bs => some ([], bs)
  | n + 1, bs =>
    match fnCoef bs with
    | none => none
    | some (c, r) => (fnCoefs n r).map (fun x => (c :: x.1, x.2))

/-- s₂ of a signature; none where it is not canonical, over-long, or its padding bits are not zero (R304). -/
def fnDecode (ps : Nat) (bs : List Byte) : Option (List Int) :=
  match fnCoefs (fnN ps) (msbBits bs) with
  | some (c, r) => if r.all (!·) then some c else none
  | none => none

/-- Candidates of 16 bits below 5q, modulo q. -/
def fnCandidates : List Byte → List Nat
  | a :: b :: r =>
    let t := 256 * a.toNat + b.toNat
    (if t < 61445 then [t % fnQ] else []) ++ fnCandidates r
  | _ => []

/-- HashToPoint on nonce and message. -/
def fnPoint (ps : Nat) (m : List Byte) : List Nat :=
  (fnCandidates (shake256 m (4 * fnN ps)) ++ List.replicate (fnN ps) 0).take (fnN ps)

/-- A product modulo xⁿ + 1 and q. -/
def fnMul (n : Nat) (a : List Int) (b : List Nat) : List Int :=
  (List.range n).map (fun k => (((a.zipIdx).map (fun x =>
    if x.2 ≤ k then x.1 * Int.ofNat (b.getD (k - x.2) 0) else -(x.1 * Int.ofNat (b.getD (n + k - x.2) 0)))).sum) % (fnQ : Int))

/-- The bound on ‖(s₁, s₂)‖² (R304). -/
def fnBound (ps : Nat) : Nat := if ps = 1 then 34034726 else 70265242

/-- Verification of a signature over a message (R302, R304). -/
def fndsaVerify (ps : Nat) (pk m sig : List Byte) : Bool :=
  decide (sig.getD 0 0 = (if ps = 1 then 0x39 else 0x3A)) &&
    (match fnDecode ps (sig.drop 41) with
      | none => false
      | some s2 =>
        let c := fnPoint ps (slice sig 1 40 ++ m)
        let s1 := List.zipWith (fun (x : Nat) (y : Int) => centred fnQ (((x : Int) - y) % (fnQ : Int)).toNat) c (fnMul (fnN ps) s2 (fnKeyPoly ps pk))
        decide ((s1.map (fun x => x.natAbs ^ 2)).sum + (s2.map (fun x => x.natAbs ^ 2)).sum ≤ fnBound ps))

end Sys2Proof.Machine
end

