-- ==== Sys2Proof/Machine/Lattice.lean ====
section
/-! DEFINITION. The commands of ML-KEM, ML-DSA and FN-DSA verification (R283 to R304) over the schemes. -/

namespace Sys2Proof.Machine

/-- 12-bit coefficients of an ML-KEM encapsulation key. -/
def coefs12 : Nat → List Byte → List Nat
  | 0, _ => []
  | n + 1, bs =>
    let a := (bs.getD 0 0).toNat
    let b := (bs.getD 1 0).toNat
    let c := (bs.getD 2 0).toNat
    (a + b % 16 * 256) :: (b / 16 + c * 16) :: coefs12 n (bs.drop 3)

/-- The modulus check of an ML-KEM encapsulation key (R291). -/
def mlkemKeyOk (ps : Nat) (ek : List Byte) : Bool := (coefs12 (128 * (ps + 1)) ek).all (fun c => decide (c < 3329))

/-- `MLKEM_KEYGEN` (R290): d and z, 32 bytes each. -/
def kMlkemKeygen : Kernel := genKernel 1 64

/-- `MLKEM_ENCAPS` (R291). -/
def kMlkemEncaps : Kernel := fun s id j =>
  let ps := p8 j.par 0
  let (pk, given) := s.pkOf j ((pubLen 1 ps).getD 0)
  if given && !mlkemKeyOk ps pk then (s, status 0x0030)
  else
    let (m, s1) := s.drawInt 32
    let (c, k) := mlkemEncaps ps pk m
    s1.secret id j c k

/-- `MLKEM_DECAPS` (R292, R293): a rejected ciphertext completes as an accepted one. -/
def kMlkemDecaps : Kernel := fun s id j =>
  s.secret id j [] (mlkemDecaps (p8 j.par 0) (s.skOf j) j.input)

/-- `MLDSA_KEYGEN` (R297). -/
def kMldsaKeygen : Kernel := genKernel 2 32

/-- μ of a representative under a public key (R298). -/
def muOf (pk rep : List Byte) : List Byte := shake256 (shake256 pk 64 ++ rep) 64

/-- μ of an ML-DSA command, from the part of the input that holds ctx and M, ctx and PH(M), or μ. -/
def mldsaMu (op : Nat) (p pk body : List Byte) : List Byte :=
  let n := p8 p 3
  if op = 0x0213 ∨ op = 0x0214 then muOf pk (hashRep (p8 p 10) (body.take n) (body.drop n))
  else if p8 p 2 / 8 % 2 = 1 then body
  else muOf pk (pureRep (body.take n) (body.drop n))

/-- The result of a whole signing chain: signature and attempts, known once the randomness is drawn (R299, R300). -/
def signResult (ps : Nat) (sk mu rnd : List Byte) (limit : Nat) : Result :=
  match mldsaSign ps sk mu rnd limit with
  | none => statusDetail 0x0042 limit
  | some (sig, n) => { okOut (fit (sigLen 2 ps) sig) with detail := BitVec.ofNat 64 n }

/-- The randomness of a signature: 32 bytes from the internal DRBG, or zeros (R299). -/
def State.signRandom (s : State) (j : Job) : List Byte × State :=
  if deterministic j.opcode j.par then (zeros 32, s) else s.drawInt 32

/-- `MLDSA_SIGN` and `HASHMLDSA_SIGN` (R298 to R300). -/
def kMldsaSign : Kernel := fun s _ j =>
  match s.jobKey j with
  | none => (s, status 0x0020)
  | some k =>
    let (rnd, s1) := s.signRandom j
    (s1, signResult (p8 j.par 0) k.priv (mldsaMu j.opcode j.par k.pub j.input) rnd (attemptLimit k))

/-- `MLDSA_VERIFY` and `HASHMLDSA_VERIFY` (R301). -/
def kMldsaVerify : Kernel := fun s _ j =>
  let ps := p8 j.par 0
  let (pk, _) := s.pkOf j ((pubLen 2 ps).getD 0)
  let rest := afterPk j ((pubLen 2 ps).getD 0)
  (s, verdict (mldsaVerify ps pk (mldsaMu j.opcode j.par pk (rest.drop (sigLen 2 ps))) (rest.take (sigLen 2 ps))))

/-- `FNDSA_VERIFY` (R302 to R304). -/
def kFndsaVerify : Kernel := fun s _ j =>
  let ps := p8 j.par 0
  let n := (pubLen 3 ps).getD 0
  let (pk, given) := s.pkOf j n
  let rest := afterPk j n
  let sig := rest.take (p16 j.par 8)
  if given && !fndsaKeyOk ps pk then (s, status 0x0030)
  else (s, verdict (fndsaVerify ps pk (rest.drop (p16 j.par 8)) sig))

/-- `MATRIX_PRELOAD` (R316): the PVUs that hold every set of the key. -/
def kMatrixPreload : Kernel := fun s _ j =>
  match s.jobKey j with
  | none => (s, {})
  | some k =>
    let h := j.e.keyHandle
    let ok (e : Nat) : Bool := (k.publicOnly || !bit k.usage 0 || s.holdsSet e h false) && (!bit k.usage 1 || s.holdsSet e h true)
    (s, statusDetail 0 ((List.range 16).foldl (fun a e => a + b2n (ok e) * 2 ^ e) 0))

/-- MLKEM_KEYGEN (R290). -/
def execMlkemKeygen (job : Nat) (s : State) : Host.Outcome State Fault Refusal := s.runJob 0x0200 job kMlkemKeygen
/-- MLKEM_ENCAPS (R291). -/
def execMlkemEncaps (job : Nat) (s : State) : Host.Outcome State Fault Refusal := s.runJob 0x0201 job kMlkemEncaps
/-- MLKEM_DECAPS (R292). -/
def execMlkemDecaps (job : Nat) (s : State) : Host.Outcome State Fault Refusal := s.runJob 0x0202 job kMlkemDecaps
/-- MLDSA_KEYGEN (R297). -/
def execMldsaKeygen (job : Nat) (s : State) : Host.Outcome State Fault Refusal := s.runJob 0x0210 job kMldsaKeygen
/-- MLDSA_SIGN (R298). -/
def execMldsaSign (job : Nat) (s : State) : Host.Outcome State Fault Refusal := s.runJob 0x0211 job kMldsaSign
/-- MLDSA_VERIFY (R301). -/
def execMldsaVerify (job : Nat) (s : State) : Host.Outcome State Fault Refusal := s.runJob 0x0212 job kMldsaVerify
/-- HASHMLDSA_SIGN (R298). -/
def execHashmldsaSign (job : Nat) (s : State) : Host.Outcome State Fault Refusal := s.runJob 0x0213 job kMldsaSign
/-- HASHMLDSA_VERIFY (R301). -/
def execHashmldsaVerify (job : Nat) (s : State) : Host.Outcome State Fault Refusal := s.runJob 0x0214 job kMldsaVerify
/-- FNDSA_VERIFY (R302). -/
def execFndsaVerify (job : Nat) (s : State) : Host.Outcome State Fault Refusal := s.runJob 0x0220 job kFndsaVerify
/-- MATRIX_PRELOAD (R316): completes with the fills that admission booked. -/
def execMatrixPreload (job : Nat) (s : State) : Host.Outcome State Fault Refusal :=
  if s.trd.plan.any (fun b => decide (b.job = some job)) then .next s else s.runJob 0x0230 job kMatrixPreload

end Sys2Proof.Machine
end

