-- ==== Sys2Proof/Machine/Lms.lean ====
section
/-! DEFINITION. LMS and HSS as R336 to R342 take them from RFC 8554 and SP 800-208: PRESUMED from those standards (log entry 60). The
secret of a tree and the randomizer of a signature are free functions of the key's seed and the leaf: no rule says how they are formed. -/

namespace Sys2Proof.Machine

/-- The hash of a type, cut to n bytes. -/
def lmsHash (shake : Bool) (n : Nat) (m : List Byte) : List Byte := if shake then shake256 m n else (sha256 m).take n

/-- A tree: its types' parameters and its identifier of 16 bytes. -/
structure LmsTree where
  shake : Bool
  n     : Nat
  h     : Nat
  w     : Nat
  lms   : Nat
  ots   : Nat
  id    : List Byte

/-- The tree of two types, where they are supported. -/
def lmsTree (lms ots : Nat) (id : List Byte) : Option LmsTree :=
  match lmsSet lms, otsSet ots with
  | some (sh, n, h), some (_, _, w) => some { shake := sh, n := n, h := h, w := w, lms := lms, ots := ots, id := id }
  | _, _ => none

/-- The hash of a tree's identifier, a number, a domain separator and data. -/
def LmsTree.hash (t : LmsTree) (q d : Nat) (m : List Byte) : List Byte := lmsHash t.shake t.n (t.id ++ be 4 q ++ be 2 d ++ m)

/-- The shift of the check sum. -/
def otsShift (n w : Nat) : Nat :=
  if n = 32 then (match w with | 1 => 7 | 2 => 6 | 4 => 4 | _ => 0) else (match w with | 1 => 8 | 2 => 6 | 4 => 4 | _ => 0)

/-- Digits of `w` bits, most significant first. -/
def digitsOf (w k : Nat) (bs : List Byte) : List Nat :=
  (List.range k).map (fun i => unBe bs / 2 ^ (8 * bs.length - w * (i + 1)) % 2 ^ w)

/-- The digits of a digest with those of its check sum. -/
def LmsTree.digits (t : LmsTree) (q : List Byte) : List Nat :=
  let s := ((digitsOf t.w (8 * t.n / t.w) q).map (2 ^ t.w - 1 - ·)).sum
  digitsOf t.w (otsP t.n t.w) (q ++ be 2 (s * 2 ^ otsShift t.n t.w))

/-- `k` steps of chain `i` of leaf `q` from step `j` on. -/
def LmsTree.chain (t : LmsTree) (q i j : Nat) : Nat → List Byte → List Byte
  | 0, x => x
  | k + 1, x => t.chain q i (j + 1) k (lmsHash t.shake t.n (t.id ++ be 4 q ++ be 2 i ++ be 1 j ++ x))

/-- The start of a chain from the tree's seed (SP 800-208). -/
def LmsTree.start (t : LmsTree) (seed : List Byte) (q i : Nat) : List Byte :=
  lmsHash t.shake t.n (t.id ++ be 4 q ++ be 2 i ++ [0xFF] ++ seed)

/-- The LM-OTS public key of leaf `q` from the ends of its chains, and of the leaf itself. -/
def LmsTree.otsEnd (t : LmsTree) (q : Nat) (ends : List (List Byte)) : List Byte := t.hash q 0x8080 ends.flatten
def LmsTree.otsPub (t : LmsTree) (seed : List Byte) (q : Nat) : List Byte :=
  t.otsEnd q ((List.range (otsP t.n t.w)).map (fun i => t.chain q i 0 (2 ^ t.w - 1) (t.start seed q i)))

/-- The digest of a message under the randomizer `c`. -/
def LmsTree.digest (t : LmsTree) (q : Nat) (c m : List Byte) : List Byte := t.hash q 0x8181 (c ++ m)

/-- The node over its leaf, and over two nodes. -/
def LmsTree.leaf (t : LmsTree) (q : Nat) (k : List Byte) : List Byte := t.hash (2 ^ t.h + q) 0x8282 k
def LmsTree.join (t : LmsTree) (r : Nat) (a b : List Byte) : List Byte := t.hash r 0x8383 (a ++ b)

/-- The node with number `r`, `z` levels above the leaves. -/
def LmsTree.node (t : LmsTree) (seed : List Byte) : Nat → Nat → List Byte
  | 0, r => t.leaf (r - 2 ^ t.h) (t.otsPub seed (r - 2 ^ t.h))
  | z + 1, r => t.join r (t.node seed z (2 * r)) (t.node seed z (2 * r + 1))

/-- The public key of a tree. -/
def LmsTree.pub (t : LmsTree) (seed : List Byte) : List Byte := be 4 t.lms ++ be 4 t.ots ++ t.id ++ t.node seed t.h 1

/-- A signature at leaf `q` with the randomizer `c`. -/
def LmsTree.sign (t : LmsTree) (seed : List Byte) (q : Nat) (c m : List Byte) : List Byte :=
  be 4 q ++ be 4 t.ots ++ c
    ++ ((t.digits (t.digest q c m)).zipIdx).flatMap (fun d => t.chain q d.2 0 d.1 (t.start seed q d.2))
    ++ be 4 t.lms ++ (List.range t.h).flatMap (fun z =>
      let r := (2 ^ t.h + q) / 2 ^ z
      t.node seed z (if r % 2 = 0 then r + 1 else r - 1))

/-- The root that a node with number `r` gives with the path above it. -/
def LmsTree.climb (t : LmsTree) : Nat → List Byte → List (List Byte) → List Byte
  | _, x, [] => x
  | r, x, s :: rest => t.climb (r / 2) (if r % 2 = 0 then t.join (r / 2) x s else t.join (r / 2) s x) rest

/-- A signature of a tree verifies: types, leaf number and root. -/
def lmsVerify (pub m sig : List Byte) : Bool :=
  match lmsTree (unBe (slice pub 0 4)) (unBe (slice pub 4 4)) (slice pub 8 16) with
  | none => false
  | some t =>
    let q := unBe (slice sig 0 4)
    let c := slice sig 8 t.n
    let p := otsP t.n t.w
    let tail := 8 + t.n * (p + 1)
    let ends := ((t.digits (t.digest q c m)).zipIdx).map (fun d =>
      t.chain q d.2 d.1 (2 ^ t.w - 1 - d.1) (slice sig (8 + t.n * (1 + d.2)) t.n))
    decide (q < 2 ^ t.h) && decide (unBe (slice sig 4 4) = t.ots) && decide (unBe (slice sig tail 4) = t.lms)
      && decide (t.climb (2 ^ t.h + q) (t.leaf q (t.otsEnd q ends)) (parts t.n t.h (sig.drop (tail + 4))) = slice pub 24 t.n)

/-- The signatures of an HSS signature from a level's public key down: `more` signed keys, then the message. -/
def hssClimb : Nat → List Byte → List Byte → List Byte → Bool
  | 0, pub, m, sig => lmsVerify pub m sig
  | more + 1, pub, m, sig =>
    let n := lmsSigLen (unBe (slice pub 0 4)) (unBe (slice pub 4 4))
    let next := slice sig n (lmsPubLen (unBe (slice sig n 4)))
    lmsVerify pub next (sig.take n) && hssClimb more next m (sig.drop (n + next.length))

/-- An HSS signature over a message verifies (R337): level count and types are those of the key. -/
def hssVerify (pub m sig : List Byte) : Bool :=
  match hssSigLevels sig with
  | some ls =>
    decide (ls.length = unBe (slice pub 0 4)) && decide (ls.headD (0, 0) = (unBe (slice pub 8 4), unBe (slice pub 4 4)))
      && hssClimb (ls.length - 1) (pub.drop 4) m (sig.drop 4)
  | none => false

/-- The tree of a key at a level: its number among the trees of the level; its identifier and seed come from the key's seed. -/
def hssTree (seed : List Byte) (lms ots level tree : Nat) : Option (LmsTree × List Byte) :=
  (lmsTree lms ots (fit 16 (Config.treeId seed level tree))).map (fun t => (t, fit t.n (Config.treeSeed seed level tree)))

/-- The public key of a tree of a key. -/
def hssTreePub (seed : List Byte) (lms ots level tree : Nat) : List Byte :=
  match hssTree seed lms ots level tree with | some (t, x) => t.pub x | none => []

/-- The HSS public key of a seed (R336). -/
def hssPub (levels lms ots : Nat) (seed : List Byte) : List Byte := be 4 levels ++ hssTreePub seed lms ots 0 0

/-- A message signed at leaf `q` of the tree at a level. -/
def hssSignAt (seed : List Byte) (lms ots level tree q : Nat) (m : List Byte) : List Byte :=
  match hssTree seed lms ots level tree with
  | some (t, x) => t.sign x q (fit t.n (Config.otsRandom seed level tree q)) m
  | none => []

/-- The HSS signature at a leaf of the key (R342): at every level above the bottom the public key of the tree below is signed. -/
def hssSign (levels lms ots : Nat) (seed : List Byte) (leaf : Nat) (m : List Byte) : List Byte :=
  let h := match lmsSet lms with | some (_, _, h) => h | none => 0
  let at_ (level : Nat) : Nat × Nat := (leaf / 2 ^ (h * (levels - level)), leaf / 2 ^ (h * (levels - 1 - level)) % 2 ^ h)
  be 4 (levels - 1)
    ++ (List.range (levels - 1)).flatMap (fun i =>
      let pub := hssTreePub seed lms ots (i + 1) (at_ (i + 1)).1
      hssSignAt seed lms ots i (at_ i).1 (at_ i).2 pub ++ pub)
    ++ hssSignAt seed lms ots (levels - 1) (at_ (levels - 1)).1 (at_ (levels - 1)).2 m

end Sys2Proof.Machine
end

