-- ==== Sys2Proof/Machine/Xmss.lean ====
section
/-! DEFINITION. XMSS and XMSS^MT as R336 to R342 take them from RFC 8391 and SP 800-208: PRESUMED from those standards (log entry 60). -/

namespace Sys2Proof.Machine

/-- A key's set and its public seed: hash, n, layers and their height. -/
structure XmssCtx where
  shake : Bool
  n     : Nat
  h     : Nat
  d     : Nat
  seed  : List Byte

/-- The set of an OID. -/
def xmssCtx (mt : Bool) (oid : Nat) (seed : List Byte) : Option XmssCtx :=
  (xmssSet mt oid).map (fun x => { shake := x.1, n := x.2.1, h := x.2.2.1 / x.2.2.2, d := x.2.2.2, seed := seed })

/-- The hash functions, told apart by a number: F 0, H 1, H_msg 2, PRF 3, PRF_keygen 4; for n = 24 the number has 4 bytes. -/
def XmssCtx.hash (c : XmssCtx) (fn : Nat) (key m : List Byte) : List Byte :=
  let x := be (if c.n = 32 then 32 else 4) fn ++ key ++ m
  if c.shake then shake256 x c.n else (sha256 x).take c.n

/-- An address: layer, tree, type and the four words after the type. -/
structure XmssAdrs where
  layer : Nat := 0
  tree  : Nat := 0
  typ   : Nat := 0
  key   : Nat := 0
  level : Nat := 0
  index : Nat := 0

/-- Its 32 bytes with the last word, which says what is drawn from it. -/
def XmssAdrs.bytes (a : XmssAdrs) (last : Nat) : List Byte :=
  be 4 a.layer ++ be 8 a.tree ++ be 4 a.typ ++ be 4 a.key ++ be 4 a.level ++ be 4 a.index ++ be 4 last

/-- A key or a mask of an address. -/
def XmssCtx.prf (c : XmssCtx) (a : XmssAdrs) (last : Nat) : List Byte := c.hash 3 c.seed (a.bytes last)

/-- `k` steps of a chain from step `i` on. -/
def XmssCtx.chain (c : XmssCtx) (a : XmssAdrs) (i : Nat) : Nat → List Byte → List Byte
  | 0, x => x
  | k + 1, x => c.chain a (i + 1) k (let b := { a with index := i }; c.hash 0 (c.prf b 0) (xorBytes x (c.prf b 1)))

/-- RAND_HASH of two nodes. -/
def XmssCtx.join (c : XmssCtx) (a : XmssAdrs) (l r : List Byte) : List Byte :=
  c.hash 1 (c.prf a 0) (xorBytes l (c.prf a 1) ++ xorBytes r (c.prf a 2))

/-- One level of an L-tree: pairs are joined, a last node without a partner goes up. -/
def XmssCtx.lLevel (c : XmssCtx) (a : XmssAdrs) : Nat → List (List Byte) → List (List Byte)
  | i, l :: r :: rest => c.join { a with index := i } l r :: c.lLevel a (i + 1) rest
  | _, rest => rest

/-- The root of an L-tree. -/
def XmssCtx.lTree (c : XmssCtx) (a : XmssAdrs) : Nat → Nat → List (List Byte) → List Byte
  | 0, _, xs => xs.headD []
  | fuel + 1, z, xs => if xs.length ≤ 1 then xs.headD [] else c.lTree a fuel (z + 1) (c.lLevel { a with level := z } 0 xs)

/-- Chain `i` of a key pair; the start of the chain (SP 800-208). -/
def otsChain (a : XmssAdrs) (i : Nat) : XmssAdrs := { a with typ := 0, level := i }
def XmssCtx.start (c : XmssCtx) (s : List Byte) (a : XmssAdrs) (i : Nat) : List Byte := c.hash 4 s (c.seed ++ (otsChain a i).bytes 0)

/-- The leaf over the ends of a key pair's chains; the leaf of a key pair. -/
def XmssCtx.leafOf (c : XmssCtx) (a : XmssAdrs) (ends : List (List Byte)) : List Byte := c.lTree { a with typ := 1 } 8 0 ends
def XmssCtx.leaf (c : XmssCtx) (s : List Byte) (a : XmssAdrs) : List Byte :=
  c.leafOf a ((List.range (2 * c.n + 3)).map (fun i => c.chain (otsChain a i) 0 15 (c.start s a i)))

/-- The address of a join at height `z` to parent `i`. -/
def joinAdrs (layer tree z i : Nat) : XmssAdrs := { layer := layer, tree := tree, typ := 2, level := z, index := i }

/-- The node at height `z` and index `i` of a tree. -/
def XmssCtx.node (c : XmssCtx) (s : List Byte) (layer tree : Nat) : Nat → Nat → List Byte
  | 0, i => c.leaf s { layer := layer, tree := tree, key := i }
  | z + 1, i => c.join (joinAdrs layer tree z i) (c.node s layer tree z (2 * i)) (c.node s layer tree z (2 * i + 1))

/-- A tree's signature of n bytes, with its path, and the root that one gives. -/
def XmssCtx.signTree (c : XmssCtx) (s : List Byte) (layer tree i : Nat) (m : List Byte) : List Byte :=
  let a : XmssAdrs := { layer := layer, tree := tree, key := i }
  ((wotsDigits m).zipIdx).flatMap (fun d => c.chain (otsChain a d.2) 0 d.1 (c.start s a d.2))
    ++ (List.range c.h).flatMap (fun z => c.node s layer tree z (if i / 2 ^ z % 2 = 0 then i / 2 ^ z + 1 else i / 2 ^ z - 1))

/-- The root from a leaf and its path. -/
def XmssCtx.climb (c : XmssCtx) (layer tree : Nat) : Nat → Nat → List Byte → List (List Byte) → List Byte
  | _, _, x, [] => x
  | z, i, x, s :: r =>
    let a := joinAdrs layer tree z (i / 2)
    c.climb layer tree (z + 1) (i / 2) (if i % 2 = 0 then c.join a x s else c.join a s x) r

def XmssCtx.rootFrom (c : XmssCtx) (layer tree i : Nat) (m sig : List Byte) : List Byte :=
  let a : XmssAdrs := { layer := layer, tree := tree, key := i }
  let ends := ((wotsDigits m).zipIdx).map (fun d => c.chain (otsChain a d.2) d.1 (15 - d.1) (slice sig (c.n * d.2) c.n))
  c.climb layer tree 0 i (c.leafOf a ends) (parts c.n c.h (sig.drop (c.n * (2 * c.n + 3))))

/-- The signatures of the layers from `layer` on, and the root that they give. -/
def XmssCtx.signLayers (c : XmssCtx) (s : List Byte) : Nat → Nat → Nat → List Byte → List Byte
  | 0, _, _, _ => []
  | fuel + 1, layer, idx, m =>
    let tree := idx / 2 ^ c.h
    c.signTree s layer tree (idx % 2 ^ c.h) m ++ c.signLayers s fuel (layer + 1) tree (c.node s layer tree c.h 0)
def XmssCtx.rootLayers (c : XmssCtx) : Nat → Nat → Nat → List Byte → List Byte → List Byte
  | 0, _, _, m, _ => m
  | fuel + 1, layer, idx, m, sig =>
    let n := c.n * (2 * c.n + 3 + c.h)
    c.rootLayers fuel (layer + 1) (idx / 2 ^ c.h) (c.rootFrom layer (idx / 2 ^ c.h) (idx % 2 ^ c.h) m (sig.take n)) (sig.drop n)

/-- Bytes of the index in a signature. -/
def idxBytes (mt : Bool) (c : XmssCtx) : Nat := if mt then ceilDiv (c.h * c.d) 8 else 4

/-- The public key of a seed of 3n bytes: S, SK_PRF, SEED. -/
def xmssPub (mt : Bool) (oid : Nat) (seed : List Byte) : List Byte :=
  match xmssSet mt oid with
  | none => []
  | some (_, n, _, _) =>
    match xmssCtx mt oid (slice seed (2 * n) n) with
    | some c => be 4 oid ++ c.node (seed.take n) (c.d - 1) 0 c.h 0 ++ c.seed
    | none => []

/-- The digest of a message under the randomizer, the root and the index. -/
def XmssCtx.digest (c : XmssCtx) (r root : List Byte) (idx : Nat) (m : List Byte) : List Byte := c.hash 2 (r ++ root ++ be c.n idx) m

/-- The signature at a leaf of the key (R342). -/
def xmssSign (mt : Bool) (pub seed : List Byte) (leaf : Nat) (m : List Byte) : List Byte :=
  let oid := unBe (slice pub 0 4)
  match xmssSet mt oid with
  | none => []
  | some (_, n, _, _) =>
    match xmssCtx mt oid (slice pub (4 + n) n) with
    | some c =>
      let r := c.hash 3 (slice seed n n) (be 32 leaf)
      be (idxBytes mt c) leaf ++ r ++ c.signLayers (seed.take n) c.d 0 leaf (c.digest r (slice pub 4 n) leaf m)
    | none => []

/-- A signature over a message verifies (R337). -/
def xmssVerify (mt : Bool) (pub m sig : List Byte) : Bool :=
  let oid := unBe (slice pub 0 4)
  match xmssSet mt oid with
  | none => false
  | some (_, n, h, _) =>
    match xmssCtx mt oid (slice pub (4 + n) n) with
    | some c =>
      let k := idxBytes mt c
      let idx := unBe (sig.take k)
      decide (idx < 2 ^ h) && decide (c.rootLayers c.d 0 idx (c.digest (slice sig k n) (slice pub 4 n) idx m) (sig.drop (k + n)) = slice pub 4 n)
    | none => false

end Sys2Proof.Machine
end

