-- ==== Sys2Proof/Machine/HashCode.lean ====
section
/-! DEFINITION. SLH-DSA, the stateful signatures, HQC and Classic McEliece (R318 to R364). -/

namespace Sys2Proof.Machine

/-- `SLHDSA_KEYGEN` (R332): SK.seed, SK.prf and PK.seed, n bytes each. -/
def kSlhKeygen : Kernel := fun s id j => genKernel 4 (3 * slhN (p8 j.par 0)) s id j

/-- M' of an SLH-DSA command (R333). -/
def slhRep (op : Nat) (p body : List Byte) : List Byte :=
  let n := p8 p 3
  if op = 0x0303 ∨ op = 0x0304 then hashRep (p8 p 8) (body.take n) (body.drop n) else pureRep (body.take n) (body.drop n)

/-- `SLHDSA_SIGN` and `HASHSLHDSA_SIGN` (R333): addrnd is drawn, or PK.seed. -/
def kSlhSign : Kernel := fun s _ j =>
  match s.jobKey j with
  | none => (s, status 0x0020)
  | some k =>
    let ps := p8 j.par 0
    let (rnd, s1) := if deterministic j.opcode j.par then (k.pub.take (slhN ps), s) else s.drawInt (slhN ps)
    (s1, okOut (fit (slhSig ps) (slhSign ps k.priv (slhRep j.opcode j.par j.input) rnd)))

/-- `SLHDSA_VERIFY` and `HASHSLHDSA_VERIFY` (R334). -/
def kSlhVerify : Kernel := fun s _ j =>
  let ps := p8 j.par 0
  let n := (pubLen 4 ps).getD 0
  let (pk, _) := s.pkOf j n
  let rest := afterPk j n
  (s, verdict (slhVerify ps pk (slhRep j.opcode j.par (rest.drop (slhSig ps))) (rest.take (slhSig ps))))

-- Stateful signatures.

/-- The levels of a key to be generated (R319, R320, R336). -/
def newLevels (op : Nat) (p : List Byte) : List TreeLevel :=
  if op = 0x0310 then
    (match lmsSet (p8 p 0) with
      | some (_, _, h) => List.replicate (p8 p 9) { lms := p8 p 0, ots := p8 p 8, height := h }
      | none => [])
  else
    (match xmssSet (decide (p8 p 0 = 2)) (p16 p 8) with
      | some (_, _, h, d) => List.replicate d { lms := p16 p 8, ots := 0, height := h / d }
      | none => [])

/-- The public encoding of a generated stateful key (R318, R336). -/
def statefulPub (op : Nat) (p seed : List Byte) : List Byte :=
  if op = 0x0310 then hssPub (p8 p 9) (p8 p 0) (p8 p 8) seed else xmssPub (decide (p8 p 0 = 2)) (p16 p 8) seed

/-- Whether a new stateful key's hash is SHAKE256. -/
def newShake (op : Nat) (p : List Byte) : Bool :=
  if op = 0x0310 then lmsShake (p8 p 0)
  else match xmssSet (decide (p8 p 0 = 2)) (p16 p 8) with | some (sh, _, _, _) => sh | none => false

/-- The key object of a stateful generation (R320, R331, R342): N and E are 0, and nothing is reserved yet. -/
def newStateful (op : Nat) (p seed : List Byte) : KeyObj :=
  let ls := newLevels op p
  let typ := if op = 0x0310 then 5 else 6
  { pairObj typ (p8 p 0) (if newShake op p then p8 p 1 else 0) (p32 p 4) (fit 96 seed) (statefulPub op p seed) with
    st := some {
      keyEnd := 2 ^ ((ls.map (·.height)).sum), reserve := if p16 p 10 = 0 then 1024 else p16 p 10,
      cacheTrees := decide (p8 p 2 / 8 % 2 = 1), traversal := if p8 p 2 / 8 % 2 = 1 then none else some 0, levels := ls } }

/-- A generation starts at its admission: the seed is drawn, and the top tree and the first tree of each lower level are
to be built (R340, R341). -/
def State.startStateful (s : State) (j : Job) (h : W32) : State :=
  let (seed, s1) := s.drawInt 96
  let k := newStateful j.opcode j.par seed
  let s2 := s1.hide h k
  match k.st with
  | some st => { s2 with trd := { s2.trd with builds := s2.trd.builds ++ treesWanted h k st } }
  | none => s2

/-- `LMS_KEYGEN`, `XMSS_KEYGEN` (R341): the builds have ended; the key is stored, its first leaves are reserved, and the
next trees are started. -/
def kStatefulKeygen : Kernel := fun s id j =>
  match j.created with
  | none => (s, status 0x0025)
  | some h =>
    let s1 := (s.reveal id j).reserveLeaves h
    match s1.getKey h with
    | none => (s1, status 0x0025)
    | some k =>
      let s2 := match k.st with | some st => s1.startBuilds h k st | none => s1
      (s2, { okOut k.pub with handle := h, detail := BitVec.ofNat 64 j.buildTicks })

/-- The signature of a stateful key at a leaf (R342). -/
def statefulSignature (k : KeyObj) (leaf : Nat) (m : List Byte) : List Byte :=
  if k.typ = 6 then xmssSign (decide (k.pset = 2)) k.pub k.priv leaf m
  else hssSign (unBe (slice k.pub 0 4)) (unBe (slice k.pub 4 4)) (unBe (slice k.pub 8 4)) k.priv leaf m

/-- `LMS_SIGN`, `XMSS_SIGN` (R342, R347): the signature at the leaf assigned at admission. -/
def kStatefulSign : Kernel := fun s _ j =>
  match s.jobKey j, j.leaf with
  | some k, some q =>
    let n := (s.outNeedKey j k).getD 0
    (s, { okOut (fit n (statefulSignature k q j.input)) with detail := BitVec.ofNat 64 q })
  | _, _ => (s, status 0x0020)

/-- A given XMSS public key names a supported OID and has its length. -/
def xmssKeyOk (mt : Bool) (pk : List Byte) : Bool :=
  match xmssSet mt (unBe (slice pk 0 4)) with
  | some (_, n, _, _) => decide (pk.length = 4 + 2 * n)
  | none => false

/-- The parts of a stateful verification: key, whether it was given, signature and message (R337). -/
def State.statefulParts (s : State) (j : Job) : List Byte × Bool × List Byte × List Byte :=
  let pkl := p16 j.par 8
  let sl := p16 j.par 10
  let (pk, given) := s.pkOf j pkl
  let rest := afterPk j pkl
  (pk, given, rest.take sl, rest.drop sl)

/-- `LMS_VERIFY` (R337): the structure the signature declares must agree with the key. -/
def kLmsVerify : Kernel := fun s _ j =>
  let (pk, given, sig, m) := s.statefulParts j
  if given && !hssKeyOk pk then (s, status 0x0030)
  else (s, verdict (hssVerify pk m sig))

/-- `XMSS_VERIFY` (R337). -/
def kXmssVerify : Kernel := fun s _ j =>
  let (pk, given, sig, m) := s.statefulParts j
  let (mt, oid) := s.xmssKey j
  if given && !xmssKeyOk mt pk then (s, status 0x0030)
  else (s, verdict (decide (sig.length = xmssSigLen mt oid) && xmssVerify mt pk m sig))

/-- The record of `STATEFUL_STATUS` (R350). -/
def statefulRecord (st : Stateful) : List Byte :=
  let ready := st.levels.zipIdx.all (fun p => p.1.nextBuilt || lastTree st p.2 p.1)
  le 8 st.next ++ le 8 st.durable ++ le 8 st.keyEnd ++ le 4 st.reserve
    ++ le 1 (b2n st.cacheTrees + 2 * b2n ready + 4 * b2n (decide (st.grants ≠ [])) + 8 * b2n st.worker) ++ zeros 3

/-- `STATEFUL_STATUS` (R350). -/
def kStatefulStatus : Kernel := fun s _ j =>
  match (s.jobKey j).bind (·.st) with
  | some st => (s, okOut (statefulRecord st))
  | none => (s, status 0x0023)

/-- A counter moves on by `STATEFUL_ADVANCE` in admission order (R351): when it passes E, a record with E := N comes
first. Answers the new N and whether a record is written. -/
def advanceTo (st : Stateful) (count : Nat) : Stateful × Bool :=
  let n := min (st.next + count) st.keyEnd
  ({ st.goTo n with issued := max st.issued n }, decide (st.durable < n))

/-- `STATEFUL_ADVANCE` takes effect at its admission edge (R351): the record with E := N follows at the next journal page,
and a reservation where few leaves are left (R343). -/
def State.startAdvance (s : State) (id : Nat) (j : Job) : State :=
  match s.jobKey j with
  | none => s
  | some k => (match k.st with
    | none => s
    | some st =>
      let r := advanceTo st (p32 j.par 8)
      let s1 := (s.setKey j.e.keyHandle { k with st := some r.1 }).modJob id (fun x => { x with leaf := some r.1.next, waitsJournal := r.2 })
      let s2 := if r.2 then s1.journal { typ := 2, handle := j.e.keyHandle, a := r.1.next, b := 0, obj := none, job := some id, issued := s.trd.edge } else s1
      (s2.startBuilds j.e.keyHandle k r.1).reserveLeaves j.e.keyHandle)

/-- `STATEFUL_ADVANCE`: `DETAIL` is the new N (R351). -/
def kStatefulAdvance : Kernel := fun s _ j => (s, statusDetail 0 (j.leaf.getD 0))

-- HQC and Classic McEliece.

/-- Length in bits of HQC's s (PRESUMED from the HQC specification; the lengths of R354 agree). -/
def hqcBits (ps : Nat) : Nat := byPset [17669, 35851, 57637] ps

/-- No bit of s lies above position n − 1 (R355): s follows the 40-byte seed. -/
def hqcKeyOk (ps : Nat) (ek : List Byte) : Bool := decide (unLe (ek.drop 40) < 2 ^ hqcBits ps)

/-- `HQC_KEYGEN` (R354): the two seeds and the rejection value are drawn. -/
def kHqcKeygen : Kernel := fun s id j => genKernel 7 (80 + (hqcSet (p8 j.par 0)).k) s id j

/-- `HQC_ENCAPS` (R355). -/
def kHqcEncaps : Kernel := fun s id j =>
  let ps := p8 j.par 0
  let (pk, given) := s.pkOf j ((pubLen 7 ps).getD 0)
  if given && !hqcKeyOk ps pk then (s, status 0x0030)
  else
    let (m, s1) := s.drawInt ((hqcSet ps).k + 16)
    let r := hqcEncaps ps pk m
    s1.secret id j (fit (kemC 7 ps) r.1) (fit 64 r.2)

/-- `HQC_DECAPS` (R355). -/
def kHqcDecaps : Kernel := fun s id j =>
  s.secret id j [] (fit 64 (hqcDecaps (p8 j.par 0) (s.skOf j) j.input))

/-- `MCE_KEYGEN` (R364): the seed is drawn with the first attempt, each next one taking its seed from the one before; the result says how many
attempts it takes. -/
def kMceKeygen : Kernel := fun s _ j =>
  let p := j.par
  let ps := p8 p 0
  let (seed, s1) := s.drawInt 32
  match mceKeys ps seed, j.created with
  | none, _ => (s1, statusDetail 0x0042 64)
  | some _, none => (s1, status 0x0025)
  | some (n, sk, pk), some h =>
    let pub := fit ((pubLen 8 ps).getD 0) pk
    let k := { pairObj 8 ps (genOrder 8 ps (p8 p 1)) (p32 p 4) (fit (privLen 8 ps) sk) pub with ephemeral := decide (p8 p 2 % 2 = 1) }
    (s1.hide h k, { okOut pub with handle := h, detail := BitVec.ofNat 64 n })

/-- An error vector is drawn, again until its positions are apart; the draws are bounded (log entry 60). -/
def State.drawErrors (ps : Nat) : Nat → State → Nat × State
  | 0, s => (0, s)
  | fuel + 1, s =>
    let (d, s1) := s.drawInt (mceDraw ps)
    match mceErrors ps d with
    | some e => (e, s1)
    | none => State.drawErrors ps fuel s1

/-- `MCE_ENCAPS` (R358, R360): only the length of a given key is checked. -/
def kMceEncaps : Kernel := fun s id j =>
  let ps := p8 j.par 0
  let (pk, _) := s.pkOf j ((pubLen 8 ps).getD 0)
  let (e, s1) := State.drawErrors ps 256 s
  let r := mceEncaps ps pk e
  s1.secret id j (fit (kemC 8 ps) r.1) (fit 32 r.2)

/-- `MCE_DECAPS` (R357). -/
def kMceDecaps : Kernel := fun s id j =>
  s.secret id j [] (fit 32 (mceDecaps (p8 j.par 0) (s.skOf j) j.input))

/-- Bitmap of the PVUs pinned with a key (R361). -/
def State.pinMap (s : State) (h : W32) : Nat :=
  (List.range 16).foldl (fun a e => a + b2n (decide (((s.getPvu e).pin.map (·.1)) = some h)) * 2 ^ e) 0

/-- `MCE_PIN`, `MCE_UNPIN` (R361, R363): complete once no PVU is still being pinned, or unpinned, for the key. -/
def kMcePin : Kernel := fun s _ j => (s, statusDetail 0 (s.pinMap j.e.keyHandle))
def kMceUnpin : Kernel := fun s _ _ => (s, {})

/-- SLHDSA_KEYGEN (R332). -/
def execSlhdsaKeygen (job : Nat) (s : State) : Host.Outcome State Fault Refusal := s.runJob 0x0300 job kSlhKeygen
/-- SLHDSA_SIGN (R333). -/
def execSlhdsaSign (job : Nat) (s : State) : Host.Outcome State Fault Refusal := s.runJob 0x0301 job kSlhSign
/-- SLHDSA_VERIFY (R334). -/
def execSlhdsaVerify (job : Nat) (s : State) : Host.Outcome State Fault Refusal := s.runJob 0x0302 job kSlhVerify
/-- HASHSLHDSA_SIGN (R333). -/
def execHashslhdsaSign (job : Nat) (s : State) : Host.Outcome State Fault Refusal := s.runJob 0x0303 job kSlhSign
/-- HASHSLHDSA_VERIFY (R334). -/
def execHashslhdsaVerify (job : Nat) (s : State) : Host.Outcome State Fault Refusal := s.runJob 0x0304 job kSlhVerify
/-- LMS_KEYGEN (R341): once the builds that admission started have ended. -/
def execLmsKeygen (job : Nat) (s : State) : Host.Outcome State Fault Refusal := s.runJob 0x0310 job kStatefulKeygen
/-- LMS_SIGN (R342). -/
def execLmsSign (job : Nat) (s : State) : Host.Outcome State Fault Refusal := s.runJob 0x0311 job kStatefulSign
/-- LMS_VERIFY (R337). -/
def execLmsVerify (job : Nat) (s : State) : Host.Outcome State Fault Refusal := s.runJob 0x0312 job kLmsVerify
/-- XMSS_KEYGEN (R341). -/
def execXmssKeygen (job : Nat) (s : State) : Host.Outcome State Fault Refusal := s.runJob 0x0318 job kStatefulKeygen
/-- XMSS_SIGN (R342). -/
def execXmssSign (job : Nat) (s : State) : Host.Outcome State Fault Refusal := s.runJob 0x0319 job kStatefulSign
/-- XMSS_VERIFY (R337). -/
def execXmssVerify (job : Nat) (s : State) : Host.Outcome State Fault Refusal := s.runJob 0x031A job kXmssVerify
/-- STATEFUL_STATUS (R350). -/
def execStatefulStatus (job : Nat) (s : State) : Host.Outcome State Fault Refusal := s.runJob 0x0320 job kStatefulStatus
/-- STATEFUL_ADVANCE (R351). -/
def execStatefulAdvance (job : Nat) (s : State) : Host.Outcome State Fault Refusal := s.runJob 0x0321 job kStatefulAdvance
/-- HQC_KEYGEN (R354). -/
def execHqcKeygen (job : Nat) (s : State) : Host.Outcome State Fault Refusal := s.runJob 0x0400 job kHqcKeygen
/-- HQC_ENCAPS (R355). -/
def execHqcEncaps (job : Nat) (s : State) : Host.Outcome State Fault Refusal := s.runJob 0x0401 job kHqcEncaps
/-- HQC_DECAPS (R355). -/
def execHqcDecaps (job : Nat) (s : State) : Host.Outcome State Fault Refusal := s.runJob 0x0402 job kHqcDecaps
/-- MCE_KEYGEN (R364). -/
def execMceKeygen (job : Nat) (s : State) : Host.Outcome State Fault Refusal := s.runJob 0x0410 job kMceKeygen
/-- MCE_ENCAPS (R358). -/
def execMceEncaps (job : Nat) (s : State) : Host.Outcome State Fault Refusal := s.runJob 0x0411 job kMceEncaps
/-- MCE_DECAPS (R357). -/
def execMceDecaps (job : Nat) (s : State) : Host.Outcome State Fault Refusal := s.runJob 0x0412 job kMceDecaps
/-- MCE_PIN (R361): the command's result, once no PVU waits to be pinned with its key. -/
def execMcePin (job : Nat) (s : State) : Host.Outcome State Fault Refusal :=
  if (List.range 16).any (fun e => decide ((s.getPvu e).pinning = some (s.getJob job).e.keyHandle)) then .next s
  else s.runJob 0x0418 job kMcePin
/-- MCE_UNPIN (R363). -/
def execMceUnpin (job : Nat) (s : State) : Host.Outcome State Fault Refusal :=
  if s.pinMap (s.getJob job).e.keyHandle ≠ 0 then .next s else s.runJob 0x0419 job kMceUnpin

/-- Bytes of a McEliece public key held in a pinned PVU's local store (R218). -/
def pinLength (k : KeyObj) : Nat := k.pub.length

/-- A PVU has drained: nothing is booked on it from the current tick on, and no chain lives on it. -/
def State.drained (s : State) (e : Nat) : Bool :=
  s.trd.plan.all (fun b => decide (b.eng ≠ e) || decide (b.tick < s.trd.edge) || decide (b.kind = .assess))
    && s.trd.signQ.all (fun q => decide (q.pvu ≠ e) || q.chains.isEmpty)

/-- The bytes of a string at the addresses from 0 that it takes; zero bytes are not listed. -/
def keyCells (bs : List Byte) : List Host.Cell := (bs.zipIdx).filterMap (fun b => if b.1 = 0 then none else some (b.2, b.1))

/-- PIN_LOAD (R218, R361): a drained PVU takes the key; its constant area and matrix sets are gone (R315). -/
def execPinLoad (pvu : Nat) (s : State) : Host.Outcome State Fault Refusal :=
  let x := s.getPvu pvu
  match x.pinning with
  | none => .next s
  | some h =>
    if !s.drained pvu ∨ !s.running ∨ 16 ≤ pvu then .next s
    else match s.getKey h with
      | none => .next (s.setPvu pvu { x with pinning := none })
      | some k =>
        let s1 := s.setPvu pvu { x with
          pin := some (h, pinLength k), pinning := none, unpinning := false, ls := keyCells k.pub, lsTag := [], lsScorch := [], used := [] }
        .next (({ s1 with trd := { s1.trd with sets := s1.trd.sets.filter (fun y => decide (y.1 ≠ pvu)) } } : State).cause (0x10 + pvu) 4)

/-- UNPIN_DONE (R363): after the last pinned release the local store is cleared and the constant area reloaded. -/
def execUnpinDone (pvu : Nat) (s : State) : Host.Outcome State Fault Refusal :=
  let x := s.getPvu pvu
  if x.unpinning && s.drained pvu && decide (pvu < 16) then
    .next ((s.setPvu pvu { x with pin := none, unpinning := false, ls := [], lsTag := [], lsScorch := [], used := [] }).cause (0x10 + pvu) 4)
  else .next s

end Sys2Proof.Machine
end

