-- ==== Sys2Proof/Machine/Classic.lean ====
section
/-! DEFINITION. Raw modular operations, the classical, hybrid and composite commands (R388 to R400), and `HASH`, `HMAC`
and the derivations (R463, R738). -/

namespace Sys2Proof.Machine

-- Raw modular operations.

/-- An operand of a raw operation: `n` bytes, big-endian, at a position. -/
def rawOperand (j : Job) (i n : Nat) : Nat := unBe (slice j.input (i * n) n)

/-- The checks of R388 on modulus and operands, in the order of R390: `SETMOD`, then `RANGE` on each operand. -/
def rawChecks (m : Nat) (ops : List Nat) (odd : Bool) : Option Nat :=
  if m < 2 ∨ (odd && decide (m % 2 = 0)) then some 0x0034
  else if ops.any (fun a => decide (m ≤ a)) then some 0x0032 else none

/-- A raw operation with its operand count and result (R389, R390). -/
def rawKernel (count : Nat) (odd : Bool) (f : Job → Nat → Nat → Nat → Nat ⊕ Nat) : Kernel := fun s _ j =>
  let n := 8 * p16 j.par 0
  let m := rawOperand j 0 n
  let a := rawOperand j 1 n
  let b := rawOperand j 2 n
  match rawChecks m ((if 1 ≤ count then [a] else []) ++ (if 2 ≤ count then [b] else [])) odd with
  | some st => (s, status st)
  | none => (match f j m a b with
    | .inl v => (s, okOut (be n v))
    | .inr st => (s, status st))

def kModAdd : Kernel := rawKernel 2 false (fun _ m a b => .inl ((a + b) % m))
def kModSub : Kernel := rawKernel 2 false (fun _ m a b => .inl ((a + m - b) % m))
def kModMul : Kernel := rawKernel 2 false (fun _ m a b => .inl (a * b % m))
def kModSqr : Kernel := rawKernel 1 false (fun _ m a _ => .inl (a * a % m))
def kModInv : Kernel := rawKernel 1 false (fun _ m a _ => match modInv m a with | some v => .inl v | none => .inr 0x0033)
def kModExp : Kernel := rawKernel 1 true (fun j m a _ =>
  let n := 8 * p16 j.par 0
  .inl (modExp m a (unBe (slice j.input (2 * n) (p16 j.par 2)))))

/-- Uniform below m, or in [1, m), from 64L + 64 random bits (R375). -/
def modRandom (m : Nat) (nonzero : Bool) (r : Nat) : Nat := if nonzero then r % (m - 1) + 1 else r % m

def kModRand : Kernel := fun s _ j =>
  let n := 8 * p16 j.par 0
  let m := rawOperand j 0 n
  match rawChecks m [] false with
  | some st => (s, status st)
  | none =>
    let (r, s1) := s.drawInt (n + 8)
    (s1, okOut (be n (modRandom m (decide (p8 j.par 4 % 2 = 1)) (unLe r))))

-- RSA.

/-- A given RSA public key passes R388. -/
def rsaKeyOk (ps : Nat) (pk : List Byte) : Bool :=
  let n := unBe (slice pk 0 (rsaBytes ps))
  let e := unBe (slice pk (rsaBytes ps) 8)
  decide (n % 2 = 1) && decide (e % 2 = 1) && decide (3 ≤ e)

/-- `RSA_KEYGEN` (R395, R397): e = 65,537; a candidate per run, and the result says how many are tested. -/
def kRsaKeygen : Kernel := fun s _ j =>
  let ps := p8 j.par 0
  let (seed, s1) := s.drawInt 32
  let n := max 1 (Config.rsaCandidates ps seed)
  if 65536 < n then (s1, statusDetail 0x0042 65536)
  else match j.created with
    | none => (s1, status 0x0025)
    | some h =>
      let pub := genPub 9 ps seed
      (s1.hide h (pairObj 9 ps 0 (p32 j.par 4) (genPriv 9 ps seed) pub), { okOut pub with handle := h, detail := BitVec.ofNat 64 n })

/-- PSS is asked for (R394). -/
def rsaPss (p : List Byte) : Bool := decide (p8 p 2 / 8 % 2 = 1)

/-- `RSA_SIGN` (R395): PSS draws its salt. -/
def kRsaSign : Kernel := fun s _ j =>
  let p := j.par
  let ps := p8 p 0
  let (salt, s1) := if rsaPss p ∧ p8 p 9 ≠ 0 then s.drawInt (p8 p 9) else ([], s)
  (s1, okOut (rsaSign (rsaBytes ps) (p8 p 8) (rsaPss p) (s.skOf j) (s.pubOf j) j.input salt))

/-- `RSA_VERIFY` (R388): a signature at or above n does not verify. -/
def kRsaVerify : Kernel := fun s _ j =>
  let p := j.par
  let ps := p8 p 0
  let n := rsaBytes ps
  let (pk, given) := s.pkOf j (n + 8)
  let rest := afterPk j (n + 8)
  if given && !rsaKeyOk ps pk then (s, status 0x0030)
  else (s, verdict (rsaVerify n (p8 p 8) (rsaPss p) (p8 p 9) pk (rest.drop n) (rest.take n)))

/-- `RSA_ENCRYPT` (R395): OAEP with the label before the message. -/
def kRsaEncrypt : Kernel := fun s _ j =>
  let p := j.par
  let ps := p8 p 0
  let (pk, given) := s.pkOf j (rsaBytes ps + 8)
  let rest := afterPk j (rsaBytes ps + 8)
  if given && !rsaKeyOk ps pk then (s, status 0x0030)
  else
    let (seed, s1) := s.drawInt (phLen (p8 p 8))
    (s1, okOut (oaepEncrypt (rsaBytes ps) (p8 p 8) pk (rest.take (p8 p 3)) (rest.drop (p8 p 3)) seed))

/-- `RSA_DECRYPT` (R388): one status for every error, c ≥ n included. -/
def kRsaDecrypt : Kernel := fun s _ j =>
  let p := j.par
  let ps := p8 p 0
  let c := j.input.drop (p8 p 3)
  if unBe (slice (s.pubOf j) 0 (rsaBytes ps)) ≤ unBe c then (s, status 0x0030)
  else match oaepDecrypt (rsaBytes ps) (p8 p 8) (s.skOf j) (s.pubOf j) (j.input.take (p8 p 3)) c with
    | some m => (s, okOut (m.take (oaepMax ps (p8 p 8))))
    | none => (s, status 0x0030)

-- Elliptic curves.

/-- `EC_KEYGEN`, `EDDSA_KEYGEN`, `XDH_KEYGEN` (R395, R397): the scalar or the private key is drawn. -/
def kEcKeygen : Kernel := fun s id j => genKernel 10 (curveOf (p8 j.par 0)).drawLen s id j
def kEddsaKeygen : Kernel := fun s id j => genKernel 11 (privLen 11 (p8 j.par 0)) s id j
def kXdhKeygen : Kernel := fun s id j => genKernel 12 (privLen 12 (p8 j.par 0)) s id j

/-- The draw of the nonce k, with 64 bits more than n; none where k is deterministic (R394). -/
def State.ecRandom (s : State) (j : Job) (curve : Nat) : List Byte × State :=
  if deterministic j.opcode j.par then ([], s) else s.drawInt (curveOf curve).drawLen

/-- `ECDSA_SIGN` (R395). -/
def kEcdsaSign : Kernel := fun s _ j =>
  let ps := p8 j.par 0
  let (k, s1) := s.ecRandom j ps
  (s1, okOut (ecdsaSign ps (p8 j.par 8) (s.skOf j) j.input k))

/-- The string of a public point lies on the curve (R388). -/
def ecPointOk (ps : Nat) (pk : List Byte) : Bool := ((curveOf ps).decode pk).isSome

/-- `ECDSA_VERIFY` (R388). -/
def kEcdsaVerify : Kernel := fun s _ j =>
  let ps := p8 j.par 0
  let (pk, _) := s.pkOf j (ecPoint ps)
  let rest := afterPk j (ecPoint ps)
  if !ecPointOk ps pk then (s, status 0x0031)
  else (s, verdict (ecdsaVerify ps pk (rest.drop (ecSig ps)) (rest.take (ecSig ps))))

/-- `ECDH` (R388). -/
def kEcdh : Kernel := fun s id j =>
  match ecAgree (p8 j.par 0) (s.skOf j) j.input with
  | none => (s, status 0x0031)
  | some z => s.secret id j [] z

/-- `EDDSA_SIGN` (R394, R395): CTX, PH and the context come first in what is signed. -/
def kEddsaSign : Kernel := fun s _ j =>
  let p := j.par
  (s, okOut (edSign (p8 p 0) (s.skOf j) (decide (p8 p 2 / 32 % 2 = 1)) (decide (p8 p 2 / 16 % 2 = 1)) (j.input.take (p8 p 3)) (j.input.drop (p8 p 3))))

/-- `EDDSA_VERIFY` (R388). -/
def kEddsaVerify : Kernel := fun s _ j =>
  let p := j.par
  let ps := p8 p 0
  let n := byPset [32, 57] ps
  let (pk, _) := s.pkOf j n
  let rest := afterPk j n
  let body := rest.drop (sigLen 11 ps)
  if !edKeyOk ps pk then (s, status 0x0031)
  else (s, verdict (edVerify ps pk (decide (p8 p 2 / 32 % 2 = 1)) (decide (p8 p 2 / 16 % 2 = 1)) (body.take (p8 p 3)) (body.drop (p8 p 3))
    (rest.take (sigLen 11 ps))))

/-- `XDH` (R388): an all-zero result is refused. -/
def kXdh : Kernel := fun s id j =>
  let ps := p8 j.par 0
  match xAgree ps (s.skOf j) j.input with
  | none => (s, status 0x0031)
  | some k => s.secret id j [] k

-- Hybrid and composite.

/-- `HYB_KEYGEN` (R398): the ML-KEM-768 part first, then X25519. -/
def kHybKeygen : Kernel := fun s id j =>
  let p := j.par
  let (a, s1) := s.drawInt 64
  let (b, s2) := s1.drawInt 32
  let pub := genPub 1 2 a ++ genPub 12 1 b
  let k := { pairObj 13 1 (genOrder 13 1 (p8 p 1)) (p32 p 4) (genPriv 1 2 a ++ genPriv 12 1 b) pub with
    ephemeral := decide (p8 p 2 % 2 = 1) }
  s2.store id j k pub

/-- What follows an agreement, which an all-zero X25519 result ends (R388, R400). -/
def State.agreed (s : State) (z : Option (List Byte)) (f : List Byte → State × Result) : State × Result :=
  match z with
  | none => (s, status 0x0031)
  | some z => f z

/-- `HYB_ENCAPS` (R398, R400): the modulus check comes before an all-zero X25519 result. -/
def kHybEncaps : Kernel := fun s id j =>
  let (pk, given) := s.pkOf j 1216
  let (m, s1) := s.drawInt 32
  let (x, s2) := s1.drawInt 32
  if given && !mlkemKeyOk 2 (pk.take 1184) then (s2, status 0x0030)
  else
    let (c, k) := mlkemEncaps 2 (pk.take 1184) m
    s2.agreed (xAgree 1 x (slice pk 1184 32)) (fun z => s2.secret id j (c ++ xPub 1 x) (k ++ z))

/-- `HYB_DECAPS` (R398). -/
def kHybDecaps : Kernel := fun s id j =>
  let sk := s.skOf j
  s.agreed (xAgree 1 (sk.drop 2400) (j.input.drop 1088))
    (fun z => s.secret id j [] (mlkemDecaps 2 (sk.take 2400) (j.input.take 1088) ++ z))

/-- Curve set of a composite combination (R398). -/
def compCurve (ps : Nat) : Nat := byPset [1, 1, 2, 2] ps
def compDsa (ps : Nat) : Nat := byPset [1, 2, 2, 3] ps

/-- `COMP_KEYGEN` (R398). -/
def kCompKeygen : Kernel := fun s id j =>
  let p := j.par
  let ps := p8 p 0
  let (a, s1) := s.drawInt 32
  let (b, s2) := s1.drawInt 64
  let pub := genPub 2 (compDsa ps) a ++ genPub 10 (compCurve ps) b
  s2.store id j (pairObj 14 ps (genOrder 14 ps (p8 p 1)) (p32 p 4) (genPriv 2 (compDsa ps) a ++ genPriv 10 (compCurve ps) b) pub) pub

/-- The representative both components sign (R398): prefix, label, context and digest; the label is the context of the ML-DSA part, and the
curve's part signs the digest of the representative that goes with the curve (PRESUMED from the construction that R398 names). -/
def compRep (p body : List Byte) : List Byte :=
  Config.compositePrefix ++ Config.compositeLabel (p8 p 0) ++ [BitVec.ofNat 8 (p8 p 3)] ++ body
def compMu (ps : Nat) (pk rep : List Byte) : List Byte := muOf pk (pureRep (Config.compositeLabel ps) rep)
def compHash (ps : Nat) : Nat := compCurve ps
def compDigest (ps : Nat) (rep : List Byte) : List Byte := digestOf (compHash ps) rep 0

/-- `COMP_SIGN` (R398, R400). -/
def kCompSign : Kernel := fun s _ j =>
  match s.jobKey j with
  | none => (s, status 0x0020)
  | some k =>
    let ps := p8 j.par 0
    let d := compDsa ps
    let c := compCurve ps
    let rep := compRep j.par j.input
    let (rnd, s1) := s.signRandom j
    let (nonce, s2) := s1.ecRandom j c
    let r := signResult d (k.priv.take (privLen 2 d)) (compMu ps (k.pub.take ((pubLen 2 d).getD 0)) rep) rnd (attemptLimit k)
    if r.status ≠ 0 then (s2, r)
    else
      let out := r.output ++ derSignature (ecdsaSign c (compHash ps) (k.priv.drop (privLen 2 d)) (compDigest ps rep) nonce)
      (s2, { r with output := out, outLen := out.length })

/-- `COMP_VERIFY` (R388, R398, R400). -/
def kCompVerify : Kernel := fun s _ j =>
  let ps := p8 j.par 0
  let d := compDsa ps
  let c := compCurve ps
  let n := (pubLen 2 d).getD 0
  let (pk, _) := s.pkOf j (compPk ps)
  let rest := afterPk j (compPk ps)
  let sig := rest.take (p16 j.par 10)
  let rep := compRep j.par (rest.drop (p16 j.par 10))
  if !ecPointOk c (pk.drop n) then (s, status 0x0031)
  else
    let ec := match derReadSignature (ecSig c / 2) (sig.drop (sigLen 2 d)) with
      | some t => ecdsaVerify c (pk.drop n) (compDigest ps rep) t
      | none => false
    (s, verdict (decide (sigLen 2 d ≤ sig.length) && ec
      && mldsaVerify d (pk.take n) (compMu ps (pk.take n) rep) (sig.take (sigLen 2 d))))

-- Hashing and derivation.

/-- `HASH` (R738). -/
def kHash : Kernel := fun s _ j =>
  let p := j.par
  (s, okOut (digestOf (p8 p 8) j.input (p16 p 10)))

/-- `HMAC` (R463). -/
def kHmac : Kernel := fun s _ j =>
  match s.jobKey j with
  | some k => (s, okOut (hmacOf k.pset k.priv j.input))
  | none => (s, status 0x0020)

/-- Blocks T(1), T(2), … of HKDF's expansion (RFC 5869). -/
def hkdfBlocks (h : Nat) (prk info : List Byte) : Nat → Nat → List Byte → List Byte
  | 0, _, _ => []
  | n + 1, i, prev =>
    let t := hmacOf h prk (prev ++ info ++ [BitVec.ofNat 8 i])
    t ++ hkdfBlocks h prk info n (i + 1) t

/-- HKDF (RFC 5869): an empty salt is a string of zeros of the hash length. -/
def hkdf (h : Nat) (ikm salt info : List Byte) (out : Nat) : List Byte :=
  let prk := hmacOf h (if salt.isEmpty then zeros (phLen h) else salt) ikm
  (hkdfBlocks h prk info (ceilDiv out (phLen h)) 1 []).take out

/-- Counter-mode KDF with HMAC (SP 800-108): 32-bit counter before the fixed input, 32-bit length in bits after it
(PRESUMED: the standard leaves the widths open). -/
def kbkdfHmac (h : Nat) (key fixed : List Byte) (out : Nat) : List Byte :=
  ((List.range (ceilDiv out (phLen h))).flatMap (fun i => hmacOf h key (be 4 (i + 1) ++ fixed ++ be 4 (8 * out)))).take out

/-- A key that KST derives (R449): counter-mode KDF with HMAC-SHA-512, label and context. -/
def kstDerive (key label context : List Byte) : List Byte := kbkdfHmac 3 key (label ++ [0x00] ++ context) 32

/-- "AETHAOZ MK", "KST JOURNAL" and "DGS BLOB". -/
def labelMk : List Byte := [0x41, 0x45, 0x54, 0x48, 0x41, 0x4F, 0x5A, 0x20, 0x4D, 0x4B]
def labelJournal : List Byte := [0x4B, 0x53, 0x54, 0x20, 0x4A, 0x4F, 0x55, 0x52, 0x4E, 0x41, 0x4C]
def labelBlob : List Byte := [0x44, 0x47, 0x53, 0x20, 0x42, 0x4C, 0x4F, 0x42]

/-- The master key MK, from MS and the PUF value (R449). -/
def State.masterKey (s : State) : List Byte := kstDerive (s.held.ms.getD []) labelMk Config.puf

/-- Encodings of SP 800-185. -/
def leftEncode (n : Nat) : List Byte := let b := max 1 (ceilDiv (bitLen n) 8); BitVec.ofNat 8 b :: be b n
def rightEncode (n : Nat) : List Byte := let b := max 1 (ceilDiv (bitLen n) 8); be b n ++ [BitVec.ofNat 8 b]
def encodeString (m : List Byte) : List Byte := leftEncode (8 * m.length) ++ m
def bytepad (w : Nat) (m : List Byte) : List Byte := let x := leftEncode w ++ m; fit (ceilDiv x.length w * w) x

/-- KMAC256 (SP 800-185) with an empty customisation string. -/
def kmac256 (key m : List Byte) (out : Nat) : List Byte :=
  sponge 136 0x04 (bytepad 136 (encodeString [0x4B, 0x4D, 0x41, 0x43] ++ encodeString []) ++ bytepad 136 (encodeString key)
    ++ m ++ rightEncode (8 * out)) out

/-- A derived object (R463, R464): NO_K_RELEASE passes on from the base key. -/
def State.storeDerived (s : State) (id : Nat) (j : Job) (base : KeyObj) (bytes : List Byte) : State × Result :=
  let p := j.par
  let u := BitVec.ofNat 32 (p32 p 4) ||| (if usageNoK base.usage then bitW 14 else 0)
  s.store id j { typ := p8 p 0, pset := p8 p 1, order := if p8 p 2 = 0 then 1 else p8 p 2, usage := u, priv := bytes } []

/-- `HKDF` (R463). -/
def kHkdf : Kernel := fun s id j =>
  match s.jobKey j with
  | none => (s, status 0x0020)
  | some k =>
    let p := j.par
    s.storeDerived id j k (hkdf (p8 p 8) k.priv (j.input.take (p8 p 3)) (j.input.drop (p8 p 3)) (p16 p 10))

/-- `KBKDF` (R463). -/
def kKbkdf : Kernel := fun s id j =>
  match s.jobKey j with
  | none => (s, status 0x0020)
  | some k =>
    let p := j.par
    s.storeDerived id j k (if p8 p 8 = 8 then kmac256 k.priv j.input (p16 p 10) else kbkdfHmac (p8 p 8) k.priv j.input (p16 p 10))

/-- MOD_ADD (R389). -/
def execModAdd (job : Nat) (s : State) : Host.Outcome State Fault Refusal := s.runJob 0x0800 job kModAdd
/-- MOD_SUB (R389). -/
def execModSub (job : Nat) (s : State) : Host.Outcome State Fault Refusal := s.runJob 0x0801 job kModSub
/-- MOD_MUL (R389). -/
def execModMul (job : Nat) (s : State) : Host.Outcome State Fault Refusal := s.runJob 0x0802 job kModMul
/-- MOD_SQR (R389). -/
def execModSqr (job : Nat) (s : State) : Host.Outcome State Fault Refusal := s.runJob 0x0803 job kModSqr
/-- MOD_INV (R388, R389). -/
def execModInv (job : Nat) (s : State) : Host.Outcome State Fault Refusal := s.runJob 0x0804 job kModInv
/-- MOD_EXP (R388, R389). -/
def execModExp (job : Nat) (s : State) : Host.Outcome State Fault Refusal := s.runJob 0x0805 job kModExp
/-- MOD_RAND (R375, R389). -/
def execModRand (job : Nat) (s : State) : Host.Outcome State Fault Refusal := s.runJob 0x0806 job kModRand
/-- RSA_KEYGEN (R397). -/
def execRsaKeygen (job : Nat) (s : State) : Host.Outcome State Fault Refusal := s.runJob 0x0500 job kRsaKeygen
/-- RSA_SIGN (R395). -/
def execRsaSign (job : Nat) (s : State) : Host.Outcome State Fault Refusal := s.runJob 0x0501 job kRsaSign
/-- RSA_VERIFY (R388). -/
def execRsaVerify (job : Nat) (s : State) : Host.Outcome State Fault Refusal := s.runJob 0x0502 job kRsaVerify
/-- RSA_ENCRYPT (R395). -/
def execRsaEncrypt (job : Nat) (s : State) : Host.Outcome State Fault Refusal := s.runJob 0x0503 job kRsaEncrypt
/-- RSA_DECRYPT (R388). -/
def execRsaDecrypt (job : Nat) (s : State) : Host.Outcome State Fault Refusal := s.runJob 0x0504 job kRsaDecrypt
/-- EC_KEYGEN (R391). -/
def execEcKeygen (job : Nat) (s : State) : Host.Outcome State Fault Refusal := s.runJob 0x0510 job kEcKeygen
/-- ECDSA_SIGN (R394). -/
def execEcdsaSign (job : Nat) (s : State) : Host.Outcome State Fault Refusal := s.runJob 0x0511 job kEcdsaSign
/-- ECDSA_VERIFY (R388). -/
def execEcdsaVerify (job : Nat) (s : State) : Host.Outcome State Fault Refusal := s.runJob 0x0512 job kEcdsaVerify
/-- ECDH (R388). -/
def execEcdh (job : Nat) (s : State) : Host.Outcome State Fault Refusal := s.runJob 0x0513 job kEcdh
/-- EDDSA_KEYGEN (R391). -/
def execEddsaKeygen (job : Nat) (s : State) : Host.Outcome State Fault Refusal := s.runJob 0x0520 job kEddsaKeygen
/-- EDDSA_SIGN (R394). -/
def execEddsaSign (job : Nat) (s : State) : Host.Outcome State Fault Refusal := s.runJob 0x0521 job kEddsaSign
/-- EDDSA_VERIFY (R388). -/
def execEddsaVerify (job : Nat) (s : State) : Host.Outcome State Fault Refusal := s.runJob 0x0522 job kEddsaVerify
/-- XDH_KEYGEN (R391). -/
def execXdhKeygen (job : Nat) (s : State) : Host.Outcome State Fault Refusal := s.runJob 0x0530 job kXdhKeygen
/-- XDH (R388). -/
def execXdh (job : Nat) (s : State) : Host.Outcome State Fault Refusal := s.runJob 0x0531 job kXdh
/-- HYB_KEYGEN (R398). -/
def execHybKeygen (job : Nat) (s : State) : Host.Outcome State Fault Refusal := s.runJob 0x0600 job kHybKeygen
/-- HYB_ENCAPS (R398). -/
def execHybEncaps (job : Nat) (s : State) : Host.Outcome State Fault Refusal := s.runJob 0x0601 job kHybEncaps
/-- HYB_DECAPS (R398). -/
def execHybDecaps (job : Nat) (s : State) : Host.Outcome State Fault Refusal := s.runJob 0x0602 job kHybDecaps
/-- COMP_KEYGEN (R398). -/
def execCompKeygen (job : Nat) (s : State) : Host.Outcome State Fault Refusal := s.runJob 0x0610 job kCompKeygen
/-- COMP_SIGN (R398). -/
def execCompSign (job : Nat) (s : State) : Host.Outcome State Fault Refusal := s.runJob 0x0611 job kCompSign
/-- COMP_VERIFY (R400). -/
def execCompVerify (job : Nat) (s : State) : Host.Outcome State Fault Refusal := s.runJob 0x0612 job kCompVerify
/-- HMAC (R463). -/
def execHmac (job : Nat) (s : State) : Host.Outcome State Fault Refusal := s.runJob 0x0700 job kHmac
/-- HKDF (R463). -/
def execHkdf (job : Nat) (s : State) : Host.Outcome State Fault Refusal := s.runJob 0x0701 job kHkdf
/-- KBKDF (R463). -/
def execKbkdf (job : Nat) (s : State) : Host.Outcome State Fault Refusal := s.runJob 0x0702 job kKbkdf
/-- HASH (R738). -/
def execHash (job : Nat) (s : State) : Host.Outcome State Fault Refusal := s.runJob 0x0710 job kHash

end Sys2Proof.Machine
end

