-- ==== Sys2Proof/Machine/Thimble.lean ====
section
/-! DEFINITION. The Thimble card slots (R629 to R636, R647 to R649) and custodian quorums (R637 to R646). -/

namespace Sys2Proof.Machine

def State.getSlot (s : State) (n : Nat) : CardSlot := vget s.thm.slots n {}
def State.setSlot (s : State) (n : Nat) (x : CardSlot) : State := { s with thm := { s.thm with slots := vset s.thm.slots n x } }
/-- THM counter `i` (R647). -/
def State.thmCount (s : State) (i : Nat) : State := { s with thm := { s.thm with cnt := vmod s.thm.cnt i 0 (· + 1) } }

/-- Parsing an ATR (R631). -/
structure Atr where
  inverse : Bool := false
  ta1     : Option Nat := none
  tc1     : Nat := 0
  ta2     : Option Nat := none
  /-- protocols offered, in order -/
  protos  : List Nat := []
  ifsc    : Nat := 32
  bwi     : Nat := 4
  cwi     : Nat := 13
  /-- class indicator: TA after T = 15 -/
  classes : Option Nat := none
  deriving DecidableEq, Repr

/-- Take the byte of an interface group when its bit of Y is set. -/
def atrTake (y k : Nat) (bs : List Byte) : Option (Option Nat × List Byte) :=
  if y / 2 ^ k % 2 = 1 then
    (match bs with
    | b :: rest => some (some b.toNat, rest)
    | [] => none)
  else some (none, bs)

/-- The interface bytes of group `i` under protocol `t` (of the TD before it). -/
def atrGroup (a : Atr) (i t : Nat) (ta tb tc : Option Nat) : Atr :=
  if i = 1 then { a with ta1 := ta, tc1 := tc.getD 0 }
  else if i = 2 then { a with ta2 := ta }
  else if t = 1 then
    { a with ifsc := ta.getD a.ifsc, bwi := (tb.map (· / 16)).getD a.bwi, cwi := (tb.map (· % 16)).getD a.cwi }
  else if t = 15 then { a with classes := ta <|> a.classes }
  else a

/-- The groups of interface bytes; answers the rest of the ATR. -/
def atrGroups : Nat → Nat → Nat → Nat → Atr → List Byte → Option (Atr × List Byte)
  | 0, _, _, _, _, _ => none
  | fuel + 1, i, t, y, a, bs =>
    match atrTake y 0 bs with
    | none => none
    | some (ta, b1) =>
      match atrTake y 1 b1 with
      | none => none
      | some (tb, b2) =>
        match atrTake y 2 b2 with
        | none => none
        | some (tc, b3) =>
          match atrTake y 3 b3 with
          | none => none
          | some (none, b4) => some (atrGroup a i t ta tb tc, b4)
          | some (some td, b4) =>
            let a1 := atrGroup a i t ta tb tc
            atrGroups fuel (i + 1) (td % 16) (td / 16) { a1 with protos := a1.protos ++ [td % 16] } b4

/-- Parse an ATR: TS, T0, groups, historical bytes, and TCK whenever it is present (R631). -/
def parseAtr (bs : List Byte) : Option Atr :=
  match bs with
  | ts :: t0 :: rest =>
    if ts = 0x3B ∨ ts = 0x3F then
      match atrGroups 5 1 0 (t0.toNat / 16) {} rest with
      | none => none
      | some (a, tail) =>
        let tck := a.protos.any (· ≠ 0)
        let want := t0.toNat % 16 + b2n tck
        if tail.length ≠ want then none
        else if tck ∧ (bs.drop 1).foldl (· ^^^ ·) 0 ≠ 0 then none
        else some { a with inverse := decide (ts = 0x3F), protos := if a.protos = [] then [0] else a.protos }
    else none
  | _ => none

/-- fmax of an Fi index in kHz (ISO/IEC 7816-3; PRESUMED from the standard the spec names). -/
def fmaxKhz (fi : Nat) : Nat :=
  [4000, 5000, 6000, 8000, 12000, 16000, 20000, 0, 0, 5000, 7500, 10000, 15000, 20000].getD fi 0

/-- The card clock: the highest of the five that does not exceed fmax (R631); `CLK` code of R648. -/
def cardClock (fi : Nat) : Nat :=
  let f := fmaxKhz fi
  if 12500 ≤ f then 5 else if 8333 ≤ f then 4 else if 6250 ≤ f then 3 else if 4167 ≤ f then 2 else 1

/-- The Fi and Di that a PPS proposes: those of TA1 when Di is 1, 2, 4, 8, 16 or 32, else the defaults (R631). -/
def proposedRate (ta1 : Option Nat) : Nat × Nat :=
  match ta1 with
  | some v => if 1 ≤ v % 16 ∧ v % 16 ≤ 6 ∧ fmaxKhz (v / 16) ≠ 0 then (v / 16, v % 16) else (1, 1)
  | none => (1, 1)

/-- The slot's class codes: 1 A, 2 B, 3 C. Next class up: C, B, A (R630). -/
def classUp (c : Nat) : Option Nat := if c = 3 then some 2 else if c = 2 then some 1 else none

/-- A slot that can be activated: enabled, card present, not disabled by a fault. -/
def CardSlot.usable (x : CardSlot) : Bool := bit x.cfg 7 && x.present && !x.disabled

/-- Apply VCC in a class and wait for the ATR (R630). -/
def State.tryClass (s : State) (n cls : Nat) (noPps : Bool) : State :=
  let x := s.getSlot n
  (s.setSlot n { x with
    trial := cls, cls := cls, clk := 1, waitAtr := true, waitPps := none, noPps := noPps, active := false }).emit (.cardPower n cls)

/-- Activation of a slot (R630): AUTO starts in class C. -/
def State.activate (s : State) (n : Nat) (noPps : Bool) : State :=
  let x := s.getSlot n
  if x.usable then
    let c := bits x.cfg 5 4
    (s.setSlot n { x with err := 0 }).tryClass n (if c = 0 then 3 else c) noPps
  else s

/-- A slot's electrical state after deactivation (R632): supply off, clock stopped. -/
def deactivated (x : CardSlot) : CardSlot :=
  { x with active := false, cls := 0, clk := 0, trial := 0, waitAtr := false, waitPps := none, fi := 0, di := 0,
           t1 := false, inverse := false, ifsc := 0, bwi := 0, cwi := 0, guard_ := 0, atrLen := 0 }

/-- The exchange in progress ends without a response (R634): the command bytes have been sent, so the card may have
executed the command. -/
def State.endExchange (s : State) (n : Nat) : State :=
  if s.thm.exch = some n then
    let s1 : State := { s with thm := { s.thm with exch := none, apduDone := true, apduStatus := 0x00C0, resp := [], readPos := 0 } }
    ((s1.setSlot n { s1.getSlot n with busy := false }).thmCount 6).raise { src := 0x5800, detail := n }
  else s

/-- Deactivate a card (R632). -/
def State.deactivate (s : State) (n : Nat) : State :=
  let x := s.getSlot n
  let s1 := s.setSlot n (deactivated x)
  (if x.cls = 0 then s1 else s1.emit (.cardPower n 0)).endExchange n

/-- A card that fails is not counted (R646). -/
def State.cardFailed (s : State) (slot : Nat) (sw : W16) : State :=
  let s1 : State := { s with thm := { s.thm with detailSw := sw.toNat, detailSlot := slot } }
  (s1.thmCount 8).raise { src := 0x5802, detail := slot }

/-- An activation ends with `ERR`: one that a session asked for is a card that fails (R630, R646). No status word has come, so `SW` is 0. -/
def State.activationFails (s : State) (n err : Nat) : State :=
  let x := s.getSlot n
  let s1 := s.setSlot n { x with err := err, trial := 0 }
  if x.claimed then s1.cardFailed n 0 else s1

/-- A class attempt fails: the next class is tried after 10 ms, and a failure in the last ends activation with `ERR`
(R630). -/
def State.failClass (s : State) (n err : Nat) : State :=
  let x := s.getSlot n
  let auto := decide (bits x.cfg 5 4 = 0)
  let s1 := (s.setSlot n { deactivated x with trial := if auto then x.trial else 0 }).emit (.cardPower n 0)
  let s2 := s1.thmCount 1
  match (if auto then classUp x.trial else none) with
  | some _ => s2
  | none => s2.activationFails n err

/-- The card is in use at a protocol and a rate (R631). -/
def State.adopt (s : State) (n : Nat) (t1 : Bool) (fi di : Nat) : State :=
  let x := s.getSlot n
  (s.setSlot n { x with active := true, waitAtr := false, waitPps := none, t1 := t1, fi := fi, di := di,
                        clk := cardClock fi, trial := 0 }).thmCount 0

/-- CARD_INSERTED (R649): a card in a claimed slot is activated by the session (R637, R638). -/
def execCardInserted (slot : Nat) (s : State) : Host.Outcome State Fault Refusal :=
  .next (if slot < 6 ∧ s.pcr.powered then
    let x := s.getSlot slot
    let s1 := ((s.setSlot slot { x with present := true }).cause 0x58 0).event 0x58 2 none 1
    if x.claimed then s1.activate slot false else s1
  else s)

/-- CARD_REMOVED (R632, R634). -/
def execCardRemoved (slot : Nat) (s : State) : Host.Outcome State Fault Refusal :=
  .next (if slot < 6 ∧ (s.getSlot slot).present then
    let s1 := s.setSlot slot { s.getSlot slot with present := false }
    (((s1.cause 0x58 1).event 0x58 3 none 1).thmCount 3).deactivate slot
  else s)

/-- ACTIVATE (R630): ignored while the slot is claimed (R648). -/
def execCardActivate (slot : Nat) (s : State) : Host.Outcome State Fault Refusal :=
  .next (s.onPage 0x58 (fun t =>
    if slot < 6 ∧ !(t.getSlot slot).claimed then (t.deactivate slot).activate slot false else t))

/-- DEACTIVATE (R632). -/
def execCardDeactivate (slot : Nat) (s : State) : Host.Outcome State Fault Refusal :=
  .next (s.onPage 0x58 (fun t => if slot < 6 then t.deactivate slot else t))

/-- WARM_RESET (R648): RST low for 500 cycles, then a new ATR. -/
def execCardWarmReset (slot : Nat) (s : State) : Host.Outcome State Fault Refusal :=
  .next (s.onPage 0x58 (fun t =>
    let x := t.getSlot slot
    if slot < 6 ∧ x.cls ≠ 0 then
      ((t.endExchange slot).setSlot slot { x with
        active := false, busy := false, waitAtr := true, waitPps := none, clk := 1, trial := x.cls }).emit (.card slot [])
    else t))

/-- The protocol a PPS proposes: T = 1 first, as `PROT` allows (R631). -/
def wantT1 (x : CardSlot) (a : Atr) : Bool :=
  match bits x.cfg 3 2 with
  | 1 => false
  | 2 => true
  | _ => a.protos.contains 1

/-- PPS request bytes: PPSS, PPS0, PPS1, PCK. -/
def ppsBytes (t1 : Bool) (fi di : Nat) : List Byte :=
  let p0 : Byte := if t1 then 0x11 else 0x10
  let p1 := BitVec.ofNat 8 (fi * 16 + di)
  [0xFF, p0, p1, 0xFF ^^^ p0 ^^^ p1]

/-- ATR_RECEIVED (R630, R631). -/
def execAtrReceived (slot : Nat) (atr : List Byte) (s : State) : Host.Outcome State Fault Refusal :=
  let x := s.getSlot slot
  .next (if slot < 6 ∧ x.waitAtr then
    match parseAtr atr with
    | none =>
      ((s.thmCount 1).deactivate slot).activationFails slot 2
    | some a =>
      let excluded := match a.classes with | some c => decide (c / 2 ^ (x.cls - 1) % 2 = 0) | none => false
      if excluded then s.failClass slot 3
      else
        let s1 := s.setSlot slot { x with
          waitAtr := false, inverse := a.inverse, atrLen := atr.length, ifsc := a.ifsc, bwi := a.bwi,
          cwi := a.cwi, guard_ := a.tc1 }
        match a.ta2 with
        | some v =>
          let r := if v / 16 % 2 = 1 then (1, 1) else proposedRate a.ta1
          s1.adopt slot (decide (v % 16 = 1)) r.1 r.2
        | none =>
          if bit x.cfg 1 ∧ !x.noPps then
            let t := wantT1 x a
            let r := proposedRate a.ta1
            let req := ppsBytes t r.1 r.2
            (s1.setSlot slot { s1.getSlot slot with waitPps := some req }).emit (.card slot req)
          else s1.adopt slot (decide (a.protos.headD 0 = 1)) 1 1
  else s)

/-- ATR_TIMEOUT (R630). -/
def execAtrTimeout (slot : Nat) (s : State) : Host.Outcome State Fault Refusal :=
  .next (if slot < 6 ∧ (s.getSlot slot).waitAtr then s.failClass slot 1 else s)

/-- NEXT_CLASS_ATTEMPT (R630): VCC has been off for 10 ms. -/
def execNextClassAttempt (slot : Nat) (s : State) : Host.Outcome State Fault Refusal :=
  let x := s.getSlot slot
  .next (if slot < 6 ∧ x.cls = 0 ∧ x.usable then
    match classUp x.trial with
    | some c => s.tryClass slot c x.noPps
    | none => s
  else s)

/-- PPS_RESPONSE (R631): an echo is adopted; an echo without PPS1 keeps the default rate; anything else is PPS_FAIL and
one activation without PPS. -/
def execPpsResponse (slot : Nat) (resp : List Byte) (s : State) : Host.Outcome State Fault Refusal :=
  let x := s.getSlot slot
  .next (match x.waitPps with
  | none => s
  | some req =>
    let p0 := req.getD 1 0
    let v := (req.getD 2 0).toNat
    if slot < 6 ∧ resp = req then s.adopt slot (p0.getLsbD 0) (v / 16) (v % 16)
    else if slot < 6 ∧ resp = [0xFF, p0 &&& 0x0F, 0xFF ^^^ (p0 &&& 0x0F)] then s.adopt slot (p0.getLsbD 0) 1 1
    else
      let s1 := (s.deactivate slot).thmCount 2
      let s2 := s1.activate slot true
      s2.setSlot slot { s2.getSlot slot with err := 4 })

/-- VCC_OVERCURRENT (R629): deactivates under R632 and counts one VCC_FAULT event. -/
def execVccOvercurrent (slot : Nat) (s : State) : Host.Outcome State Fault Refusal :=
  let x := s.getSlot slot
  .next (if slot < 6 ∧ x.cls ≠ 0 then
    let s1 := s.deactivate slot
    let s2 := if x.active then s1.setSlot slot { s1.getSlot slot with err := 5 } else s1.activationFails slot 5
    s2.raise { src := 0x5801, detail := slot }
  else s)

/-- APDU_DATA_WRITE (R635): 4 command bytes, low byte first, to at most 2,048. -/
def execApduDataWrite (val : W32) (s : State) : Host.Outcome State Fault Refusal :=
  .next (s.onPage 0x58 (fun t => { t with thm := { t.thm with cmd := (t.thm.cmd ++ le 4 val.toNat).take 2048 } }))

/-- The form of a command: none = its Lc disagrees with its length; the flag says extended (R635). -/
def apduForm (c : List Byte) : Option Bool :=
  let n := c.length
  let p3 := (c.getD 4 0).toNat
  if n = 4 ∨ n = 5 then some false
  else if p3 ≠ 0 then (if n = 5 + p3 ∨ n = 6 + p3 then some false else none)
  else if n = 7 then some true
  else
    let lc := (c.getD 5 0).toNat * 256 + (c.getD 6 0).toNat
    if 7 < n ∧ lc ≠ 0 ∧ (n = 7 + lc ∨ n = 9 + lc) then some true else none

/-- A pass-through ends at once with a status, and nothing is sent. -/
def State.apduEnd (s : State) (st : Nat) : State :=
  let s1 := if st = 0 then s else s.thmCount 5
  { s1 with thm := { s1.thm with apduDone := true, apduStatus := st, resp := [], readPos := 0, cmd := [] } }

/-- APDU_START (R635). -/
def execApduStart (val : W32) (s : State) : Host.Outcome State Fault Refusal :=
  .next (s.onPage 0x58 (fun t =>
    let n := bits val 18 16
    let len := bits val 11 0
    if !bit val 31 ∨ !t.thm.passEn then t
    else if len < 4 ∨ 2048 < len ∨ 6 ≤ n ∨ t.thm.exch.isSome then
      (if t.thm.exch.isSome then
        ({ t with thm := { t.thm with apduStatus := 0x0014 } } : State).thmCount 5
      else t.apduEnd 0x0014)
    else
      let x := t.getSlot n
      let c := fit len t.thm.cmd
      if x.claimed ∨ !x.active ∨ !x.present then t.apduEnd 0x00C1
      else match apduForm c with
        | none => t.apduEnd 0x0010
        | some ext =>
          if ext ∧ !x.t1 then t.apduEnd 0x0010
          else
            let t1 : State := { t with thm := { t.thm with
              exch := some n, apduDone := false, apduStatus := 0, resp := [], readPos := 0, cmd := [] } }
            (((t1.setSlot n { x with busy := true }).thmCount 4).event 0x58 1 none 1).emit (.card n c)))

/-- APDU_RESPONSE (R636). -/
def execApduResponse (slot : Nat) (resp : List Byte) (s : State) : Host.Outcome State Fault Refusal :=
  .next (if s.thm.exch = some slot then
    let r := resp.take 2050
    let sw1 := r.getD (r.length - 2) 0
    let sw2 := r.getD (r.length - 1) 0
    let ok := decide (2 ≤ r.length) && (decide (sw1 = 0x90 ∧ sw2 = 0) || decide (sw1 = 0x61))
    let s1 : State := { s with thm := { s.thm with
      exch := none, apduDone := true, apduStatus := if ok then 0 else 0x00C2, resp := r, readPos := 0 } }
    let s2 := s1.setSlot slot { s1.getSlot slot with busy := false }
    if ok then s2 else s2.thmCount 5
  else s)

/-- APDU_DATA_READ (R636): the next 4 response bytes; beyond RLEN they read zero. -/
def execApduDataRead (s : State) : Host.Outcome State Fault Refusal :=
  .next (({ s with thm := { s.thm with readPos := s.thm.readPos + 4 } } : State).answer
    (BitVec.ofNat 32 (field s.thm.resp s.thm.readPos 4)))

/-- Fields of a quorum definition (R648): N, M_UNLOCK, M_EVID, M_CFG, M_DRILL. -/
def qdN (d : W32) : Nat := bits d 31 27
def qdUnlock (d : W32) : Nat := bits d 26 22

/-- The threshold of a purpose (R643). -/
def threshold (d : W32) (purpose : Nat) : Nat :=
  match purpose with
  | 2 => bits d 21 17
  | 3 => bits d 16 12
  | 4 => bits d 11 7
  | _ => qdUnlock d

/-- A definition that BACKUP accepts (R644). -/
def definitionOk (d : W32) : Bool :=
  let n := qdN d
  decide (2 ≤ n ∧ n ≤ 16) && [bits d 26 22, bits d 21 17, bits d 16 12, bits d 11 7].all (fun m => decide (2 ≤ m ∧ m ≤ n))

/-- `THM_QDEF` as it reads: the definition written, or the one in force. -/
def State.quorumDefinition (s : State) : W32 := s.thm.quorumDef.getD s.held.quorumDef

/-- The lifecycle states in which a purpose may be opened (R643). -/
def State.purposeAllowed (s : State) (purpose : Nat) : Bool :=
  let l := s.held.life
  match purpose with
  | 1 => decide (l = 5)
  | 2 => decide (l ≠ 6 ∧ l ≠ 1)
  | 3 => decide (l ≠ 6 ∧ l ≠ 1)
  | 4 => decide (l = 4)
  | 5 => decide (l = 6)
  | _ => decide (l = 2 ∨ l = 4)

/-- The result of a session (R646). -/
def State.quorumResult (s : State) (st : Nat) : State :=
  { s with thm := { s.thm with resultDone := true, resultStatus := st } }

/-- A session closes: its slots are free again. -/
def State.closeSession (s : State) : State :=
  ({ s with thm := { s.thm with session := none, slots := s.thm.slots.map (fun x => { x with claimed := false }) } } : State).irqSync 0x58

/-- A session closes with a status. -/
def State.failSession (s : State) (st : Nat) : State := (s.quorumResult st).closeSession

/-- CLOSE or a timeout (R646): CANCELLED when the action is not complete; the window of purposes 3 and 4 just ends. -/
def State.cancelOpen (s : State) : State :=
  match s.thm.session with
  | none => s
  | some x => if x.qstate = 2 then s.closeSession else s.failSession 0x0060

/-- BACKUP enters WRITING (R644): the definition is checked, and SET_ID and the polynomials are drawn. -/
def State.startWriting (s : State) (x : Session) : State :=
  let d := s.quorumDefinition
  if !definitionOk d then s.failSession 0x0014
  else
    let pos := s.ent.int.pos
    let (bs, s1) := s.drawInt (8 + 32 * (qdUnlock d - 1))
    ({ s1 with thm := { s1.thm with session := some { x with
      qstate := 3, defn := d, setId := BitVec.ofNat 64 (unLe (bs.take 8)), draw := pos + 8, table := [], writtenTo := [],
      needed := qdN d } } } : State).irqSync 0x58

/-- The claimed cards that are present but not active are activated. -/
def State.activateClaimed (s : State) : State :=
  (List.range 6).foldl (fun (u : State) (n : Nat) =>
    if (u.getSlot n).claimed ∧ (u.getSlot n).present ∧ !(u.getSlot n).active then u.activate n false else u) s

/-- A session opens (R643): it claims the slots with QUORUM_EN that hold a usable card. -/
def State.openSession (s : State) (x : Session) : State :=
  let t : State := { s with thm := { s.thm with
    session := some x, resultDone := false, resultStatus := 0,
    slots := s.thm.slots.map (fun y => { y with claimed := bit y.cfg 7 && bit y.cfg 0 && !y.disabled }) } }
  ((t.thmCount 9).irqSync 0x58).activateClaimed

/-- The session that an OPEN asks for. -/
def State.newSession (s : State) (val : W32) : Session := {
  purpose := bits val 2 0, qstate := 1, counted := [], shares := [], needed := threshold s.held.quorumDef (bits val 2 0),
  opened := s.us, minutes := bits val 11 8, zeroizeOk := bit val 7, setId := 0, table := [], defn := 0,
  writtenTo := [], draw := 0 }

/-- OPEN: refused with the status of its first reason, or the session opens; a BACKUP before any custodian table is committed
goes straight to writing (R643, R644, R729). -/
def State.quorumOpen (s : State) (val : W32) : State :=
  let p := bits val 2 0
  let minutes := bits val 11 8
  if !bit val 31 then s
  else if p = 0 ∨ p = 7 ∨ s.thm.session.isSome ∨ (p = 4 ∧ (minutes = 0 ∨ 10 < minutes)) then s.quorumResult 0x0014
  else if !s.purposeAllowed p then s.quorumResult 0x0024
  else if p = 5 ∧ s.held.zeroized then s.quorumResult 0x00A2
  else
    let t := s.openSession (s.newSession val)
    if p = 6 ∧ !t.held.committed then t.startWriting (s.newSession val) else t

/-- QUORUM_OPEN (R643, R644, R729). -/
def execQuorumOpen (val : W32) (s : State) : Host.Outcome State Fault Refusal :=
  .next (s.onPage 0x58 (fun t => t.quorumOpen val))

/-- QUORUM_CLOSE (R646). -/
def execQuorumClose (val : W32) (s : State) : Host.Outcome State Fault Refusal :=
  .next (s.onPage 0x58 (fun t => if bit val 30 then t.cancelOpen else t))

/-- QUORUM_TIMEOUT (R643): 600 s after OPEN. -/
def execQuorumTimeout (s : State) : Host.Outcome State Fault Refusal := .next s.cancelOpen

/-- A share record is valid (R641). -/
def recordValid (r : List Byte) : Bool :=
  decide (r.take 2 = [0x4E, 0x51]) && decide (r.getD 2 0 = 1)
    && decide (slice r 108 16 = (sha256 (r.take 108)).take 16) && decide (r.getD 127 0 = 0xA5)
    && decide (slice r 8 16 = fit 16 Config.serial)

def recordVersion (r : List Byte) : Nat := field r 4 4
def recordSet (r : List Byte) : Nat := field r 24 8

/-- `a` is later than `b` as serial numbers modulo 2³² (R641). -/
def laterVersion (a b : Nat) : Bool :=
  let d := (a + 2 ^ 32 - b) % 2 ^ 32
  decide (1 ≤ d ∧ d ≤ 2 ^ 31 - 1)

/-- Which record holds on a card for a share set: 0 none, 1 A, 2 B; the flag says that neither was later (R641). -/
def holding (a b : List Byte) (setId : Nat) : Nat × Bool :=
  let va := recordValid a && decide (recordSet a = setId)
  let vb := recordValid b && decide (recordSet b = setId)
  if va && vb then
    (if laterVersion (recordVersion a) (recordVersion b) then (1, false)
    else if laterVersion (recordVersion b) (recordVersion a) then (2, false) else (1, true))
  else if va then (1, false) else if vb then (2, false) else (0, false)

/-- RECORD_INVALID events of a card's two records (R641). -/
def State.countInvalid (s : State) (slot : Nat) (c : CardPresented) (tie : Bool) : State :=
  let bad := b2n (!recordValid c.recordA) + b2n (!recordValid c.recordB) + b2n tie
  (List.range bad).foldl (fun t _ => t.raise { src := 0x5803, detail := slot }) s

/-- The action of a purpose becomes due, and the session answers (R646). -/
def State.reachThreshold (s : State) (x : Session) : State :=
  if x.purpose = 6 then s.startWriting x
  else
    let s1 := ({ s with thm := { s.thm with
      action := if x.purpose = 5 then s.thm.action else some x.purpose,
      session := some { x with qstate := 2 } } } : State).quorumResult 0
    let s2 := s1.cause 0x58 2
    if x.purpose = 3 ∨ x.purpose = 4 then s2.irqSync 0x58 else s2.closeSession

/-- RESTORE at its threshold (R645): the shares are combined and checked against COMMIT. -/
def State.tryRestore (s : State) (x : Session) (commit : List Byte) : State :=
  let ms := combineShares x.shares
  if sha256 (ms ++ le 8 s.held.setId.toNat) = commit then
    ({ s with held := { s.held with ms := some ms, valid := true }, thm := { s.thm with action := some 5 } } : State).reachThreshold x
  else
    ({ s with thm := { s.thm with detailSw := 0, detailSlot := s.thm.detailSlot } } : State).failSession 0x00C2

/-- A card is accepted in the collection phase. -/
def State.acceptCard (s : State) (slot : Nat) (x : Session) (fpr : List Byte) (c : CardPresented) : State :=
  if x.counted.contains fpr then s
  else if x.purpose = 5 then
    let (h, tie) := holding c.recordA c.recordB s.held.setId.toNat
    let s1 := s.countInvalid slot c tie
    let r := if h = 1 then c.recordA else c.recordB
    if h = 0 then s1.cardFailed slot c.sw
    else
      let x1 := { x with counted := x.counted ++ [fpr], shares := x.shares ++ [((r.getD 34 0).toNat, slice r 36 32)] }
      let s2 := ({ s1 with thm := { s1.thm with session := some x1 } } : State).thmCount 7
      if x1.needed ≤ x1.counted.length then s2.tryRestore x1 (slice r 68 32) else s2
  else
    let x1 := { x with counted := x.counted ++ [fpr] }
    let s1 := ({ s with thm := { s.thm with session := some x1 } } : State).thmCount 7
    if x1.needed ≤ x1.counted.length then s1.reachThreshold x1 else s1

/-- A share record (R640). -/
def shareRecord (ms : List Byte) (x : Session) (index version : Nat) : List Byte :=
  let d := x.defn
  let m := qdUnlock d
  let body := [0x4E, 0x51, 1, 0] ++ le 4 version ++ fit 16 Config.serial ++ le 8 x.setId.toNat ++ le 1 m ++ le 1 (qdN d)
    ++ le 1 index ++ zeros 1 ++ shareOf ms m (fun i => Config.intDrbg (x.draw + i)) index
    ++ sha256 (ms ++ le 8 x.setId.toNat) ++ zeros 8
  body ++ (sha256 body).take 16 ++ zeros 3 ++ [0xA5]

/-- Commands of an exchange with a card go out in order. -/
def State.sendCard (s : State) (slot : Nat) (cmds : List (List Byte)) : State := cmds.foldl (fun t c => t.emit (.card slot c)) s

/-- UPDATE BINARY of the record file. -/
def updateBinary (off : Nat) (bs : List Byte) : List Byte := [0x00, 0xD6] ++ be 2 off ++ le 1 bs.length ++ bs

/-- The last record of a backup is committed: the new set, table and definition go to flash together (R644). -/
def State.commitBackup (s : State) (x : Session) : State :=
  let s1 : State := { s with held := { s.held with
    committed := true, setId := x.setId, quorumDef := x.defn, custodians := x.table } }
  (({ s1 with thm := { s1.thm with quorumDef := none } } : State).quorumResult 0).cause 0x58 2 |>.closeSession

/-- A card presented in WRITING (R642, R644, R729). -/
def State.writeCard (s : State) (slot : Nat) (x : Session) (fpr : List Byte) (c : CardPresented) : State :=
  let known := x.table.findIdx? (· = fpr)
  let index := (known.getD x.table.length) + 1
  if x.writtenTo.any (fun p => decide (p.1 = index)) ∨ qdN x.defn < index then s
  else
    let x1 := if known.isSome then x else { x with table := x.table ++ [fpr] }
    let (old, tie) := holding c.recordA c.recordB s.held.setId.toNat
    let already := (holding c.recordA c.recordB x.setId.toNat).1 ≠ 0
    let s1 := s.countInvalid slot c tie
    let toB := decide (old = 1)
    let other := if toB then c.recordA else c.recordB
    let version := if recordValid other then (recordVersion other + 1) % 2 ^ 32 else 1
    let base := if toB then 128 else 0
    let r := shareRecord (s.held.ms.getD []) x1 index version
    let writes := [updateBinary (base + 127) [0], updateBinary base (r.take 127), updateBinary (base + 127) [0xA5]]
    let sent := if already then [] else if c.removedAt = 0 then writes else writes.take c.removedAt
    let s2 := s1.sendCard slot sent
    if !already ∧ c.removedAt ≠ 0 then
      (({ s2 with thm := { s2.thm with session := some x1 } } : State).thmCount 6).raise { src := 0x5800, detail := slot }
    else
      let x2 := { x1 with writtenTo := x1.writtenTo ++ [(index, fpr)] }
      let s3 := ({ s2 with thm := { s2.thm with session := some x2 } } : State).thmCount 7
      let s4 := if already then s3 else s3.thmCount 10
      if x2.writtenTo.length = qdN x2.defn then s4.commitBackup x2 else s4

/-- The custodian's signature verifies: ECDSA P-256 with SHA-256, in DER, over the challenge and the module's serial (R638). -/
def custodianSigned (c : CardPresented) (challenge : List Byte) : Bool :=
  (curve256.decode c.pubKey).isSome &&
    (match derReadSignature 32 c.signature with
    | some sig => ecdsaVerify 1 c.pubKey (sha256 (challenge ++ fit 16 Config.serial)) sig
    | none => false)

/-- SELECT of the quorum application, or of one of its files (R637; the encodings of ISO/IEC 7816-4). -/
def selectQuorum : List Byte := [0x00, 0xA4, 0x04, 0x00, 0x05, 0xF0, 0x45, 0x52, 0x4D, 0x51]
def selectFile (fid : Nat) : List Byte := [0x00, 0xA4, 0x02, 0x0C, 0x02] ++ be 2 fid

/-- READ BINARY of `n` bytes from offset 0; 256 is written 0 in a short Le. -/
def readBinary (n : Nat) : List Byte := [0x00, 0xB0, 0x00, 0x00] ++ le 1 n

/-- INTERNAL AUTHENTICATE with a challenge (R638). -/
def internalAuthenticate (challenge : List Byte) : List Byte := [0x00, 0x88, 0x00, 0x00, 0x20] ++ challenge ++ [0x00]

/-- QUORUM_CARD (R638, R641 to R646). -/
def execQuorumCard (slot : Nat) (c : CardPresented) (s : State) : Host.Outcome State Fault Refusal :=
  .next (match s.thm.session with
  | none => s
  | some x =>
    let y := s.getSlot slot
    if 6 ≤ slot ∨ !y.claimed ∨ !y.present ∨ x.qstate = 2 then s
    else if !c.answered then s.cardFailed slot c.sw
    else if !s.intSeeded then s
    else
      let (ch, s1) := (s.sendCard slot [selectQuorum, selectFile 0x4E50, readBinary 65]).drawInt 32
      let s2 := s1.sendCard slot [internalAuthenticate ch]
      let fpr := sha256 c.pubKey
      let inTable := s2.held.custodians.contains fpr || (decide (x.qstate = 3))
      let reads := decide (x.qstate = 3) || (decide (x.purpose = 5) && !x.counted.contains fpr)
      if !custodianSigned c ch ∨ !inTable then s2.cardFailed slot c.sw
      else
        let s3 := if reads then s2.sendCard slot [selectFile 0x4E51, readBinary 256] else s2
        if x.qstate = 3 then s3.writeCard slot x fpr c else s3.acceptCard slot x fpr c)

/-- No input whose response is LOCK or ZEROIZE is in alarm (R617). -/
def State.unlockable (s : State) : Bool :=
  s.held.stickyLock && !(List.range 64).any (fun n =>
    s.tmp.active.getLsbD n && (match s.inputResponse n with | some r => decide (2 ≤ r) | none => false))

/-- The lifecycle's side of an unlock (R617, R727): the sticky lock goes and the state held before LOCK returns. -/
def State.unlockLife (s : State) : State :=
  { s with held := { s.held with stickyLock := false, life := s.held.prevLife, prevLife := 0 },
           tmp := { s.tmp with response := 0, resuming := false },
           pcr := { s.pcr with faultN1 := false } }

/-- After an unlock (R617, R718): the record, MK, the deferred replay and the interrupts. -/
def State.afterUnlock (s : State) : State :=
  let s2 := (s.evidence 0 0 32 0).kstOpen
  let s3 := if s2.kst.mkHeld ∧ !s2.kst.replayDone then s2.kstReplay else s2
  ((s3.cause 0x71 2).irqSync 0x51).irqSync 0x52

/-- An unlock completes (R617): sticky lock, MK, lifecycle, FAULT_N1, and the deferred replay (R718). -/
def State.unlock (s : State) : State := (s.unlockLife).afterUnlock

/-- A RESTORE ends (R645, R730): the module enters OPERATIONAL. -/
def State.restoreLife (s : State) : State :=
  { s with held := { s.held with life := 3, stickyLock := false }, tmp := { s.tmp with response := 0 } }

/-- After a RESTORE: MK, the replay and the interrupts. -/
def State.afterRestore (s : State) : State :=
  let t := s.kstOpen
  let t1 := if t.kst.mkHeld then t.kstReplay else t
  (t1.cause 0x71 2).irqSync 0x51

/-- The action of a quorum at its admission edge (R646). -/
def State.quorumAction (s : State) : State :=
  match s.thm.action with
  | none => s
  | some p =>
    let done : State := { s with thm := { s.thm with action := none } }
    match p with
    | 1 => if s.unlockable ∧ s.held.life = 5 then done.unlock else s
    | 2 => ({ done with held := { done.held with sticky := done.held.sticky &&& done.tmp.active } } : State).evidence 0 0 16 0
    | 4 =>
      let x := s.thm.session
      if s.maintenance then
        { done with hrt := { done.hrt with drill := x.map (fun y => (y.zeroizeOk, y.minutes * 60)) } }
      else done
    | 5 =>
      if s.held.life = 6 then (done.restoreLife).afterRestore else done
    | _ => done

/-- The THM registers (R647, R648). -/
def State.readThm (s : State) (off : Nat) : W32 :=
  let t := s.thm
  let n := (off - 0x140) / 16
  let x := s.getSlot n
  match off with
  | 0x100 => BitVec.ofNat 32 ((match t.session with | some y => y.qstate | none => 0) * 2 ^ 28
      + (List.range 6).foldl (fun a i => a + b2n (s.getSlot i).present * 2 ^ i) 0)
  | 0x104 => BitVec.ofNat 32 (b2n t.passEn)
  | 0x10C => BitVec.ofNat 32 (b2n t.apduDone * 2 ^ 31 + t.resp.length * 65536 + t.apduStatus)
  | 0x124 => match t.session with
    | some y => BitVec.ofNat 32 (y.purpose * 2 ^ 29
        + (if y.qstate = 3 then y.writtenTo.length else y.counted.length) * 2 ^ 24 + y.needed * 2 ^ 19
        + (600 - (s.us - y.opened) / 1000000))
    | none => 0
  | 0x128 => BitVec.ofNat 32 (b2n t.resultDone * 2 ^ 31 + t.resultStatus)
  | 0x12C => BitVec.ofNat 32 (t.detailSw * 65536 + t.detailSlot)
  | 0x130 => s.quorumDefinition
  | _ =>
    if 0x140 ≤ off ∧ off < 0x1A0 then
      (if off % 16 = 0 then x.cfg
      else if off % 16 = 4 then
        BitVec.ofNat 32 (b2n x.present * 2 ^ 31 + b2n x.active * 2 ^ 30 + b2n x.busy * 2 ^ 29 + b2n x.claimed * 2 ^ 28
          + x.cls * 2 ^ 26 + b2n x.t1 * 2 ^ 25 + b2n x.inverse * 2 ^ 24 + x.clk * 2 ^ 21 + x.err * 65536
          + x.fi * 4096 + x.di * 256)
      else if off % 16 = 12 then
        BitVec.ofNat 32 (x.ifsc * 2 ^ 24 + x.bwi * 2 ^ 20 + x.cwi * 65536 + x.guard_ * 256 + x.atrLen)
      else 0)
    else if 0x1A0 ≤ off ∧ off < 0x1F8 then
      let c := vget t.cnt ((off - 0x1A0) / 8) 0
      BitVec.ofNat 32 (if off % 8 = 0 then c else c / 2 ^ 32)
    else if 0x200 ≤ off ∧ off < 0x240 then
      match s.held.custodians[(off - 0x200) / 4]? with
      | some h => BitVec.ofNat 32 (2 ^ 31 + field h 0 3)
      | none => 0
    else 0

/-- Writes to THM registers without a row of their own (R648): PROT = 3 is refused. -/
def State.writeThm (s : State) (off : Nat) (v : W32) : State :=
  if off = 0x104 then
    (if (s.getBlk 0x58).lock then s else { s with thm := { s.thm with passEn := bit v 0 } })
  else if off = 0x130 then { s with thm := { s.thm with quorumDef := some (v &&& 0xFFFFFF80) } }
  else if 0x140 ≤ off ∧ off < 0x1A0 ∧ off % 16 = 0 then
    (if bits v 3 2 = 3 then s
    else
      let n := (off - 0x140) / 16
      s.setSlot n { s.getSlot n with cfg := v &&& 0xFF })
  else s

end Sys2Proof.Machine
end

