-- ==== Sys2Proof/Machine/Admit.lean ====
section
/-! DEFINITION. Admission (R171 to R174, R179, R181 to R183): the candidates of an edge in their order, the tests at the
admission edge (R100, R113, R345, R450, R739, R747), and what each kind of command does there. -/

namespace Sys2Proof.Machine

/-- Commands that are best effort whatever their deadline (R341, R361, R364, R397). -/
def alwaysBestEffort (op : Nat) : Bool := [0x0310, 0x0318, 0x0410, 0x0418, 0x0419, 0x0500].contains op

/-- The deadline edge p + d of a job; none = best effort (R80, R153, R172, R659). -/
def State.deadlineOf (s : State) (j : Job) : Option Nat :=
  if j.cluster.isSome then (if j.clusterDeadline = 0 then none else some j.clusterDeadline)
  else if j.ver = 1 ∨ alwaysBestEffort j.opcode then none
  else
    let own := bits j.e.flags 31 16
    let d := if own = 0 then (match s.getQueue j.fn j.q with | some q => q.defDeadline | none => 0) else own
    if d = 0 then none else some (j.present.getD s.trd.edge + d)

/-- Priority class (R180). -/
def Job.cls (j : Job) : Nat := bits j.e.flags 3 2

/-- Reason why admission is stopped, 0 for none: the lowest applicable value (R174, R188). -/
def State.admStop (s : State) : Nat :=
  if s.trd.changing then 1 else if s.pcr.warn || s.pcr.clearing then 2 else if 3 ≤ s.trd.stage ∨ s.hrt.severe.any (fun p => decide (p.1 = 0x7101)) then 3
  else if s.deviceStatus.isSome ∨ s.tmp.resuming then 4 else if s.pcr.frozen then 5 else if !s.pcr.ready then 6 else 0

-- Candidates.

/-- Jobs that are booked again (R171 order 1). -/
def State.orderOne (s : State) : List Nat :=
  ((s.jobs.filter (fun p => p.2.rebook && decide (p.2.phase = .admitted))).mergeSort (fun a b => a.2.admitSeq ≤ b.2.admitSeq)).map (·.1)

/-- The queue rank of a new candidate in the ring, the queue after the one served first at the previous edge leading. -/
def ringRank (last key : Nat) : Nat := (key + 1048576 - (last + 1) % 1048576) % 1048576

/-- New candidates of a class: by presentation edge, then one of each queue in turn, then by entry order (R171). An entry that was
presented before an earlier one of its queue stands with that one, for within a queue jobs are always considered in entry order
(DEDUCED; log entry 58). -/
def State.classCands (s : State) (c : Nat) : List (Nat × Job) :=
  let xs := s.jobs.filter (fun p => decide (p.2.phase = .staged) && decide (p.2.q ≠ 64) && decide (p.2.opcode ≠ 0)
    && p.2.present.isSome && decide (p.2.cls = c) && (p.2.cluster.isSome || decide ((s.getFn p.2.fn).state = 2)))
  let key (j : Job) : Nat × Nat × Nat :=
    let mates := (xs.filter (fun y => decide (y.2.fn = j.fn) && decide (y.2.q = j.q) && decide (y.2.num ≤ j.num))).map (·.2)
    let stand (n : Nat) : Nat := (mates.filter (fun y => decide (y.num ≤ n))).foldl (fun m y => max m (y.present.getD 0)) 0
    let pe := stand j.num
    let round := (mates.filter (fun y => decide (y.num < j.num) && decide (stand y.num = pe))).length
    (pe, round, ringRank s.trd.rrLast (qkey j.fn j.q))
  let le3 (a b : Nat × Nat × Nat) : Bool :=
    decide (a.1 < b.1) || (decide (a.1 = b.1) && (decide (a.2.1 < b.2.1) || (decide (a.2.1 = b.2.1) && decide (a.2.2 ≤ b.2.2))))
  ((xs.map (fun p => (key p.2, p))).mergeSort (fun a b => le3 a.1 b.1)).map (·.2)

/-- New candidates of the edge, class 3 first. -/
def State.newCands (s : State) : List (Nat × Job) := s.classCands 3 ++ s.classCands 2 ++ s.classCands 1 ++ s.classCands 0

-- Tests.

/-- An earlier entry of the job's queue that satisfies a condition is unfinished. -/
def State.earlier (s : State) (j : Job) (f : Job → Bool) : Bool :=
  j.cluster.isNone && s.jobs.any (fun p => decide (p.2.fn = j.fn) && decide (p.2.q = j.q) && decide (p.2.num < j.num)
    && !p.2.finished && p.2.cluster.isNone && f p.2)

/-- The job creates, deletes or changes the key with a handle (R37, R100): `KEY_DELETE`, `KEY_ATTR_SET`, `KEY_BIND`, `STATEFUL_ADVANCE`, which
changes N, and a command that consumes the EPHEMERAL key it names, which deletes it (R296). -/
def State.changesKey (s : State) (h : W32) (x : Job) : Bool :=
  decide (x.created = some h)
    || (decide (x.e.keyHandle = h) && ([0x0104, 0x0106, 0x0107, 0x0321].contains x.opcode || (consuming x.opcode && s.ephemeralKey x.e)))

/-- Held under FENCE or under R100; a handle that the opcode does not take is ignored (R77). -/
def State.heldBack (s : State) (j : Job) : Bool :=
  (j.fence && s.earlier j (fun _ => true))
    || (decide (j.e.keyHandle ≠ 0) && (s.jobRule j).isSome && s.earlier j (s.changesKey j.e.keyHandle))

/-- Commands that draw on the internal DRBG (R430, R434): key generation, encapsulation, hedged or randomised signing and
encryption, and BNE runs with blinding. -/
def needsInt (op : Nat) (p : List Byte) : Bool :=
  [0x0108, 0x0200, 0x0201, 0x0210, 0x0300, 0x0310, 0x0318, 0x0400, 0x0401, 0x0410, 0x0411, 0x0500, 0x0501, 0x0503, 0x0504,
   0x0510, 0x0511, 0x0513, 0x0520, 0x0521, 0x0530, 0x0531, 0x0600, 0x0601, 0x0602, 0x0610, 0x0611, 0x0806].contains op
    || ([0x0211, 0x0213, 0x0301, 0x0303].contains op && !deterministic op p)

/-- Every engine that could take a part of the job has a STALE MRG (R207, R380). -/
def State.staleOnly (s : State) (n : Need) : Bool :=
  let pv := (List.range s.pvus).filter (fun e => s.engineOpen (0x10 + e) && (s.getPvu e).powered)
  let bn := (List.range s.bnes).filter (fun e => s.engineOpen (0x20 + e) && (s.getBne e).powered)
  let sec := (match n.pvu with | some p => p.secret | none => false) || n.sign.isSome
  (sec && decide (pv ≠ []) && pv.all (fun e => (s.getPvu e).mrgStale))
    || (decide (n.runs ≠ []) && decide (bn ≠ []) && bn.all (fun e => (s.getBne e).mrgStale))

/-- Edges that the latest release of KST's work adds to a+2 (R453). -/
def State.kstExtra (s : State) (bytes : Nat) : Nat := ceilDiv bytes (6400 * s.trd.period) - 1
def State.kstLatest (s : State) (k : Nat × Bool) : Nat := s.kstExtra k.1 + (if k.2 then ceilDiv 400 s.trd.period else 0)

/-- The engines idle, and nothing reserved or stopped: what R173 measures n on. -/
def State.idle (s : State) : State :=
  { s with
    trd := { s.trd with plan := [], signQ := [], pages := [], noBook := [], retiring := [] }
    funcs := KV.mapV (fun _ f => { f with reserved := [] }) s.funcs
    hrt := { s.hrt with severe := [] }
    lka := { s.lka with nextTicks := 1048576 }
    pvu := s.pvu.map (fun p => { p with mrgStale := false, pinning := none })
    bne := s.bne.map (fun b => { b with mrgStale := false }) }

/-- n of R173: the fewest ticks a job's segments or run can occupy; for a chain at the lowest order and the lowest budget factor in force
on any PVU, each taken by itself. -/
def State.leastTicks (s : State) (j : Job) (n : Need) : Nat :=
  let a := s.trd.edge
  let slots : Nat := match n.sign with
    | none => 0
    | some (ps, base) =>
      let es := (List.range s.pvus).filter (fun e => !s.retired (0x10 + e))
      let limit := match s.jobKey j with | some k => attemptLimit k | none => 256
      let least (f : Nat → Nat) : Nat := ((es.map f).min?).getD 0
      let (_, parts, _, k) := s.shapeAt (least s.cmOf) (max base (least s.minOrder)) ps
      ceilDiv (parts * min (promisedAttempts ps) limit) (max 1 k)
        + (if es.any (fun e => s.holdsSet e j.e.keyHandle false) then 0 else 1)
  let rest := match s.idle.bookIn { fn := j.fn, place := .free, a := a, exempt := true } (a + 2) j { n with sign := none } s.allEngines with
    | some b => b.release - (a + 2)
    | none => 0
  max (max slots rest) (match n.kst with | some k => s.kstLatest k | none => 0)

/-- The job can no longer meet its deadline at this edge (R173). -/
def State.tooLate (s : State) (j : Job) (n : Need) : Bool :=
  match s.deadlineOf j with
  | none => false
  | some d => decide (d < s.trd.edge + 2 + s.leastTicks j n)

/-- What considering a candidate came to. -/
inductive Verdict where
  /-- booked or completed -/
  | done
  /-- held: considered again at the next edge -/
  | hold
  /-- no booking, or none by its deadline: offered lent positions, then refused, forwarded or left to wait -/
  | short
  deriving DecidableEq, Repr

/-- A job is admitted with its release edge (R172). -/
def State.admitJob (s : State) (id rel : Nat) : State :=
  let j := s.getJob id
  let t := s.trd
  let s1 : State := { s with trd := { t with
    admitted := satAdd t.admitted 1 0xFFFFFFFF, admSeq := t.admSeq + 1,
    classAdm := vmod t.classAdm j.cls 0 (fun x => satAdd x 1 0xFFFFFFFF) } }
  (s1.modJob id (fun x => { x with
    phase := .admitted, admitted := t.edge, admitSeq := t.admSeq, relEdge := rel, noRand := false })).event 3 1 (some j.fn) 1

/-- A job is refused `DEADLINE_REFUSED` (R24, R172); a job of the cluster context with a REFUSE frame (R659). -/
def State.refuse (s : State) (id : Nat) : State :=
  let j := s.getJob id
  let t := s.trd
  let s1 : State := { s with trd := { t with
    refused := satAdd t.refused 1 0xFFFFFFFF, classRef := vmod t.classRef j.cls 0 (fun x => satAdd x 1 0xFFFFFFFF) } }
  let s2 := (s1.cause 3 5).event 3 2 (some j.fn) 1
  match j.cluster with
  | some (fid, port) =>
    let s3 := s2.sendFrame port 6 0 (le 4 fid ++ le 2 0x0040)
    { s3 with jobs := KV.erase s3.jobs id }
  | none => s2.finish id { status := 0x0040, ticksTo := some t.edge }

/-- A key status ends the job at its admission edge (R100); KST counts it (R471). -/
def State.keyFail (s : State) (id st detail : Nat) : State := (s.countStatus st).finish id (statusDetail st detail)

/-- Store a key object where the job found it. -/
def State.setJobKey (s : State) (j : Job) (k : KeyObj) : State :=
  if j.cluster.isSome then { s with plk := { s.plk with keys := KV.set s.plk.keys j.e.keyHandle.toNat k } }
  else s.setKey j.e.keyHandle k

/-- A worker assigns a leaf from its grants, and asks for a further grant with less than half of the current one left
(R353, R662). -/
def State.assignWorkerLeaf (s : State) (id port : Nat) (j : Job) (k : KeyObj) (st : Stateful) : State :=
  let n := st.next + 1
  let (next, durable, more) := if n = st.durable then (match st.more with | (a, b) :: r => (a, b, r) | [] => (n, st.durable, [])) else (n, st.durable, st.more)
  let ask := !st.asked && more.isEmpty && decide (2 * (durable - next) < st.reserve)
  let st1 := { st with next := next, durable := durable, issued := durable, more := more, asked := st.asked || ask }
  let s1 := ((s.setJobKey j { k with st := some st1 }).modJob id (fun x => { x with leaf := some st.next })).event 0x32 5 none 1
  if ask then s1.sendFrame port 11 0 (le 4 j.e.keyHandle.toNat) else s1

/-- The leaf of a stateful signature is assigned at its admission edge (R343, R353), and the allocator counts it (R30). -/
def State.takeLeaf (s0 : State) (id : Nat) (j : Job) : State :=
  let s : State := { s0 with kst := { s0.kst with leaves := s0.kst.leaves + 1 } }
  match s.jobKey j with
  | none => s
  | some k => (match k.st, j.cluster with
    | none, _ => s
    | some st, some (_, port) => s.assignWorkerLeaf id port j k st
    | some st, none => s.assignLeaf id j.e.keyHandle k st)

/-- An EPHEMERAL key is marked consumed at the admission edge (R296). -/
def State.takeEphemeral (s : State) (id : Nat) (j : Job) : State :=
  match s.jobKey j with
  | some k => if k.ephemeral && consuming j.opcode && j.cluster.isNone then
      (s.setJobKey j { k with consumed := true }).modJob id (fun x => { x with consumes := true }) else s
  | none => s

/-- Commands whose key is not brought into the key cache. -/
def noFetch (op : Nat) : Bool := [0x0104, 0x0105, 0x0106, 0x0107, 0x0230, 0x0320, 0x0321, 0x0418, 0x0419].contains op

/-- The key a job holds from its admission to its release (R445): the state with it held, and the ticks its fetch adds;
none where the cache cannot make room. -/
def State.bringKey (s : State) (id : Nat) (j : Job) : Option (State × Nat) :=
  let wants := match s.jobRule j with | some _ => decide (j.e.keyHandle ≠ 0) && j.cluster.isNone && !noFetch j.opcode | none => false
  if !wants then some (s, 0)
  else match s.getKey j.e.keyHandle with
    | none => some (s, 0)
    | some k => (s.holdKey id j.e.keyHandle).map (fun t => (t, s.fetchTicks k))

/-- A booking of the whole need in the job's places, or in lent positions (R182). -/
def State.tryBook (s : State) (j : Job) (n : Need) (extra : Nat) (exempt : Bool) (lent : Option (List Nat)) (g : Engines) : Option Booked :=
  s.bookJob (s.places j.fn lent) j n s.trd.edge (s.trd.edge + 2 + extra) exempt g (s.deadlineOf j)

/-- A booked job is committed (R172): its promise edge is that of its chain, its release edge the booking's. -/
def State.admitBooked (s : State) (id : Nat) (b : Booked) : State :=
  ((s.commit id b).modJob id (fun x => { x with
    promise := if b.chain.isSome then some b.release else x.promise,
    order := (b.bookings.head?.map (·.order)).getD x.order })).admitJob id b.release

-- Replays.

/-- Flags of a recorded `CFLAGS`. -/
def replayFlags (r : WinRec) (x : Result) : Result :=
  { x with late := decide (r.cflags % 2 = 1), retried := decide (r.cflags / 2 % 2 = 1), handle := r.handle, detail := r.detail,
           status := 1 }

/-- The output of a DONE replay that is no regenerated signature (R113): the public part of the object named by the
record; without the object, or where the output was secret, none. -/
def State.replayResult (s : State) (j : Job) (r : WinRec) : Result :=
  let gone := replayFlags r { noOutput := true }
  if r.outLen = 0 then
    (if (createsType j.opcode j.par).isSome && (match s.getKey r.handle with | some k => k.deleted | none => true) then gone else replayFlags r { noOutput := decide (r.cflags / 4 % 2 = 1) })
  else if (createsType j.opcode j.par).isSome then
    (match s.getKey r.handle with
      | some k => if k.deleted then gone else replayFlags r (okOut k.pub)
      | none => gone)
  else gone

/-- A stateful signature can be recomputed at the recorded leaf (R348). -/
def State.canRegenerate (s : State) (j : Job) (r : WinRec) : Bool :=
  statefulSign j.opcode && (match s.getKey j.e.keyHandle with
    | some k => !k.deleted && regenerable k (r.detail.toNat % 2 ^ 60)
    | none => false)

/-- A DONE replay at its admission edge (R113, R348). -/
def State.admitReplay (s : State) (id : Nat) (j : Job) (r : WinRec) (lent : Option (List Nat)) : State × Verdict :=
  let a := s.trd.edge
  if s.canRegenerate j r then
    let s0 := s.modJob id (fun x => { x with leaf := some (r.detail.toNat % 2 ^ 60) })
    match s0.bringKey id (s0.getJob id) with
    | none => (s, .short)
    | some (s1, extra) =>
      let j1 := s1.getJob id
      match s1.tryBook j1 (s1.jobNeed j1) extra false lent s1.allEngines with
      | some b => (s1.admitBooked id b, .done)
      | none => (s, .short)
  else if !meets (a + 2) (s.deadlineOf j) then (s, .short)
  else
    let res := if statefulSign j.opcode then replayFlags r { noOutput := true } else s.replayResult j r
    ((s.modJob id (fun x => { x with result := some res })).admitJob id (a + 2), .done)

-- Commands that Treadle books on no engine, and other special ones.

/-- `RNG_FILL` (R433, R747). -/
def State.admitRng (s : State) (id : Nat) (j : Job) : State × Verdict :=
  let a := s.trd.edge
  if s.domainStopped 0x31 then (s, .short)
  else if s.hostSeeded then (if meets (a + 1) (s.deadlineOf j) then (s.admitJob id (a + 1), .done) else (s, .short))
  else match s.deadlineOf j with
    | some d => if d ≤ a then (s.finishWith id 0x0080, .done) else (s.modJob id (fun x => { x with noRand := true }), .hold)
    | none => (s.modJob id (fun x => { x with noRand := true }), .hold)

/-- Every copy of the matrix sets still missing is booked on another PVU, the earliest first (R316). -/
def State.preload : Nat → State → Ctx → Nat → W32 → List (Bool × Nat) → List Nat → Option Booked
  | 0, _, _, _, _, _, _ => some {}
  | n + 1, s, x, t, h, sets, es =>
    let one (e : Nat) : Option Booked :=
      (sets.filter (fun y => !s.holdsSet e h y.1)).foldl (fun acc y => match acc with
        | none => none
        | some b => ((s.withPlan b.bookings).bookFill x e (if b.bookings.isEmpty then t else b.release) h y.1 y.2).map (fun c =>
            { bookings := b.bookings ++ c.bookings, release := c.release })) (some {})
    match bestOf es one with
    | none => none
    | some b =>
      let e := (b.bookings.head?.map (·.eng)).getD 99
      match State.preload n (s.withPlan b.bookings) x t h sets (es.filter (· ≠ e)) with
      | none => none
      | some c => some { bookings := b.bookings ++ c.bookings, release := max b.release c.release }

/-- The sets that `MATRIX_PRELOAD` places: signing and verify sets by the key's usage (R316). -/
def preloadSets (k : KeyObj) : List (Bool × Nat) :=
  let ps := mldsaSet k.typ k.pset
  (if !k.publicOnly && bit k.usage 0 then [(false, setBlocks ps false)] else []) ++ (if bit k.usage 1 then [(true, setBlocks ps true)] else [])

/-- `MATRIX_PRELOAD` at its admission edge. -/
def State.admitPreload (s : State) (id : Nat) (j : Job) (lent : Option (List Nat)) : State × Verdict :=
  match s.jobKey j with
  | none => (s, .short)
  | some k =>
    let a := s.trd.edge
    let sets := preloadSets k
    if sets.isEmpty then (s.keyFail id 0x0022 0, .done)
    else
      let h := j.e.keyHandle
      let full (e : Nat) : Bool := sets.all (fun y => s.holdsSet e h y.1)
      let open_ := s.activePvus.filter (fun e => s.pvuOpen e false && !full e)
      let want := p8 j.par 11 - (s.activePvus.filter full).length
      let booked := firstPlace (s.places j.fn lent) (fun pl =>
        (s.preload want { fn := j.fn, place := pl, a := a, exempt := false } (a + 2) h sets open_).filter (fun b =>
          meets (max b.release (a + 2)) (s.deadlineOf j)))
      match booked with
      | none => (s, .short)
      | some b => ((s.commit id b).admitJob id (max b.release (a + 2)), .done)

/-- PVUs pinned or being pinned. -/
def State.pins (s : State) (f : W32 → Bool) : Nat :=
  ((List.range 16).filter (fun e => match (s.getPvu e).pin, (s.getPvu e).pinning with
    | some (h, _), _ => f h
    | none, some h => f h
    | none, none => false)).length

/-- The last booked tick of a PVU. -/
def State.furthest (s : State) (e : Nat) : Nat := s.trd.plan.foldl (fun m b => if b.eng = e then max m b.tick else m) 0

/-- PVUs that `MCE_PIN` may choose, the best first (R361). -/
def State.pinChoice (s : State) : List Nat :=
  let es := (List.range s.pvus).filter (fun e => s.engineOpen (0x10 + e) && decide ((s.getPvu e).pin = none) && decide ((s.getPvu e).pinning = none)
    && !s.funcs.any (fun p => p.2.reserved.any (fun r => decide (r.1 = e))))
  es.mergeSort (fun a b => decide (s.furthest a < s.furthest b) || (decide (s.furthest a = s.furthest b) && decide (b ≤ a)))

/-- `MCE_PIN` at its admission edge (R361). -/
def State.admitPin (s : State) (id : Nat) (j : Job) : State × Verdict :=
  match s.jobKey j with
  | none => (s, .short)
  | some k =>
    let h := j.e.keyHandle
    let want := p8 j.par 8 - s.pins (fun x => decide (x = h))
    let c := s.pinChoice
    if mceIdx k.pset = 4 ∨ s.pvus < 2 * (s.pins (fun _ => true) + want)
        ∨ (s.getFn j.fn).pinAllow < s.pins (fun x => decide (handleDomain x = j.fn)) + want ∨ c.length < want then
      (s.keyFail id 0x0024 0, .done)
    else
      let s1 := (c.take want).foldl (fun t e => t.setPvu e { t.getPvu e with pinning := some h }) s
      (s1.admitJob id (s.trd.edge + 2), .done)

/-- Pinned bookings for a key stop, and its pins are let go once drained (R363). -/
def State.unpin (s : State) (h : W32) : State :=
  { s with pvu := s.pvu.map (fun p =>
    { p with unpinning := p.unpinning || decide ((p.pin.map (·.1)) = some h), pinning := if p.pinning = some h then none else p.pinning }) }

/-- Frames to every worker that holds a replica of a key (R661, R662). -/
def State.toReplicas (s : State) (k : KeyObj) (typ : Nat) (payload : List Byte) (i : Nat) : State :=
  k.replicas.foldl (fun t n => match KV.get? t.plk.nodes n with
    | some x => if x.state = 2 then
        let u := t.sendFrame x.port typ n payload
        { u with plk := { u.plk with cnt := vmod u.plk.cnt i 0 (· + 1) } } else t
    | none => t) s

/-- `KEY_DELETE` takes effect at its admission edge (R461, R661, R662). -/
def State.admitDelete (s : State) (id : Nat) (j : Job) : State :=
  match s.jobKey j with
  | none => s
  | some k =>
    let h := j.e.keyHandle
    let s1 := (s.setKey h { k with deleted := true, holders := k.holders ++ [id] }).modJob id (fun x => { x with heldKey := some h })
    let s2 := (s1.unpin h).toReplicas k 9 (le 4 h.toNat) 11
    if (match k.st with | some st => decide (st.grants ≠ []) | none => false) then s2.toReplicas k 13 (le 4 h.toNat) 13 else s2

/-- A command that KST alone executes (R351, R453, R461, R665). -/
def State.admitKst (s : State) (id : Nat) (j : Job) (k : Nat × Bool) : State × Verdict :=
  let a := s.trd.edge
  if s.domainStopped 0x32 ∨ !meets (a + 2 + s.kstLatest k) (s.deadlineOf j) then (s, .short)
  else match s.bringKey id j with
    | none => (s, .short)
    | some (s1, extra) =>
      let s2 := s1.modJob id (fun x => { x with waitsJournal := k.2 })
      let s3 := if j.opcode = 0x0104 then s2.admitDelete id (s2.getJob id)
        else if j.opcode = 0x0321 then s2.startAdvance id (s2.getJob id) else s2
      (s3.admitJob id (a + 2 + extra + s.kstExtra k.1), .done)

-- Forwarding.

/-- The 64 bytes of an entry as taken (R656). -/
def entryBytes (e : Entry) : List Byte :=
  le 4 e.ctl.toNat ++ le 4 e.keyHandle.toNat ++ le 8 e.tag.toNat ++ le 8 e.inAddr.toNat ++ le 4 e.inLen ++ le 4 e.flags.toNat
    ++ le 8 e.outAddr.toNat ++ le 4 e.outCap ++ fit 20 e.params

/-- A job may be forwarded (R657). -/
def State.forwardable (s : State) (j : Job) : Bool :=
  let op := j.opcode
  !(decide (op < 0x0200) || decide (0x0F00 ≤ op) || [0x0900, 0x0780, 0x0701, 0x0702, 0x0230, 0x0418, 0x0419, 0x0320, 0x0321].contains op)
    && (createsType op j.par).isNone && j.cluster.isNone && j.replay.isNone
    && (match s.jobRule j with
      | some _ => decide (j.e.keyHandle = 0) || (match s.jobKey j with | some k => bit k.usage 18 && !k.ephemeral && !k.deleted | none => false)
      | none => true)

/-- Forwards outstanding at a node. -/
def State.outstanding (s : State) (node : Nat) : Nat := (s.plk.forwards.filter (fun p => decide (p.2.node = node) && !p.2.done)).length

/-- The next worker in round robin that may take the job (R658). -/
def State.forwardTo (s : State) (j : Job) : Option Nat :=
  let ok (n : Nat) : Bool := match KV.get? s.plk.nodes n with
    | some x => decide (x.state = 2) && x.locked && decide (s.outstanding n < bits s.plk.fwdCfg 15 0)
        && (match s.jobRule j, s.jobKey j with
          | some _, some k => decide (j.e.keyHandle = 0) || k.replicas.contains n
          | _, _ => true)
    | none => false
  ((List.range 31).map (fun i => (s.plk.rrNext + i) % 31 + 1)).find? ok

/-- A job is sent to a worker (R656, R658, R659); its deadline edge there is p + d − 1, and best effort is all ones. -/
def State.sendJob (s : State) (id : Nat) (j : Job) (node : Nat) : State :=
  let fid := s.plk.nextFid
  let port := match KV.get? s.plk.nodes node with | some x => x.port | none => 0
  let d := match s.deadlineOf j with | some d => d - 1 | none => 2 ^ 64 - 1
  let s1 := s.sendFrame port 4 node (le 4 fid ++ entryBytes j.e ++ fit 16 j.fp ++ le 8 d ++ j.input)
  let p := s1.plk
  let s2 : State := { s1 with plk := { p with
    forwards := KV.set p.forwards fid { job := id, node := node, done := false }, nextFid := fid + 1, rrNext := node % 31,
    cnt := vmod p.cnt 6 0 (· + 1) } }
  (s2.modJob id (fun x => { x with forward := some node, rebook := false, redo := none })).event 0x60 4 (some j.fn) 1

/-- A candidate is forwarded: it is admitted, and its release follows its RESULT. -/
def State.forwardJob (s : State) (id : Nat) (j : Job) (node : Nat) : State :=
  ((s.sendJob id j node).admitJob id (s.trd.edge + 1048576))

/-- Forward the job if the mode and a worker allow it. -/
def State.tryForward (s : State) (id : Nat) (j : Job) (modes : List Nat) : Option State :=
  if bits s.plk.cfg 25 24 = 1 && modes.contains (bits s.plk.fwdCfg 31 30) && s.forwardable j then
    (s.forwardTo j).map (s.forwardJob id j) else none

-- New jobs.

/-- Bytes of tree cache that a stateful key generation takes (R339, R340). -/
def newTreeBytes (j : Job) : Nat :=
  if p8 j.par 2 / 8 % 2 = 1 then ((newLevels j.opcode j.par).map (treeBytes (if j.opcode = 0x0310 then 5 else 6) (p8 j.par 0))).sum else 0

/-- A creation finds no room (R339, R440). -/
def State.noRoom (s : State) (j : Job) : Bool :=
  match createsType j.opcode j.par with
  | none => false
  | some (typ, ps) => s.storeFull j typ ps
      || (decide (s.fls.state = 2) && usagePersist (BitVec.ofNat 32 (p32 j.par 4)))
      || ((decide (j.opcode = 0x0310) || decide (j.opcode = 0x0318)) && decide (4294967296 < s.treeCacheUsed + newTreeBytes j))

/-- Statuses that end a candidate at its admission edge: KST CLOSED (R450), the pattern (R145, R278), the key (R739) and the
output length that KST checks (R737). -/
def State.admissionFail (s : State) (j : Job) : Option (Nat × Nat × Nat) :=
  if s.needsKst j && !s.kst.mkHeld && j.cluster.isNone then some (0x00A0, 0, 0)
  else if decide (j.opcode = 0x0900) && (match s.patFind j.fn (p16 j.par 0) with | some x => x.unloading.isSome | none => true) then some (0x00B1, 0, 0)
  else match (s.jobRule j).bind (s.keyStatus j) with
    | some (st, d) => some (st, d, 0)
    | none =>
      match (s.jobRule j).bind (fun _ => (s.jobKey j).bind (s.outNeedKey j)) with
      | some n => if j.e.outCap < n then some (0x0011, 0, n) else none
      | none => none

/-- The leaf allocator has assigned its leaves of the edge: 1,000,000 a second over the module, one for each µs of the period (R30,
R338; log entry 54). -/
def State.leavesOut (s : State) : Bool := decide (s.trd.period ≤ s.kst.leaves)

/-- A job that a leaf must be found for: none = it goes on, else its verdict (R345, R346). -/
def State.leafTest (s : State) (id : Nat) (j : Job) (n : Need) : Option (State × Verdict) :=
  if !statefulSign j.opcode then none
  else match (s.jobKey j).bind (·.st) with
    | none => none
    | some st =>
      if (st.next = st.keyEnd ∨ st.stopped) ∧ !st.worker then some (s.finishWith id 0x0090, .done)
      else if hasLeaf st && !s.leavesOut then none
      else if s.tooLate j n then some (s.refuse id, .done)
      else some (s, .hold)

/-- A job whose randomness is missing waits, or completes `NOT_SEEDED` (R747). -/
def State.dryTest (s : State) (id : Nat) (j : Job) (n : Need) : Option (State × Verdict) :=
  if !(needsInt j.opcode j.par && !s.intSeeded) && !s.staleOnly n then none
  else if s.tooLate j n then some (s.finishWith id 0x0080, .done)
  else some (s.modJob id (fun x => { x with noRand := true }), .hold)

/-- The index of a new object is assigned, and a stateful generation starts, as the job is admitted (R341, R440). -/
def State.startCreate (s : State) (id : Nat) : Option State :=
  let j := s.getJob id
  if (createsType j.opcode j.par).isNone then some s
  else match s.assignIndex id j with
    | none => none
    | some t =>
      if j.opcode = 0x0310 ∨ j.opcode = 0x0318 then
        (match (t.getJob id).created with | some h => some (t.startStateful (t.getJob id) h) | none => none)
      else some t

/-- A job that engines run, or KST, is booked (R172). -/
def State.admitNew (s : State) (id : Nat) (j : Job) (n : Need) (lent : Option (List Nat)) : State × Verdict :=
  let a := s.trd.edge
  match s.startCreate id with
  | none => (s.keyFail id 0x0025 0, .done)
  | some s0 =>
    if j.opcode = 0x0310 ∨ j.opcode = 0x0318 then (s0.admitJob id (a + 2), .done)
    else match n.kst with
      | some k =>
        let r := s0.admitKst id (s0.getJob id) k
        if r.2 = .done then r else (s, r.2)
      | none =>
        match s0.bringKey id (s0.getJob id) with
        | none => (s, .short)
        | some (s1, extra) =>
          let j1 := s1.getJob id
          match s1.tryBook j1 n extra false lent s1.allEngines with
          | none => (s, .short)
          | some b =>
            let s2 := s1.admitBooked id b
            let s3 := s2.takeEphemeral id (s2.getJob id)
            (if statefulSign j.opcode then s3.takeLeaf id (s3.getJob id) else s3, .done)

/-- A candidate that a KEYED pattern lets run on no PVU at any order completes `POLICY_DENIED` (R279). -/
def State.noOrder (s : State) (n : Need) : Bool :=
  match n.pvu with
  | some p => (match p.cost with | .pattern _ => p.secret && (List.range s.pvus).all (fun e => decide (s.orderOn e p = none)) | _ => false)
  | none => false

/-- One new candidate is considered (R171, R172, R173). -/
def State.consider (s : State) (id : Nat) (lent : Option (List Nat)) : State × Verdict :=
  match KV.get? s.jobs id with
  | none => (s, .done)
  | some j =>
    if j.phase ≠ .staged then (s, .done)
    else
      let n := s.jobNeed j
      if s.heldBack j then (if s.tooLate j n then (s.refuse id, .done) else (s, .hold))
      else match j.replay with
        | some r =>
          if s.needsKst j && !s.kst.mkHeld then (s.keyFail id 0x00A0 0, .done) else s.admitReplay id j r lent
        | none =>
          match s.admissionFail j with
          | some (st, d, out) => (if st = 0x0011 then s.finish id { status := st, outLen := out } else s.keyFail id st d, .done)
          | none =>
            if s.noRoom j then ((s.cause 0x32 0).keyFail id 0x0025 0, .done)
            else match s.tryForward id j [2] with
              | some t => (t, .done)
              | none =>
                if j.opcode = 0x0780 then s.admitRng id j
                else if j.opcode = 0x0230 then s.admitPreload id j lent
                else if j.opcode = 0x0418 then s.admitPin id j
                else if j.opcode = 0x0419 then ((s.unpin j.e.keyHandle).admitJob id (s.trd.edge + 2), .done)
                else if s.noOrder n then (s.keyFail id 0x0024 0, .done)
                else match s.leafTest id j n with
                  | some r => r
                  | none => match s.dryTest id j n with
                    | some r => r
                    | none => s.admitNew id j n lent

/-- Candidates in order; answers those left short. -/
def State.considerAll (s : State) (ids : List Nat) (lent : Option (List Nat)) : State × List Nat :=
  ids.foldl (fun acc id => let r := acc.1.consider id lent; (r.1, if r.2 = .short then acc.2 ++ [id] else acc.2)) (s, [])

/-- A candidate without a booking is forwarded, refused or left to wait (R172, R657). -/
def State.giveUp (s : State) (id : Nat) : State :=
  let j := s.getJob id
  match s.tryForward id j [1, 2] with
  | some t => t
  | none => if (s.deadlineOf j).isSome then s.refuse id else s

-- Order 1: retries and re-planned jobs.

/-- What of a job is booked again (R399). -/
def redoNeed (n : Need) (r : Option (Bool × Nat)) : Need :=
  match r with
  | none => n
  | some (pvu, runs) => { pvu := if pvu then n.pvu else none, sign := if pvu then n.sign else none, runs := n.runs.take runs, hsa := none, kst := none }

/-- Engines of a retry (R588): the engine of the fault first, another one the second time. -/
def State.retryEngines (s : State) (j : Job) : Engines :=
  let g := s.allEngines
  match j.faultEng with
  | none => g
  | some e =>
    let pick (open_ : Bool) (off : Nat) (xs : List Nat) : List Nat :=
      if j.retries ≤ 1 then (if open_ then [e - off] else xs) else xs.filter (· ≠ e - off)
    if e < 16 then { g with pvus := pick (s.engineOpen (0x10 + e)) 0 g.pvus }
    else if e < 24 then { g with bnes := pick (s.engineOpen (0x20 + (e - 16))) 16 g.bnes }
    else { g with groups := pick (s.engineOpen 0x28) 24 g.groups }

/-- The release edge of a booking (R166, R167). -/
def State.planEdge (s : State) (b : Booking) : Nat :=
  match b.kind with | .run _ => (b.start + 1000 + b.cycles) / s.bneTick + 1 | _ => b.tick + 1

/-- The last release edge of what is still booked for a job. -/
def State.planEnd (s : State) (id : Nat) : Nat :=
  s.trd.plan.foldl (fun m b => if b.job = some id then max m (s.planEdge b) else m) 0

/-- A job re-planned for the loss of its worker may go to another (R664). -/
def State.reforward (s : State) (id : Nat) (j : Job) (modes : List Nat) : Option State :=
  if j.faultEng.isNone && decide (j.redo = none) && bits s.plk.cfg 25 24 = 1 && modes.contains (bits s.plk.fwdCfg 31 30) && s.forwardable j then
    (s.forwardTo j).map (s.sendJob id j) else none

/-- The randomness that an order-1 candidate needs is missing (R207, R380, R747). -/
def State.dry (s : State) (j : Job) (n : Need) : Bool :=
  s.staleOnly n || (needsInt j.opcode j.par && !s.intSeeded) || j.replanDry

/-- An order-1 candidate without a booking: a retry ends at its deadline edge, any other at the first edge at which no booking
can meet the deadline (R578, R589, R747). -/
def State.missTest (s : State) (id : Nat) (j : Job) (n : Need) (d : Nat) : State :=
  if s.dry j n then (if s.tooLate j n then s.finishWith id 0x0080 else s)
  else if j.freshRetry then (if d ≤ s.trd.edge then s.finishWith id 0x0041 else s)
  else if s.tooLate j n then s.finishWith id 0x0041 else s

/-- An order-1 candidate while admission is stopped for the temperature (R183, R578). -/
def State.stoppedOne (s : State) (id : Nat) : State :=
  let j := s.getJob id
  match s.deadlineOf j with
  | none => s
  | some d => s.missTest id j (redoNeed (s.jobNeed j) j.redo) d

/-- One order-1 candidate is booked, if it can be (R171, R185, R588). -/
def State.rebookOne (s : State) (lent : Option (List Nat)) (id : Nat) : Option State :=
  let j := s.getJob id
  let n := redoNeed (s.jobNeed j) j.redo
  (s.tryBook j n 0 true lent (s.retryEngines j)).map (fun b =>
    let s1 := (s.commit id b).holdPages id (max b.release (s.planEnd id))
    let t := s1.trd
    let s2 := s1.modJob id (fun x => {
      x with
      rebook := false, retried := x.retried || x.freshRetry, freshRetry := false, another := false, redo := none, replanDry := false, relEdge := max b.release (s.planEnd id),
      promise := if b.chain.isSome then some (max b.release (x.promise.getD 0)) else x.promise })
    if j.another then s2 else ({ s2 with trd := { s2.trd with retry := satAdd t.retry 1 0xFFFFFFFF } } : State).event 3 4 (some j.fn) 1)

/-- An order-1 candidate that no place took (R589, R664, R747). -/
def State.missOne (s : State) (id : Nat) : State :=
  let j := s.getJob id
  let n := redoNeed (s.jobNeed j) j.redo
  match s.reforward id j [1, 2], s.deadlineOf j with
  | some t, _ => t
  | none, none => s
  | none, some d => if s.hrt.severe = [] ∧ !j.freshRetry ∧ !s.dry j n then s.finishWith id 0x0041 else s.missTest id j n d

-- Order 2: continuations.

/-- Live chains that have reached their booked positions (R179): past the promise edge, or with no slot of the queue left. -/
def State.continuing (s : State) : List (Nat × SignQueue) :=
  ((s.trd.signQ.flatMap (fun q => (q.chains.filter (fun c => match (s.getJob c.1).promise with
    | some p => decide (p ≤ s.trd.edge) || (s.queueSlots q s.trd.edge).isEmpty
    | none => false)).map (fun c => (c.1, q)))).mergeSort
      (fun a b => (s.getJob a.1).admitSeq ≤ (s.getJob b.1).admitSeq))

/-- A continuation books the positions of one further attempt, also on an engine that is drained for its patch (R179, R517). -/
def State.continueOne (s : State) (lent : Option (List Nat)) (id : Nat) (q : SignQueue) : Option State :=
  let j := s.getJob id
  let a := s.trd.edge
  let (_, _, part, k) := s.shapeAt q.cm q.order q.pset
  let s0 : State := { s with trd := { s.trd with noBook := [] } }
  if k = 0 ∨ !s0.pvuOpen q.pvu true then none
  else firstPlace (s.places j.fn lent) (fun pl =>
    let bs := State.addSlots 64 s0 { fn := j.fn, place := pl, a := a, exempt := true } q.pvu q.pset q.order q.parts q.cm part k (a + 2) q.parts
    if q.parts ≤ bs.length * k ∧ meets ((bs.getLast?.map (·.tick)).getD 0 + 1) (s.deadlineOf j) then some (s.withPlan bs) else none)

/-- A chain without a further booking ends `DEADLINE_MISSED` at the first edge at which none can meet its deadline (R179). -/
def State.missContinue (s : State) (id : Nat) (q : SignQueue) : State :=
  let d := s.deadlineOf (s.getJob id)
  if d.isNone ∨ (s.queueSlots q s.trd.edge).any (fun y => meets (y.1 + 1) d) then s
  else s.finishWith id 0x0041

/-- Sign slots no longer needed are removed from tick a+1 on (R178). -/
def State.trimQueue (s : State) (q : SignQueue) : State :=
  let a := s.trd.edge
  let live := q.chains.filter (fun c => (KV.get? s.jobs c.1).isSome)
  let rest (c : Nat × Nat) : Nat := max 1 (expectedAttempts q.pset - (s.getJob c.1).attempts)
  let slots := s.queueSlots q a
  let need := match live.getLast? with
    | none => 0
    | some c =>
      let j := s.getJob c.1
      let limit := match s.jobKey j with | some k => attemptLimit k | none => 256
      let older := (live.dropLast.map rest).sum * q.parts - q.done
      let before := (slots.filter (fun y => decide (y.1 < c.2))).foldl (fun n y => n + y.2) 0
      max older before + q.parts * max (rest c) (min (promisedAttempts q.pset) limit - j.attempts) - (if live.length = 1 then q.done else 0)
  let last := match positionTick slots need with | some t => t | none => if need = 0 then a else a + 2 * horizon
  { s with trd := { s.trd with plan := s.trd.plan.filter (fun b => match b.kind with
    | .signSlot ps pa _ => !(decide (b.eng = q.pvu) && decide (ps = q.pset) && decide (pa = q.parts) && decide (b.order = q.order) && decide (b.cm = q.cm)
        && decide (last < b.tick) && decide (a < b.tick))
    | _ => true) } }

/-- Every sign queue is trimmed; an empty queue goes with its last slot. -/
def State.trim (s : State) : State :=
  let s1 := s.trd.signQ.foldl State.trimQueue s
  { s1 with trd := { s1.trd with signQ := s1.trd.signQ.filter (fun q => !q.chains.isEmpty) } }

-- Fills for keys with the cache attribute.

/-- Keys of the edge's verify candidates that are due a fill (R312): CACHE set and no PVU holding or filling the set. -/
def State.fillKeys (s : State) (cands : List Job) : List (W32 × Nat) :=
  (cands.filterMap (fun (j : Job) =>
    if (j.opcode = 0x0212 ∨ j.opcode = 0x0214 ∨ j.opcode = 0x0612) ∧ j.e.keyHandle ≠ 0 ∧ j.cluster.isNone then
      (match s.getKey j.e.keyHandle with
        | some k => if usageCache k.usage && !k.deleted && (k.typ == 2 || k.typ == 14) then (some (j.e.keyHandle, mldsaSet k.typ k.pset) : Option (W32 × Nat)) else none
        | none => none)
    else none)).eraseDups

/-- One such fill is booked in the earliest slot from tick a+2, in positions that no instance reserves or that are lent (R312). -/
def State.bookCacheFill (lent : List Nat) (s : State) (x : W32 × Nat) : State :=
  let a := s.trd.edge
  let held := (List.range 16).any (fun e => s.holdsSet e x.1 true)
    || s.trd.plan.any (fun b => match b.kind with | .fill h v _ => decide (h = x.1) && v | _ => false)
  if held then s
  else
    match bestOf ((List.range s.pvus).filter (fun e => s.pvuOpen e false)) (fun e =>
        s.bookFill { fn := clusterFn, place := .lent lent, a := a, exempt := false } e (a + 2) x.1 true (setBlocks x.2 true)) with
    | some b => s.withPlan b.bookings
    | none => s

-- The edge.

/-- Staged jobs are presented at the first admission edge at which they are staged (R80). -/
def State.present_ (s : State) : State :=
  { s with jobs := KV.mapV (fun _ j =>
    if (j.phase = .staged ∨ j.phase = .duplicate) ∧ j.present = none ∧ j.q ≠ 64 ∧ j.opcode ≠ 0
        ∧ (j.cluster.isSome ∨ (s.getFn j.fn).state = 2) then { j with present := some s.trd.edge } else j) s.jobs }

/-- Lending is allowed (R182, R188). -/
def State.lendOn (s : State) : Bool := bit (KV.getD s.regs (3 * 65536 + 0x120) 1) 0

/-- Jobs of orders 1 and 2 are booked in one pass; answers those left without a booking (R171, R182). -/
def State.rebookAll (s : State) (lent : Option (List Nat)) (ids : List Nat) : State × List Nat :=
  ids.foldl (fun acc id => match acc.1.rebookOne lent id with | some t => (t, acc.2) | none => (acc.1, acc.2 ++ [id])) (s, [])
def State.continueAll (s : State) (lent : Option (List Nat)) (xs : List (Nat × SignQueue)) : State × List (Nat × SignQueue) :=
  xs.foldl (fun acc p => match acc.1.continueOne lent p.1 p.2 with | some t => (t, acc.2) | none => (acc.1, acc.2 ++ [p])) (s, [])

/-- What is left over after the pass over the candidates' own and unreserved positions, by order (R171). -/
structure Leftover where
  again : List Nat
  chains : List (Nat × SignQueue)
  fresh : List Nat
  deriving DecidableEq, Repr

/-- The pass over every candidate of the edge in the order of R171. -/
def State.pass (s : State) (lent : Option (List Nat)) (x : Leftover) : State × Leftover :=
  let (s1, again) := s.rebookAll lent x.again
  let (s2, chains) := s1.continueAll lent x.chains
  let (s3, fresh) := s2.considerAll x.fresh lent
  (s3, { again := again, chains := chains, fresh := fresh })

/-- Lent positions are offered to the candidates that wait, in the same order (R182). -/
def State.lendPass (s : State) (es : List Nat) (x : Leftover) : State × Leftover :=
  if es.isEmpty then (s, x)
  else
    let r := s.pass (some es) x
    (r.1.event 3 5 none ((x.again.length + x.chains.length + x.fresh.length) - (r.2.again.length + r.2.chains.length + r.2.fresh.length)), r.2)

/-- Admission at an edge (R22, R171, R172, R182, R312). -/
def State.admission (s : State) : State :=
  let s1 := ({ s with kst := { s.kst with leaves := 0 } } : State).present_
  let cands := s1.newCands
  let s2 : State := match cands.head? with
    | some p => { s1 with trd := { s1.trd with rrLast := qkey p.2.fn p.2.q } }
    | none => s1
  let (s3, x) := s2.pass none { again := s1.orderOne, chains := s1.continuing, fresh := cands.map (·.1) }
  let es := if s3.lendOn then s3.lentOpen else []
  let (s4, y) := s3.lendPass es x
  let s5 := y.again.foldl State.missOne s4
  let s6 := y.chains.foldl (fun t p => t.missContinue p.1 p.2) s5
  let s7 := y.fresh.foldl State.giveUp s6
  (s7.fillKeys (cands.map (·.2))).foldl (State.bookCacheFill es) s7

end Sys2Proof.Machine
end

