-- ==== Sys2Proof/Machine/SignSlots.lean ====
section
/-! DEFINITION. The attempt positions of sign slots (R175, R221, R299, R300, R309, R313, R588). -/

namespace Sys2Proof.Machine

/-- The kernel of a signing chain. -/
def chainKernel (j : Job) : Kernel := if j.opcode = 0x0611 then kCompSign else kMldsaSign

/-- The chain that a position of a sign slot serves: the oldest whose positions have begun (R175, R313). A chain with a
faulted attempt has ended its use of the slot (R588). -/
def State.positionChain (s : State) (e pset order parts cm : Nat) : Option (Nat × SignQueue) :=
  match s.findQueue e pset order parts cm with
  | none => none
  | some q => (q.chains.find? (fun c => decide (c.2 ≤ s.trd.edge) && !(s.getJob c.1).faulted && (KV.get? s.jobs c.1).isSome)).map
      (fun c => (c.1, q))

/-- A queue with the count of part positions that a chain's attempt has run. -/
def State.setDone (s : State) (q : SignQueue) (id n : Nat) : State :=
  { s with trd := { s.trd with signQ := s.trd.signQ.map (fun x =>
      if x.same q then { x with done := n, doneBy := id } else x) } }

/-- A job leaves every sign queue. -/
def State.dropChain (s : State) (id : Nat) : State :=
  { s with trd := { s.trd with signQ := s.trd.signQ.map (fun x => { x with chains := x.chains.filter (fun c => decide (c.1 ≠ id)) }) } }

/-- The chain has ended in this tick: its job is released at the edge that ends it, or later with its other part (R175, R399). -/
def State.endChain (s : State) (e id : Nat) : State :=
  let s1 := (s.dropChain id).modJob id (fun x => { x with relEdge := max (s.trd.edge + 1) (s.planEnd id) })
  s1.setPvu e { s1.getPvu e with cnt := vmod (s1.getPvu e).cnt 4 0 (· + 1) }

/-- The attempt has ended the chain: accepted, at its hard limit, or ended by scorched data or a failure (R300). -/
def chainOver (r : Result) (n : Nat) : Bool :=
  (decide (r.status ≠ 0) && decide (r.status ≠ 0x0042)) || decide (r.detail.toNat ≤ n)

/-- What the chain will come to: the attempt that is accepted depends on key, message and randomness alone (R299). -/
def State.chainResult (s : State) (id : Nat) : State × Result :=
  let j := s.getJob id
  match j.result, j.failed with
  | _, some (st, d) => (s, statusDetail st d)
  | some r, none => (s, r)
  | none, none =>
    let (t, r) := s.runKernel id j (chainKernel j)
    (t.modJob id (fun x => { x with result := some r }), r)

/-- The signing set that an attempt reads was used in this tick (R314). -/
def State.useSet (s : State) (e : Nat) (h : W32) : State :=
  { s with trd := { s.trd with sets := s.trd.sets.map (fun x =>
      if x.1 = e ∧ x.2.1 = h ∧ !x.2.2.1 then (x.1, x.2.1, x.2.2.1, x.2.2.2.1, s.trd.edge) else x) } }

/-- What the code of the position that has just run said of the attempt with ACCEPT or REJECT (R221, R247); none where the segment ended
in no such way. -/
def State.attemptSaid (s : State) (e id : Nat) : Option Bool :=
  let p := s.getPvu e
  match p.segEnd with
  | .attempt b => if p.signSlot ∧ p.jobId = some id ∧ p.slotTick = s.trd.edge then some b else none
  | _ => none

/-- What a chain comes to once an attempt has been accepted or rejected by its code: an accepted one ends it with its number, a rejected
one lets it go on, to its hard limit (R300). -/
def saidResult (limit n : Nat) (said : Option Bool) (r : Result) : Result :=
  if r.status ≠ 0 ∧ r.status ≠ 0x0042 then r
  else
    let at_ (k st : Nat) : Result := { r with status := st, detail := BitVec.ofNat 64 k }
    match said with
    | none => r
    | some true => at_ n 0
    | some false => if limit ≤ n then { at_ n 0x0042 with output := [], outLen := 0 } else if r.detail.toNat ≤ n then at_ (n + 1) r.status else r

/-- An attempt of a chain ends. -/
def State.attempt (s : State) (e id : Nat) (q : SignQueue) : State :=
  let (t, r0) := s.chainResult id
  let n := (t.getJob id).attempts + 1
  let limit := match t.jobKey (t.getJob id) with | some k => attemptLimit k | none => 256
  let said := s.attemptSaid e id
  let r := saidResult limit n said r0
  let t1 := ((t.setDone q id 0).useSet e (t.getJob id).e.keyHandle).modJob id (fun x => { x with attempts := n, started := true, result := some r })
  let p := t1.getPvu e
  let t2 := (t1.setPvu e { p with cnt := vmod p.cnt 3 0 (· + 1), segEnd := if said.isSome then .none else p.segEnd }).event (0x10 + e) 4 (some (t1.getJob id).fn) 1
  if chainOver r n then t2.endChain e id else t2

/-- Parts that have run of the attempt a chain is in: an attempt is never made up of two chains' positions (R309). -/
def SignQueue.partsRun (q : SignQueue) (id : Nat) : Nat := if q.doneBy = id then q.done else 0

/-- One part position of a sign slot: the next part of the attempt of the oldest chain, or dummy work. -/
def State.runPosition (s : State) (e pset order parts cm : Nat) : State :=
  match s.positionChain e pset order parts cm with
  | none => s
  | some (id, q) => if q.partsRun id + 1 < parts then s.setDone q id (q.partsRun id + 1) else s.attempt e id q

/-- Positions of the PVU's slot in this tick that have run. -/
def State.positionsRun (s : State) (e : Nat) : Nat :=
  let p := s.getPvu e
  if p.slotTick = s.trd.edge then p.slotNext - 1 else 0

/-- Positions `lo` to `hi` − 1 of the PVU's slot in this tick run, where it is a sign slot. -/
def State.runPositions (s : State) (e lo hi : Nat) : State :=
  match (s.slot e s.trd.edge).head? with
  | none => s
  | some b =>
    match b.kind with
    | .signSlot pset parts k => (List.range (min hi k - lo)).foldl (fun (t : State) _ => t.runPosition e pset b.order parts b.cm) s
    | _ => s

end Sys2Proof.Machine
end

