-- ==== Sys2Proof/Machine/Slots.lean ====
section
/-! DEFINITION. Segments and sign-slot positions on a PVU (R196, R219 to R222, R246, R250) and patterns (R278 to R282). -/

namespace Sys2Proof.Machine

/-- The registers are cleared for a segment; its first instruction starts at cycle 16 (R196, R246). -/
def segmentClear (p : Pvu) : Pvu :=
  { p with
    l := Vector.replicate 32 0, s := Vector.replicate 32 0, x := Vector.replicate 32 0, p := Vector.replicate 8 0,
    m := Vector.replicate 4 {}, ffcount := 0, flagEq := false, flagLtu := false, flagLt := false, flagScorch := false,
    exc := {}, ehandler := none, resumeAt := 0, lTag := Vector.replicate 32 .pub, sTag := Vector.replicate 32 .pub,
    xTag := Vector.replicate 32 .pub, lScorch := Vector.replicate 32 0, sScorch := Vector.replicate 32 0, xScorch := 0,
    pScorch := Vector.replicate 8 0, ku := Vector.replicate 2 {}, retStack := [], segEnd := .none, cyc := 16,
    lReady := Vector.replicate 32 0, sReady := Vector.replicate 32 0, xReady := Vector.replicate 32 0,
    pReady := Vector.replicate 8 0, mReady := Vector.replicate 4 0, statReady := 0, lastDone := 0 }

/-- Offsets of a container's parts (R274): segment records, code, data. -/
def segRecord (i : Nat) : Nat := 64 + 24 * i
def codeOff (c : List Byte) : Nat := 64 + 24 * field c 6 1
def dataOff (c : List Byte) : Nat := codeOff c + 8 * field c 8 2

/-- IN_OFF and OUT_OFF of a pattern's JOB space (R280). -/
def patInOff (c : List Byte) : Nat := 0x40 + up64 (field c 12 4)
def patOutOff (c : List Byte) : Nat := patInOff c + up64 (field c 20 4)

/-- The JOB space of a pattern before its first segment (R280). -/
def patternSpace (j : Job) (c : List Byte) (order : Nat) : List Byte :=
  let p := j.par
  let ndata := field c 12 4
  slice p 4 16 ++ le 4 j.e.inLen ++ le 4 j.e.outCap ++ le 1 order ++ le 1 (field c 6 1) ++ slice p 0 2
    ++ le 4 (patInOff c) ++ le 4 (patOutOff c) ++ zeros 28
    ++ fit (up64 ndata) (slice c (dataOff c) ndata) ++ fit j.e.inLen j.input

/-- The fabric port writes a string into pages from JOB offset 0, with a scorch mark on the word at an offset (R217, R231). -/
def loadPages (p : Pvu) (pages : List Nat) (bs : List Byte) (mark : Option Nat) : Pvu :=
  let q := { p with jobPages := pages }
  { p with
    ls := ((bs.take (pages.length * p.areaSize)).zipIdx).foldl (fun m b => lsPut m (jobAddr q b.2) b.1) p.ls,
    lsScorch := match mark with
      | some o => if o < pages.length * p.areaSize then KV.set p.lsScorch (jobAddr q o / 8) true else p.lsScorch
      | none => p.lsScorch
    used := (p.used ++ pages).eraseDups }

/-- The pages of a job on a PVU (R214). -/
def State.pagesOf (s : State) (job e : Nat) : List Nat :=
  match s.trd.pages.find? (fun x => decide (x.1 = job) && decide (x.2.1 = e)) with
  | some x => x.2.2.2.2
  | none => []

/-- The job reads a private key in its segments. -/
def State.segmentKey (s : State) (j : Job) : Option KeyObj :=
  match s.jobRule j with
  | none => none
  | some _ => (match s.jobKey j with
    | some k => if j.e.keyHandle ≠ 0 ∧ !k.publicOnly then some k else none
    | none => none)

/-- The masking order at which a job is booked on a PVU, in its segments or in a sign queue. -/
def State.bookedOrder (s : State) (id e : Nat) : Nat :=
  match s.trd.plan.find? (fun b => decide (b.job = some id) && decide (b.eng = e)) with
  | some b => b.order
  | none => (match s.trd.signQ.find? (fun q => decide (q.pvu = e) && q.chains.any (fun c => decide (c.1 = id))) with
    | some q => q.order
    | none => 0)

/-- What stands in a job's pages before its first segment, and where its input begins in it (R217, R280): the JOB space of a pattern; for
a vendor kernel, whose layout the spec does not give, the input from offset 0. -/
def State.jobSpace (s : State) (j : Job) (order : Nat) : List Byte × Nat :=
  if j.opcode = 0x0900 then
    (match s.patFind j.fn (p16 j.par 0) with
      | some x => (patternSpace j x.container order, patInOff x.container)
      | none => ([], 0))
  else (j.input, 0)

/-- In the tick before its first segment a job's input goes to its pages and its key to the key-path buffer of the PVU, as order + 1 fresh
Boolean shares (R23, R209, R217, R448). -/
def State.loadJob (s : State) (x : Nat × Nat × Nat × Nat × List Nat) : State :=
  match KV.get? s.jobs x.1 with
  | none => s
  | some j =>
    let e := x.2.1
    let d := s.bookedOrder x.1 e
    let p := s.getPvu e
    let (bs, off) := s.jobSpace j d
    let mark := if j.scorched ∧ j.input ≠ [] then some (off + 8 * j.scorchAt) else none
    let q := loadPages p x.2.2.2.2 bs mark
    match s.segmentKey j with
    | none => s.setPvu e q
    | some k =>
      let r := s.sendKey d k.priv
      r.2.setPvu e { q with keyBuf := q.keyBuf.filter (fun y => decide (y.1 ≠ x.1)) ++ [(x.1, r.1, k.scorched)] }

/-- The jobs whose first segment may lie in the next tick (R23). -/
def State.loadStarts (s : State) : State :=
  (s.trd.pages.filter (fun x => decide (x.2.2.1 = s.trd.edge))).foldl State.loadJob s

/-- What starts in a slot: the job, the booking's cycles and order, part, parts, MODE, sign position, attempt, cached set. -/
structure SlotStart where
  job     : Option Nat
  cycles  : Nat
  order   : Nat
  part    : Nat := 0
  parts   : Nat := 1
  mode    : Nat := 1
  sign    : Bool := false
  handle  : W32 := 0
  blocks  : Nat := 0
  /-- the countermeasure level of the booking (R478) -/
  cm      : Nat := 0
  deriving DecidableEq, Repr

/-- The segment or position `index` of a PVU's slot in the tick that runs (R220, R221). -/
def State.slotStart (s : State) (e index : Nat) : Option SlotStart :=
  let bs := s.slot e s.trd.edge
  match bs.head? with
  | none => if index = 0 ∧ s.assessSlot e s.trd.edge then some { job := none, cycles := s.usable, order := s.minOrder e, mode := 3, cm := s.cmOf e } else none
  | some b0 =>
    match b0.kind with
    | .signSlot pset parts k =>
      if k ≤ index then none
      else match s.positionChain e pset b0.order parts b0.cm with
        | none => none
        | some (id, q) =>
          some { job := some id, cycles := b0.cycles, order := b0.order, part := q.partsRun id % parts, parts := parts, mode := 2, sign := true,
                 handle := (s.getJob id).e.keyHandle, blocks := setBlocks pset false, cm := b0.cm }
    | .assess => if index = 0 then some { job := none, cycles := b0.cycles, order := b0.order, mode := 3, cm := s.cmOf e } else none
    | _ =>
      match bs[index]? with
      | none => none
      | some b =>
        let base : SlotStart := { job := b.job, cycles := b.cycles, order := b.order, cm := b.cm }
        some (match b.kind with
          | .segment i n => { base with part := i, parts := n }
          | .whole i n => { base with part := i, parts := n }
          | .stream _ i n => { base with part := i, parts := n }
          | .cached h => { base with handle := h, blocks := match s.getKey h with | some k => setBlocks (mldsaSet k.typ k.pset) true | none => 0 }
          | _ => base)

/-- The part of the control state that a started segment sets, for vendor code. -/
def startedPvu (s : State) (p : Pvu) (e index : Nat) (b : SlotStart) (j : Job) : Pvu :=
  let key := b.job.bind (fun id => p.keyBuf.find? (fun y => decide (y.1 = id)))
  { segmentClear p with
    phase := .running, pc := 0, progLen := 32768, vendor := true, unmaskOk := true, order := b.order, segIndex := b.part,
    lastSeg := decide (b.part + 1 = b.parts), attempt := if b.sign then j.attempts else 0, signSlot := b.sign, jobId := b.job,
    jobPages := match b.job with | some id => s.pagesOf id e | none => [],
    mcKey := match s.getKey b.handle with | some k => k.pub | none => [], mcBlocks := b.blocks, mcHandle := b.handle, mcScorched := false,
    keyShares := match key with | some k => k.2.1 | none => [], keyScorched := match key with | some k => k.2.2 | none => false,
    budget := b.cycles, segMode := b.mode, slotTick := s.trd.edge, slotBooked := (s.slot e s.trd.edge).length,
    slotNext := index + 1, active := true, idleTicks := 0, cm := b.cm, dummyCnt := 0, dummyAt := 0, bob := p.bob.fresh,
    cnt := vmod (vmod p.cnt 0 0 (· + b.cycles)) 2 0 (· + b2n (decide (b.mode = 1))) }

/-- A pattern's segment runs the container's code from the record's entry (R250, R274, R280). -/
def patternPvu (p : Pvu) (b : SlotStart) (c : List Byte) : Pvu :=
  let h := field c 10 2
  { p with
    vendor := false, unmaskOk := decide (field c 5 1 / 2 % 2 = 1), pc := field c (segRecord b.part) 2, progLen := field c 8 2,
    ehandler := if h = 0xFFFF then none else some h, mcKey := [], mcBlocks := 0 }

/-- The job of a segment carries dummy work from now on (R222, R250). -/
def Job.dummyWork (j : Job) : Bool := j.ended || j.failed.isSome || j.faulted || j.finished || j.squashed

/-- SEGMENT_START (R17, R220): a booked segment or sign-slot position starts; a job that has ended or failed leaves dummy work, and
so does one whose transfers are lost. -/
def execSegmentStart (pvu : Nat) (start : SegmentAt) (s : State) : Host.Outcome State Fault Refusal :=
  let p0 := s.getPvu pvu
  let index := start.index
  if !s.running || !s.trd.ready || decide (s.pvus ≤ pvu) || s.retired (0x10 + pvu) || decide (p0.phase ≠ .dummy) || !p0.powered
      || (decide (p0.slotTick = s.trd.edge) && decide (index < p0.slotNext)) then .next s
  else
    let su := (s.runPositions pvu (s.positionsRun pvu) index).settleUnits pvu
    match su.slotStart pvu index with
    | none => .next (su.setPvu pvu { su.getPvu pvu with slotTick := s.trd.edge, slotNext := index + 1, segMode := 0 })
    | some b =>
      let s0 := su.engineArrivals pvu b.job start.arrived
      let p := s0.getPvu pvu
      let j := match b.job with | some id => s0.getJob id | none => {}
      if !s0.running then .next s0
      else if b.job.isSome && j.dummyWork then .next (s0.setPvu pvu { p with slotTick := s.trd.edge, slotNext := index + 1, segMode := 0 })
      else
        let q := startedPvu s0 p pvu index b j
        let q1 := if j.opcode = 0x0900 ∧ b.job.isSome then
            (match s0.patFind j.fn (p16 j.par 0) with | some x => patternPvu q b x.container | none => q)
          else q
        let fn := if b.job.isSome then some j.fn else none
        let s1 := ((s0.setPvu pvu q1).event (0x10 + pvu) 1 fn (b2n (decide (b.mode = 1)))).event (0x10 + pvu) 2 fn b.cycles
        .next (match b.job with | some id => s1.modJob id (fun x => { x with started := true }) | none => s1)

/-- SEGMENT_OVERRUN (R222): the running segment has reached its declared worst case without END. -/
def execSegmentOverrun (pvu : Nat) (s : State) : Host.Outcome State Fault Refusal :=
  .next (if !s.running || decide (s.pvus ≤ pvu) || decide ((s.getPvu pvu).phase = .dummy) then s else s.pvuOverrun pvu)

/-- The result of a pattern that has ended, read at handback (R281, R232). -/
def patternResult (p : Pvu) (c : List Byte) : Result :=
  let n := readElem p 0 0x30 4
  let outMax := field c 24 4
  if n.2 then statusDetail 0x0050 0x4001
  else if outMax < n.1 then statusDetail 0x00B3 0xFF
  else
    let o := readElem p 0 (patOutOff c) n.1
    if o.2 then statusDetail 0x0050 0x4001 else okOut ((List.range n.1).map (fun k => readByte p 0 (patOutOff c + k)))

/-- PATTERN_RUN at handback (R281): a job whose code has not executed END with LAST has run out of its budgets (R222). -/
def kPatternRun : Kernel := fun s id j =>
  match s.trd.pages.find? (fun x => decide (x.1 = id)), s.patFind j.fn (p16 j.par 0) with
  | some x, some pat =>
    if !j.ended then (s, status 0x00B0)
    else
      let r := patternResult { s.getPvu x.2.1 with jobPages := x.2.2.2.2 } pat.container
      (if r.status = 0x0050 then s.poisonEvent x.2.1 else s, r)
  | _, _ => (s, status 0x00B1)

/-- PATTERN_RUN (R278 to R282): the result is there once the code has ended or failed; until then the job waits. -/
def execPatternRun (job : Nat) (s : State) : Host.Outcome State Fault Refusal :=
  let j := s.getJob job
  if j.ended || j.failed.isSome then s.runJob 0x0900 job kPatternRun else .next s

end Sys2Proof.Machine
end

