-- ==== Sys2Proof/Machine/Treadle.lean ====
section
/-! DEFINITION. Treadle's registers and the events of its time base: period and source (R158 to R164), the Damper stage
(R183, R184), the histogram (R188) and the TRD registers (R186 to R190). -/

namespace Sys2Proof.Machine

/-- A write of `TRD_TICKCFG` is refused in whole (R158). -/
def tickCfgBad (v : W32) : Bool := decide (bits v 7 0 < 10) || decide (160 < bits v 7 0) || decide (2 ≤ bits v 9 8)

/-- The period that a write asks for: that of the write, but for the period in force, which asks for none while CHANGING = 0 (R160). -/
def Treadle.asks (t : Treadle) (v : W32) : Bool := t.changing || decide (bits v 7 0 ≠ t.period)

/-- TRD_TICKCFG (R158, R160): the period takes effect through R159, the source at the next edge. A write of the period in force leaves an
earlier request of another one standing. -/
def execTrdTickcfg (val : W32) (s : State) : Host.Outcome State Fault Refusal :=
  .next (s.onPage 3 (fun t =>
    if (t.getBlk 3).lock then t
    else if tickCfgBad val then
      (({ t with trd := { t.trd with cfgErr := true } } : State).cause 3 3).raise { src := 0x0300 }
    else { t with trd := { t.trd with
      cfg := if t.trd.asks val then val &&& 0x3FF else (val &&& 0x300) ||| (t.trd.cfg &&& 0xFF), request := t.trd.request || t.trd.asks val } }))

/-- Everything booked has been released (R159). -/
def State.planDrained (s : State) : Bool := s.trd.plan.all (fun b => decide (b.tick < s.trd.edge) && decide (s.planEdge b ≤ s.trd.edge))

/-- PERIOD_APPLIED (R159 step 3): the edge that follows is the first of the new period; the tick in progress keeps the old one. -/
def execPeriodApplied (s : State) : Host.Outcome State Fault Refusal :=
  if !s.running || !s.trd.changing || !s.planDrained then .next s
  else .next (({ s with trd := { s.trd with
    period := bits s.trd.cfg 7 0, lastPeriod := some s.trd.period, changing := false, request := false, plan := [], goodIntervals := 0 } } : State).cause 3 2)

/-- The class and width fields of `TRD_HIST_CFG`. -/
def State.histCfgWrite (s : State) (v : W32) : State := { s with trd := { s.trd with histCfg := v &&& 0x3FF } }

/-- HIST_CLEAR (R188). -/
def execHistClear (val : W32) (s : State) : Host.Outcome State Fault Refusal :=
  .next (s.onPage 3 (fun t =>
    let u := t.histCfgWrite val
    if bit val 31 then { u with trd := { u.trd with hist := Vector.replicate 24 0 } } else u))

/-- The measured interval lies within a cycle of the period (R161); a tick-clock cycle is 40 ns. -/
def goodInterval (period interval : Nat) : Bool := decide (25 * period ≤ interval + 1) && decide (interval ≤ 25 * period + 1)

/-- The correction of one tick, in tick-clock cycles (R161): from lock on, one cycle toward a phase error of zero. -/
def Treadle.correction (t : Treadle) : Int :=
  if t.source = 1 ∧ 8 ≤ t.goodIntervals then (if 0 < t.phase then 1 else if t.phase < 0 then -1 else 0) else 0

/-- The phase error at a rising edge of TICK_IN (R161, R187): while edges follow each other at the period, it moves by what the interval
differs from the corrected tick; at any other edge the internal edge it is measured against is another one, and `phase` is what is
measured. -/
def Treadle.phaseAt (t : Treadle) (interval : Nat) (phase : Int) : Int :=
  if t.tickInDue ∧ goodInterval t.period interval then t.phase + (interval : Int) - 25 * (t.period : Int) - t.correction else phase

/-- TICK_IN_EDGE (R161): a rising edge of TICK_IN is measured. -/
def execTickInEdge (interval : Nat) (phase : Int) (s : State) : Host.Outcome State Fault Refusal :=
  if !s.running then .next s
  else
    let t := s.trd
    let good := if goodInterval t.period interval then t.goodIntervals + 1 else 0
    let ph := t.phaseAt interval phase
    let lock := t.locked || (decide (t.source = 1) && decide (8 ≤ good) && decide (ph.natAbs ≤ 1))
    let s1 : State := { s with trd := { t with
      tickInSeen := true, tickInDue := true, tickInAge := 0, phase := ph, goodIntervals := if t.source = 1 then good else 0, locked := lock } }
    .next (if lock && !t.locked then s1.cause 3 1 else s1)

/-- TICKIN_LOST (R163): no edge has followed the last one in time; with another source selected nothing follows TICK_IN, and nothing is
lost. -/
def execTickinLost (s : State) : Host.Outcome State Fault Refusal :=
  let t := s.trd
  if !s.running ∨ t.source ≠ 1 ∨ !t.tickInDue then .next s
  else .next ((({ s with trd := { t with tickInDue := false, locked := false, goodIntervals := 0 } } : State).cause 3 0).raise { src := 0x0301 })

/-- The Damper stage at a junction temperature in eighths of a degree, with the hysteresis of R183. -/
def damperStage (old : Nat) (tj : Int) : Nat :=
  let up := if 150 * 8 ≤ tj then 3 else if 140 * 8 ≤ tj then 2 else if 125 * 8 ≤ tj then 1 else 0
  let down := if tj < 120 * 8 then 0 else if tj < 135 * 8 then 1 else if tj < 145 * 8 then 2 else 3
  if old < up then up else min old down

/-- DAMPER_STAGE_CHANGE (R183, R184, R586): the junction temperature has changed; a changed clock or stage 3 discards
campaigns (R488). -/
def execDamperStageChange (tj : Int) (s : State) : Host.Outcome State Fault Refusal :=
  let old := s.pcr.stage
  let n := damperStage old tj
  let s1 : State := { s with pcr := { s.pcr with tj := tj, stage := n }, trd := { s.trd with stage := n } }
  let s2 := if n = old then s1 else s1.cause 3 4
  let s3 := if n ≠ old ∧ n = 3 then s2.discardAll else s2
  let s4 := if (n = 1 ∨ n = 2) ∧ n ≠ old then s3.raise { src := 0x7100 } else s3
  let s5 := if n = 3 ∧ n ≠ old then s4.raise { src := 0x7101 } else s4
  .next (if 155 * 8 ≤ tj ∧ s.pcr.powered then s5.raise { src := 0x7102 } else s5)

/-- PVU_DERATE (R184): no slot from this edge on holds more than the usable cycles at 1.2 GHz. -/
def execPvuDerate (pvu : Nat) (s : State) : Host.Outcome State Fault Refusal :=
  let low := s.trd.period * 1200 - 1000
  let fits := s.trd.plan.all (fun b => decide (b.eng ≠ pvu) || decide (b.tick < s.trd.edge) || decide (loadOf (s.slot pvu b.tick) ≤ low))
  if decide (s.pvus ≤ pvu) || decide (s.pcr.stage = 0) || (s.getPvu pvu).derated || s.retired (0x10 + pvu) || !fits then .next s
  else .next ((s.setPvu pvu { s.getPvu pvu with derated := true }).discard pvu)

/-- At the edge after the return to stage 0 every PVU runs at 1.6 GHz again (R184). -/
def State.fullClock (s : State) : State :=
  if s.pcr.stage ≠ 0 then s
  else (List.range s.pvus).foldl (fun t e =>
    if (t.getPvu e).derated then (t.setPvu e { t.getPvu e with derated := false }).discard e else t) s

/-- State of an engine in `TRD_PVU_OCCn` and `TRD_BNE_OCCn` (R189). -/
def State.occState (s : State) (code : Nat) : Nat :=
  if !s.present code then 3 else if s.retired code then 2
  else if decide (code < 0x20) && (s.getPvu (code - 0x10)).derated then 1 else 0

/-- Reserved positions per frame on an engine (R181). -/
def State.reservedOn (s : State) (e : Nat) : Nat := (s.funcs.map (fun p => (p.2.reserved.filter (fun r => decide (r.1 = e))).length)).sum

/-- Booked run time of a BNE after the current edge, in whole ticks (R189). -/
def State.backlog (s : State) (n : Nat) : Nat :=
  let at_ := s.trd.edge * s.bneTick
  ceilDiv ((s.bneRuns n).foldl (fun k b => k + (b.start + 1000 + b.cycles - max at_ b.start)) 0) (max 1 s.bneTick)

/-- `TRD_ADM_STATUS`. -/
def State.admStatus (s : State) : W32 := BitVec.ofNat 32 ((if s.admStop = 0 then 0 else 2 ^ 31) + s.admStop)

/-- The TRD registers (R186 to R189). -/
def State.readTrd (s : State) (off : Nat) : W32 :=
  let t := s.trd
  let a2 := t.edge + 2
  match off with
  | 0x100 => t.cfg
  | 0x104 => BitVec.ofNat 32 (b2n t.changing * 2 ^ 31 + b2n t.locked * 2 ^ 30 + b2n (t.tickInSeen && decide (t.tickInAge ≤ 2)) * 2 ^ 29
      + b2n t.cfgErr * 2 ^ 28 + t.period)
  | 0x108 => BitVec.ofNat 32 t.edge
  | 0x10C => BitVec.ofNat 32 (t.edge / 2 ^ 32)
  | 0x110 => (BitVec.ofInt 16 t.phase).setWidth 32
  | 0x114 => KV.getD s.regs (3 * 65536 + 0x114) 0
  | 0x118 => BitVec.ofNat 32 s.usable
  | 0x11C => BitVec.ofNat 32 t.stage
  | 0x120 => KV.getD s.regs (3 * 65536 + 0x120) 1
  | 0x124 => s.admStatus
  | 0x128 => BitVec.ofNat 32 t.admitted
  | 0x12C => BitVec.ofNat 32 t.refused
  | 0x130 => BitVec.ofNat 32 t.late
  | 0x134 => BitVec.ofNat 32 t.retry
  | 0x138 => BitVec.ofNat 32 (s.jobs.filter (fun p => decide (p.2.phase = .staged) && decide (p.2.q ≠ 64) && p.2.present.isSome
      && (s.deadlineOf p.2).isNone)).length
  | 0x13C => BitVec.ofNat 32 (t.plan.foldl (fun m b => max m (s.planEdge b - 1 - t.edge)) 0)
  | 0x160 => 81
  | 0x164 => 98
  | 0x168 => 72
  | 0x16C => t.histCfg
  | _ =>
    if 0x140 ≤ off ∧ off < 0x150 then BitVec.ofNat 32 (vget t.classAdm ((off - 0x140) / 4) 0)
    else if 0x150 ≤ off ∧ off < 0x160 then BitVec.ofNat 32 (vget t.classRef ((off - 0x150) / 4) 0)
    else if 0x170 ≤ off ∧ off < 0x1D0 then BitVec.ofNat 32 (vget t.hist ((off - 0x170) / 4) 0)
    else if 0x200 ≤ off ∧ off < 0x240 then
      let n := (off - 0x200) / 4
      BitVec.ofNat 32 (s.occState (0x10 + n) * 2 ^ 30 + loadOf (s.slot n a2))
    else if 0x240 ≤ off ∧ off < 0x280 then BitVec.ofNat 32 (if s.present (0x10 + (off - 0x240) / 4) then s.reservedOn ((off - 0x240) / 4) else 0)
    else if 0x280 ≤ off ∧ off < 0x2A0 then
      let n := (off - 0x280) / 4
      BitVec.ofNat 32 (s.occState (0x20 + n) * 2 ^ 30 + min 65535 (s.backlog n))
    else if 0x2A0 ≤ off ∧ off < 0x2C0 then
      BitVec.ofNat 32 (if s.present (0x20 + (off - 0x2A0) / 4) then s.reservedOn (16 + (off - 0x2A0) / 4) else 0)
    else if 0x2C0 ≤ off ∧ off < 0x2D0 then BitVec.ofNat 32 (loadOf (s.slot (24 + (off - 0x2C0) / 4) a2) / 4)
    else if 0x2D0 ≤ off ∧ off < 0x310 then
      let n := (off - 0x2D0) / 4
      let slots := (t.plan.filter (fun b => decide (b.eng = n) && decide (t.edge ≤ b.tick)
        && (match b.kind with | .signSlot _ _ _ => true | _ => false))).length
      let chains := ((t.signQ.filter (fun q => decide (q.pvu = n))).map (fun q => q.chains.length)).sum
      BitVec.ofNat 32 (min 65535 slots * 65536 + min 65535 chains)
    else 0

/-- Writes of TRD registers without a row of their own. -/
def State.writeTrd (s : State) (off : Nat) (v : W32) : State :=
  if off = 0x104 then (if bit v 28 then { s with trd := { s.trd with cfgErr := false } } else s)
  else if off = 0x114 then { s with regs := KV.set s.regs (3 * 65536 + 0x114) (v &&& 1) }
  else if off = 0x120 then (if (s.getBlk 3).lock then s else { s with regs := KV.set s.regs (3 * 65536 + 0x120) (v &&& 1) })
  else if off = 0x16C then s.histCfgWrite v
  else s

end Sys2Proof.Machine
end

