-- ==== Sys2Proof/Machine/Engines.lean ====
section
/-! DEFINITION. What the engines share outside their instructions: self-tests (R234, R235), clock gating (R31), and the
PVU and HSA registers (R233, R234, R327, R328). -/

namespace Sys2Proof.Machine

/-- Where a block has its test registers, the tests it lists, its TEST_DONE cause and its SELFTEST source. -/
structure TestInfo where
  off   : Nat
  tests : List Nat
  cause : Option Nat
  src   : Option Nat
  deriving DecidableEq, Repr

/-- The blocks with a `_TEST_CTRL` register (R234, R328, R403 and the register tables of the blocks). -/
def testInfo (k : Nat) : Option TestInfo :=
  if 0x10 ≤ k ∧ k < 0x20 then some { off := 0x130, tests := [1, 2, 3, 4, 5, 15], cause := some 2, src := some (k * 256 + 4) }
  else if 0x20 ≤ k ∧ k < 0x28 then some { off := 0x128, tests := [1, 2, 3, 4, 5, 15], cause := some 3, src := some (k * 256 + 4) }
  else if k = 0x28 then some { off := 0x114, tests := [1, 2, 3, 15], cause := some 0, src := some 0x2801 }
  else if k = 0x30 then some { off := 0x1BC, tests := [1, 2, 3, 15], cause := none, src := some 0x3001 }
  else if k = 0x31 then some { off := 0x148, tests := [1, 2, 15], cause := some 5, src := none }
  else if k = 0x32 then some { off := 0x138, tests := [1, 2, 3, 15], cause := some 3, src := some 0x3204 }
  else if k = 0x40 then some { off := 0x138, tests := [1, 2, 15], cause := some 4, src := some 0x400B }
  else if k = 0x41 then some { off := 0x118, tests := [1, 2, 15], cause := some 3, src := some 0x4106 }
  else if k = 0x51 then some { off := 0x128, tests := [1, 2, 15], cause := some 2, src := some 0x5103 }
  else if k = 0x52 then some { off := 0x12C, tests := [1, 2, 15], cause := none, src := none }
  else if k = 0x60 then some { off := 0x138, tests := [1, 2, 15], cause := some 4, src := some 0x6006 }
  else if k = 0x70 then some { off := 0x148, tests := [1, 2, 15], cause := some 2, src := some 0x7000 }
  else if k = 0x72 then some { off := 0x118, tests := [1, 2, 15], cause := some 4, src := some 0x7204 }
  else none

def State.setTest (s : State) (k : Nat) (t : TestUnit) : State := { s with tests := KV.set s.tests k t }

/-- STATE reads IDLE (R235): an engine is clock-gated; any block has no test running. -/
def State.testIdle (s : State) (k : Nat) : Bool :=
  !(s.getTest k).busy
    && (if 0x10 ≤ k ∧ k < 0x20 then !(s.getPvu (k - 0x10)).active
        else if 0x20 ≤ k ∧ k < 0x28 then !(s.getBne (k - 0x20)).active && decide ((s.getBne (k - 0x20)).phase = .idle)
        else if k = 0x28 then !s.hsa.active else true)

/-- The TEST field of a write: an unlisted value is refused, the field being under LOCK (R234). -/
def State.testField (s : State) (k : Nat) (i : TestInfo) (v : W32) : State :=
  if !(s.getBlk k).lock && i.tests.contains (bits v 3 0) then s.setTest k { s.getTest k with sel := bits v 3 0 } else s

/-- A PVU loses its block sets in the tests that overwrite the local store (R315). -/
def State.testClears (s : State) (k n : Nat) : State :=
  if 0x10 ≤ k ∧ k < 0x20 ∧ (n = 2 ∨ n = 15) then
    { s with trd := { s.trd with sets := s.trd.sets.filter (fun x => decide (x.1 ≠ k - 0x10)) } } else s

/-- SELFTEST_START (R235). -/
def execSelftestStart (blk : Nat) (val : W32) (s : State) : Host.Outcome State Fault Refusal :=
  match testInfo blk with
  | none => .next s
  | some i => .next (s.onPage blk (fun t =>
      let u := t.testField blk i val
      let x := u.getTest blk
      if bit val 31 && t.maintenance && t.testIdle blk && i.tests.contains (bits val 3 0) && i.tests.contains x.sel then
        (u.setTest blk { x with busy := true, test := x.sel }).testClears blk x.sel
      else u))

/-- A failed test fires its source; for the Hash Array one event for each failing core (R235, R585). -/
def State.testFailed (s : State) (k : Nat) (cores : List Nat) : State :=
  match (testInfo k).bind (·.src) with
  | none => s
  | some src => if k = 0x28 then s.raiseAll (cores.map (fun c => ({ src := src, detail := c } : Event))) else s.raise { src := src }

/-- The result of a test stands in TEST_STAT (R234). -/
def State.testResult (s : State) (k : Nat) (pass : Bool) (cores : List Nat) : State :=
  let s1 := s.setTest k { s.getTest k with busy := false, done := true, pass := pass }
  let s2 := match (testInfo k).bind (·.cause) with | some c => s1.cause k c | none => s1
  if pass then s2 else s2.testFailed k cores

/-- SELFTEST_DONE (R235). -/
def execSelftestDone (blk : Nat) (pass : Bool) (cores : List Nat) (s : State) : Host.Outcome State Fault Refusal :=
  .next (if (s.getTest blk).busy && !s.pcr.frozen then s.testResult blk pass cores else s)

/-- HRT_RESTORE (R591, R600): only in MAINTENANCE, for a retired PVU or BNE; MGC runs TEST = 15 on it, which shows as every self-test does
(R234, R235). `pass` is that test's result. -/
def execHrtRestore (val : W32) (pass : Bool) (s : State) : Host.Outcome State Fault Refusal :=
  let code := bits val 7 0
  .next (if s.pageWritable 0x50 && s.maintenance && s.retired code then
    (let t := (s.setTest code { s.getTest code with test := 15 }).testResult code pass []
      if pass then t.returnEngine code else t) else s)

/-- ENGINE_CLOCK_GATE (R31): 50 ticks in a row without a booked slot. -/
def execEngineClockGate (code : Nat) (s : State) : Host.Outcome State Fault Refusal :=
  if 0x10 ≤ code ∧ code < 0x20 then
    let p := s.getPvu (code - 0x10)
    .next (if p.active && decide (50 ≤ p.idleTicks) then s.setPvu (code - 0x10) { p with active := false } else s)
  else if 0x20 ≤ code ∧ code < 0x28 then
    let b := s.getBne (code - 0x20)
    .next (if b.active && decide (50 ≤ b.idleTicks) then s.setBne (code - 0x20) { b with active := false } else s)
  else if code = 0x28 then
    .next (if s.hsa.active && decide (50 ≤ s.hsa.idleTicks) then { s with hsa := { s.hsa with active := false } } else s)
  else .next s

/-- `TEST_CTRL` and `TEST_STAT` (R234). -/
def State.readTest (s : State) (k : Nat) (off : Nat) : Option W32 :=
  match testInfo k with
  | none => none
  | some i =>
    let t := s.getTest k
    if off = i.off then some (BitVec.ofNat 32 t.sel)
    else if off = i.off + 4 then some (BitVec.ofNat 32 (b2n t.busy * 2 ^ 31 + b2n t.done * 2 ^ 30 + b2n t.pass * 2 ^ 29 + t.test))
    else none

/-- `KUx_STAT` at the cycle the PVU has reached (R202, R234). -/
def Pvu.kuStat (p : Pvu) (e u : Nat) : W32 :=
  let (k, _, _) := kuAdvance e p.cyc 64 p.mrgUsed (p.getKu u) 0
  BitVec.ofNat 32 ((match k.phase with | .idle => 0 | .absorb => 1 | .squeeze => 2) * 2 ^ 30 + k.order * 2 ^ 28 + k.fill % 8192)

/-- Matrix-cache blocks of a PVU in use. -/
def State.cacheBlocks (s : State) (e : Nat) : Nat := s.trd.sets.foldl (fun n x => if x.1 = e then n + x.2.2.2.1 else n) 0
/-- Job pages of a PVU allocated in this tick. -/
def State.pagesUsed (s : State) (e : Nat) : Nat :=
  s.trd.pages.foldl (fun n x => if (s.getPvu e).pin.isNone ∧ x.2.1 = e ∧ x.2.2.1 ≤ s.trd.edge ∧ s.trd.edge ≤ x.2.2.2.1 then n + x.2.2.2.2.length else n) 0

/-- The PVU registers but for the test and sequencer registers (R233, R234). -/
def State.readPvu (s : State) (n off : Nat) : W32 :=
  let p := s.getPvu n
  match off with
  | 0x100 => BitVec.ofNat 32 ((if (s.getTest (0x10 + n)).busy then 2 else if p.active then 1 else 0) * 2 ^ 28 + b2n p.pin.isSome * 2 ^ 27
      + (if p.derated then 1200 else 1600))
  | 0x104 => BitVec.ofNat 32 (s.minOrder n * 256 + s.cmOf n)
  | 0x108 => BitVec.ofNat 32 (if p.phase = .dummy then 0 else p.segMode * 2 ^ 30 + (p.slotNext - 1) % 64 * 2 ^ 18 + p.budget % 2 ^ 18)
  | 0x10C => BitVec.ofNat 32 (s.trd.edge % 65536 * 65536 + min 63 (s.slot n s.trd.edge).length)
  | 0x110 => p.excLast
  | 0x114 => p.excPc
  | 0x118 => BitVec.ofNat 32 (b2n p.mrgStale * 2 ^ 31 + min 255 p.mrgMissed)
  | 0x11C => p.kuStat n 0
  | 0x120 => p.kuStat n 1
  | 0x124 => BitVec.ofNat 32 (s.cacheBlocks n * 65536 + min 255 (s.pagesUsed n))
  | 0x128 => (match p.pin with | some (_, len) => BitVec.ofNat 32 (2 ^ 31 + len) | none => 0)
  | 0x12C => (match p.pin with | some (h, _) => h | none => 0)
  | _ =>
    if 0x140 ≤ off ∧ off < 0x1B8 then
      let c := vget p.cnt ((off - 0x140) / 8) 0
      BitVec.ofNat 32 (if off % 8 = 0 then c else c / 2 ^ 32)
    else 0

/-- Working cores of the Hash Array. -/
def State.coresActive (s : State) : Nat := ((List.range 64).filter s.coreActive).length

/-- The HSA registers but for the test registers (R327, R328). -/
def State.readHsa (s : State) (off : Nat) : W32 :=
  let h := s.hsa
  let wide (v : Vector Nat 4) (base : Nat) : W32 :=
    let c := vget v ((off - base) / 8) 0
    BitVec.ofNat 32 (if off % 8 = 0 then c else c / 2 ^ 32)
  let mask (lo : Nat) : W32 := BitVec.ofNat 32 ((List.range 32).foldl (fun m i => if s.coreActive (lo + i) then m + 2 ^ i else m) 0)
  match off with
  | 0x100 => BitVec.ofNat 32 ((if (s.getTest 0x28).busy then 2 else if h.active then 1 else 0) * 2 ^ 28
      + (s.groups.filter (fun g => decide (s.groupCap g ≠ 0))).foldl (fun m g => m + 2 ^ g) 0)
  | 0x104 => BitVec.ofNat 32 (s.cores * 256 + s.coresActive)
  | 0x108 => mask 0
  | 0x10C => mask 32
  | 0x110 => BitVec.ofNat 32 (400 * s.trd.period)
  | 0x11C => BitVec.ofNat 32 (min 65535 s.trd.builds.length)
  | _ =>
    if 0x120 ≤ off ∧ off < 0x140 then wide h.eq 0x120
    else if 0x140 ≤ off ∧ off < 0x160 then wide h.dummy 0x140
    else if 0x160 ≤ off ∧ off < 0x180 then wide h.jobs 0x160
    else if 0x180 ≤ off ∧ off < 0x1C0 then
      BitVec.ofNat 32 ((List.range 4).foldl (fun m j => m + min 255 (vget h.flt (off - 0x180 + j) 0) * 256 ^ j) 0)
    else 0

end Sys2Proof.Machine
end

