-- ==== Sys2Proof/Machine/Pattern.lean ====
section
/-! DEFINITION. Pattern containers (R274 to R277): the instruction words of a container (R238 to R240), the checks of
`PATTERN_LOAD`, and what the load does. -/

namespace Sys2Proof.Machine

/-- Bits hi to lo of an instruction word. -/
def bits64 (w : W64) (hi lo : Nat) : Nat := w.toNat / 2 ^ lo % 2 ^ (hi + 1 - lo)

/-- The CLASS, the FUNC and the other fields of an instruction word (R238). -/
def pvuFields (w : W64) : Nat × Nat × PvuWord :=
  (bits64 w 63 60, bits64 w 59 52, {
    pvu := 0, w := BitVec.ofNat 2 (bits64 w 51 50), pg := BitVec.ofNat 3 (bits64 w 49 47), mc := BitVec.ofNat 2 (bits64 w 46 45),
    rd := BitVec.ofNat 5 (bits64 w 44 40), ra := BitVec.ofNat 5 (bits64 w 39 35), rb := BitVec.ofNat 5 (bits64 w 34 30),
    rc := BitVec.ofNat 5 (bits64 w 29 25), imm := BitVec.ofNat 25 (bits64 w 24 0) })

/-- The instructions by class (R247, R251 to R273). -/
def ctrlOps : List PvuOp :=
  [opNop, opEnd, opB, opBc, opLoop, opCall, opRet, opModset, opKload, opSysrd, opRdstat, opResume, opSkip, opFail, opAccept, opReject]
def scalarOps : List PvuOp :=
  [opAddX, opSubX, opAndX, opOrX, opXorX, opShlX, opShrX, opSarX, opMulX, opMulhuX, opAddiX, opLiX, opLisX, opScmp, opScmpi, opXmmul, opXmadd]
def shortOps : List PvuOp := [opSmov, opSxor, opSand, opSor, opSadd, opSins, opSext, opSbcast]
def longOps : List PvuOp :=
  [opVmov, opVadd, opVsub, opVand, opVor, opVxor, opVnot, opVshli, opVsrli, opVbcast, opVmadd, opVmsub, opVmneg, opVmmul,
   opVmmulx, opVcmpeq, opVcmpltu, opVsel, opVperm, opVext, opVins, opVred, opPand, opPor, opPxor, opPnot, opPfirst, opPcnt]
def memOps : List PvuOp :=
  [opVld, opVst, opVlds, opVsts, opVgather, opVscatter, opVldff, opVgatherff, opSld, opSst, opXld, opXst, opVldk, opVldkff, opSldk]
def polyOps : List PvuOp :=
  [opNtt, opIntt, opPwmul, opPwmac, opVcompress, opVdecompress, opVpack, opVunpack, opVp2r, opVdecomp, opVmkhint, opVusehint, opVinf, opVcenter]
def keccakOps : List PvuOp :=
  [opKinit, opKabss, opKabsl, opKabsx, opKfinal, opSamplentt, opSamplerej, opSampleeta, opSamplecbd, opSampleball]
def gadgetOps : List PvuOp :=
  [opMshare, opMrefresh, opMa2b, opMb2a, opMand, opMcomp, opMdecomp, opMnorm, opMeq, opMsel, opUnmask]
def allOps : List PvuOp := ctrlOps ++ scalarOps ++ shortOps ++ longOps ++ memOps ++ polyOps ++ keccakOps ++ gadgetOps

/-- Register states in which no check of R240 that depends on the state of the PVU fails: a word is legal in itself when it
is legal in one of them. -/
def openStates : List Pvu :=
  [KuPhase.absorb, .squeeze].flatMap (fun ph => [256, 512, 1024].flatMap (fun n => [false, true].flatMap (fun inc =>
    [3329, 8380417].map (fun q =>
      { ku := Vector.replicate 2 { phase := ph }, m := Vector.replicate 4 { valid := true, q := q, n := n, incomplete := inc },
        retStack := [0], phase := .handler, keyShares := [[]] }))))

/-- Check 5 of R275: the word is an instruction with its unused fields zero, and not vendor-only. -/
def codeWordOk (w : W64) : Bool :=
  let (c, f, i) := pvuFields w
  match allOps.find? (fun op => decide (op.cls = c) && decide (op.func = f)) with
  | none => false
  | some op => !op.vendor && op.use.fits i && openStates.any (fun p => op.ok p i)

/-- Check 6 of R275 on the word at an address: a branch target lies below NCODE. -/
def targetOk (ncode : Nat) (addr : Nat) (w : W64) : Bool :=
  let (c, f, i) := pvuFields w
  if c = 0 ∧ 2 ≤ f ∧ f ≤ 5 then decide (0 ≤ (addr : Int) + i.imm.toInt) && decide ((addr : Int) + i.imm.toInt < ncode) else true

/-- Header fields of a container (R274). -/
def cNseg (c : List Byte) : Nat := field c 6 1
def cPages (c : List Byte) : Nat := field c 7 1
def cNcode (c : List Byte) : Nat := field c 8 2
def cNdata (c : List Byte) : Nat := field c 12 4
def cInMax (c : List Byte) : Nat := field c 20 4
def cKeyed (c : List Byte) : Bool := decide (field c 5 1 % 2 = 1)
def cBudget (c : List Byte) (i k : Nat) : Nat := field c (64 + 24 * i + 4 + 4 * k) 4
/-- The code words. -/
def cCode (c : List Byte) : List W64 :=
  (List.range (cNcode c)).map (fun k => BitVec.ofNat 64 (field c (64 + 24 * cNseg c + 8 * k) 8))

/-- Check 1 of R275. -/
def containerShape (c : List Byte) : Bool :=
  decide (64 ≤ c.length) && decide (c.take 4 = [0x4E, 0x52, 0x50, 0x54]) && decide (field c 4 1 = 1)
    && decide (64 + 24 * cNseg c + 8 * cNcode c + cNdata c = c.length)

/-- Check 2 of R275. -/
def containerFields (c : List Byte) : Bool :=
  decide (field c 5 1 < 4) && (decide (field c 5 1 / 2 % 2 = 0) || cKeyed c) && within (cNseg c) 1 16 && within (cPages c) 1 128
    && within (cNcode c) 1 8192 && (decide (field c 10 2 < cNcode c) || decide (field c 10 2 = 0xFFFF)) && decide (cNdata c ≤ 16384)
    && within (cInMax c) (field c 16 4) 4194304 && decide (field c 28 4 = 0)
    && (List.range (cNseg c)).all (fun i => decide (field c (64 + 24 * i + 2) 2 = 0) && decide (field c (64 + 24 * i + 20) 4 = 0))

/-- Check 3 of R275. -/
def containerPages (c : List Byte) : Bool :=
  decide (64 + ceilDiv (cNdata c) 64 * 64 + ceilDiv (cInMax c) 64 * 64 + field c 24 4 ≤ cPages c * 4096)

/-- Check 4 of R275. -/
def budgetsOk (c : List Byte) : Bool :=
  let n := cNseg c
  if cKeyed c then
    let has (i k : Nat) : Bool := decide (cBudget c i k ≠ 0)
    (List.range n).all (fun i => decide (cBudget c i 0 = 0)
        && [1, 2, 3].all (fun k => (!has i k || within (cBudget c i k) 17 255000) && (has i k == has 0 k)))
      && [1, 2, 3].any (has 0)
  else (List.range n).all (fun i => within (cBudget c i 0) 17 255000 && [1, 2, 3].all (fun k => decide (cBudget c i k = 0)))

/-- Checks 5 and 6 of R275. -/
def containerCode (c : List Byte) : Bool :=
  let code := cCode c
  code.all codeWordOk
    && (List.range (cNseg c)).all (fun i => decide (field c (64 + 24 * i) 2 < cNcode c))
    && (decide (field c 10 2 < cNcode c) || decide (field c 10 2 = 0xFFFF))
    && (code.zipIdx).all (fun x => targetOk (cNcode c) x.2 x.1)

/-- Check 7 of R275. -/
def containerDigest (c : List Byte) : Bool := decide (sha256 (patchBytes c 32 (zeros 32)) = slice c 32 32)

/-- The checks of R275. -/
def containerOk (c : List Byte) : Bool :=
  containerShape c && containerFields c && containerPages c && budgetsOk c && containerCode c && containerDigest c

/-- Loaded patterns of a function. -/
def State.fnPatterns (s : State) (fn : Nat) : List Pattern := (s.patterns.filter (fun p => decide (p.2.fn = fn))).map (·.2)

/-- Words of the pattern area in use (R276). -/
def State.patternWords (s : State) : Nat := s.patterns.foldl (fun n p => n + cNcode p.2.container) 0

/-- The first number from a start on that a list does not hold. -/
def freshId (used : List Nat) (size : Nat) : Nat → Nat → Nat
  | 0, start => start % size
  | fuel + 1, start => if used.contains (start % size) then freshId used size fuel (start + 1) else start % size

/-- What `PATTERN_LOAD` comes to (R275, R276): the pattern ID, or status and reason. -/
def State.loadPattern (s : State) (fn : Nat) (c : List Byte) : State × Result :=
  if !containerOk c then (s, { status := 0x0030, detail := 0x0D })
  else
    let digest := slice c 32 32
    let mine := s.fnPatterns fn
    match mine.find? (fun p => decide (p.digest = digest)) with
    | some p => (s, { detail := BitVec.ofNat 64 p.id })
    | none =>
      if 16 ≤ mine.length ∨ 32768 < s.patternWords + cNcode c then (s, { status := 0x0014, detail := 0x09 })
      else
        let id := freshId (mine.map (·.id)) 65536 17 (Config.patternId s.nextPattern)
        ({ s with
            patterns := KV.set s.patterns s.nextPattern { fn := fn, id := id, container := c, digest := digest, unloading := none },
            nextPattern := s.nextPattern + 1 }, { detail := BitVec.ofNat 64 id })

end Sys2Proof.Machine
end

