-- ==== Sys2Proof/Machine/Bank.lean ====
section
/-! DEFINITION. The BANK freeze (R680 to R682, R687): its three requests and what entering does. -/

namespace Sys2Proof.Machine

/-- A power-warning commit is under way: it waits for the program that had started (R349, R680). -/
def State.committing (s : State) : Bool := s.kst.commitDue

/-- BANK is entered (R680): everything stops as it stands, the counters freeze, and campaigns are discarded (R488). -/
def State.enterBank (s : State) (source : Nat) : State :=
  { s.discardAll with
    pcr := { s.pcr with frozen := true, bankSource := source, bankTick := s.trd.edge % 65536, bankPending := 0 }
    pmu := { s.pmu with frozen := true } }

/-- A request for BANK: without effect in BANK, and held until a commit has ended (R680). -/
def State.requestBank (s : State) (source : Nat) : State :=
  if s.pcr.frozen ∨ !s.pcr.powered then s
  else if s.committing then
    (if s.pcr.bankPending = 0 then { s with pcr := { s.pcr with bankPending := source } } else s)
  else s.enterBank source

/-- A request that waited for the commit takes effect. -/
def State.bankAfterCommit (s : State) : State :=
  if s.pcr.bankPending = 0 ∨ s.committing then s else s.enterBank s.pcr.bankPending

/-- BANK_N (R680): low for 10 µs while PIN_EN = 1. -/
def execBankN (lowUs : Nat) (s : State) : Host.Outcome State Fault Refusal :=
  .next (if 10 ≤ lowUs ∧ s.pcr.bankPinEn then s.requestBank 1 else s)

/-- BANK_CTRL_ENTER (R680, R687): a write of `PCR_BANK_CTRL.ENTER`. -/
def execBankCtrlEnter (s : State) : Host.Outcome State Fault Refusal := .next (s.onPage 0x71 (fun t => t.requestBank 2))

/-- BANK_ENTER (R680, R683): the test-port instruction, while TAP_EN = 1. -/
def execBankEnter (s : State) : Host.Outcome State Fault Refusal :=
  .next (if s.pcr.powered then
    (let s1 : State := { s with pcr := { s.pcr with tapIr := 0x08 } }
     if s.pcr.bankTapEn then s1.requestBank 3 else s1)
    else s)

end Sys2Proof.Machine
end

