-- ==== Sys2Proof/Machine/KeyStore.lean ====
section
/-! DEFINITION. The key management commands (R451 to R460), deletion (R461, R462), the journal (R465 to R468) and the KST
registers (R471, R472). -/

namespace Sys2Proof.Machine

/-- Checks of a registered public encoding (R291, R303, R337, R355, R388, R457): 0, `INVALID_ENCODING` or
`POINT_NOT_ON_CURVE`. -/
def encodingStatus (typ pset : Nat) (pk : List Byte) : Nat :=
  let enc (ok : Bool) : Nat := if ok then 0 else 0x0030
  let point (ok : Bool) : Nat := if ok then 0 else 0x0031
  match typ with
  | 1 => enc (mlkemKeyOk pset pk)
  | 3 => enc (fndsaKeyOk pset pk)
  | 5 => enc (hssKeyOk pk)
  | 6 => enc (xmssKeyOk (decide (pset = 2)) pk)
  | 7 => enc (hqcKeyOk pset pk)
  | 9 => enc (rsaKeyOk pset pk)
  | 10 => point (ecPointOk pset pk)
  | 11 => point (edKeyOk pset pk)
  | 13 => enc (mlkemKeyOk 2 pk)
  | 14 => point (ecPointOk (compCurve pset) (pk.drop ((pubLen 2 (compDsa pset)).getD 0)))
  | _ => 0

/-- Length in bytes of a symmetric key (R460). -/
def symLen (typ pset out : Nat) : Nat := if typ = 16 then phLen pset else if typ = 17 then byPset [16, 24, 32] pset else out

/-- The payload of a KEY_PUT: handle, type, PSET, order, usage, then the key material, which the link wraps (R656, R661). -/
def keyPutBytes (h : W32) (typ pset order : Nat) (usage : W32) (levels : List (Nat × Nat × Nat)) (priv pub : List Byte) : List Byte :=
  le 4 h.toNat ++ [BitVec.ofNat 8 typ, BitVec.ofNat 8 pset, BitVec.ofNat 8 order, BitVec.ofNat 8 levels.length] ++ le 4 usage.toNat
    ++ levels.flatMap (fun l => le 4 l.1 ++ le 4 l.2.1 ++ le 4 l.2.2) ++ le 4 priv.length ++ priv ++ pub

/-- A key with REPLICATE goes to a worker that is UP (R661). -/
def State.replicateTo (s : State) (node : Nat) (h : W32) : State :=
  match s.getKey h, KV.get? s.plk.nodes node with
  | some k, some x =>
    if !bit k.usage 18 || k.deleted || decide (x.state ≠ 2) || decide (bits s.plk.cfg 25 24 ≠ 1) then s
    else
      let levels := (k.st.elim [] (·.levels)).map (fun l => (l.lms, l.ots, l.height))
      let u := s.sendFrame x.port 8 node (keyPutBytes h k.typ k.pset k.order k.usage levels k.priv k.pub)
      { u with plk := { u.plk with cnt := vmod u.plk.cnt 10 0 (· + 1) } }
  | _, _ => s

/-- A REPLICATE key goes to every worker that is UP (R661). -/
def State.replicate (s : State) (h : W32) : State := s.plk.nodes.foldl (fun t p => t.replicateTo p.1 h) s

/-- `KEY_IMPORT` (R455). -/
def kKeyImport : Kernel := fun s id j =>
  let p := j.par
  let typ := p8 p 0
  let ps := p8 p 1
  let w := s.skOf j
  let f := p8 p 3
  if typ = 5 ∨ typ = 6 then (s, status 0x0023)
  else
    let r := unwrapKey f w typ ps (p32 p 4) j.input
    if r.status ≠ 0 then ((if r.broken then s.kstCount 18 1 else s).countStatus r.status, status r.status)
    else
      (s.kstCount 8 1).store id j { pairObj typ ps (genOrder typ ps (p8 p 2)) (p32 p 4) r.priv r.pub with pair := decide (typ < 16) } r.pub

/-- `KEY_EXPORT` (R454, R456). -/
def kKeyExport : Kernel := fun s _ j =>
  match s.jobKey j with
  | none => (s, status 0x0020)
  | some k =>
    let w := match s.getKey (BitVec.ofNat 32 (p32 j.par 8)) with | some x => x.priv | none => []
    (s.kstCount 9 1, okOut (wrapKey (p8 j.par 3) w k.typ k.pset k.usage.toNat k.priv k.pub))

/-- `PUBKEY_REGISTER` (R457). -/
def kPubkeyRegister : Kernel := fun s id j =>
  let p := j.par
  let st := encodingStatus (p8 p 0) (p8 p 1) j.input
  if st ≠ 0 then (s, status st)
  else (s.kstCount 10 1).store id j { typ := p8 p 0, pset := p8 p 1, usage := BitVec.ofNat 32 (p32 p 4), pub := j.input, publicOnly := true } []

/-- `PUBKEY_READ` (R451). -/
def kPubkeyRead : Kernel := fun s _ j =>
  match s.jobKey j with | some k => (s, okOut k.pub) | none => (s, status 0x0020)

/-- `KEY_DELETE` (R461, R462): a persistent key's DELETE record is journaled before the release. -/
def kKeyDelete : Kernel := fun s id j =>
  match s.jobKey j with
  | none => (s, status 0x0020)
  | some k =>
    let s1 := s.kstCount 7 1
    (if usagePersist k.usage then
      s1.journal { typ := 7, handle := j.e.keyHandle, a := k.serial, b := 0, obj := none, job := some id, issued := s.trd.edge }
    else s1, {})

/-- The attribute record (R460). -/
def attrRecord (h : W32) (k : KeyObj) : List Byte :=
  le 4 h.toNat ++ le 1 k.typ ++ le 1 k.pset ++ le 1 k.order ++ le 1 (b2n k.inCache + 2 * b2n k.inDram + 4 * b2n k.inFlash)
    ++ le 4 k.usage.toNat ++ le 2 (b2n k.pair + 2 * b2n k.publicOnly + 4 * b2n k.ephemeral + 8 * b2n k.consumed
      + 16 * b2n k.exported + 32 * b2n k.damaged)
    ++ le 1 k.bindings.length ++ zeros 1 ++ le 8 k.created ++ le 8 k.serial

/-- `KEY_ATTR_READ` (R460). -/
def kKeyAttrRead : Kernel := fun s _ j =>
  match s.jobKey j with | some k => (s, okOut (attrRecord j.e.keyHandle k)) | none => (s, status 0x0020)

/-- Effective attempt limit of a usage word. -/
def attemptsOf (u : W32) : Nat := let a := bits u 31 24; if a = 0 then 256 else a

/-- The change tightens (R458): usage bits, EXPORT and ATTEMPTS may fall, the restrictions and CACHE may be set, and nothing
else moves. -/
def tightens (old new : W32) (oldOrder newOrder : Nat) : Bool :=
  onlyBits (bits new 11 0) (bits old 11 0) && onlyBits (bits old 16 14) (bits new 16 14) && decide (usageExport new ≤ usageExport old)
    && decide (attemptsOf new ≤ attemptsOf old) && decide (bits new 23 17 = bits old 23 17)
    && (decide (newOrder = 0) || decide (oldOrder ≤ newOrder))

/-- A changed object is stored, journaled when persistent (R453), and sent to the workers (R661). -/
def State.updateKey (s : State) (id : Nat) (h : W32) (old new : KeyObj) : State × Result :=
  if old.inFlash ∧ s.fls.state = 2 then ((s.cause 0x32 0).countStatus 0x0025, status 0x0025)
  else
    let s1 := if old.inDram then (s.dramNonce.setKey h new).injectKey 51 h else s.setKey h new
    let s2 := if old.inFlash then
      s1.journal { typ := 8, handle := h, a := old.serial, b := old.serial, obj := some old, job := some id, issued := s.trd.edge } else s1
    (s2.replicate h, {})

/-- `KEY_ATTR_SET` (R458). -/
def kKeyAttrSet : Kernel := fun s id j =>
  match s.jobKey j with
  | none => (s, status 0x0020)
  | some k =>
    let u := BitVec.ofNat 32 (p32 j.par 4)
    let o := p8 j.par 2
    if !tightens k.usage u k.order o then (s.countStatus 0x0024, status 0x0024)
    else (s.kstCount 11 1).updateKey id j.e.keyHandle k { k with usage := u, order := if o = 0 then k.order else o }

/-- The bindings after an operation of `KEY_BIND`, or the status (R459). -/
def bindResult (k : KeyObj) (op : Nat) (d : List Byte) : List (List Byte × Bool) ⊕ Nat :=
  let rest := k.bindings.filter (fun b => decide (b.1 ≠ d))
  let held := k.bindings.any (fun b => decide (b.1 = d))
  if op = 3 then .inl rest
  else if op = 2 ∧ usageExport k.usage = 0 then .inr 0x0024
  else if !held ∧ 4 ≤ k.bindings.length then .inr 0x0014
  else if held then .inl (k.bindings.map (fun b => if b.1 = d then (d, decide (op = 2)) else b))
  else .inl (k.bindings ++ [(d, decide (op = 2))])

/-- `KEY_BIND` (R459). -/
def kKeyBind : Kernel := fun s id j =>
  match s.jobKey j with
  | none => (s, status 0x0020)
  | some k => (match bindResult k (p8 j.par 3) (fit 32 j.input) with
    | .inr st => (s.countStatus st, status st)
    | .inl bs => (s.kstCount 12 1).updateKey id j.e.keyHandle k { k with bindings := bs })

/-- `SYM_KEYGEN` (R460). -/
def kSymKeygen : Kernel := fun s id j =>
  let p := j.par
  let (bytes, s1) := s.drawInt (symLen (p8 p 0) (p8 p 1) (p16 p 10))
  s1.store id j { typ := p8 p 0, pset := p8 p 1, order := genOrder (p8 p 0) (p8 p 1) (p8 p 2), usage := BitVec.ofNat 32 (p32 p 4), priv := bytes } []

/-- KEY_IMPORT (R455). -/
def execKeyImport (job : Nat) (s : State) : Host.Outcome State Fault Refusal := s.runJob 0x0100 job kKeyImport
/-- KEY_EXPORT (R456). -/
def execKeyExport (job : Nat) (s : State) : Host.Outcome State Fault Refusal := s.runJob 0x0101 job kKeyExport
/-- PUBKEY_REGISTER (R457). -/
def execPubkeyRegister (job : Nat) (s : State) : Host.Outcome State Fault Refusal := s.runJob 0x0102 job kPubkeyRegister
/-- PUBKEY_READ (R451). -/
def execPubkeyRead (job : Nat) (s : State) : Host.Outcome State Fault Refusal := s.runJob 0x0103 job kPubkeyRead
/-- KEY_DELETE (R461): the work of the tick after admission; admission has marked the key deleted. -/
def execKeyDelete (job : Nat) (s : State) : Host.Outcome State Fault Refusal := s.runJob 0x0104 job kKeyDelete
/-- KEY_ATTR_READ (R460). -/
def execKeyAttrRead (job : Nat) (s : State) : Host.Outcome State Fault Refusal := s.runJob 0x0105 job kKeyAttrRead
/-- KEY_ATTR_SET (R458). -/
def execKeyAttrSet (job : Nat) (s : State) : Host.Outcome State Fault Refusal := s.runJob 0x0106 job kKeyAttrSet
/-- KEY_BIND (R459). -/
def execKeyBind (job : Nat) (s : State) : Host.Outcome State Fault Refusal := s.runJob 0x0107 job kKeyBind
/-- SYM_KEYGEN (R460). -/
def execSymKeygen (job : Nat) (s : State) : Host.Outcome State Fault Refusal := s.runJob 0x0108 job kSymKeygen

/-- The copies, Digest Service slots and matrix sets of a deleted key go (R315, R417, R462). -/
def State.cleanKey (s : State) (h : W32) (k : KeyObj) : State :=
  { s with
    kst := { s.kst with
      objs := KV.erase s.kst.objs h.toNat, cleanup := s.kst.cleanup.filter (· ≠ h),
      erase := if usagePersist k.usage then s.kst.erase ++ [k.serial] else s.kst.erase }
    dgs := { s.dgs with slots := s.dgs.slots.filter (fun p => decide (p.2.handle ≠ h)) }
    trd := { s.trd with sets := s.trd.sets.filter (fun x => decide (x.2.1 ≠ h)), builds := s.trd.builds.filter (fun b => decide (b.key ≠ h)) } }

/-- KEY_DELETE_CLEANUP (R462): after the last release that uses the key. -/
def execKeyDeleteCleanup (handle : W32) (s : State) : Host.Outcome State Fault Refusal :=
  match s.getKey handle with
  | some k => .next (if s.kst.cleanup.contains handle && k.deleted && k.holders.isEmpty then s.cleanKey handle k else s)
  | none => .next s

/-- A failed program (1) or erase (2) retires its block to the spare region and fires its source (R569, R575); the write is
repeated elsewhere. -/
def State.retireBlock (s : State) (kind block : Nat) : State :=
  let f := s.fls
  let spare := f.spare - 1
  let s1 : State := { s with fls := { f with
    spare := spare, good := f.good - 1, lastFail := some (kind, block % 4096), state := if spare = 0 then 2 else f.state } }
  let s2 := ((s1.flsCount (5 + kind) 1).flsCount 10 1).kstCount 29 1
  let s3 := s2.raiseAll (if kind = 1 then [{ src := 0x3202 }, { src := 0x4102 }] else [{ src := 0x4103 }])
  let s4 := (s3.cause 0x41 0).irqSync 0x41
  if f.state ≠ 2 ∧ spare = 0 then s4.raise { src := 0x4104 } else s4

/-- The block of the journal's ring that a page lies in, which is the device block last programmed (R465). -/
def pageBlock (seq : Nat) : Nat := Config.ringBlock (seq / 1024 % 256)

/-- OBJECT_BLOCK_ERASE (R462): the block of a deleted record is erased, its live records having been moved. -/
def execObjectBlockErase (serial : Nat) (ok : Bool) (s : State) : Host.Outcome State Fault Refusal :=
  if s.kst.erase.contains serial && !s.pcr.frozen then
    let s1 : State := { s with kst := { s.kst with erase := s.kst.erase.erase serial } }
    .next (if ok then s1.eraseBlock (Config.flashBlock serial) else s1.retireBlock 2 (Config.flashBlock serial))
  else .next s

/-- A record, and a page of up to 120 with its authentication code under K_JRN, as they stand in flash (R449, R466, R467). -/
def JrnRec.bytes (r : JrnRec) : List Byte := le 1 r.typ ++ zeros 3 ++ le 4 r.handle.toNat ++ le 8 r.a ++ le 8 r.b ++ zeros 8
def JrnPage.body (p : JrnPage) : List Byte :=
  [0x4E, 0x52, 0x4A, 0x4C, 0x01, 0x00] ++ le 2 p.recs.length ++ le 8 p.seq ++ le 8 p.tick ++ le 8 p.ckpt ++ zeros 32
    ++ fit 3840 (p.recs.flatMap JrnRec.bytes) ++ zeros 160
def State.pageBytes (s : State) (p : JrnPage) : List Byte := p.body ++ hmacOf 1 (kstDerive s.masterKey labelJournal []) p.body

/-- A durable record takes its effect (R343, R353, R453, R467, R662). -/
def State.applyRecord (s : State) (r : JrnRec) : State :=
  match s.getKey r.handle with
  | none => s
  | some k =>
    let raiseE (st : Stateful) : Stateful := { st with durable := max st.durable r.a, issued := max st.issued r.a }
    match r.typ with
    | 1 => (match k.st with | some st => (s.setKey r.handle { k with st := some (raiseE st) }).reserveLeaves r.handle | none => s)
    | 2 => (match k.st with | some st => s.setKey r.handle { k with st := some (raiseE st) } | none => s)
    | 3 => (match k.st with
      | some st => s.setKey r.handle { k with exported := true, st := some { st with durable := r.a, issued := r.a } } | none => s)
    | 5 =>
      let s1 : State := match KV.get? s.plk.nodes r.node with
        | some n => let u := s.sendFrame n.port 12 r.node (le 4 r.handle.toNat ++ le 8 r.a ++ le 8 r.b)
                    { u with plk := { u.plk with cnt := vmod u.plk.cnt 12 0 (· + 1) } }
        | none => s
      s1
    | 6 => s.setKey r.handle { k with inFlash := true }
    | 7 => s.setKey r.handle { k with inFlash := false }
    | _ => s

/-- The records of the programmed page are durable (R343, R465): the page counts, a checkpoint follows each 65,536, and the ring's
block is erased before it is used again. -/
def State.pageDurable (s : State) : State :=
  let k := s.kst
  let ck := decide (65536 ≤ k.sinceCkpt + 1)
  let s1 : State := { s with kst := { k with
    page := [], programming := false, settled := k.settled ++ k.page, durable := if ck then [] else { seq := k.pageSeq + 1, tick := k.pageTick, ckpt := k.ckptSeq, recs := k.page } :: k.durable,
    pageSeq := k.pageSeq + 1, sinceCkpt := if ck then 0 else k.sinceCkpt + 1, ckptSeq := if ck then k.pageSeq + 1 else k.ckptSeq } }
  let s2 := ((if ck then s1.kstCount 24 1 else s1).kstCount 22 1).event 0x32 6 none 1
  let s3 := s2.programPages 1
  if 262144 ≤ k.pageSeq ∧ k.pageSeq % 1024 = 0 then s3.eraseBlock (pageBlock k.pageSeq) else s3

/-- JOURNAL_PROGRAM_DONE (R343, R468): after a program that had started, a power warning's commit records follow (R349). -/
def execJournalProgramDone (ok : Bool) (s : State) : Host.Outcome State Fault Refusal :=
  if !s.kst.programming ∨ s.pcr.frozen then .next s
  else if !ok then .next (s.retireBlock 1 (pageBlock s.kst.pageSeq))
  else
    let s1 := s.pageDurable
    .next (if s1.kst.commitDue then
      (((s1.kst.settled.foldl State.applyRecord { s1 with kst := { s1.kst with settled := [], commitDue := false } }).kstCommit).irqSync 0x32).bankAfterCommit
    else s1.irqSync 0x32)

/-- Records programmed since the last edge take effect (R343). -/
def State.settle (s : State) : State :=
  s.kst.settled.foldl State.applyRecord { s with kst := { s.kst with settled := [] } }

/-- WEAR_HIGH fires when `KST_LIFE.USED` reaches 8,000 (R473). -/
def State.wearTest (s : State) : State :=
  if 8000 ≤ s.kst.used ∧ ¬s.kst.wearSaid then
    (({ s with kst := { s.kst with wearSaid := true } } : State).raise { src := 0x3203 }).irqSync 0x32
  else s

/-- At most one page of up to 120 records is started per tick (R344). -/
def State.startPage (s : State) : State :=
  let k := s.kst
  if k.programming ∨ k.waiting = [] ∨ !k.jrnHeld ∨ s.hrt.halt.isSome then s
  else { s with kst := { k with page := k.waiting.take 120, waiting := k.waiting.drop 120, programming := true, pageTick := s.trd.edge } }

/-- A record that never becomes durable leaves its object unchanged (R722). -/
def State.undoRecord (s : State) (r : JrnRec) : State :=
  match s.getKey r.handle with
  | none => s
  | some k => (match r.typ with
    | 1 => (match k.st with | some st => s.setKey r.handle { k with st := some { st with issued := st.durable } } | none => s)
    | 7 => s.setKey r.handle { k with deleted := false }
    | 8 => (match r.obj with | some o => s.setKey r.handle { o with holders := k.holders } | none => s)
    | _ => s)

/-- `KST_STATE.STATE` (R472): LOCKED and ZEROIZED while those responses or states hold, else OPEN with MK and CLOSED. -/
def State.kstState (s : State) : Nat :=
  if s.held.life = 6 ∨ s.tmp.response = 3 then 3 else if s.held.life = 5 ∨ s.tmp.response = 2 then 2 else if s.kst.mkHeld then 1 else 0

/-- The KST registers (R471, R472). -/
def State.readKst (s : State) (off : Nat) : W32 :=
  let k := s.kst
  match off with
  | 0x100 => BitVec.ofNat 32 (s.kstState * 2 ^ 28 + b2n s.held.ms.isSome * 2 ^ 27 + b2n k.pufOk * 2 ^ 26 + b2n k.replayDone * 2 ^ 25)
  | 0x104 => BitVec.ofNat 32 k.dramGib
  | 0x108 => BitVec.ofNat 32 (s.cacheHeld / 1024 % 65536 * 65536 + s.cacheUsed / 1024 % 65536)
  | 0x10C => BitVec.ofNat 32 (s.dramUsed / 1048576 % 65536)
  | 0x110 => BitVec.ofNat 32 (s.flashUsed / 1048576 % 65536)
  | 0x114 => BitVec.ofNat 32 k.objs.length
  | 0x118 => BitVec.ofNat 32 k.domSel
  | 0x11C => BitVec.ofNat 32 (s.keyLimitOf k.domSel)
  | 0x120 => BitVec.ofNat 32 (s.domainCount k.domSel)
  | 0x124 => BitVec.ofNat 32 (b2n (k.waiting.any (fun r => decide (r.issued + 4 < s.trd.edge))) * 2 ^ 31
      + min 65535 (k.waiting.length + k.page.length))
  | 0x128 => BitVec.ofNat 32 k.pageSeq
  | 0x12C => BitVec.ofNat 32 (k.pageSeq / 2 ^ 32)
  | 0x130 => BitVec.ofNat 32 (k.maxPe / 4 * 65536 + k.minPe / 4)
  | 0x134 => BitVec.ofNat 32 k.used
  | _ =>
    if 0x140 ≤ off ∧ off < 0x240 then
      let c := vget k.cnt ((off - 0x140) / 8) 0
      BitVec.ofNat 32 (if off % 8 = 0 then c else c / 2 ^ 32)
    else 0

/-- Writes of `KST_CFG` and `KST_DOMSEL`. -/
def State.writeKst (s : State) (off : Nat) (v : W32) : State :=
  if off = 0x104 ∧ !(s.getBlk 0x32).lock ∧ 1 ≤ bits v 3 0 ∧ bits v 3 0 ≤ 8 then { s with kst := { s.kst with dramGib := bits v 3 0 } }
  else if off = 0x118 then { s with kst := { s.kst with domSel := bits v 7 0 } }
  else s

end Sys2Proof.Machine
end

