-- ==== Sys2Proof/Machine/PeerLink.lean ====
section
/-! DEFINITION. The Peer Link PLK (R650 to R668): ports and training, frames, forwarded jobs, replicated keys, grants,
failures of a link, and `CLUSTER_STATUS`. -/

namespace Sys2Proof.Machine

def State.getPort (s : State) (n : Nat) : Port := vget s.plk.ports n {}
def State.setPort (s : State) (n : Nat) (p : Port) : State := { s with plk := { s.plk with ports := vset s.plk.ports n p } }
def State.plkCount (s : State) (i n : Nat) : State := { s with plk := { s.plk with cnt := vmod s.plk.cnt i 0 (· + n) } }

/-- `PLK_CFG.ROLE`, `NODE`, `EN` and `RELAY` (R667). -/
def State.plkRole (s : State) : Nat := bits s.plk.cfg 25 24
def State.plkNode (s : State) : Nat := bits s.plk.cfg 4 0
def State.plkOn (s : State) : Bool := bit s.plk.cfg 31
def State.plkRelay (s : State) : Bool := bit s.plk.cfg 29

/-- Ports of the part that meet a condition. -/
def State.portsWhere (s : State) (f : Port → Bool) : List Nat := (List.range s.portCount).filter (fun n => f (s.getPort n))

/-- ISOLATED: a worker with no uplink UP (R667); the level cause follows. -/
def State.plkSync (s : State) : State :=
  let up := s.portsWhere (fun p => p.uplink && decide (p.state = 2))
  ({ s with plk := { s.plk with isolated := s.plkOn && decide (s.plkRole = 2) && up.isEmpty } } : State).irqSync 0x60

/-- A forwarded job leaves the cluster context with its bookings (R660, R664). -/
def State.squashJob (s : State) (id : Nat) : State :=
  { s with
    jobs := KV.erase s.jobs id
    trd := { s.trd with
      plan := s.planWithout (fun b => decide (b.job = some id)),
      signQ := s.trd.signQ.map (fun x => { x with chains := x.chains.filter (fun c => decide (c.1 ≠ id)) }),
      pages := s.trd.pages.filter (fun x => decide (x.1 ≠ id)) } }

/-- Jobs of the cluster context that a condition on their forward ID and port selects. -/
def State.clusterJobs (s : State) (f : Nat → Nat → Bool) : List Nat :=
  (s.jobs.filter (fun p => match p.2.cluster with | some (fid, port) => f fid port | none => false)).map (·.1)

/-- A replica deleted by KEY_DEL goes after the last release that uses it (R661). -/
def State.sweepReplicas (s : State) : State :=
  { s with plk := { s.plk with keys := s.plk.keys.filter (fun p =>
      !p.2.deleted || s.jobs.any (fun x => x.2.cluster.isSome && decide (x.2.e.keyHandle.toNat = p.1))) } }

-- Loss of a link.

/-- A forwarded job becomes an order-1 candidate (R664). -/
def State.replanForward (s : State) (id : Nat) : State :=
  (s.modJob id (fun j => { j with forward := none, rebook := true, result := none })).plkCount 9 1

/-- Forwarded jobs of a lost node: stateless ones are re-planned; a stateful signature ends with its leaf consumed (R664). -/
def State.loseForwards (s : State) (node : Nat) : State :=
  let lost := s.plk.forwards.filter (fun p => decide (p.2.node = node) && !p.2.done)
  let s1 : State := { s with plk := { s.plk with forwards := s.plk.forwards.filter (fun p => !(decide (p.2.node = node) && !p.2.done)) } }
  lost.foldl (fun t p =>
    if statefulSign (t.getJob p.2.job).opcode then t.finish p.2.job (statusDetail 0x0051 0x6002) else t.replanForward p.2.job) s1

/-- Grants and replicas of a lost node are gone (R353, R662, R664). -/
def State.loseKeys (s : State) (node : Nat) : State :=
  { s with kst := { s.kst with objs := KV.mapV (fun _ k =>
    { k with replicas := k.replicas.filter (· ≠ node),
             st := k.st.map (fun st => { st with grants := st.grants.filter (fun g => decide (g.1 ≠ node)) }) }) s.kst.objs } }

/-- What the head does when it loses nodes (R664). -/
def State.loseNode (s : State) (node : Nat) : State :=
  let x := KV.getD s.plk.nodes node {}
  let s1 : State := { s with plk := { s.plk with nodes := KV.set s.plk.nodes node { x with state := 3, locked := false } } }
  (s1.loseForwards node).loseKeys node

/-- What a worker does when it has lost its last uplink (R664). -/
def State.loseUplink (s : State) : State :=
  let s1 := (s.clusterJobs (fun _ _ => true)).foldl State.squashJob s
  let s2 : State := { s1 with plk := { s1.plk with keys := [], locked := false, goodFrames := 0, tickDue := false } }
  if s.plk.locked then s2.raise { src := 0x6005 } else s2

/-- Frames in flight go out again on another port (R664). -/
def State.resendOn (s : State) (port : Nat) (frames : List (Nat × Nat × Nat × List Byte × Nat)) : State :=
  if s.linkQuiet then s else frames.foldl (fun t f => t.sendPiece port f.2.1 f.2.2.1 f.2.2.2.1) s

/-- What this module says of itself in a TRAIN frame: version range, role, node, serial, part and tick period (R653). -/
def State.trainPayload (s : State) : List Byte :=
  [1, 1, BitVec.ofNat 8 (bits s.plk.cfg 25 24), BitVec.ofNat 8 (bits s.plk.cfg 4 0)] ++ fit 16 Config.serial
    ++ [BitVec.ofNat 8 s.part, BitVec.ofNat 8 s.trd.period]

/-- A port trains: after the lane tests, it sends its TRAIN frame (R653). -/
def State.startTraining (s : State) (n : Nat) : State := s.putFrame n 1 0 0 s.trainPayload

/-- A link is down (R664). A second port to the same peer takes over; otherwise the jobs, keys and grants behind it go. -/
def State.linkLoss (s : State) (n : Nat) : State :=
  let p := s.getPort n
  let next := if p.state = 4 then 4 else if p.en && s.plkOn then 1 else 0
  let s1 := s.setPort n { p with
    state := next, reason := 0, width := 0, version := 0, keys := [], uplink := false, sent := [], txSeq := 0, rxSeq := 0 }
  let s2 := ((if next = 1 then s1.startTraining n else s1).raise { src := 0x6002, detail := n }).cause 0x60 1
  match s2.portsWhere (fun q => decide (q.state = 2) && decide (q.peer = p.peer) && decide (q.serial = p.serial)) with
  | m :: _ =>
    let s3 := s2.setPort m { s2.getPort m with uplink := (s2.getPort m).uplink || p.uplink }
    let s4 : State := { s3 with plk := { s3.plk with nodes := KV.mapV (fun _ x => if x.port = n then { x with port := m } else x) s3.plk.nodes } }
    (s4.resendOn m p.sent).plkSync
  | [] =>
    let s3 := if p.uplink then
      (match s2.portsWhere (fun q => decide (q.state = 2) && q.standby && (match q.peer with | some (r, _) => decide (r = 1) || q.peerRelay | none => false)) with
        | m :: _ => (s2.setPort m { s2.getPort m with uplink := true }).resendOn m p.sent
        | [] => s2.loseUplink)
      else s2
    let s4 := if s.plkRole = 1 then
        ((s3.plk.nodes.filter (fun x => decide (x.2.port = n) && decide (x.2.state = 1 ∨ x.2.state = 2))).map (·.1)).foldl State.loseNode s3
      else { s3 with plk := { s3.plk with nodes := s3.plk.nodes.filter (fun x => decide (x.2.port ≠ n)) } }
    s4.plkSync

/-- A port starts to train (R653). -/
def State.trainPort (s : State) (n : Nat) : State :=
  let p := s.getPort n
  if p.en ∧ p.state = 0 ∧ s.plkOn then (s.setPort n { p with state := 1, reason := 0 }).startTraining n else s

/-- A port goes down because it is disabled; its excluded lanes may train again (R653). -/
def State.downPort (s0 : State) (n : Nat) : State :=
  let s : State := { s0 with hrt := { s0.hrt with retired := s0.hrt.retired.filter (fun x => !(decide (x.1 = 0x6000) && decide (x.2 = n))) } }
  let p := s.getPort n
  if p.version ≠ 0 then
    let t := s.linkLoss n
    t.setPort n { t.getPort n with state := if (t.getPort n).state = 4 then 4 else 0, lanes := 4 }
  else s.setPort n { p with state := if p.state = 4 then 4 else 0, reason := 0, lanes := 4 }

/-- PORT_ENABLE (R653, R667): `PORTn_CFG.EN` is written. -/
def execPortEnable (port : Nat) (enable : Bool) (s : State) : Host.Outcome State Fault Refusal :=
  .next (s.onPage 0x60 (fun t =>
    if t.portCount ≤ port then t
    else
      let t1 := t.setPort port { t.getPort port with en := enable }
      (if enable then t1.trainPort port else t1.downPort port).plkSync))

/-- The fingerprint in `PLK_PEER_FPR0` to `7`. -/
def State.fprBytes (s : State) : List Byte := s.plk.fpr.toList.flatMap (fun w => le 4 w.toNat)

/-- The allow list is written only in CUSTODY and MAINTENANCE (R655). -/
def State.allowOpen (s : State) : Bool := decide (s.held.life = 2) || decide (s.held.life = 4)

/-- PEER_FPR_WRITE (R655, R667): `PLK_PEERCTL.WRITE`. -/
def execPeerFprWrite (val : W32) (s : State) : Host.Outcome State Fault Refusal :=
  .next (s.onPage 0x60 (fun t =>
    if bit val 0 && t.allowOpen then { t with held := { t.held with allow := KV.set t.held.allow t.plk.peerSel t.fprBytes } } else t))

/-- PEER_FPR_CLEAR (R655, R667): `PLK_PEERCTL.CLEAR`. -/
def execPeerFprClear (val : W32) (s : State) : Host.Outcome State Fault Refusal :=
  .next (s.onPage 0x60 (fun t =>
    if bit val 1 && t.allowOpen then { t with held := { t.held with allow := KV.erase t.held.allow t.plk.peerSel } } else t))

-- Training.

/-- The peer stands above this module: the head, or for a leaf its relay. -/
def State.upstream (s : State) (f : TrainFrame) : Bool :=
  decide (s.plkRole = 2) && (decide (f.role = 1) || (decide (f.role = 2) && f.relay && !s.plkRelay))

/-- The roles pair (R654 reason 2). -/
def State.rolesPair (s : State) (f : TrainFrame) : Bool :=
  match s.plkRole, f.role with
  | 1, 2 => true
  | 2, 1 => true
  | 2, 2 => if f.relay && !s.plkRelay then decide (1 ≤ f.hops) else if s.plkRelay && !f.relay then
      (s.portsWhere (fun p => p.uplink && decide (p.state = 2))).isEmpty == false else true
  | _, _ => false

/-- The node is already in the cluster (R654 reason 3). -/
def State.nodeTaken (s : State) (f : TrainFrame) : Bool :=
  decide (f.node = s.plkNode) || (decide (f.role = 2) && decide (f.node = 0)) || (decide (f.role = 1) && decide (f.node ≠ 0))
    || (match KV.get? s.plk.nodes f.node with
      | some x => (decide (x.state = 1) || decide (x.state = 2)) && decide (x.serial ≠ f.serial)
      | none => false)

/-- The topology forbids the link (R652, R654 reason 4). -/
def State.badTopology (s : State) (n : Nat) (f : TrainFrame) : Bool :=
  let same := s.portsWhere (fun p => decide (p.state = 2) && decide (p.serial = f.serial))
  let ups := s.portsWhere (fun p => decide (p.state = 2) && p.uplink)
  -- a second head
  (decide (f.role = 1) && ups.any (fun m => decide ((s.getPort m).serial ≠ f.serial) && decide ((s.getPort m).peer.map (·.1) = some 1)))
  -- a loop: a third port to one peer, a link to itself, or a second uplink that is no standby
    || decide (2 ≤ same.length) || decide (f.serial = Config.serial)
    || (s.upstream f && decide (ups ≠ []) && !(s.getPort n).standby && ups.all (fun m => !(s.getPort m).standby))
  -- a third hop, or a leaf at a module that is no relay
    || decide (3 ≤ f.hops) || (decide (s.plkRole = 2) && decide (f.role = 2) && decide (f.relay = s.plkRelay))
    || (decide (s.plkRole = 1) && decide (f.hops = 2) && !(s.getPort n).peerRelay)
  -- a 32nd worker
    || (decide (s.plkRole = 1) && (KV.get? s.plk.nodes f.node).isNone
        && decide (31 ≤ (s.plk.nodes.filter (fun x => decide (x.2.state = 2))).length))

/-- The reason for which training refuses a peer, the lowest that applies; 0 = none (R654). -/
def State.trainReason (s : State) (n : Nat) (f : TrainFrame) : Nat :=
  let lifeOk (x : Nat) : Bool := decide (x = 3) || decide (x = 4)
  if !(decide (f.verMin ≤ 1) && decide (1 ≤ f.verMax)) then 1
  else if !s.rolesPair f then 2
  else if s.nodeTaken f then 3
  else if s.badTopology n f then 4
  else if !s.held.allow.any (fun p => decide (p.2 = f.fpr)) then 5
  else if !f.chainOk then 6
  else if f.tickUs ≠ s.trd.period then 7
  else if !(lifeOk s.held.life && lifeOk f.peerState) then 8 else 0

/-- The head learns of a node and sends it the keys with REPLICATE (R658, R661). -/
def State.joinNode (s : State) (n : Nat) (f : TrainFrame) : State :=
  let old := KV.get? s.plk.nodes f.node
  let port := match old with | some x => if x.state = 2 then x.port else n | none => n
  let x : PlkNode := { state := 2, locked := false, relay := f.relay, port := port, serial := f.serial }
  let s1 : State := { s with plk := { s.plk with nodes := KV.set s.plk.nodes f.node x } }
  if decide (s.plkRole = 1) && (match old with | some x => decide (x.state ≠ 2) | none => true) then
    s1.kst.objs.foldl (fun t p => t.replicateTo f.node (BitVec.ofNat 32 p.1)) s1
  else s1

/-- "AETHAOZ PLK". -/
def labelPlk : List Byte := [0x41, 0x45, 0x54, 0x48, 0x41, 0x4F, 0x5A, 0x20, 0x50, 0x4C, 0x4B]

/-- K_L (R655); of the two serials and the two nodes, the head's, or that of the module above, comes first. -/
def linkKeys (secret upSerial downSerial : List Byte) (upNode downNode : Nat) : List Byte :=
  hkdf 2 (fit 112 secret) [] (labelPlk ++ fit 16 upSerial ++ fit 16 downSerial ++ [BitVec.ofNat 8 upNode, BitVec.ofNat 8 downNode]) 64

/-- The port is UP at the end of step 2 of R653. -/
def State.portUp (s0 : State) (n : Nat) (f : TrainFrame) : State :=
  let (own, s) := s0.drawInt 80
  let p := s.getPort n
  let secret := Config.linkSecret own f.serial
  let keys := if s.upstream f then linkKeys secret f.serial Config.serial f.node s.plkNode else linkKeys secret Config.serial f.serial s.plkNode f.node
  let lanes := min p.lanes f.lanes
  let upl := s.upstream f && !((s.portsWhere (fun q => q.uplink && decide (q.state = 2))).any (· ≠ n))
  let s1 := s.setPort n { p with
    state := 2, reason := 0, width := trainWidth lanes, lanes := lanes, version := 1, keys := keys, uplink := upl, peer := some (f.role, f.node),
    peerRelay := f.relay, serial := f.serial, delayNs := f.delayNs, txSeq := 0, rxSeq := 0, sent := [] }
  let s2 := if s.upstream f then s1 else s1.joinNode n f
  (s2.cause 0x60 0).plkSync

/-- TRAIN (R653 to R655): the frames of step 2 have been exchanged. On a port that is UP to a relay, the head takes the frame
as that of a leaf behind it. -/
def execPlkTrain (port : Nat) (p : TrainFrame) (s : State) : Host.Outcome State Fault Refusal :=
  let x := s.getPort port
  if !s.running || decide (s.portCount ≤ port) || decide (p.lanes = 0) then .next s
  else if x.state = 2 ∧ s.plkRole = 1 ∧ x.peerRelay ∧ p.hops = 2 then
    .next (if s.trainReason port p = 0 then s.joinNode port p else (s.raise { src := 0x6003, detail := port }).cause 0x60 2)
  else if x.state ≠ 1 then .next s
  else if s.trainReason port p = 0 then .next (s.portUp port p)
  else
    .next ((((s.setPort port { x with state := 3, reason := s.trainReason port p }).raise { src := 0x6003, detail := port }).cause 0x60 2).plkSync)

-- Frames.

/-- The receiver drops a bad frame and NAKs it (R656). -/
def State.nakFrame (s : State) (n : Nat) (h : PlkHeader) : State :=
  let p := s.getPort n
  let s1 := s.setPort n { p with naks := satAdd p.naks 1 0xFFFF, auth := if h.tagOk then p.auth else satAdd p.auth 1 0xFF }
  let s2 := ((s1.plkCount 15 1).plkCount 4 1).putFrame n 0 h.src 0 (le 4 p.rxSeq)
  let s3 := (s2.event 0x60 3 none 1).raise { src := 0x6000, detail := n }
  if h.tagOk then s3 else (s3.plkCount 14 1).raise { src := 0x6004, detail := n }

/-- The frame is accepted: the sequence goes on, and at the head the header's tick number shows whether the node is locked
(R656, R658). -/
def State.takeFrame (s : State) (n : Nat) (h : PlkHeader) : State :=
  let s1 := ((s.setPort n { s.getPort n with rxSeq := h.seq + 1 + h.more }).plkCount 1 (1 + h.more)).plkCount 3 h.bytes
  let now := s.trd.edge % 2 ^ 32
  let ok := decide (h.tick = now) || decide ((h.tick + 1) % 2 ^ 32 = now)
  let s2 : State := match KV.get? s1.plk.nodes h.src with
    | some x => { s1 with plk := { s1.plk with nodes := KV.set s1.plk.nodes h.src { x with locked := ok } } }
    | none => s1
  s2.event 0x60 2 none 1

/-- A relay passes on a frame that is not for it, re-tagged (R656). -/
def State.passOn (s : State) (h : PlkHeader) (typ : Nat) (payload : List Byte) : State :=
  if !s.plkRelay then s
  else if h.dst = 0 then
    (match s.portsWhere (fun p => p.uplink && decide (p.state = 2)) with | m :: _ => s.sendFrame m typ 0 payload | [] => s)
  else match KV.get? s.plk.nodes h.dst with
    | some x => s.sendFrame x.port typ h.dst payload
    | none => s

/-- A frame arrives on a port (R656): dropped and NAKed, passed on, or acted on. -/
def State.onFrame (s : State) (n : Nat) (h : PlkHeader) (typ : Nat) (payload : List Byte) (f : State → State) : State :=
  if !s.running || decide (s.portCount ≤ n) || decide ((s.getPort n).state ≠ 2) then s
  else if !h.lengthOk || !h.tagOk || decide (h.seq ≠ (s.getPort n).rxSeq) then s.nakFrame n h
  else
    let t := s.takeFrame n h
    if h.dst = s.plkNode then f t else t.passOn h typ payload

/-- KEEPALIVE (R656). -/
def execPlkKeepalive (port : Nat) (h : PlkHeader) (s : State) : Host.Outcome State Fault Refusal :=
  .next (s.onFrame port h 2 [] id)

/-- KEEPALIVE_SEND (R656): the port has been idle for 20 µs; a head under a power warning sends nothing (R664). -/
def execPlkKeepaliveSend (port : Nat) (s : State) : Host.Outcome State Fault Refusal :=
  if !s.running || decide (s.portCount ≤ port) || (s.pcr.warn && decide (s.plkRole = 1)) then .next s
  else match (s.getPort port).state, (s.getPort port).peer with
    | 2, some (_, node) => .next (s.sendFrame port 2 node [])
    | _, _ => .next s

/-- The correction of one tick toward the TICK frames, in tick-clock cycles, as `Treadle.correction` (R161, R663). -/
def Plk.correction (p : Plk) : Int :=
  if 8 ≤ p.goodFrames then (if 0 < p.phase then 1 else if p.phase < 0 then -1 else 0) else 0

/-- The interval between two TICK frames lies within a cycle of the period: the phase error moved by no more than that and the correction
(R161, R663). -/
def Plk.goodPhase (p : Plk) (phase : Int) : Bool := p.tickDue && decide ((phase - p.phase + p.correction).natAbs ≤ 1)

/-- A worker follows the head's tick (R161 to R163, R663): eight good intervals in a row, then the edge 3 cycles after
the frame, ±1 (`phase` is the error, as in `TRD_TICKIN_PHASE`). With TICK_IN in charge the frame gives the offset alone. -/
def State.followTick (s : State) (n tickNum : Nat) (phase : Int) : State :=
  let p := s.plk
  if !(s.getPort n).uplink || decide (s.plkRole ≠ 2) then s
  else
    let off : Int := (tickNum : Int) - (s.trd.edge : Int)
    if !bit p.cfg 30 ∨ s.trd.source = 1 then { s with plk := { p with offset := off } }
    else
      let good := if p.goodPhase phase then p.goodFrames + 1 else 0
      { s with plk := { p with
          offset := off, phase := phase, goodFrames := good, tickDue := true, tickAge := 0,
          locked := p.locked || (decide (8 ≤ good) && decide (phase.natAbs ≤ 1)) } }

/-- TICK (R656, R663). -/
def execPlkTick (port : Nat) (h : PlkHeader) (tickNum : Nat) (phase : Int) (s : State) : Host.Outcome State Fault Refusal :=
  .next (s.onFrame port h 3 (le 8 tickNum) (fun t => t.followTick port tickNum phase))

/-- Status with which a worker refuses new JOB frames (R664). -/
def State.refusesJobs (s : State) : Option Nat :=
  match s.deviceStatus with | some st => some st | none => if s.pcr.warn then some 0x00A3 else none

/-- The job of a JOB frame in the cluster context (R659); its deadline edge is counted in head ticks. -/
def State.clusterJob (s : State) (port : Nat) (f : ForwardFrame) : Job :=
  let ver := bits (BitVec.ofNat 32 (field f.entry 0 4)) 27 24
  let e := entryOf ver f.entry
  let d := (f.deadline : Int) - s.plk.offset
  { fn := clusterFn, q := 0, num := s.nextJob, ver := ver, e := e, phase := .staged,
    staging := stagingNeed (bits e.ctl 15 0) (e.par ver) e none, taken := s.trd.edge, input := f.input, fp := f.fingerprint,
    cluster := some (f.fid, port), clusterDeadline := if f.deadline = 2 ^ 64 - 1 then 0 else max 1 d.toNat }

/-- JOB (R656, R659). -/
def execPlkJob (port : Nat) (h : PlkHeader) (f : ForwardFrame) (s : State) : Host.Outcome State Fault Refusal :=
  .next (s.onFrame port h 4 (le 4 f.fid ++ fit 64 f.entry ++ fit 16 f.fingerprint ++ le 8 f.deadline ++ f.input) (fun t =>
    if t.plkRole ≠ 2 then t
    else match t.refusesJobs with
      | some st => t.sendFrame port 6 0 (le 4 f.fid ++ le 2 st)
      | none => { t.setJob t.nextJob (t.clusterJob port f) with nextJob := t.nextJob + 1 }))

/-- The result in a completion record (R102). -/
def recordResult (r output : List Byte) : Result :=
  let fl := field r 18 2
  { status := field r 16 2, late := decide (fl % 2 = 1), retried := decide (fl / 2 % 2 = 1), noOutput := decide (fl / 4 % 2 = 1),
    outLen := field r 20 4, handle := BitVec.ofNat 32 (field r 4 4), detail := BitVec.ofNat 64 (field r 32 8), output := output }

/-- The one accepted RESULT of a forward (R659, R660): released at the next edge, or the job is re-planned (R664). -/
def State.takeResult (s : State) (fid : Nat) (x : Forward) (r : Result) : State :=
  let s1 : State := { s with plk := { s.plk with forwards := KV.erase s.plk.forwards fid } }
  let j := s1.getJob x.job
  if 0x00A0 ≤ r.status ∧ r.status ≤ 0x00A3 ∧ !statefulSign j.opcode then s1.replanForward x.job
  else
    ((s1.modJob x.job (fun y => { y with
      result := some r, forward := none, relEdge := s1.trd.edge + 1, retried := y.retried || r.retried
      : Job })).plkCount 7 1).event 0x60 5 (some j.fn) 1

/-- RESULT (R656, R659, R660). -/
def execPlkResult (port : Nat) (h : PlkHeader) (fid : Nat) (record output : List Byte) (s : State) : Host.Outcome State Fault Refusal :=
  .next (s.onFrame port h 5 (le 4 fid ++ fit 64 record ++ output) (fun t =>
    match KV.get? t.plk.forwards fid with
    | some x => if x.node = h.src then t.takeResult fid x (recordResult record output) else t
    | none => t))

/-- REFUSE (R659, R664). -/
def execPlkRefuse (port : Nat) (h : PlkHeader) (fid status : Nat) (s : State) : Host.Outcome State Fault Refusal :=
  .next (s.onFrame port h 6 (le 4 fid ++ le 2 status) (fun t =>
    match KV.get? t.plk.forwards fid with
    | some x =>
      if x.node ≠ h.src then t
      else
        let t1 : State := { t with plk := { t.plk with forwards := KV.erase t.plk.forwards fid } }
        if 0x00A0 ≤ status ∧ status ≤ 0x00A3 then t1.replanForward x.job
        else ((t1.plkCount 8 1).modJob x.job (fun j => { j with forward := none })).finishWith x.job 0x0040
    | none => t))

/-- SQUASH (R656, R660). -/
def execPlkSquash (port : Nat) (h : PlkHeader) (fids : List Nat) (s : State) : Host.Outcome State Fault Refusal :=
  .next (s.onFrame port h 7 (fids.flatMap (le 4)) (fun t =>
    ((t.clusterJobs (fun fid p => decide (p = port) && fids.contains fid)).foldl State.squashJob t).sweepReplicas))

/-- The replicated object of a KEY_PUT (R661): volatile, in the DRAM tier, a stateful key with no leaf of its own (R353). -/
def frameKey (k : KeyFrame) : KeyObj :=
  { typ := k.typ, pset := k.pset, order := k.order, usage := k.usage, priv := k.priv, pub := k.pub, pair := decide (k.priv ≠ []),
    publicOnly := decide (k.priv = []), inDram := true,
    st := if k.typ = 5 ∨ k.typ = 6 then
        some { keyEnd := 2 ^ ((k.levels.map (·.2.2)).sum), worker := true, asked := true,
               levels := k.levels.map (fun l => { lms := l.1, ots := l.2.1, height := l.2.2, curBuilt := true }) }
      else none }

/-- KEY_PUT (R661): stored and acknowledged; a stateful key's first grant is asked for. -/
def execPlkKeyPut (port : Nat) (h : PlkHeader) (k : KeyFrame) (s : State) : Host.Outcome State Fault Refusal :=
  .next (s.onFrame port h 8 (keyPutBytes k.handle k.typ k.pset k.order k.usage k.levels k.priv k.pub) (fun t =>
    if t.plkRole ≠ 2 then t
    else
      let old := KV.get? t.plk.keys k.handle.toNat
      let o := frameKey k
      let o1 := match old with | some x => { o with st := if x.st.isSome then x.st else o.st } | none => o
      let t1 : State := { t with plk := { t.plk with keys := KV.set t.plk.keys k.handle.toNat o1 } }
      let t2 := t1.sendFrame port 10 0 (le 4 k.handle.toNat)
      if o.st.isSome ∧ old.isNone then t2.sendFrame port 11 0 (le 4 k.handle.toNat) else t2))

/-- KEY_DEL (R661). -/
def execPlkKeyDel (port : Nat) (h : PlkHeader) (handle : W32) (s : State) : Host.Outcome State Fault Refusal :=
  .next (s.onFrame port h 9 (le 4 handle.toNat) (fun t =>
    match KV.get? t.plk.keys handle.toNat with
    | some k => ({ t with plk := { t.plk with keys := KV.set t.plk.keys handle.toNat { k with deleted := true } } } : State).sweepReplicas
    | none => t))

/-- KEY_ACK (R658, R661). -/
def execPlkKeyAck (port : Nat) (h : PlkHeader) (handle : W32) (s : State) : Host.Outcome State Fault Refusal :=
  .next (s.onFrame port h 10 (le 4 handle.toNat) (fun t =>
    match t.getKey handle with
    | some k => if k.replicas.contains h.src then t else t.setKey handle { k with replicas := k.replicas ++ [h.src] }
    | none => t))

/-- The head carves a grant of RESERVE leaves, fewer only at the key end, from its durable range: its N goes past it, and a GRANT record
is journaled before the grant is sent (R353, R467, R662). Without as many durable leaves the request waits. -/
def State.grantLeaves (s : State) (h : W32) (node : Nat) : State :=
  match s.getKey h with
  | none => s
  | some k => (match k.st with
    | none => s
    | some st =>
      let n := min st.reserve (st.keyEnd - st.next)
      let rest := st.grants.filter (fun g => decide (g ≠ (node, 0, 0)))
      if st.stopped ∨ k.deleted ∨ k.exported then s
      else if n = 0 ∨ st.durable < st.next + n then (s.setKey h { k with st := some { st with grants := rest ++ [(node, 0, 0)] } }).reserveLeaves h
      else
        let st1 := { st.goTo (st.next + n) with grants := rest ++ [(node, st.next, st.next + n)] }
        let s1 := s.setKey h { k with st := some st1 }
        let s2 := s1.journal {
          typ := 5, handle := h, a := st.next, b := st.next + n, obj := none, job := none, issued := s.trd.edge, node := node }
        ((s2.startBuilds h k st1).reserveLeaves h))

/-- Requests that waited for durable leaves are served. -/
def State.serveGrants (s : State) : State :=
  s.kst.objs.foldl (fun t p => match p.2.st with
    | some st => (st.grants.filter (fun g => decide (g = (g.1, 0, 0)))).foldl (fun u g => u.grantLeaves (BitVec.ofNat 32 p.1) g.1) t
    | none => t) s

/-- GRANT_REQ (R353, R662). -/
def execPlkGrantReq (port : Nat) (h : PlkHeader) (handle : W32) (s : State) : Host.Outcome State Fault Refusal :=
  .next (s.onFrame port h 11 (le 4 handle.toNat) (fun t => if t.plkRole = 1 then t.grantLeaves handle h.src else t))

/-- A worker's state with a further grant, which lies above its earlier ones (R353). -/
def takeGrant (st : Stateful) (first last : Nat) : Stateful :=
  let top := (st.more.getLast?.map (·.2)).getD st.durable
  if first < top ∨ last ≤ first then { st with asked := false }
  else if st.next = st.durable then { st with next := first, durable := last, issued := last, reserve := last - first, asked := false }
  else { st with more := st.more ++ [(first, last)], asked := false }

/-- Change a replica's stateful part. -/
def State.modReplica (s : State) (h : W32) (f : Stateful → Stateful) : State :=
  match KV.get? s.plk.keys h.toNat with
  | some k => { s with plk := { s.plk with keys := KV.set s.plk.keys h.toNat { k with st := k.st.map f } } }
  | none => s

/-- GRANT (R353, R662). -/
def execPlkGrant (port : Nat) (h : PlkHeader) (handle : W32) (first last : Nat) (s : State) : Host.Outcome State Fault Refusal :=
  .next (s.onFrame port h 12 (le 4 handle.toNat ++ le 8 first ++ le 8 last) (fun t => t.modReplica handle (fun st => takeGrant st first last)))

/-- REVOKE (R353, R662): the key's grants are lost. -/
def execPlkRevoke (port : Nat) (h : PlkHeader) (handle : W32) (s : State) : Host.Outcome State Fault Refusal :=
  .next (s.onFrame port h 13 (le 4 handle.toNat) (fun t => t.modReplica handle (fun st => { st with next := st.durable, more := [] })))

/-- LINK_DOWN_TIMEOUT (R664): 100 µs without a frame, or a retrain that failed. -/
def execLinkDownTimeout (port : Nat) (s : State) : Host.Outcome State Fault Refusal :=
  .next (if decide (s.portCount ≤ port) || decide ((s.getPort port).version = 0) || s.pcr.frozen then s else s.linkLoss port)

/-- PORT_RETRAIN_RETRY (R654): a refused port trains again. -/
def execPortRetrainRetry (port : Nat) (s : State) : Host.Outcome State Fault Refusal :=
  .next (if decide (s.portCount ≤ port) || decide ((s.getPort port).state ≠ 3) || s.pcr.frozen then s
    else (s.setPort port { s.getPort port with state := 1, reason := 0 }).startTraining port)

/-- The peer has NAKed a frame: it is sent again, up to 8 times, and then the port retrains (R656). -/
def State.resend (s : State) (n seq : Nat) : State :=
  let p := s.getPort n
  match p.sent.find? (fun f => decide (f.1 = seq)) with
  | none => s
  | some (_, typ, dst, payload, k) =>
    if k < 8 then
      (s.setPort n { p with sent := p.sent.map (fun f => if f.1 = seq then (f.1, f.2.1, f.2.2.1, f.2.2.2.1, k + 1) else f) }).putFrame n typ dst seq payload
    else
      let s1 := (s.setPort n { p with state := 1, retrains := satAdd p.retrains 1 0xFF }).plkCount 5 1
      ((s1.startTraining n).raise { src := 0x6001, detail := n }).plkSync

/-- NAK (R656). -/
def execPlkNak (port : Nat) (h : PlkHeader) (seq : Nat) (s : State) : Host.Outcome State Fault Refusal :=
  if !s.running || decide (s.portCount ≤ port) || decide ((s.getPort port).state ≠ 2) then .next s
  else if !h.lengthOk || !h.tagOk then .next (s.nakFrame port h)
  else
    let p := s.getPort port
    let s1 := s.setPort port { p with naks := satAdd p.naks 1 0xFFFF }
    .next ((((s1.plkCount 4 1).event 0x60 3 none 1).raise { src := 0x6000, detail := port }).resend port seq)

-- Registers and CLUSTER_STATUS.

/-- `PLK_NODEw` (R667). -/
def State.nodeWord (s : State) (w : Nat) : W32 :=
  match KV.get? s.plk.nodes w with
  | none => 0
  | some x => BitVec.ofNat 32 (2 ^ 31 + x.state * 2 ^ 28 + b2n x.locked * 2 ^ 27 + b2n x.relay * 2 ^ 26 + x.port * 2 ^ 20 + min 65535 (s.outstanding w))

/-- `CLUSTER_STATUS` (R665). -/
def kClusterStatus : Kernel := fun s _ _ =>
  (s, okOut ((List.range 32).flatMap (fun w =>
    le 4 (s.nodeWord w).toNat ++ zeros 12 ++ fit 16 (match KV.get? s.plk.nodes w with | some x => x.serial | none => []))))

/-- CLUSTER_STATUS (R665). -/
def execClusterStatus (job : Nat) (s : State) : Host.Outcome State Fault Refusal := s.runJob 0x0F00 job kClusterStatus

/-- `RNG_FILL` (R433): bytes of the host DRBG. -/
def kRngFill : Kernel := fun s _ j =>
  let (bs, s1) := s.drawHost (p32 j.par 0)
  (s1, okOut bs)

/-- RNG_FILL (R433): the draw falls in the tick after the admission edge. -/
def execRngFill (job : Nat) (s : State) : Host.Outcome State Fault Refusal :=
  .next (match KV.get? s.jobs job with
    | some j => if j.opcode = 0x0780 ∧ s.running then s.computeAfter 0 job kRngFill else s
    | none => s)

/-- `PLK_STATE` (R667). -/
def State.plkState (s : State) : W32 :=
  let up := s.portsWhere (fun p => decide (p.state = 2))
  let st := if !s.plkOn then 0 else if s.plk.isolated then 3 else if up.isEmpty then 1 else 2
  BitVec.ofNat 32 (st * 2 ^ 28 + (up.map (2 ^ ·)).sum * 65536 + ((s.portsWhere (fun p => decide (p.state = 4))).map (2 ^ ·)).sum * 256
    + (if s.plkRole = 1 then (s.plk.nodes.filter (fun x => decide (x.2.state = 2))).length else 0))

/-- The registers of one port (R666, R667). -/
def State.readPort (s : State) (n off : Nat) : W32 :=
  let p := s.getPort n
  if s.portCount ≤ n then (if off = 4 then BitVec.ofNat 32 (5 * 2 ^ 28) else 0)
  else match off with
  | 0 => BitVec.ofNat 32 (b2n p.en * 2 ^ 31 + b2n p.standby * 2 ^ 30)
  | 4 => BitVec.ofNat 32 (p.state * 2 ^ 28 + p.reason * 2 ^ 24 + p.width * 65536 + p.version * 256 + b2n p.uplink)
  | 8 => (match p.peer with | some (r, node) => BitVec.ofNat 32 (2 ^ 31 + r * 2 ^ 24 + node * 65536) | none => 0)
  | 12 => BitVec.ofNat 32 (p.naks * 65536 + p.retrains * 256 + p.auth)
  | 16 => BitVec.ofNat 32 (min 65535 p.delayNs)
  | 20 => BitVec.ofNat 32 (((s.plk.nodes.filter (fun x => decide (x.2.port = n))).map (fun x => s.outstanding x.1)).sum)
  | _ => 0

/-- The PLK registers (R666). -/
def State.readPlk (s : State) (off : Nat) : W32 :=
  let k := s.plk
  let t := s.getTest 0x60
  match off with
  | 0x100 => k.cfg
  | 0x104 => s.plkState
  | 0x108 => k.fwdCfg
  | 0x10C => BitVec.ofNat 32 (b2n k.locked * 2 ^ 31) ||| (BitVec.ofInt 16 k.phase).setWidth 32
  | 0x110 => BitVec.ofNat 32 k.peerSel
  | 0x114 => BitVec.ofNat 32 (b2n (KV.get? s.held.allow k.peerSel).isSome * 2 ^ 31)
  | 0x138 => BitVec.ofNat 32 t.sel
  | 0x13C => BitVec.ofNat 32 (b2n t.busy * 2 ^ 31 + b2n t.done * 2 ^ 30 + b2n t.pass * 2 ^ 29 + t.test)
  | _ =>
    if 0x118 ≤ off ∧ off < 0x138 then vget k.fpr ((off - 0x118) / 4) 0
    else if 0x140 ≤ off ∧ off < 0x1C0 then
      let c := vget k.cnt ((off - 0x140) / 8) 0
      BitVec.ofNat 32 (if off % 8 = 0 then c else c / 2 ^ 32)
    else if 0x200 ≤ off ∧ off < 0x300 then s.readPort ((off - 0x200) / 0x20) ((off - 0x200) % 0x20)
    else if 0x300 ≤ off ∧ off < 0x380 then s.nodeWord ((off - 0x300) / 4)
    else 0

/-- `PLK_CFG` (R651, R667): ROLE and NODE are set while EN = 0; a ROLE of 3 is refused. -/
def State.writePlkCfg (s : State) (v : W32) : State :=
  let old := s.plk.cfg
  let mask : W32 := if bit old 31 then 0xE0000000 else if bits v 25 24 = 3 then 0xE000001F else 0xE300001F
  let s1 : State := { s with plk := { s.plk with cfg := merge mask old v } }
  let ports := List.range s.portCount
  (if !bit old 31 && bit v 31 then ports.foldl State.trainPort s1
   else if bit old 31 && !bit v 31 then ports.foldl State.downPort s1 else s1).plkSync

/-- Writes of PLK registers without a row of their own (R667). -/
def State.writePlk (s : State) (off : Nat) (v : W32) : State :=
  let lock := (s.getBlk 0x60).lock
  if off = 0x100 then (if lock then s else s.writePlkCfg v)
  else if off = 0x108 then
    (if lock then s
     else
       let m : W32 := (if bits v 31 30 = 3 then 0 else 0xC0000000) ||| (if bits v 15 0 = 0 then 0 else 0xFFFF)
       { s with plk := { s.plk with fwdCfg := merge m s.plk.fwdCfg v } })
  else if off = 0x110 then { s with plk := { s.plk with peerSel := bits v 4 0 } }
  else if 0x118 ≤ off ∧ off < 0x138 then { s with plk := { s.plk with fpr := vset s.plk.fpr ((off - 0x118) / 4) v } }
  else if 0x200 ≤ off ∧ off < 0x300 ∧ (off - 0x200) % 0x20 = 0 ∧ (off - 0x200) / 0x20 < s.portCount then
    let n := (off - 0x200) / 0x20
    s.setPort n { s.getPort n with standby := bit v 30 }
  else s

end Sys2Proof.Machine
end

