-- ==== Sys2Proof/Machine/Admin.lean ====
section
/-! DEFINITION. Admin commands of every function (R130 to R151): how MGC executes them (R132), `IDENTIFY`, `SET_VERSION`,
queues, patterns and logs, and `QUEUE_CANCEL` (R118 to R121) and `NOP` (R109). -/

namespace Sys2Proof.Machine

/-- MGC executes an admin command of an opcode now: the module is up, and no state of the device answers it (R136, R595,
R722). -/
def State.adminMay (s : State) (op : Nat) : Bool :=
  s.pcr.ready && !s.pcr.frozen && (s.entryStatus 64 op).isNone
    && !s.hrt.haltPath

/-- The staged admin entry that MGC executes next on its function's queue: every earlier one has finished (R132), and the
function is not being drained or reset. -/
def State.adminJob (s : State) (op id : Nat) : Option Job :=
  match KV.get? s.jobs id with
  | none => none
  | some j =>
    if j.q = 64 ∧ j.opcode = op ∧ j.phase = .staged ∧ (s.getFn j.fn).state = 2 ∧ s.adminMay op ∧ !s.earlier j (fun _ => true) then some j
    else none

/-- The command has finished: its completion is written at the first release edge after (R132). -/
def State.adminEnd (s : State) (id : Nat) (r : Result) : State :=
  s.modJob id (fun j => { j with phase := .admitted, started := true, admitted := s.trd.edge, relEdge := s.trd.edge + 1, result := some r })

/-- The command is under execution and goes on later. -/
def State.adminWait (s : State) (id : Nat) : State :=
  s.modJob id (fun j => { j with phase := .admitted, started := true, admitted := s.trd.edge })

/-- An admin command that has been started and has not finished. -/
def State.adminOpen (s : State) (op id : Nat) : Option Job :=
  match KV.get? s.jobs id with
  | none => none
  | some j => if j.q = 64 ∧ j.opcode = op ∧ j.phase = .admitted ∧ j.result = none then some j else none

/-- Execute a command's meaning on its entry, if MGC executes it now. -/
def State.onAdmin (s : State) (op id : Nat) (f : State → Job → State) : State :=
  match s.adminJob op id with
  | none => s
  | some j => f s j

/-- Go on with a command that has been started. -/
def State.onOpen (s : State) (op id : Nat) (f : State → Job → State) : State :=
  match s.adminOpen op id with
  | none => s
  | some j => f s j

/-- `BAD_PARAMETER` with a reason code (R135). -/
def badParam (reason : Nat) : Result := statusDetail 0x0014 reason
/-- `POLICY_DENIED` with a reason code. -/
def denied (reason : Nat) : Result := statusDetail 0x0024 reason

/-- NOP (R109): not presented, completed as soon as it has been taken, or under FENCE after every earlier entry. -/
def execQueueNop (job : Nat) (s : State) : Host.Outcome State Fault Refusal :=
  match KV.get? s.jobs job with
  | none => .next s
  | some j =>
    if j.q ≠ 64 ∧ j.opcode = 0 ∧ j.phase = .staged ∧ (s.getFn j.fn).state = 2 ∧ s.running ∧ s.deviceStatus = none
        ∧ !(j.fence && s.earlier j (fun _ => true)) then .next (s.finishWith job 0)
    else .next s

-- IDENTIFY (R137).

/-- The part number in ASCII (R1). -/
def State.partName (s : State) : List Byte :=
  [0x4E, 0x52, 0x4E, 0x2D, 0x34, 0x38] ++ (if s.part = 0 then [0x31, 0x36] else if s.part = 1 then [0x30, 0x38] else [0x30, 0x34])

/-- Bitmap of the numbers below `n` that satisfy a condition. -/
def bitmap (n : Nat) (f : Nat → Bool) : Nat := (List.range n).foldl (fun w i => w + (if f i then 2 ^ i else 0)) 0

def State.pvuActive (s : State) : Nat := bitmap s.pvus (fun n => !s.retired (0x10 + n))
def State.bneActive (s : State) : Nat := bitmap s.bnes (fun n => !s.retired (0x20 + n))
def State.plkActive (s : State) : Nat := bitmap s.portCount (fun n => decide ((vget s.plk.ports n {}).state = 2))

/-- The record of one interface (R137, R148). -/
def versionRec (lo hi used : Nat) : List Byte := le 1 lo ++ le 1 hi ++ le 1 used ++ zeros 1

/-- The 256-byte structure. -/
def State.identity (s : State) (fn : Nat) : List Byte :=
  let f := s.getFn fn
  fit 16 s.partName ++ fit 16 Config.serial ++ fit 4 Config.fwVer
    ++ le 1 s.pvus ++ le 1 s.bnes ++ le 1 s.cores ++ le 1 s.portCount ++ le 2 s.pvuActive ++ le 1 s.bneActive ++ le 1 s.plkActive
    ++ le 2 s.trd.period ++ le 1 (if s.part = 0 then 1 else 2) ++ le 1 s.held.life ++ le 2 fn ++ le 2 f.ioqLimit ++ le 2 f.tableSize
    ++ zeros 2 ++ le 4 f.keyLimit ++ zeros 4
    ++ versionRec 1 2 0 ++ versionRec 1 2 f.mbxVer ++ versionRec 1 2 0 ++ versionRec 1 1 0 ++ versionRec 1 1 0 ++ versionRec 1 1 0
    ++ versionRec 1 1 0 ++ versionRec 0x12 0x13 0 ++ zeros 160

/-- IDENTIFY (R137). -/
def execIdentify (job : Nat) (s : State) : Host.Outcome State Fault Refusal :=
  .next (s.onAdmin 0x0001 job (fun t j => t.adminEnd job (okOut (t.identity j.fn))))

-- SET_VERSION (R138, R139).

/-- A mailbox exchange is in progress: a box holds a message that has not been acknowledged. -/
def Func.exchange (f : Func) : Bool := f.up.full || f.dn.full

def State.setVersion (s : State) (id : Nat) (j : Job) : State :=
  let v := min (p8 j.par 1) 2
  if p8 j.par 0 ≠ 2 then s.adminEnd id (badParam 0x07)
  else if v < 1 then s.adminEnd id (badParam 0x05)
  else if (s.getFn j.fn).exchange then (s.setFn j.fn { s.getFn j.fn with mbxNext := some (v, id) }).adminWait id
  else (s.setFn j.fn { s.getFn j.fn with mbxVer := v }).adminEnd id { detail := BitVec.ofNat 64 v }

/-- SET_VERSION (R138). -/
def execSetVersion (job : Nat) (s : State) : Host.Outcome State Fault Refusal := .next (s.onAdmin 0x0002 job (fun t j => t.setVersion job j))

/-- SET_VERSION_APPLY (R139): the version applies to the next message once no exchange is in progress. -/
def execSetVersionApply (fn : Nat) (s : State) : Host.Outcome State Fault Refusal :=
  let f := s.getFn fn
  match f.mbxNext with
  | none => .next s
  | some (v, id) =>
    if f.exchange ∨ !s.running then .next s
    else .next ((s.setFn fn { f with mbxVer := v, mbxNext := none }).adminEnd id { detail := BitVec.ofNat 64 v })

-- QUEUE_CREATE and QUEUE_DESTROY (R140 to R143).

/-- I/O queues of a function, and of the module. -/
def State.ioQueues (s : State) (fn : Nat) : List Nat := (List.range 64).filter (fun q => (s.getQueue fn q).isSome)
def State.allQueues (s : State) : Nat := (s.queues.filter (fun p => decide (p.1 % 65 ≠ 64))).length

/-- The queue that a 32-byte descriptor describes (R140). -/
def queueOf (d : List Byte) : Queue := {
  ring := field d 0 8, headAddr := field d 8 8, depth := field d 16 4, ver := field d 20 1, ordered := decide (field d 21 1 % 2 = 1),
  vector := field d 22 1, coalCount := field d 23 1, coalTicks := field d 24 1, defDeadline := field d 26 2 }

/-- Why a descriptor is refused, the first reason in the order of R141; 0 = it is not. -/
def State.queueReason (s : State) (fn : Nat) (d : List Byte) : Nat :=
  let x := queueOf d
  if x.ring % 4096 ≠ 0 ∨ x.headAddr % 8 ≠ 0 then 0x04
  else if !(List.range 13).any (fun k => decide (x.depth = 16 * 2 ^ k)) then 0x03
  else if x.ver < 1 ∨ 2 < x.ver then 0x05
  else if (s.getFn fn).tableSize ≤ x.vector then 0x02
  else if field d 21 1 / 2 ≠ 0 ∨ field d 25 1 ≠ 0 ∨ field d 28 4 ≠ 0 then 0x0C
  else if (s.getFn fn).ioqLimit ≤ (s.ioQueues fn).length ∨ 4096 ≤ s.allQueues then 0x01
  else 0

/-- The lowest free local index of a function (R142). -/
def State.freeQueue (s : State) (fn : Nat) : Nat := ((List.range 64).find? (fun q => (s.getQueue fn q).isNone)).getD 63

/-- QUEUE_CREATE (R141, R142): the queue itself appears at the release edge of the completion. -/
def execQueueCreate (job : Nat) (s : State) : Host.Outcome State Fault Refusal :=
  .next (s.onAdmin 0x0010 job (fun t j =>
    let r := t.queueReason j.fn j.input
    t.adminEnd job (if r ≠ 0 then badParam r else { detail := BitVec.ofNat 64 (t.freeQueue j.fn) })))

/-- The queue is created with its head word, before the completion of `QUEUE_CREATE` (R142). -/
def State.createQueue (s : State) (fn q : Nat) (d : List Byte) : State := (s.setQueue fn q (queueOf d)).writeHead fn (queueOf d)

/-- QE takes entries of a cancelled queue again (R119 step 7). -/
def State.startQueue (s : State) (fn q : Nat) : State :=
  match s.getQueue fn q with
  | none => s
  | some x => s.setQueue fn q { x with stopped := false }

/-- QE stops taking entries of a queue; untaken copies stay unless dropped later. -/
def State.stopQueue (s : State) (fn q : Nat) : State :=
  match s.getQueue fn q with
  | none => s
  | some x => s.setQueue fn q { x with stopped := true, scanning := false, paused := false }

/-- QUEUE_DESTROY (R143): QE stops taking, and entries not admitted are cancelled. -/
def execQueueDestroy (job : Nat) (s : State) : Host.Outcome State Fault Refusal :=
  .next (s.onAdmin 0x0011 job (fun t j =>
    let q := p16 j.par 0
    if q < 64 ∧ (t.getQueue j.fn q).isSome then ((t.stopQueue j.fn q).cancelWaiting j.fn q).adminWait job
    else t.adminEnd job (badParam 0x06)))

/-- A queue is removed with its window, its cached copies and what is left of its entries (R143). -/
def State.dropQueue (s : State) (fn q : Nat) : State :=
  { s with
    queues := KV.erase s.queues (qkey fn q)
    jobs := s.jobs.filter (fun p => !(decide (p.2.fn = fn) && decide (p.2.q = q) && p.2.cluster.isNone)) }

/-- QUEUE_DESTROY_DONE (R143). -/
def execQueueDestroyDone (job : Nat) (s : State) : Host.Outcome State Fault Refusal :=
  .next (s.onOpen 0x0011 job (fun t j =>
    let q := p16 j.par 0
    match t.getQueue j.fn q with
    | none => t
    | some x => if (t.queueJobs j.fn q).isEmpty then ((t.writeHead j.fn x).dropQueue j.fn q).adminEnd job {} else t))

-- QUEUE_CANCEL (R118 to R121).

/-- The entry may be cancelled: taken and not admitted, or an admitted stateless one that has not started and whose effect has not been
made (R119 steps 2 to 4, R120, R660). -/
def State.cancellable (s : State) (j : Job) : Bool :=
  !j.finished && (decide (j.phase ≠ .admitted) || (!j.started && j.result.isNone && j.forward.isNone && !sideEffecting j.opcode j.par (s.ephemeralKey j.e)))

/-- Steps 2 to 4 of R119; a duplicate that waited for a cancelled original has its own `CANCELLED` record, and counts (R112). -/
def State.cancelTaken (s : State) (job fn q : Nat) : State :=
  let t := (s.queueJobs fn q).foldl (fun t id => if t.cancellable (t.getJob id) then t.finishWith id 0x0060 else t) s
  t.modJob job (fun x => { x with cancelled := (s.queueJobs fn q).length - (t.queueJobs fn q).length })

/-- An untaken entry is taken to be cancelled (R119 step 5, R156). -/
def State.cancelEntry (s : State) (job fn q : Nat) (x : Queue) (e : Entry) : State :=
  let id := s.nextJob
  let j : Job := { fn := fn, q := q, num := x.sp, ver := x.ver, e := e, taken := s.trd.edge, phase := .staged }
  let s1 : State := { (s.setQueue fn q { x with sp := x.sp + 1, retried := false }).setJob id j with nextJob := id + 1 }
  let s2 := if x.ver = 1 then s1.hostWrite fn (slotAddr x x.sp) (le 4 (takenCtl e.ctl).toNat) else s1
  (s2.finishWith id 0x0060).modJob job (fun y => { y with cancelled := y.cancelled + 1, cancelRest := y.cancelRest.map (· - 1) })

/-- Step 5 of R119 over the reads that have returned; it waits while SP − HEAD = depth. A slot whose read fails twice is taken with
`ADDRESS_FAULT` (R91) and counts neither toward COUNT nor in `DETAIL` (DESIGN CHOICE; log entry 57). -/
def State.cancelReads (s : State) (job fn q : Nat) : List Fetched → State
  | [] => s
  | r :: rs =>
    match s.getQueue fn q, (s.getJob job).cancelRest with
    | some x, some (_ + 1) =>
      if x.sp - x.head = x.depth then s
      else match r with
        | .failed =>
          if x.retried then (s.takeFailed fn q x).cancelReads job fn q rs
          else (s.setQueue fn q { x with retried := true }).cancelReads job fn q rs
        | .data bs =>
          let e := entryOf x.ver bs
          if bit e.ctl 31 then (s.cancelEntry job fn q x e).cancelReads job fn q rs
          else s.modJob job (fun y => { y with cancelRest := none })
    | _, _ => s

/-- Step 5 has ended when it has cancelled all it may. -/
def State.cancelCheck (s : State) (job : Nat) : State :=
  s.modJob job (fun y => { y with cancelRest := if y.cancelRest = some 0 then none else y.cancelRest })

/-- QUEUE_CANCEL begins: steps 1 to 5 of R119; the copies of the queue are dropped and none is used. -/
def State.startCancel (s : State) (job : Nat) (j : Job) (q : Nat) (x : Queue) (reads : List Fetched) : State :=
  let count := p32 j.par 4
  let s1 := (s.adminWait job).modJob job (fun y => { y with cancelRest := some (if count = 0 then x.depth else count) })
  let s2 := (s1.stopQueue j.fn q).cancelTaken job j.fn q
  let s3 := match s2.getQueue j.fn q with | some y => s2.setQueue j.fn q { y with cache := [], want := [], retried := false } | none => s2
  (s3.cancelReads job j.fn q reads).cancelCheck job

/-- QUEUE_CANCEL (R119); given again for a command whose step 5 waits for HEAD, it goes on with further reads. -/
def execQueueCancel (job : Nat) (reads : List Fetched) (s : State) : Host.Outcome State Fault Refusal :=
  match s.adminJob 0x0014 job with
  | some j =>
    (match (if p16 j.par 0 < 64 then s.getQueue j.fn (p16 j.par 0) else none) with
      | none => .next (s.adminEnd job (badParam 0x06))
      | some x => .next (s.startCancel job j (p16 j.par 0) x reads))
  | none => .next (s.onOpen 0x0014 job (fun t j => (t.cancelReads job j.fn (p16 j.par 0) reads).cancelCheck job))

/-- QUEUE_CANCEL_DONE (R119 step 6): the head word has its EPOCH incremented; QE takes entries again once the completion is written. -/
def execQueueCancelDone (job : Nat) (s : State) : Host.Outcome State Fault Refusal :=
  .next (s.onOpen 0x0014 job (fun t j =>
    let q := p16 j.par 0
    match t.getQueue j.fn q with
    | none => t
    | some x =>
      if j.cancelRest.isSome ∨ !(t.queueJobs j.fn q).isEmpty then t
      else
        let x1 := { x with epoch := x.epoch + 1 }
        ((t.setQueue j.fn q x1).writeHead j.fn x1).adminEnd job { detail := BitVec.ofNat 64 j.cancelled }))

-- Patterns (R144, R145, R275 to R277).

/-- PATTERN_LOAD (R144, R275, R276). -/
def execPatternLoad (job : Nat) (s : State) : Host.Outcome State Fault Refusal :=
  .next (s.onAdmin 0x0020 job (fun t j => let r := t.loadPattern j.fn j.input; r.1.adminEnd job r.2))

/-- Number under which a function's pattern is held. -/
def State.patKey (s : State) (fn id : Nat) : Option (Nat × Pattern) := s.patterns.find? (fun p => decide (p.2.fn = fn) && decide (p.2.id = id))

/-- PATTERN_UNLOAD (R145): no further run of the pattern is admitted. -/
def execPatternUnload (job : Nat) (s : State) : Host.Outcome State Fault Refusal :=
  .next (s.onAdmin 0x0021 job (fun t j =>
    match t.patKey j.fn (p16 j.par 0) with
    | none => t.adminEnd job (badParam 0x0A)
    | some (k, p) => ({ t with patterns := KV.set t.patterns k { p with unloading := some job } } : State).adminWait job))

/-- PATTERN_UNLOAD_DONE (R145). -/
def execPatternUnloadDone (job : Nat) (s : State) : Host.Outcome State Fault Refusal :=
  .next (s.onOpen 0x0021 job (fun t j =>
    match t.patKey j.fn (p16 j.par 0) with
    | none => t
    | some (k, p) =>
      let runs := t.jobs.any (fun x => decide (x.2.fn = j.fn) && decide (x.2.opcode = 0x0900) && decide (x.2.phase = .admitted)
        && decide (p16 x.2.par 0 = p.id) && x.2.cluster.isNone)
      if runs ∨ p.unloading ≠ some job then t else ({ t with patterns := KV.erase t.patterns k } : State).adminEnd job {}))

-- LOG_READ (R146).

/-- A record of an instance event log (R541). -/
def eventBytes (e : EventRec) : List Byte :=
  le 8 e.seq ++ le 8 e.tick ++ le 1 e.etype ++ le 1 (b2n e.committed) ++ le 2 e.queue ++ le 4 e.entry ++ le 8 e.tag.toNat
    ++ le 2 e.opcode ++ le 2 e.status ++ le 4 e.handle.toNat ++ le 8 e.detail.toNat ++ zeros 16

/-- The records of a log that a function may read, oldest first: their sequence numbers and bytes. -/
def State.logRecords (s : State) (fn log : Nat) : Option (List (Nat × List Byte)) :=
  if log = 1 then some ((s.getFn fn).events.reverse.map (fun e => (e.seq, eventBytes e)))
  else if fn ≠ 0 then none
  else if log = 2 then some (s.hrt.log.reverse.map (fun r => (r.seq, fltRecBytes r)))
  else if log = 3 then some (s.held.evidRing.reverse.map (fun r => (r.seq, evidenceBytes r)))
  else if log = 4 then some (s.pmu.tele.reverse.map (fun r => (r.seq, r.bytes)))
  else none

/-- What `LOG_READ` answers from a start number into a capacity. Where no record is available, the number to read next is the start number
itself (DESIGN CHOICE; log entry 57). -/
def logAnswer (recs : List (Nat × List Byte)) (start cap : Nat) : Result :=
  let w := (recs.filter (fun r => decide (start ≤ r.1))).take (cap / 64)
  match w.head?, w.getLast? with
  | some a, some z =>
    let gap := if start < a.1 then 2 ^ 63 else 0
    { okOut (w.flatMap (·.2)) with detail := BitVec.ofNat 64 ((z.1 + 1) % 2 ^ 63 + gap) }
  | _, _ => { detail := BitVec.ofNat 64 (start % 2 ^ 63) }

/-- LOG_READ (R146). -/
def execLogRead (job : Nat) (s : State) : Host.Outcome State Fault Refusal :=
  .next (s.onAdmin 0x0030 job (fun t j =>
    match t.logRecords j.fn (p8 j.par 0) with
    | none => t.adminEnd job (badParam 0x0B)
    | some recs => t.adminEnd job (logAnswer recs (field j.par 4 8) j.e.outCap)))

end Sys2Proof.Machine
end

