-- ==== Sys2Proof/Machine/BneBase.lean ====
section
/-! DEFINITION. The Big Number Engine: runs (R167, R370, R379, R387), aborts (R383), command words (R371 to R375), scorch
marks (R386) and registers (R402, R403). -/

namespace Sys2Proof.Machine

/-- The kernel ID of a run: the opcode for raw operations (R403). -/
def kernelNo (op : Nat) : Nat := if op / 256 = 0x08 then op else Config.kernelId op % 65536

/-- A slot of the operand memory as a number, and whether a word of its low `l` words is scorched. -/
def Bne.slot (b : Bne) (n : Nat) : Nat := (vget b.slots n 0).toNat
def Bne.low (b : Bne) (n l : Nat) : Nat := b.slot n % 2 ^ (64 * l)
def Bne.marked (b : Bne) (n l : Nat) : Bool := decide ((vget b.scorch n 0).toNat % 2 ^ l ≠ 0)

/-- The low `l` words of a slot are written, the rest is zero (R368); a mark covers the whole result (R386). -/
def Bne.put (b : Bne) (n l v : Nat) (k : Bool) : Bne :=
  { b with
    slots := vset b.slots n (BitVec.ofNat 16384 (v % 2 ^ (64 * l))),
    scorch := vset b.scorch n (if k then BitVec.ofNat 256 (2 ^ l - 1) else 0) }

/-- Slots of a modulus context (R367). -/
def ctxSlot (mc : Nat) : Nat := 32 + 2 * mc
/-- The modulus of a context. -/
def Bne.modulus (b : Bne) (mc : Nat) : Nat := b.slot (ctxSlot mc)

/-- Fields of a command word (R371). -/
def lenOf (i : BneWord) : Nat := i.len.toNat
def dOf (i : BneWord) : Nat := i.d.toNat
def aOf (i : BneWord) : Nat := i.a.toNat
def bOf (i : BneWord) : Nat := i.b.toNat
def mcOf (i : BneWord) : Nat := i.mc.toNat
def immOf (i : BneWord) : Nat := i.imm.toNat
/-- The byte offset IMM[13:0] and the order bit IMM[23]. -/
def offOf (i : BneWord) : Nat := immOf i % 16384
def bigEnd (i : BneWord) : Bool := i.imm.getLsbD 23

/-- What the table says of a command: OP, the slot fields it uses, its buffer bound, its cycles and its effect; none = a
scorched word bites. -/
structure BneOp where
  op    : Nat
  useD  : Bool := false
  useA  : Bool := false
  useB  : Bool := false
  len   : Bool := true
  ok    : BneWord → Bool := fun _ => true
  exp   : BneWord → Nat := fun _ => 0
  body  : Bne → BneWord → Option Bne

/-- A slot that commands may address (R367). -/
def opSlot (n : Nat) : Bool := decide (48 ≤ n) && decide (n ≤ 127)

/-- A valid word (R373). -/
def BneOp.valid (o : BneOp) (i : BneWord) : Bool :=
  decide (i.rsv = 0) && (!o.len || (decide (1 ≤ lenOf i) && decide (lenOf i ≤ 256)))
    && (!o.useD || opSlot (dOf i)) && (!o.useA || opSlot (aOf i)) && (!o.useB || opSlot (bOf i)) && o.ok i

/-- A scorched word bites: the run is aborted and its job completes `POISONED` (R386). -/
def State.bnePoison (s : State) (n : Nat) : State :=
  let s1 := s.bneAbort n .poison
  match (s.getBne n).jobId with
  | none => s1
  | some id => s1.modJob id (fun j => { j with failed := some (j.failed.getD (0x0050, 0x4001)) })

/-- The commands at whose end the result is checked against the residues of its sources (R381): those that compare their operands with m. -/
def residueChecked (op : Nat) : Bool := decide (6 ≤ op) && decide (op ≤ 0x0B)

/-- Word steps of a command: a position is drawn from the MRG for each group of k that they open (R377). -/
def Bne.steps (b : Bne) (eng c : Nat) : Bne :=
  let groups := ceilDiv (b.stepCnt + c) b.k - ceilDiv b.stepCnt b.k
  if groups = 0 then { b with stepCnt := (b.stepCnt + c) % b.k }
  else
    let last := b.mrgUsed + 16 * (groups - 1)
    { b with stepCnt := (b.stepCnt + c) % b.k, stepAt := (Config.mrg eng last).toNat % b.k, mrgUsed := b.mrgUsed + 16 * groups }

/-- A command that is executed: its cycles, the published ones or those of a patched routine (R501, R504), and its counter. -/
def Bne.issued (b : Bne) (eng : Nat) (o : BneOp) (i : BneWord) (m : Option MicroRun) : Bne :=
  let c := match m with | none => bneCycles o.op (lenOf i) (o.exp i) | some x => x.clocks
  let b1 := b.steps eng c
  { b1 with
    cmdIndex := b.cmdIndex + 1, realCyc := b.realCyc + c, cnt := vmod b.cnt 3 0 (· + 1),
    mrgUsed := b1.mrgUsed + (match m with | none => 0 | some x => 16 * x.rnd),
    bob := match m with | none => b.bob | some x => b.bob.after x }

/-- A computation fault of a run (R381, R373, R502): the run is aborted, and its job goes by R40. -/
def State.bneFault (s : State) (n : Nat) (c : BneCause) : State :=
  (s.bneAbort n c).computeFault ((0x20 + n) * 256) (16 + n) (s.getBne n).jobId

/-- The job of a kernel whose invariant does not hold at END completes `INVARIANT_FAILED`, without output or retry (R382). -/
def State.bneInvariant (s : State) (n : Nat) : State :=
  let src := (0x20 + n) * 256 + 1
  let s1 := s.bneAbort n .invariant
  let s2 := match (s.getBne n).jobId with
    | none => s1
    | some id => s1.modJob id (fun j => { j with failed := some (j.failed.getD (0x0052, src)) })
  s2.raise (s2.jobEvent src (s.getBne n).jobId 0 0)

/-- An invariant fails at END: raw modular operations have none (R382). -/
def Bne.invariantFails (b : Bne) (o : BneOp) (i : BneWord) : Bool :=
  decide (o.op = 0x10) && decide (i.upset = .invariant) && decide (b.runKernel / 256 ≠ 0x08)

/-- The clear of a BNE after an abort ends: its memory reads back as zero, or ZERO_FAIL fires (R383). -/
def State.endClear (s : State) (n : Nat) (ok : Bool) : State :=
  let b := s.getBne n
  let s1 := s.setBne n { b with zeroing := false, zeroOk := ok, zeroTick := s.trd.edge % 65536 }
  if ok then s1 else s1.raise { src := (0x20 + n) * 256 + 5 }

/-- The slots a command reads and writes by its fields, and whether a 64-bit word of the operand memory lies in one. -/
def BneOp.reads (o : BneOp) (i : BneWord) (w : Nat) : Bool :=
  (o.useA && decide (w / 256 = aOf i)) || (o.useB && decide (w / 256 = bOf i))

/-- The operands are read: an injected error is reported, and an uncorrectable word is scorched (R557, R558). -/
def State.bneRead (s : State) (o : BneOp) (i : BneWord) : State :=
  let r := 16 + i.bne
  let bad := s.mem.injected.filter (fun x => decide (x.1 = r) && o.reads i x.2.1 && x.2.2)
  let b := s.getBne i.bne
  let t := s.readInjected r (o.reads i)
  match bad with
  | [] => t
  | x :: _ =>
    let slot := x.2.1 / 256
    t.setBne i.bne { b with scorch := vset b.scorch slot (vget b.scorch slot 0 ||| BitVec.ofNat 256 (2 ^ (x.2.1 % 256))) }

/-- Slots written anew are free of injected errors, but for one that an armed injection meets (R572). -/
def State.bneInject (s : State) (n : Nat) (old : Bne) (o : BneOp) (i : BneWord) : State :=
  let b := s.getBne n
  let hit (w : Nat) : Bool := (o.useD && decide (w / 256 = dOf i)) || decide (vget b.slots (w / 256) 0 ≠ vget old.slots (w / 256) 0)
  match (s.dropInjected (fun x => decide (x.1 = 16 + n) && hit x.2.1)).injectAt (16 + n) (fun a => hit (a / 8)) with
  | (none, t) => t
  | (some (kind, a), t) =>
    let slot := a / 2048
    if kind = 2 then t.setBne n { b with scorch := vset b.scorch slot (vget b.scorch slot 0 ||| BitVec.ofNat 256 (2 ^ (a % 2048 / 8))) }
    else if kind < 2 then t.keepInjected (16 + n) (a / 8) (decide (kind = 1))
    else t

/-- One command of a run (R371 to R373, R381, R382). -/
def State.bneRun (s0 : State) (o : BneOp) (i : BneWord) : State :=
  let n := i.bne
  let s := if o.valid i then s0.bneRead o i else s0
  let b := s.getBne n
  let m := b.bob.routine true {} (bneEntry o.op) b.w
  if !o.valid i then s.bneFault n .cmdInvalid
  else if m.any (fun x => decide (x.ends = .fault)) then s.bneFault n .compute
  else
    let b1 := b.issued (16 + n) o i m
    match o.body b1 i with
    | none => s.bnePoison n
    | some b2 =>
      if residueChecked o.op && decide (i.upset = .residue) then s.bneFault n .compute
      else if b.invariantFails o i then s.bneInvariant n
      else ((s.setBne n b2).bneInject n b o i).event (0x20 + n) 4 (some b.runFn) 1

/-- A row of the command table: the BNE executes a command while a run's command path goes on; otherwise dummy steps run. -/
def bneExec (o : BneOp) (i : BneWord) (s : State) : Host.Outcome State Fault Refusal :=
  if !s.present (0x20 + i.bne) || decide (8 ≤ i.bne) then .fault .absentUnit
  else
    let b := s.getBne i.bne
    if b.zeroing && decide (i.upset = .readBack) then .next (s.endClear i.bne false)
    else if !s.running || decide (b.phase ≠ .running) || b.pathDone || b.bob.parked then .next s
    else .next (s.bneRun o i)

-- Runs.

/-- The run whose interval starts next on a BNE, by the end of the tick that runs (R167). -/
def State.nextRun (s : State) (n : Nat) : Option Booking :=
  let b := s.getBne n
  ((s.bneRuns n).filter (fun x => decide (b.nextStart ≤ x.start) && decide (x.start < (s.trd.edge + 1) * s.bneTick))).foldl
    (fun m x => match m with
      | none => some x
      | some y => if x.start < y.start then some x else some y) none

/-- The dummy ratio with which a run was booked. -/
def runRatio (b : Booking) : Nat := match b.kind with | .run k => k | _ => 4

/-- The private key that a run reads (R369). -/
def State.runKey (s : State) (j : Job) : Option KeyObj :=
  match s.jobKey j with
  | some k => if j.e.keyHandle ≠ 0 ∧ !k.publicOnly then some k else none
  | none => none

/-- The dummy operands are refilled from the engine's MRG (R367). -/
def Bne.refill (b : Bne) (eng : Nat) : Bne :=
  (List.range 8).foldl (fun (x : Bne) i =>
    { x.put (40 + i) 256 (unLe ((List.range 2048).map (fun k => Config.mrg eng (x.mrgUsed + k)))) false with mrgUsed := x.mrgUsed + 2048 }) b

/-- The engine takes a run up: buffers, random buffer and key path are filled in the turnaround (R369, R370). -/
def State.startRun (s : State) (n : Nat) (bk : Booking) (id : Nat) (j : Job) : State :=
  let draws := needsInt j.opcode j.par || decide (j.opcode = 0x0806)
  let (r, s0) := if draws then s.drawInt 4096 else ([], s)
  let key := s0.runKey j
  let s1 := match key with | some k => (s0.sendKey k.order k.priv).2 | none => s0
  let b := (s1.getBne n).refill (16 + n)
  let b1 := { b with
    phase := .running, jobId := some id, pathDone := false, realCyc := 0, stepCnt := 0, bob := b.bob.fresh, w := bk.cycles, k := runRatio bk, cmdIndex := 0,
    inBuf := fit 16384 (j.input.take 16384), outBuf := zeros 8192, inScorched := j.scorched, randBuf := r, randUsed := 0,
    keyParts := match key with | some k => (List.range 256).map (Config.keyComponent k.typ k.pset k.priv) | none => [],
    keyScorched := match key with | some k => k.scorched | none => false,
    helper := if j.opcode / 16 = 0x52 then Config.helperState s1.free else 0,
    rangeFail := false, notInvertible := false, modulusInvalid := false, runFn := j.fn, runKernel := kernelNo j.opcode,
    nextStart := bk.start + 1, active := true, idleTicks := 0, cnt := vmod (vmod b.cnt 0 0 (· + bk.cycles)) 2 0 (· + 1) }
  (((s1.setBne n b1).event (0x20 + n) 1 (some j.fn) 1).event (0x20 + n) 2 (some j.fn) bk.cycles).modJob id (fun x => { x with started := true })

/-- The first run that starts cannot fill its random buffer: it carries dummy steps and is planned again (R380). -/
def State.dryRun (s : State) (n : Nat) (bk : Booking) (id : Nat) : State :=
  let b := s.getBne n
  (s.setBne n { b with nextStart := bk.start + 1 }).modJob id (fun x => { x with rebook := true, replanDry := true })

/-- The interval of a job's run starts: the transfers to the engine have arrived (R17, R612), and a job that does not go on leaves
dummy steps. -/
def State.openRun (s0 : State) (bne : Nat) (bk : Booking) (id : Nat) (arrived : List Arrival) : State :=
  let s := s0.engineArrivals (16 + bne) (some id) arrived
  let b := s.getBne bne
  let j := s.getJob id
  if !s.running then s
  else if j.finished || j.squashed || j.faulted || j.failed.isSome then s.setBne bne { b with nextStart := bk.start + 1, phase := .between }
  else if (needsInt j.opcode j.par || decide (j.opcode = 0x0806)) && !s.intSeeded then s.dryRun bne bk id
  else s.startRun bne bk id j

/-- BNE_RUN_START (R167): the interval of the next booked run starts. -/
def execBneRunStart (start : RunAt) (s : State) : Host.Outcome State Fault Refusal :=
  let bne := start.bne
  let b := s.getBne bne
  if !s.running || !s.trd.ready || decide (s.bnes ≤ bne) || s.retired (0x20 + bne) || decide (b.phase = .running) || !b.powered then .next s
  else
    match s.nextRun bne with
    | none => .next s
    | some bk =>
      match bk.job with
      | none => .next s
      | some id => .next (s.openRun bne bk id start.arrived)

/-- Dummy steps of a run (R377, R379): those of its ratio, and the rest of W where the path ended earlier. -/
def runDummy (b : Bne) : Nat := if b.pathDone then b.w - b.realCyc else b.w - b.w * b.k / (b.k + 1)

/-- The end of a run's W (R387). -/
def State.endRun (s : State) (bne : Nat) : State :=
  let b := s.getBne bne
  let long := decide (b.longThresh ≠ 0) && decide (b.longThresh * 1024 ≤ b.w)
  let c := vmod (vmod b.cnt 1 0 (· + runDummy b)) 9 0 (· + b2n long)
  let s1 := (s.setBne bne { b with phase := .between, jobId := none, pathDone := false, runFn := 0, runKernel := 0, cnt := c }).event
    (0x20 + bne) 3 none (runDummy b)
  if long then s1.cause (0x20 + bne) 0 else s1

/-- BNE_RUN_END (R387): the end of W. -/
def execBneRunEnd (bne : Nat) (s : State) : Host.Outcome State Fault Refusal :=
  if !s.running || decide (s.bnes ≤ bne) || decide ((s.getBne bne).phase ≠ .running) then .next s else .next (s.endRun bne)

/-- The ratio in force is min(RATIO, level limit) (R378). -/
def State.readBne (s : State) (n off : Nat) : W32 :=
  let b := s.getBne n
  let t := s.getTest (0x20 + n)
  let state := if t.busy then 2 else if b.zeroing then 3 else if b.active then 1 else 0
  match off with
  | 0x100 => BitVec.ofNat 32 (state * 2 ^ 28 + 1200)
  | 0x104 => BitVec.ofNat 32 (s.cmOf (16 + n))
  | 0x108 => BitVec.ofNat 32 (s.ratioOf n * 16 + b.ratio)
  | 0x10C => BitVec.ofNat 32 (if b.phase = .running then b.runFn % 256 * 2 ^ 24 + b.runKernel % 65536 else 0)
  | 0x110 => BitVec.ofNat 32 (if b.phase = .running then b.w - b.realCyc - ceilDiv b.realCyc b.k else 0)
  | 0x114 => BitVec.ofNat 32 b.longThresh
  | 0x118 => b.excLast
  | 0x11C => BitVec.ofNat 32 b.excPc
  | 0x120 => BitVec.ofNat 32 (b2n b.mrgStale * 2 ^ 31 + min 255 b.mrgMissed)
  | 0x124 => BitVec.ofNat 32 (b2n b.zeroing * 2 ^ 31 + b2n b.zeroOk * 2 ^ 30 + b.zeroTick % 65536)
  | 0x128 => BitVec.ofNat 32 t.sel
  | 0x12C => BitVec.ofNat 32 (b2n t.busy * 2 ^ 31 + b2n t.done * 2 ^ 30 + b2n t.pass * 2 ^ 29 + t.test)
  | _ =>
    if 0x140 ≤ off ∧ off < 0x198 then
      let c := vget b.cnt ((off - 0x140) / 8) 0
      BitVec.ofNat 32 (if off % 8 = 0 then c else c / 2 ^ 32)
    else 0

/-- LONG_CFG (R403). -/
def State.writeBne (s : State) (n off : Nat) (v : W32) : State :=
  if off = 0x114 then s.setBne n { s.getBne n with longThresh := bits v 23 0 } else s

/-- BNE_DUMMY_RATIO (R378, R403): a value outside 2 to 8 is ignored and fires CFG_REJECT. -/
def execBneDummyRatio (bne : Nat) (val : W32) (s : State) : Host.Outcome State Fault Refusal :=
  if s.bnes ≤ bne then .next s
  else
    .next (s.onPage (0x20 + bne) (fun t =>
      let r := bits val 3 0
      if (t.getBlk (0x20 + bne)).lock then t
      else if 2 ≤ r ∧ r ≤ 8 then t.setBne bne { t.getBne bne with ratio := r }
      else (t.cause (0x20 + bne) 4).raise { src := (0x20 + bne) * 256 + 6 }))

end Sys2Proof.Machine
end

