-- ==== Sys2Proof/Machine/Bne.lean ====
section
/-! DEFINITION. The BNE commands (R372 to R375, R386). -/

namespace Sys2Proof.Machine

/-- A result under the comparison of the operands with m: an operand at or above m sets RANGE_FAIL and writes 0 (R372). -/
def bnePutMod (b : Bne) (i : BneWord) (operands : List Nat) (k : Bool) (v : Nat) : Bne :=
  let bad := operands.any (fun a => decide (b.modulus (mcOf i) ≤ a))
  { b.put (dOf i) (lenOf i) (if bad then 0 else v) k with rangeFail := b.rangeFail || bad }

/-- D := f(m, A, B). -/
def bne2 (op : Nat) (f : Nat → Nat → Nat → Nat) : BneOp := {
  op := op, useD := true, useA := true, useB := true, body := fun b i =>
    let l := lenOf i
    let x := b.low (aOf i) l
    let y := b.low (bOf i) l
    some (bnePutMod b i [x, y] (b.marked (aOf i) l || b.marked (bOf i) l) (f (b.modulus (mcOf i)) x y)) }

/-- NOP. -/
def bneOpNop : BneOp := { op := 0x00, len := false, body := fun b _ => some b }
/-- LDIN. -/
def bneOpLdin : BneOp := {
  op := 0x01, useD := true, ok := fun i => decide (offOf i + 8 * lenOf i ≤ 16384), body := fun b i =>
    let bs := slice b.inBuf (offOf i) (8 * lenOf i)
    some (b.put (dOf i) (lenOf i) (if bigEnd i then unBe bs else unLe bs) b.inScorched) }
/-- LDKEY (R369): a scorched key component bites. -/
def bneOpLdkey : BneOp := {
  op := 0x02, useD := true, body := fun b i =>
    if b.keyScorched then none
    else some (b.put (dOf i) (lenOf i) (unLe (fit (8 * lenOf i) (b.keyParts.getD (immOf i % 256) []))) false) }
/-- STOUT: a scorched word bites. -/
def bneOpStout : BneOp := {
  op := 0x03, useA := true, ok := fun i => decide (offOf i + 8 * lenOf i ≤ 8192), body := fun b i =>
    let l := lenOf i
    if b.marked (aOf i) l then none
    else
      let v := b.low (aOf i) l
      some { b with outBuf := patchBytes b.outBuf (offOf i) (if bigEnd i then be (8 * l) v else le (8 * l) v) } }
/-- SETMOD: the modulus and R² mod m, R = 2^(64L); a scorched modulus bites. -/
def bneOpSetmod : BneOp := {
  op := 0x04, useA := true, body := fun b i =>
    let l := lenOf i
    let m := b.low (aOf i) l
    if b.marked (aOf i) l then none
    else
      let c := ctxSlot (mcOf i)
      let r2 := if m = 0 then Config.squareModZero (mcOf i) else 2 ^ (128 * l) % m
      some { (b.put c l m false).put (c + 1) l r2 false with
        ctxLen := vset b.ctxLen (mcOf i) l, modulusInvalid := b.modulusInvalid || decide (m < 2) } }
/-- RANGE. -/
def bneOpRange : BneOp := {
  op := 0x05, useA := true, body := fun b i =>
    let a := b.low (aOf i) (lenOf i)
    some { b with rangeFail := b.rangeFail || decide (b.modulus (mcOf i) ≤ a) || (i.imm.getLsbD 0 && decide (a = 0)) } }
def bneOpMadd : BneOp := bne2 0x06 (fun m a b => (a + b) % m)
def bneOpMsub : BneOp := bne2 0x07 (fun m a b => (a + m - b) % m)
def bneOpMmul : BneOp := bne2 0x08 (fun m a b => a * b % m)
/-- MSQR. -/
def bneOpMsqr : BneOp := {
  op := 0x09, useD := true, useA := true, body := fun b i =>
    let x := b.low (aOf i) (lenOf i)
    some (bnePutMod b i [x] (b.marked (aOf i) (lenOf i)) (x * x % b.modulus (mcOf i))) }
/-- MINV: a value that is not invertible sets NOT_INVERTIBLE and writes 0. -/
def bneOpMinv : BneOp := {
  op := 0x0A, useD := true, useA := true, body := fun b i =>
    let x := b.low (aOf i) (lenOf i)
    let m := b.modulus (mcOf i)
    let k := b.marked (aOf i) (lenOf i)
    some (match modInv m x with
      | some v => bnePutMod b i [x] k v
      | none => { bnePutMod b i [x] k 0 with notInvertible := b.notInvertible || decide (x < m) }) }

/-- The exponent length of MEXP, and the words that hold it. -/
def expBits (i : BneWord) : Nat := immOf i % 32768
/-- The window table of an exponentiation: the powers of the base, that of exponent i in slot i (R367, R374). -/
def Bne.window (b : Bne) (l m x : Nat) (k : Bool) : Bne := (List.range 32).foldl (fun (y : Bne) i => y.put i l (modExp m x i) k) b

/-- MEXP (R374): m odd and at least 3; a scorched exponent bites. -/
def bneOpMexp : BneOp := {
  op := 0x0B, useD := true, useA := true, useB := true, exp := expBits, body := fun b i =>
    let x := b.low (aOf i) (lenOf i)
    let m := b.modulus (mcOf i)
    let e := b.slot (bOf i) % 2 ^ expBits i
    if b.marked (bOf i) (ceilDiv (expBits i) 64) then none
    else
      let k := b.marked (aOf i) (lenOf i)
      if m % 2 = 1 ∧ 3 ≤ m then some (bnePutMod (b.window (lenOf i) m x k) i [x] k (modExp m x e))
      else some { bnePutMod b i [x] k 0 with modulusInvalid := true } }
/-- MRAND (R375): 64L + 64 bits of the random buffer, reduced. -/
def bneOpMrand : BneOp := {
  op := 0x0C, useD := true, body := fun b i =>
    let n := 8 * lenOf i + 8
    let m := b.modulus (mcOf i)
    let nz := i.imm.getLsbD 0
    let r := unLe (slice b.randBuf b.randUsed n)
    let dry := decide (b.randBuf.length < b.randUsed + n)
    let v := if m = 0 ∨ (nz ∧ m = 1) ∨ dry then Config.randomCorner m b.randUsed else modRandom m nz r
    some { b.put (dOf i) (lenOf i) v false with randUsed := b.randUsed + n } }
/-- MCOPY. -/
def bneOpMcopy : BneOp := {
  op := 0x0D, useD := true, useA := true, body := fun b i =>
    some (b.put (dOf i) (lenOf i) (b.low (aOf i) (lenOf i)) (b.marked (aOf i) (lenOf i))) }
/-- MCSWAP: A and B change places when the bit of D is 1; a scorched condition bites. -/
def bneOpMcswap : BneOp := {
  op := 0x0E, useD := true, useA := true, useB := true, body := fun b i =>
    let l := lenOf i
    if (vget b.scorch (dOf i) 0).getLsbD (offOf i / 64) then none
    else if b.slot (dOf i) / 2 ^ offOf i % 2 = 1 then
      let k := b.marked (aOf i) l || b.marked (bOf i) l
      some ((b.put (aOf i) l (b.low (bOf i) l) k).put (bOf i) l (b.low (aOf i) l) k)
    else some b }
/-- MCLR. -/
def bneOpMclr : BneOp := { op := 0x0F, useD := true, body := fun b i => some (b.put (dOf i) (lenOf i) 0 false) }
/-- END: the command path ends; the check of the kernel's invariants (R382) is `State.bneInvariant`. -/
def bneOpEnd : BneOp := { op := 0x10, len := false, body := fun b _ => some { b with pathDone := true } }

def execBneNop (i : BneWord) (s : State) : Host.Outcome State Fault Refusal := bneExec bneOpNop i s
def execLdin (i : BneWord) (s : State) : Host.Outcome State Fault Refusal := bneExec bneOpLdin i s
def execLdkey (i : BneWord) (s : State) : Host.Outcome State Fault Refusal := bneExec bneOpLdkey i s
def execStout (i : BneWord) (s : State) : Host.Outcome State Fault Refusal := bneExec bneOpStout i s
def execSetmod (i : BneWord) (s : State) : Host.Outcome State Fault Refusal := bneExec bneOpSetmod i s
def execRange (i : BneWord) (s : State) : Host.Outcome State Fault Refusal := bneExec bneOpRange i s
def execMadd (i : BneWord) (s : State) : Host.Outcome State Fault Refusal := bneExec bneOpMadd i s
def execMsub (i : BneWord) (s : State) : Host.Outcome State Fault Refusal := bneExec bneOpMsub i s
def execMmul (i : BneWord) (s : State) : Host.Outcome State Fault Refusal := bneExec bneOpMmul i s
def execMsqr (i : BneWord) (s : State) : Host.Outcome State Fault Refusal := bneExec bneOpMsqr i s
def execMinv (i : BneWord) (s : State) : Host.Outcome State Fault Refusal := bneExec bneOpMinv i s
def execMexp (i : BneWord) (s : State) : Host.Outcome State Fault Refusal := bneExec bneOpMexp i s
def execMrand (i : BneWord) (s : State) : Host.Outcome State Fault Refusal := bneExec bneOpMrand i s
def execMcopy (i : BneWord) (s : State) : Host.Outcome State Fault Refusal := bneExec bneOpMcopy i s
def execMcswap (i : BneWord) (s : State) : Host.Outcome State Fault Refusal := bneExec bneOpMcswap i s
def execMclr (i : BneWord) (s : State) : Host.Outcome State Fault Refusal := bneExec bneOpMclr i s
def execBneEnd (i : BneWord) (s : State) : Host.Outcome State Fault Refusal := bneExec bneOpEnd i s

end Sys2Proof.Machine
end

