-- ==== Sys2Proof/Machine/Dgs.lean ====
section
/-! DEFINITION. The Digest Service: windows, views and their commands, keyed slots, export and import (R405 to R421). -/

namespace Sys2Proof.Machine

-- Compression (R410).

def dgsBlock (alg : Nat) : Nat := [64, 128, 128, 136, 104, 72, 168, 136].getD (alg - 1) 64
def dgsSize (alg out : Nat) : Nat := if 7 ≤ alg then out else [32, 48, 64, 32, 48, 64].getD (alg - 1) 32
def dgsSuffix (alg : Nat) : Byte := if 7 ≤ alg then 0x1F else 0x06

/-- The chaining value before the first block. -/
def dgsInit (alg : Nat) : List W64 :=
  if alg = 1 then iv256.map (fun w => w.setWidth 64) else if alg = 2 then iv384 else if alg = 3 then iv512 else keccakZero

/-- Whole blocks are compressed. -/
def dgsAbsorb (alg : Nat) (h : List W64) (bs : List Byte) : List W64 :=
  if alg = 1 then (shaBlocks sha256Kind (h.map (fun w => w.setWidth 32)) bs).map (fun w => w.setWidth 64)
  else if alg ≤ 3 then shaBlocks sha512Kind h bs
  else (chunks (dgsBlock alg) (bs.length / dgsBlock alg + 1) bs).foldl (fun a c => keccakF (xorBlock a c)) h

/-- The digest of what a chaining value and the last bytes stand for; `total` bytes in all. -/
def dgsFinish (alg out : Nat) (h : List W64) (bs : List Byte) (total : Nat) : List Byte :=
  let n := dgsSize alg out
  if alg ≤ 3 then
    let r := dgsAbsorb alg h (shaPad (dgsBlock alg) bs total)
    (r.flatMap (fun w => be (if alg = 1 then 4 else 8) w.toNat)).take n
  else squeezeN (dgsBlock alg) (n / dgsBlock alg + 1)
    (absorbAll (dgsBlock alg) (dgsSuffix alg) (bs.length / dgsBlock alg + 1) h bs) n

/-- The states of an HMAC key (R416): a key longer than a block is hashed first. -/
def hmacState (alg : Nat) (pad : Byte) (key : List Byte) : List W64 :=
  let k := fit (dgsBlock alg) (if dgsBlock alg < key.length then digestOf alg key 0 else key)
  dgsAbsorb alg (dgsInit alg) (k.map (· ^^^ pad))

-- Views.

def State.getView (s : State) (fn v : Nat) : View := vget (s.getFn fn).dgs.views v {}
def State.setView (s : State) (fn v : Nat) (x : View) : State :=
  let f := s.getFn fn
  s.setFn fn { f with dgs := { f.dgs with views := vset f.dgs.views v x } }

/-- The window and the view exist and the host's accesses reach them. -/
def State.dgsOpen (s : State) (fn v : Nat) : Bool := s.hostOpen && s.fnExists fn && decide (v < 8)

/-- A view's error (R411). -/
def State.viewError (s : State) (fn v e : Nat) : State :=
  let s1 : State := { s with dgs := { s.dgs with errors := satAdd s.dgs.errors 1 0xFFFFFFFF } }
  s1.setView fn v { s1.getView fn v with err := e }

/-- A command in one of its states, else CMD_INVALID (R409). -/
def State.viewCommand (s : State) (fn v : Nat) (states : List Nat) (f : View → State) : State :=
  if !s.dgsOpen fn v then s
  else
    let x := s.getView fn v
    if states.contains x.state then f x else s.viewError fn v 1

/-- Contexts and slots that a function holds. -/
def State.ctxHeld (s : State) (fn : Nat) : Nat := (s.dgs.ctx.filter (fun c => decide (c.2.1 = fn))).length
def State.slotsHeld (s : State) (fn : Nat) : Nat := (s.dgs.slots.filter (fun c => decide (c.2.fn = fn))).length

/-- The lowest of `n` numbers that a list does not hold. -/
def lowestFree {α : Type} (m : KV α) (n : Nat) : Option Nat := (List.range n).find? (fun k => (KV.get? m k).isNone)

/-- The state of a view is discarded. -/
def dropView (x : View) (state : Nat) : View :=
  { x with state := state, result := [], chain := [], outer := [], buf := [], work := [], count := 0, total := 0, busy := false,
           excess := false, overrun := false, fault := false, finErr := 0 }

/-- OPEN (R409). -/
def execDgsOpen (fn view : Nat) (s : State) : Host.Outcome State Fault Refusal :=
  .next (s.viewCommand fn view [0] (fun x =>
    match lowestFree s.dgs.ctx 8 with
    | none => s.viewError fn view 2
    | some c =>
      if (s.getFn fn).dgsCtx ≤ s.ctxHeld fn then s.viewError fn view 2
      else
        ({ s with dgs := { s.dgs with ctx := KV.set s.dgs.ctx c (fn, view) } } : State).setView fn view
          { x with state := 1, ctx := c, err := 0 }))

/-- A keyed slot that a function has loaded for an algorithm. -/
def State.keyedSlot (s : State) (fn slot alg : Nat) : Option DgsSlot :=
  match KV.get? s.dgs.slots slot with
  | some d => if d.fn = fn ∧ d.alg = alg then some d else none
  | none => none

/-- The configuration is invalid (R410). -/
def cfgInvalid (alg out : Nat) (keyed : Bool) (len : Nat) : Bool :=
  decide (alg = 0) || decide (8 < alg) || (keyed && decide (7 ≤ alg))
    || (if 7 ≤ alg then decide (out = 0) || decide (64 < out) else decide (out ≠ 0)) || decide (2 ^ 61 - 1 < len)

/-- START (R409, R410, R416). -/
def execDgsStart (fn view : Nat) (s : State) : Host.Outcome State Fault Refusal :=
  .next (s.viewCommand fn view [1, 4] (fun x =>
    let alg := bits x.cfg 3 0
    let out := bits x.cfg 23 16
    let keyed := bit x.cfg 12
    let slot := bits x.cfg 11 8
    if cfgInvalid alg out keyed x.len then s.viewError fn view 3
    else
      let base := { dropView x 2 with alg := alg, keyed := keyed, kslot := slot, outLen := out, total := x.len, early := false, err := 0 }
      if keyed then
        (match s.keyedSlot fn slot alg with
        | none => s.viewError fn view 6
        | some d => s.setView fn view { base with chain := d.inner, outer := d.outer })
      else s.setView fn view { base with chain := dgsInit alg }))

/-- One 32-bit data write (R412 to R414). -/
def State.dataWord (s : State) (fn v : Nat) (w : List Byte) : State :=
  let x := s.getView fn v
  if x.state ≠ 2 then s
  else if x.busy then (s.setView fn v { x with overrun := true }).event 0x30 2 (some fn) 1
  else if x.total ≤ x.count then s.setView fn v { x with excess := true }
  else
    let bs := w.take (x.total - x.count)
    let buf := x.buf ++ bs
    let full := decide (dgsBlock x.alg ≤ buf.length)
    s.setView fn v (if full && x.work.isEmpty then
        { x with count := x.count + bs.length, work := buf.take (dgsBlock x.alg), buf := buf.drop (dgsBlock x.alg) }
      else { x with count := x.count + bs.length, buf := buf, busy := full })

/-- DGS_VDATA (R413): bytes in order of address; a narrow write is discarded (R46). -/
def execDgsVdata (fn view size : Nat) (val : W64) (s : State) : Host.Outcome State Fault Refusal :=
  .next (if !s.dgsOpen fn view then s
    else if size < 4 then s.raise { src := 0x0100 }
    else
      let s1 := s.dataWord fn view (le 4 val.toNat)
      if 8 ≤ size then s1.dataWord fn view (le 4 (val.toNat / 2 ^ 32)) else s1)

/-- DGS_BLOCK_COMPRESSED (R412, R421): the block's compression ends; mismatches of the core pair are counted by the event. -/
def execDgsBlockCompressed (fn view mismatches : Nat) (s : State) : Host.Outcome State Fault Refusal :=
  let x := s.getView fn view
  if !s.running || !s.fnExists fn || decide (8 ≤ view) || x.work.isEmpty then .next s
  else
    let full := decide (dgsBlock x.alg ≤ x.buf.length)
    let x1 := { x with
      chain := dgsAbsorb x.alg x.chain x.work, work := if full then x.buf.take (dgsBlock x.alg) else [],
      buf := if full then x.buf.drop (dgsBlock x.alg) else x.buf, busy := false, fault := x.fault || decide (2 ≤ mismatches) }
    let s1 : State := { s with dgs := { s.dgs with blocks := (s.dgs.blocks + 1) % 2 ^ 64 } }
    let s2 := (s1.setView fn view x1).event 0x30 1 (some fn) 1
    .next (if mismatches = 0 then s2 else s2.raise { src := 0x3000 })

/-- The checks at FINAL, in their order (R414). -/
def State.finalError (s : State) (fn : Nat) (x : View) : Nat :=
  if x.overrun then 4
  else if x.excess ∨ x.count < x.total then 5
  else if x.keyed ∧ (s.keyedSlot fn x.kslot x.alg).isNone then 6 else 0

/-- FINAL (R409). -/
def execDgsFinal (fn view : Nat) (s : State) : Host.Outcome State Fault Refusal :=
  .next (s.viewCommand fn view [2] (fun x => s.setView fn view { x with state := 3, finErr := s.finalError fn x }))

/-- The digest or HMAC of a view (R410). -/
def viewResult (x : View) : List Byte :=
  let b := dgsBlock x.alg
  let inner := dgsFinish x.alg x.outLen x.chain (x.work ++ x.buf) ((if x.keyed then b else 0) + x.count)
  if x.keyed then dgsFinish x.alg 0 x.outer inner (b + inner.length) else inner

/-- Blocks that finalisation compresses. -/
def finalBlocks (x : View) : Nat :=
  (x.work.length + x.buf.length + (if x.alg ≤ 3 then dgsBlock x.alg / 8 + 1 else 1) + dgsBlock x.alg - 1) / dgsBlock x.alg + b2n x.keyed

/-- DGS_FINAL_DONE (R414, R421). -/
def execDgsFinalDone (fn view : Nat) (s : State) : Host.Outcome State Fault Refusal :=
  let x := s.getView fn view
  if !s.running || !s.fnExists fn || decide (8 ≤ view) || decide (x.state ≠ 3) then .next s
  else
    let e := if x.finErr ≠ 0 then x.finErr else if x.fault then 9 else 0
    if e ≠ 0 then .next ((s.setView fn view (dropView x 1)).viewError fn view e)
    else
      let s1 : State := { s with dgs := { s.dgs with blocks := (s.dgs.blocks + finalBlocks x) % 2 ^ 64 } }
      .next (((s1.setView fn view { dropView x 4 with result := viewResult x, count := x.count, total := x.total }).event 0x30 1 (some fn)
        (finalBlocks x)).event 0x30 3 (some fn) 1)

/-- ABORT (R409, R415). -/
def execDgsAbort (fn view : Nat) (s : State) : Host.Outcome State Fault Refusal :=
  .next (s.viewCommand fn view [2, 3, 4] (fun x => s.setView fn view { dropView x 1 with early := false }))

/-- CLOSE (R409): the context is zeroed and freed. -/
def execDgsClose (fn view : Nat) (s : State) : Host.Outcome State Fault Refusal :=
  .next (s.viewCommand fn view [1, 2, 3, 4] (fun x =>
    ({ s with dgs := { s.dgs with ctx := KV.erase s.dgs.ctx x.ctx } } : State).setView fn view { dropView x 0 with ctx := 0 }))

/-- Bytes 0 to 15 of a blob (R418). -/
def blobHead (x : View) : List Byte :=
  le 1 0xD5 ++ le 1 x.alg ++ le 1 (b2n x.keyed) ++ le 1 (if x.keyed then x.kslot else 0) ++ zeros 4 ++ le 8 x.count

/-- W_f of a function (R418, R449). -/
def State.blobKey (s : State) (fn : Nat) : List Byte := kstDerive s.masterKey labelBlob (Config.blobContext fn (s.getFn fn).gen)

/-- SAVE (R418). -/
def execDgsSave (fn view : Nat) (s : State) : Host.Outcome State Fault Refusal :=
  .next (s.viewCommand fn view [2] (fun x =>
    if x.count % dgsBlock x.alg ≠ 0 ∨ x.total ≤ x.count then s.viewError fn view 1
    else
      let chain := dgsAbsorb x.alg x.chain (x.work ++ x.buf)
      let handle : W32 := match KV.get? s.dgs.slots x.kslot with | some d => if x.keyed then d.handle else 0 | none => 0
      let f := s.getFn fn
      let plain := blobHead x ++ le 8 x.total ++ le 4 handle.toNat ++ zeros 4 ++ fit 200 (chain.flatMap (fun w => le 8 w.toNat))
      s.setFn fn { f with dgs := { f.dgs with blob := blobHead x ++ fit 240 (kwpSeal (s.blobKey fn) plain) } }))

/-- RESTORE (R419). -/
def execDgsRestore (fn view : Nat) (s : State) : Host.Outcome State Fault Refusal :=
  .next (s.viewCommand fn view [1] (fun x =>
    let f := s.getFn fn
    let b := f.dgs.blob
    match kwpOpen (s.blobKey fn) (slice b 16 240) with
    | none => s.viewError fn view 7
    | some plain =>
      let alg := field b 1 1
      let keyed := decide (field b 2 1 = 1)
      let slot := field b 3 1
      if field b 0 1 ≠ 0xD5 ∨ slice plain 0 16 ≠ slice b 0 16 ∨ alg = 0 ∨ 8 < alg then s.viewError fn view 7
      else
        let base := { dropView x 2 with
          alg := alg, keyed := keyed, kslot := slot, count := field b 8 8, total := field plain 16 8, early := false, err := 0,
          outLen := bits x.cfg 23 16, chain := lanesOf (if alg ≤ 3 then 8 else 25) (plain.drop 32) }
        if keyed then
          (match s.keyedSlot fn slot alg with
          | some d => if d.handle.toNat = field plain 24 4 then s.setView fn view { base with outer := d.outer } else s.viewError fn view 8
          | none => s.viewError fn view 8)
        else s.setView fn view base))

/-- DGS_RESULT_READ (R415). -/
def execDgsResultRead (fn view word : Nat) (s : State) : Host.Outcome State Fault Refusal :=
  if !s.fnExists fn || decide (8 ≤ view) then .next (s.answer 0)
  else
    let x := s.getView fn view
    if x.state = 4 then .next (s.answer (BitVec.ofNat 32 (field x.result (4 * word) 4)))
    else .next ((s.setView fn view { x with early := true }).answer 0)

-- Keyed slots (R416, R417).

/-- `DGS_KRESULT`: done, with a reason or a slot. -/
def kresult (reason slot : Nat) : W32 := BitVec.ofNat 32 (2 ^ 31 + b2n (decide (reason ≠ 0)) * 2 ^ 30 + reason * 65536 + slot)

def State.setWindow (s : State) (fn : Nat) (f : DgsWindow → DgsWindow) : State :=
  let x := s.getFn fn
  s.setFn fn { x with dgs := f x.dgs }

/-- DGS_KLOAD (R416): ignored while a load is outstanding. -/
def execDgsKload (fn : Nat) (handle : W32) (s : State) : Host.Outcome State Fault Refusal :=
  .next (if !s.hostOpen || !s.fnExists fn || (s.getFn fn).dgs.loading.isSome then s
    else s.setWindow fn (fun d => { d with kresult := 0, loading := some handle }))

/-- Why a load fails (R416); 0 = it does not. -/
def State.loadReason (s : State) (fn : Nat) (h : W32) : Nat :=
  if s.deviceStatus.isSome || !s.kst.mkHeld then 6
  else match s.getKey h with
    | none => 2
    | some k =>
      if k.deleted ∨ k.consumed ∨ k.damaged then 2
      else if handleDomain h ≠ fn then 3
      else if !bit k.usage 9 then 4
      else if k.typ ≠ 16 then 5
      else if (lowestFree s.dgs.slots 16).isNone ∨ (s.getFn fn).dgsSlots ≤ s.slotsHeld fn then 1 else 0

/-- KEY_LOAD_DONE (R416): KST has answered. -/
def execKeyLoadDone (fn : Nat) (s : State) : Host.Outcome State Fault Refusal :=
  match (s.getFn fn).dgs.loading with
  | none => .next s
  | some h =>
    if !s.fnExists fn then .next s
    else
      let s1 := s.setWindow fn (fun d => { d with loading := none })
      let r := s.loadReason fn h
      match s.getKey h, lowestFree s.dgs.slots 16 with
      | some k, some n =>
        if r ≠ 0 then .next (s1.setWindow fn (fun d => { d with kresult := kresult r 0 }))
        else
          let s1 := (s1.sendKey k.order k.priv).2
          let d : DgsSlot := {
            fn := fn, alg := k.pset, handle := h, inner := hmacState k.pset 0x36 k.priv, outer := hmacState k.pset 0x5C k.priv }
          let s2 : State := { s1 with dgs := { s1.dgs with slots := KV.set s1.dgs.slots n d } }
          .next (s2.setWindow fn (fun w => { w with kresult := kresult 0 n }))
      | _, _ => .next (s1.setWindow fn (fun d => { d with kresult := kresult r 0 }))

/-- DGS_KUNLOAD (R417). -/
def execDgsKunload (fn : Nat) (slot : W32) (s : State) : Host.Outcome State Fault Refusal :=
  if !s.hostOpen || !s.fnExists fn then .next s
  else
    let n := bits slot 3 0
    match KV.get? s.dgs.slots n with
    | none => .next (s.setWindow fn (fun d => { d with kresult := kresult 8 0 }))
    | some d =>
      if d.fn ≠ fn then .next (s.setWindow fn (fun w => { w with kresult := kresult 8 0 }))
      else if (s.getFn fn).dgs.views.any (fun x => x.keyed && decide (x.kslot = n) && (decide (x.state = 2) || decide (x.state = 3))) then
        .next (s.setWindow fn (fun w => { w with kresult := kresult 7 0 }))
      else
        .next (({ s with dgs := { s.dgs with slots := KV.erase s.dgs.slots n } } : State).setWindow fn (fun w => { w with kresult := kresult 0 0 }))

/-- Every context and slot of one function is zeroed and freed (R407). -/
def State.clearFnDgs (s : State) (fn : Nat) : State :=
  let f := s.getFn fn
  { s.setFn fn { f with dgs := {} } with dgs := { s.dgs with
    ctx := s.dgs.ctx.filter (fun c => decide (c.2.1 ≠ fn)), slots := s.dgs.slots.filter (fun c => decide (c.2.fn ≠ fn)) } }

-- Registers.

/-- A function's Digest Service window (R405, R406, R408). -/
def State.readWindow (s : State) (fn off : Nat) : W32 :=
  let f := s.getFn fn
  if off = 0 then BitVec.ofNat 32 (f.dgsCtx * 2 ^ 20 + s.ctxHeld fn * 65536 + f.dgsSlots * 32 + s.slotsHeld fn)
  else if off = 8 then f.dgs.kresult
  else if 0x100 ≤ off ∧ off < 0x200 then BitVec.ofNat 32 (field f.dgs.blob (off - 0x100) 4)
  else if 0x800 ≤ off ∧ off < 0x1000 then
    let x := vget f.dgs.views ((off - 0x800) / 256) {}
    match off % 256 with
    | 0x04 => x.cfg
    | 0x08 => BitVec.ofNat 32 x.len
    | 0x0C => BitVec.ofNat 32 (x.len / 2 ^ 32)
    | 0x10 => BitVec.ofNat 32 (x.state * 2 ^ 29 + b2n x.busy * 2 ^ 28 + b2n x.early * 2 ^ 27 + x.err)
    | 0x14 => BitVec.ofNat 32 x.count
    | 0x18 => BitVec.ofNat 32 (x.count / 2 ^ 32)
    | o => if 0xC0 ≤ o ∧ x.state = 4 then BitVec.ofNat 32 (field x.result (o - 0xC0) 4) else 0
  else 0

/-- Writes of the configuration, the length and the blob area; a command write with no or several bits is invalid (R409). -/
def State.writeWindow (s : State) (fn off : Nat) (v : W32) : State :=
  if 0x100 ≤ off ∧ off < 0x200 then s.setWindow fn (fun d => { d with blob := patchBytes d.blob (off - 0x100) (le 4 v.toNat) })
  else if 0x800 ≤ off ∧ off < 0x1000 then
    let n := (off - 0x800) / 256
    let x := s.getView fn n
    match off % 256 with
    | 0x00 => if [1, 2, 4, 8, 16, 32, 64].contains (v.toNat % 128) then s else s.viewError fn n 1
    | 0x04 => s.setView fn n { x with cfg := v &&& 0x00FF1F0F }
    | 0x08 => s.setView fn n { x with len := x.len / 2 ^ 32 * 2 ^ 32 + v.toNat }
    | 0x0C => s.setView fn n { x with len := x.len % 2 ^ 32 + v.toNat * 2 ^ 32 }
    | _ => s
  else s

/-- The DGS block's registers (R420). -/
def State.readDgs (s : State) (off : Nat) : W32 :=
  let t := s.getTest 0x30
  if off = 0x100 then BitVec.ofNat 32 ((16 - s.dgs.slots.length) * 65536 + (8 - s.dgs.ctx.length))
  else if 0x110 ≤ off ∧ off < 0x130 then
    (match KV.get? s.dgs.ctx ((off - 0x110) / 4) with | some (f, v) => BitVec.ofNat 32 (2 ^ 31 + f * 256 + v) | none => 0)
  else if 0x130 ≤ off ∧ off < 0x170 then
    (match KV.get? s.dgs.slots ((off - 0x130) / 4) with | some d => BitVec.ofNat 32 (2 ^ 31 + d.fn * 256 + d.alg) | none => 0)
  else if 0x170 ≤ off ∧ off < 0x1B0 then (match KV.get? s.dgs.slots ((off - 0x170) / 4) with | some d => d.handle | none => 0)
  else if off = 0x1B0 then BitVec.ofNat 32 s.dgs.blocks
  else if off = 0x1B4 then BitVec.ofNat 32 (s.dgs.blocks / 2 ^ 32)
  else if off = 0x1B8 then BitVec.ofNat 32 s.dgs.errors
  else if off = 0x1BC then BitVec.ofNat 32 t.sel
  else if off = 0x1C0 then BitVec.ofNat 32 (b2n t.busy * 2 ^ 31 + b2n t.done * 2 ^ 30 + b2n t.pass * 2 ^ 29 + t.test)
  else 0

end Sys2Proof.Machine
end

