-- ==== Sys2Proof/Machine/Observe.lean ====
section
/-! DEFINITION. Performance counters, sampling and telemetry (R669 to R678, R685, R686), and the answers on SMB_MGMT (R679),
SMB_PWR (R698), SPDM (R150) and the console (R699). -/

namespace Sys2Proof.Machine

-- Counters (R669 to R672).

/-- The counter exists on the part (R669). -/
def State.counterExists (s : State) (c : Nat) : Bool :=
  if c < 128 then decide (c / 8 < s.pvus) else if c < 160 then decide ((c - 128) / 4 < s.bnes) else decide (c < 192)

/-- The counter may count events of the block (R669). -/
def counterMay (c k : Nat) : Bool :=
  if c < 128 then decide (k = 0x10 + c / 8) else if c < 160 then decide (k = 0x20 + (c - 128) / 4) else true

/-- The first counter of its group. -/
def firstOfGroup (c : Nat) : Bool := if c < 128 then decide (c % 8 = 0) else if c < 160 then decide (c % 4 = 0) else decide (c = 160)

/-- The highest event of a block that the table lists (R674); every number from 1 up to it is listed. -/
def eventMax (k : Nat) : Nat :=
  if k = 1 then 3 else if k = 2 then 4 else if k = 3 then 6 else if 0x10 ≤ k ∧ k < 0x20 then 8 else if 0x20 ≤ k ∧ k < 0x28 then 5
  else match k with
  | 0x28 => 3 | 0x30 => 3 | 0x31 => 5 | 0x32 => 6 | 0x40 => 6 | 0x41 => 3 | 0x50 => 3 | 0x51 => 4 | 0x52 => 3 | 0x58 => 3
  | 0x60 => 5 | 0x72 => 2 | _ => 0

/-- The selector that a counter uses for an event: one that holds it, or else a free one (R670). -/
def State.selectorFor (s : State) (k ev : Nat) : Option Nat :=
  let b := s.getBlk k
  let w : W32 := 0x80000000 ||| BitVec.ofNat 32 ev
  match (List.range 8).find? (fun n => decide (vget b.evtSel n 0 = w)) with
  | some n => some n
  | none => (List.range 8).find? (fun n => !bit (vget b.evtSel n 0) 31
      && !s.pmu.ctr.any (fun p => !p.2.chain && decide (p.2.blk = k) && decide (p.2.sel = n)))

/-- A counter stops, is cleared, and its selector is freed when no other counter uses it (R670). -/
def State.releaseCounter (s : State) (c : Nat) : State :=
  match KV.get? s.pmu.ctr c with
  | none => s
  | some x =>
    let s1 : State := { s with pmu := { s.pmu with ctr := KV.erase s.pmu.ctr c } }
    if x.chain ∨ s1.pmu.ctr.any (fun p => !p.2.chain && decide (p.2.blk = x.blk) && decide (p.2.sel = x.sel)) then s1
    else s1.setBlk x.blk { s1.getBlk x.blk with evtSel := vset (s1.getBlk x.blk).evtSel x.sel 0 }

/-- What ASSIGN asks for (R147). -/
structure CounterReq where
  c     : Nat
  id    : Nat
  level : Bool
  chain : Bool
  owner : Nat
  deriving DecidableEq, Repr

def counterReq (par : List Byte) : CounterReq := {
  c := p16 par 2, id := p32 par 4, level := decide (p8 par 8 % 2 = 1), chain := decide (p8 par 8 / 2 % 2 = 1), owner := p16 par 10 }

/-- The checks of R670, in which a chained counter has no event to check. -/
def State.counterOk (s : State) (r : CounterReq) : Bool :=
  s.counterExists r.c
    && (if r.chain then !firstOfGroup r.c && decide (r.id = 0)
      else counterMay r.c (r.id / 65536) && s.present (r.id / 65536) && decide (r.id < 0x1000000)
        && within (r.id % 65536) 1 (eventMax (r.id / 65536)))
    && s.fnExists r.owner

/-- ASSIGN (R670): a counter assigned before is released first. -/
def State.assignCounter (s : State) (r : CounterReq) : Option State :=
  if !s.counterOk r then none
  else
    let t := s.releaseCounter r.c
    let k := r.id / 65536
    if r.chain then
      some { t with pmu := { t.pmu with
        ctr := KV.set t.pmu.ctr r.c { level := r.level, chain := true, sel := 0, blk := 0, owner := r.owner, value := 0 } } }
    else match t.selectorFor k (r.id % 65536) with
      | none => none
      | some n =>
        let b := t.getBlk k
        let u := t.setBlk k { b with evtEn := true, evtSel := vset b.evtSel n (0x80000000 ||| BitVec.ofNat 32 (r.id % 65536)) }
        some { u with pmu := { u.pmu with
          ctr := KV.set u.pmu.ctr r.c { level := r.level, chain := false, sel := n, blk := k, owner := r.owner, value := 0 } } }

/-- A `PMU_CONFIG` command of one operation code (R147). -/
def State.onPmu (s : State) (op id : Nat) (f : State → Job → State) : State :=
  s.onAdmin 0x0040 id (fun t j => if p8 j.par 0 = op then f t j else t)

/-- ASSIGN (R670). -/
def execPmuAssign (job : Nat) (s : State) : Host.Outcome State Fault Refusal :=
  .next (s.onPmu 1 job (fun t j =>
    if j.fn ≠ 0 then t.adminEnd job (denied 0x08)
    else match t.assignCounter (counterReq j.par) with
      | none => t.adminEnd job (badParam 0x18)
      | some u => u.adminEnd job {}))

/-- RELEASE (R670). -/
def execPmuRelease (job : Nat) (s : State) : Host.Outcome State Fault Refusal :=
  .next (s.onPmu 2 job (fun t j =>
    if j.fn ≠ 0 then t.adminEnd job (denied 0x08)
    else if t.counterExists (p16 j.par 2) then (t.releaseCounter (p16 j.par 2)).adminEnd job {}
    else t.adminEnd job (badParam 0x18)))

-- Sampling (R675 to R677).

/-- The ring is 4 KiB aligned and its size a power of two from 4 KiB to 16 MiB. -/
def ringOk (addr size : Nat) : Bool := decide (addr % 4096 = 0) && (List.range 13).any (fun k => decide (size = 4096 * 2 ^ k))

/-- INTERVAL, 0 standing for 4,096. -/
def sampleInterval (par : List Byte) : Nat := if p32 par 4 = 0 then 4096 else p32 par 4

/-- SAMPLE_START (R147, R675): sampling starts, or its ring is replaced, at the release edge of the command. -/
def execSampleStart (job : Nat) (s : State) : Host.Outcome State Fault Refusal :=
  .next (s.onPmu 3 job (fun t j =>
    if j.fn ≠ 0 ∧ (t.getFn j.fn).perm / 2 % 2 = 0 then t.adminEnd job (denied 0x08)
    else if !ringOk (field j.input 0 8) (field j.input 8 4) then t.adminEnd job (badParam 0x04)
    else if 16777216 < sampleInterval j.par then t.adminEnd job (badParam 0x04)
    else if field j.input 12 4 ≠ 0 then t.adminEnd job (badParam 0x0C)
    else t.adminEnd job {}))

/-- A function's sampling is marked to end. -/
def State.stopSampling (s : State) (fn : Nat) : State :=
  match (s.getFn fn).sampling with
  | none => s
  | some m => s.setFn fn { s.getFn fn with sampling := some { m with stopping := true } }

/-- SAMPLE_STOP (R675): sampling ends at the next release edge. -/
def execSampleStop (job : Nat) (s : State) : Host.Outcome State Fault Refusal :=
  .next (s.onPmu 4 job (fun t j => (t.stopSampling j.fn).adminEnd job {}))

/-- A function begins to sample, or goes on into another ring. -/
def State.beginSampling (s : State) (fn : Nat) (input par : List Byte) : State :=
  let seq := match (s.getFn fn).sampling with | some m => m.seq | none => 0
  let waiting := match (s.getFn fn).sampling with | some m => m.waiting | none => []
  s.setFn fn { s.getFn fn with sampling := some {
    ring := field input 0 8, size := field input 8 4, interval := sampleInterval par, seq := seq, stopping := false, waiting := waiting } }

/-- The records of one function that wait are written to its ring at the release edge (R677). -/
def State.writeSamples (s : State) (fn : Nat) : State :=
  match (s.getFn fn).sampling with
  | none => s
  | some m =>
    let t := m.waiting.foldl (fun (u : State) r => u.hostWrite fn (m.ring + (field r 24 8 - 1) * 32 % m.size) r) s
    t.setFn fn { t.getFn fn with sampling := if m.stopping then none else some { m with waiting := [] } }

/-- The records of every function. -/
def State.writeAllSamples (s : State) : State := (s.funcs.map (·.1)).foldl State.writeSamples s

-- Registers (R685).

/-- A write of `PMU_CTRL` (R685). -/
def State.pmuCtrl (s : State) (v : W32) : State :=
  let ctr := if bit v 31 then KV.mapV (fun _ x => { x with value := 0 }) s.pmu.ctr else s.pmu.ctr
  { s with pmu := { s.pmu with freeze := bit v 0, ctr := ctr } }

/-- PMU_CLEAR (R685). -/
def execPmuClear (val : W32) (s : State) : Host.Outcome State Fault Refusal := .next (s.onPage 0x70 (fun t => t.pmuCtrl val))
/-- PMU_FREEZE (R685). -/
def execPmuFreeze (val : W32) (s : State) : Host.Outcome State Fault Refusal := .next (s.onPage 0x70 (fun t => t.pmuCtrl val))

/-- `PMU_CFGc` (R685). -/
def cfgWord (x : Counter) : W32 :=
  BitVec.ofNat 32 (2 ^ 31 + b2n x.level * 2 ^ 30 + b2n x.chain * 2 ^ 29 + x.sel * 2 ^ 24 + x.blk * 65536 + x.owner * 256)

/-- A counter's value as a function sees it in its read window (R673); the manager's array shows every counter. -/
def State.counterValue (s : State) (fn c : Nat) : Nat :=
  match KV.get? s.pmu.ctr c with
  | none => 0
  | some x => if fn = 0 ∨ (x.owner = fn ∧ (s.getFn fn).perm % 2 = 1) then x.value else 0

/-- One half of an entry of the counter array at an offset from its base (R46, R673). -/
def State.readCounters (s : State) (fn off : Nat) : W32 :=
  if off < 8 * 192 then BitVec.ofNat 32 (s.counterValue fn (off / 8) / 2 ^ (off / 4 % 2 * 32)) else 0

/-- The overflow bits of 32 counters. -/
def State.ovfWord (s : State) (n : Nat) : W32 :=
  BitVec.ofNat 32 (bitmap 32 (fun b => KV.getD s.pmu.ovf (32 * n + b) false))

/-- The PMU registers (R685). -/
def State.readPmu (s : State) (off : Nat) : W32 :=
  let m := s.pmu
  match off with
  | 0x100 => BitVec.ofNat 32 (b2n (m.frozen || m.freeze) * 2 ^ 28 + min 255 m.ctr.length)
  | 0x104 => BitVec.ofNat 32 (b2n m.freeze)
  | 0x138 => BitVec.ofNat 32 m.sampMax
  | 0x13C => BitVec.ofNat 32 ((s.funcs.filter (fun p => p.2.sampling.isSome)).length * 2 ^ 24 + m.sampLost)
  | 0x140 => BitVec.ofNat 32 (b2n m.teleEn)
  | 0x144 => BitVec.ofNat 32 m.teleCnt
  | _ =>
    if 0x108 ≤ off ∧ off < 0x120 then s.ovfWord ((off - 0x108) / 4)
    else if 0x120 ≤ off ∧ off < 0x138 then vget m.ovfie ((off - 0x120) / 4) 0
    else if 0x150 ≤ off ∧ off < 0x1C0 then
      (match KV.get? m.sensors ((off - 0x150) / 4) with
        | some v => bitW 31 ||| (BitVec.ofInt 16 v).setWidth 32
        | none => 0)
    else if 0x200 ≤ off ∧ off < 0x500 then (match KV.get? m.ctr ((off - 0x200) / 4) with | some x => cfgWord x | none => 0)
    else if 0x1000 ≤ off then s.readCounters 0 (off - 0x1000)
    else 0

/-- A write of the PMU registers without a row of their own (R685). -/
def State.writePmu (s : State) (off : Nat) (v : W32) : State :=
  let m := s.pmu
  let locked := (s.getBlk 0x70).lock
  if 0x108 ≤ off ∧ off < 0x120 then
    let n := (off - 0x108) / 4
    ({ s with pmu := { m with
      ovf := (List.range 32).foldl (fun o b => if bit v b then KV.erase o (32 * n + b) else o) m.ovf } } : State).irqSync 0x70
  else if 0x120 ≤ off ∧ off < 0x138 then
    ({ s with pmu := { m with ovfie := vset m.ovfie ((off - 0x120) / 4) v } } : State).irqSync 0x70
  else if off = 0x138 then
    (if locked || decide (bits v 7 0 = 0) then s else { s with pmu := { m with sampMax := bits v 7 0 } })
  else if off = 0x140 then (if locked then s else { s with pmu := { m with teleEn := bit v 0 } })
  else s

-- Telemetry (R678).

/-- MGC runs: it has started, BANK has not stopped it, and it is not the source of a SAFE_HALT (R595, R679, R715). -/
def State.mgcUp (s : State) : Bool :=
  s.pcr.powered && decide (4 ≤ s.pcr.step) && !s.pcr.frozen
    && !(match s.hrt.halt with | some (src, _) => decide (src / 256 = 0x7F) | none => false)

/-- The values that a record takes: a sensor that is not valid reads 0. -/
def State.sensor (s : State) (k : Nat) : Nat := (BitVec.ofInt 16 (KV.getD s.pmu.sensors k 0)).toNat

/-- Records made by the journal so far, in pages. -/
def State.jrnPages (s : State) : Nat := s.kst.pageSeq

/-- The 64 bytes of a record (R678). -/
def State.teleBytes (s : State) : List Byte :=
  let (a, r, l, y, p) := s.pmu.teleBase
  let t := s.trd
  le 8 s.pmu.teleSeq ++ le 8 t.edge ++ le 2 (s.sensor 0) ++ le 2 (s.sensor 2) ++ le 2 (s.sensor 4) ++ le 1 t.stage ++ le 1 s.hearthState
    ++ le 4 (t.admitted - a) ++ le 4 (t.refused - r) ++ le 4 (t.late - l) ++ le 4 (t.retry - y)
    ++ le 2 s.pvuActive ++ le 1 s.bneActive
    ++ le 1 (bitmap 8 (fun n => decide ((vget s.ent.sources n {}).state = .inService)))
    ++ le 4 (s.jrnPages - p) ++ le 4 (if s.pmu.loadCap = 0 then 0 else s.pmu.load * 10000 / s.pmu.loadCap) ++ zeros 12

/-- TELEMETRY_RECORD (R678): MGC has measured its sensors; a record is appended while EN = 1, and 36,000 are kept. -/
def execTelemetryRecord (m : TeleMeasure) (s : State) : Host.Outcome State Fault Refusal :=
  if !s.mgcUp then .next s
  else
    let sensors := m.sensors.foldl (fun (k : KV Int) x => if x.1 < 28 then KV.set k x.1 x.2 else k) []
    let t : State := { s with pmu := { s.pmu with sensors := sensors } }
    if !t.pmu.teleEn then .next t
    else .next { t with pmu := { t.pmu with
      tele := ({ seq := t.pmu.teleSeq, bytes := t.teleBytes } :: t.pmu.tele).take 36000
      teleSeq := t.pmu.teleSeq + 1
      teleCnt := satAdd t.pmu.teleCnt 1 0xFFFFFFFF
      teleBase := (t.trd.admitted, t.trd.refused, t.trd.late, t.trd.retry, t.jrnPages)
      load := 0
      loadCap := 0 } }

-- SMB_MGMT (R679): message type, header, command, completion code and data, in the layout of the DMTF standards.

/-- An answer on SMB_MGMT while the endpoint answers. -/
def State.mgmt (s : State) (bs : List Byte) : State := if s.mgcUp then s.emit (.mctp bs) else s
/-- An MCTP control answer. -/
def State.mctpCtl (s : State) (cmd code : Byte) (data : List Byte) : State := s.mgmt ([0x00, 0x00, cmd, code] ++ data)
/-- A PLDM answer. -/
def State.pldm (s : State) (typ cmd code : Byte) (data : List Byte) : State := s.mgmt ([0x01, 0x00, typ, cmd, code] ++ data)

/-- SET_ENDPOINT_ID (R679): 0x00 and 0xFF are no endpoint IDs. -/
def execSetEndpointId (eid : Byte) (s : State) : Host.Outcome State Fault Refusal :=
  if !s.mgcUp then .next s
  else if eid = 0x00 ∨ eid = 0xFF then .next (s.mctpCtl 0x01 0x02 [])
  else .next (({ s with pcr := { s.pcr with eid := eid.toNat } } : State).mctpCtl 0x01 0x00 [0x00, eid, 0x00])

/-- GET_ENDPOINT_ID (R679). -/
def execGetEndpointId (s : State) : Host.Outcome State Fault Refusal :=
  .next (s.mctpCtl 0x02 0x00 [BitVec.ofNat 8 s.pcr.eid, 0x00, 0x00])

/-- GET_MCTP_VERSION_SUPPORT (R679): the base, control and PLDM have versions. -/
def execGetMctpVersionSupport (msgType : Byte) (s : State) : Host.Outcome State Fault Refusal :=
  .next (if msgType = 0xFF ∨ msgType = 0x00 ∨ msgType = 0x01 then s.mctpCtl 0x04 0x00 (Config.mctpVersion msgType.toNat)
    else s.mctpCtl 0x04 0x80 [])

/-- GET_MESSAGE_TYPE_SUPPORT (R679): types 0 and 1; the list counts the types beside control. -/
def execGetMessageTypeSupport (s : State) : Host.Outcome State Fault Refusal := .next (s.mctpCtl 0x05 0x00 [0x01, 0x01])

/-- GET_TID (R679): no terminus ID has been assigned. -/
def execGetTid (s : State) : Host.Outcome State Fault Refusal := .next (s.pldm 0x00 0x02 0x00 [0x00])

/-- GET_PLDM_VERSION (R679): types 0 and 2. -/
def execGetPldmVersion (pldmType : Byte) (s : State) : Host.Outcome State Fault Refusal :=
  .next (if pldmType = 0x00 ∨ pldmType = 0x02 then s.pldm 0x00 0x03 0x00 (zeros 4 ++ [0x05] ++ Config.pldmVersion pldmType.toNat)
    else s.pldm 0x00 0x03 0x83 [])

/-- GET_PLDM_TYPES (R679): bits 0 and 2. -/
def execGetPldmTypes (s : State) : Host.Outcome State Fault Refusal := .next (s.pldm 0x00 0x04 0x00 (le 8 0x05))

/-- The supported commands of a PLDM type (R679). -/
def pldmCommands (typ : Byte) : List Nat :=
  if typ = 0x00 then [0x02, 0x03, 0x04, 0x05] else if typ = 0x02 then [0x11, 0x21, 0x50, 0x51] else []

/-- GET_PLDM_COMMANDS (R679). -/
def execGetPldmCommands (pldmType : Byte) (s : State) : Host.Outcome State Fault Refusal :=
  .next (if pldmCommands pldmType = [] then s.pldm 0x00 0x05 0x83 []
    else s.pldm 0x00 0x05 0x00 (le 32 (bitmap 256 (pldmCommands pldmType).contains)))

/-- GET_PDR_REPOSITORY_INFO (R679). -/
def execGetPdrRepositoryInfo (s : State) : Host.Outcome State Fault Refusal := .next (s.pldm 0x02 0x50 0x00 Config.pdrInfo)

/-- GET_PDR (R679). -/
def execGetPdr (record : Nat) (s : State) : Host.Outcome State Fault Refusal :=
  .next (match Config.pdr record with
    | some bs => s.pldm 0x02 0x51 0x00 bs
    | none => s.pldm 0x02 0x51 0x82 [])

/-- GET_SENSOR_READING (R679): numeric sensor k + 1 reports `PMU_SENSORk`; one that is not valid is unavailable. -/
def execGetSensorReading (sensor : Nat) (s : State) : Host.Outcome State Fault Refusal :=
  .next (if within sensor 1 28 then
      (match KV.get? s.pmu.sensors (sensor - 1) with
        | some v => s.pldm 0x02 0x11 0x00 ([0x03, 0x00, 0x00, 0x00, 0x00, 0x00] ++ le 2 (BitVec.ofInt 16 v).toNat)
        | none => s.pldm 0x02 0x11 0x00 ([0x03, 0x02, 0x00, 0x00, 0x00, 0x00] ++ zeros 2))
    else s.pldm 0x02 0x11 0x80 [])

/-- State sensors 29 to 31: lifecycle, Hearth and Damper (R679). -/
def State.stateSensor (s : State) (n : Nat) : Option Nat :=
  if n = 29 then some s.held.life else if n = 30 then some s.hearthState else if n = 31 then some s.trd.stage else none

/-- GET_STATE_SENSOR_READINGS (R679). -/
def execGetStateSensorReadings (sensor : Nat) (s : State) : Host.Outcome State Fault Refusal :=
  .next (match s.stateSensor sensor with
    | some v => s.pldm 0x02 0x21 0x00 ([0x01, 0x00] ++ le 1 v ++ [0x00] ++ le 1 v)
    | none => s.pldm 0x02 0x21 0x80 [])

/-- UNSUPPORTED_PLDM_CMD (R679). -/
def execUnsupportedPldmCmd (pldmType cmd : Byte) (s : State) : Host.Outcome State Fault Refusal :=
  .next (if (pldmCommands pldmType).contains cmd.toNat then s else s.pldm pldmType cmd 0x05 [])

-- SMB_PWR (R698): the power stage answers while the input is present, in every state of the module.

/-- A telemetry command's answer: its value and coding are not given. -/
def State.pmbusValue (s : State) (cmd : Nat) : State :=
  if s.pcr.powered then ({ s with free := s.free + 1 } : State).emit (.pmbus (le 2 (Config.pmbusRead cmd s.free).toNat)) else s

/-- READ_VIN (R698). -/
def execReadVin (s : State) : Host.Outcome State Fault Refusal := .next (s.pmbusValue 0x88)
/-- READ_IIN (R698). -/
def execReadIin (s : State) : Host.Outcome State Fault Refusal := .next (s.pmbusValue 0x89)
/-- READ_VOUT (R698). -/
def execReadVout (s : State) : Host.Outcome State Fault Refusal := .next (s.pmbusValue 0x8B)
/-- READ_IOUT (R698). -/
def execReadIout (s : State) : Host.Outcome State Fault Refusal := .next (s.pmbusValue 0x8C)
/-- READ_TEMPERATURE_1 (R698). -/
def execReadTemperature1 (s : State) : Host.Outcome State Fault Refusal := .next (s.pmbusValue 0x8D)
/-- READ_POUT (R698). -/
def execReadPout (s : State) : Host.Outcome State Fault Refusal := .next (s.pmbusValue 0x96)

/-- The CML bit of STATUS_WORD. -/
def cmlBit : Nat := 2

/-- STATUS_WORD (R698): the spec names CML alone; the other bits are free. -/
def execStatusWord (s : State) : Host.Outcome State Fault Refusal :=
  .next (if s.pcr.powered then
      let other := (Config.pmbusRead 0x79 s.free &&& ~~~(BitVec.ofNat 16 cmlBit)).toNat
      ({ s with free := s.free + 1 } : State).emit (.pmbus (le 2 (other + s.pcr.pmbStatus)))
    else s)

/-- CLEAR_FAULTS (R698). -/
def execClearFaults (s : State) : Host.Outcome State Fault Refusal :=
  .next (if s.pcr.powered then { s with pcr := { s.pcr with pmbStatus := 0 } } else s)

/-- PMBUS_REVISION (R698). -/
def execPmbusRevision (s : State) : Host.Outcome State Fault Refusal :=
  .next (if s.pcr.powered then s.emit (.pmbus (Config.pmbusId 0x98)) else s)
/-- MFR_ID (R698). -/
def execMfrId (s : State) : Host.Outcome State Fault Refusal :=
  .next (if s.pcr.powered then s.emit (.pmbus (Config.pmbusId 0x99)) else s)

/-- The commands that SMB_PWR answers, other than CLEAR_FAULTS. -/
def pmbusReads : List Nat := [0x79, 0x88, 0x89, 0x8B, 0x8C, 0x8D, 0x96, 0x98, 0x99]

/-- PMBUS_OTHER_COMMAND (R698): sets CML and changes nothing else. -/
def execPmbusOtherCommand (cmd : Byte) (write : Bool) (s : State) : Host.Outcome State Fault Refusal :=
  let other := if write then decide (cmd ≠ 0x03) else !pmbusReads.contains cmd.toNat
  .next (if s.pcr.powered && other then { s with pcr := { s.pcr with pmbStatus := cmlBit } } else s)

-- SPDM (R148, R150) and the console (R699).

/-- MGC answers SPDM once configuration requests are answered (R716). -/
def State.spdmUp (s : State) : Bool := s.mgcUp && (s.pcr.ready || s.hrt.halt.isSome)

/-- SPDM_GET_VERSION (R150): the VERSION response lists 1.2 and 1.3. -/
def execSpdmGetVersion (s : State) : Host.Outcome State Fault Refusal :=
  .next (if s.spdmUp then
      ({ s with pcr := { s.pcr with spdmVer := 1 } } : State).emit (.spdm ([0x10, 0x04, 0x00, 0x00, 0x00, 0x02] ++ le 2 0x1200 ++ le 2 0x1300))
    else s)

/-- SPDM_REQUEST (R150): the first request after GET_VERSION selects the version by its first byte; after that the answer is
that of the DMTF standard at that version. -/
def execSpdmRequest (code : Byte) (req : List Byte) (s : State) : Host.Outcome State Fault Refusal :=
  let v := p8 req 0
  if !s.spdmUp then .next s
  else if s.pcr.spdmVer = 0 then .next (s.emit (.spdm [0x10, 0x7F, 0x04, 0x00]))
  else if (v ≠ 0x12 ∧ v ≠ 0x13) ∨ (s.pcr.spdmVer ≠ 1 ∧ v ≠ s.pcr.spdmVer) then
    .next (s.emit (.spdm [if s.pcr.spdmVer = 1 then 0x10 else BitVec.ofNat 8 s.pcr.spdmVer, 0x7F, 0x41, 0x00]))
  else .next (({ s with free := s.free + 1, pcr := { s.pcr with spdmVer := v } } : State).emit
    (.spdm (Config.spdmAnswer v code.toNat req s.free)))

/-- UART_CONSOLE_INPUT (R699): accepted only in MANUFACTURE and MAINTENANCE. -/
def execUartConsoleInput (c : Byte) (s : State) : Host.Outcome State Fault Refusal :=
  .next (if s.mgcUp ∧ (s.held.life = 1 ∨ s.held.life = 4) then { s with pcr := { s.pcr with console := s.pcr.console ++ [c] } } else s)

end Sys2Proof.Machine
end

