-- ==== Sys2Proof/Machine/Instances.lean ====
section
/-! DEFINITION. Instances (R523 to R542): their commands and resources, the instance page, mailboxes (R534 to R537), resets
(R538, R539), the event log (R541) and dirty-page logs (R552 to R554). -/

namespace Sys2Proof.Machine

/-- The page key of a function's instance page. -/
def instPage (fn : Nat) : Nat := 256 + fn

/-- A function's record changes. -/
def State.modFn (s : State) (fn : Nat) (f : Func → Func) : State := if s.fnExists fn then s.setFn fn (f (s.getFn fn)) else s

/-- A record of the instance event log (R541): the last 4,096 are kept. -/
def State.logEvent (s : State) (fn : Nat) (mk : Nat → Nat → EventRec) : State :=
  s.modFn fn (fun f => { f with events := (mk f.evSeq s.trd.edge :: f.events).take 4096, evSeq := f.evSeq + 1 })

/-- A record that names no entry. -/
def plainEvent (etype seq tick : Nat) : EventRec := {
  seq := seq, tick := tick, etype := etype, committed := false, queue := 0, entry := 0, tag := 0, opcode := 0, status := 0,
  handle := 0, detail := 0 }

/-- A module message is queued for the down mailbox; beyond 16 the oldest is dropped (R537). -/
def State.message (s : State) (fn typ : Nat) (payload : List Byte) : State :=
  s.modFn fn (fun f =>
    let m := f.messages ++ [BitVec.ofNat 8 typ :: payload]
    { f with messages := m.drop (m.length - 16) })

/-- The instance's state changes, with its interrupt cause (R523, R533). -/
def State.setInst (s : State) (fn st : Nat) : State := (s.modFn fn (fun f => { f with state := st })).cause (instPage fn) 3

-- Resources (R525, R526, R530).

/-- The descriptor in force (R525). -/
def descBytes (f : Func) : List Byte :=
  le 1 f.vectors ++ le 1 f.ioqLimit ++ le 1 f.dgsCtx ++ le 1 f.dgsSlots ++ le 4 f.keyLimit ++ le 2 f.pvuSlots ++ le 2 f.bneTicks
    ++ le 1 f.pinAllow ++ le 1 f.perm ++ zeros 2 ++ le 4 f.takenLimit ++ zeros 12

/-- Check 2 of R526: reserved bytes are zero and fields in range; the physical function's vectors are 64 (R530). -/
def descOk (fn : Nat) (d : List Byte) : Bool :=
  within (field d 0 1) (if fn = 0 then 64 else 1) 64 && decide (field d 1 1 ≤ 64) && decide (field d 2 1 ≤ 8) && decide (field d 3 1 ≤ 16)
    && decide (field d 4 4 ≤ 16777215) && decide (field d 12 1 ≤ 8) && decide (field d 13 1 < 4) && decide (field d 14 2 = 0)
    && (decide (field d 16 4 = 0) || within (field d 16 4) 16 262144) && (slice d 20 12).all (fun b => decide (b = 0))

/-- The fields of a descriptor, all but the vectors and the reservations. -/
def applyFields (f : Func) (d : List Byte) : Func :=
  { f with
    ioqLimit := field d 1 1, dgsCtx := field d 2 1, dgsSlots := field d 3 1, keyLimit := field d 4 4, pinAllow := field d 12 1,
    perm := field d 13 1, takenLimit := if field d 16 4 = 0 then 4096 else field d 16 4 }

/-- Engines not retired that reservations may lie on: PVUs 0 to 15 that are not pinned, BNEs 16 to 23. -/
def State.placePvus (s : State) : List Nat :=
  s.activePvus.filter (fun e => decide ((s.getPvu e).pin = none) && decide ((s.getPvu e).pinning = none))
def State.placeBnes (s : State) : List Nat := ((List.range s.bnes).filter (fun n => !s.retired (0x20 + n))).map (· + 16)

/-- `want` fixed positions on engines: those already held first, then free ones in Treadle's order (R181). -/
def State.placeOn (s : State) (fn : Nat) (engines : List Nat) (want : Nat) : List (Nat × Nat) :=
  let keep := ((s.getFn fn).reserved.filter (fun r => engines.contains r.1)).take want
  let taken := s.funcs.flatMap (fun p => if p.1 = fn then [] else p.2.reserved)
  let free := (engines.flatMap (fun e => (List.range 64).map (fun t => (e, t)))).filter (fun r => !taken.contains r && !keep.contains r)
  keep ++ ((free.mergeSort (fun a b => Config.placeRank a.1 a.2 ≤ Config.placeRank b.1 b.2)).take (want - keep.length))

/-- Check 3 of R526: vectors (R64), totals of R181 on the engines not retired, and places for the reservations. -/
def State.poolOk (s : State) (fn : Nat) (d : List Byte) : Bool :=
  let others := s.funcs.filter (fun p => decide (p.1 ≠ fn))
  let f := s.getFn fn
  let own := if s.fnExists fn && decide (f.state ≠ 1) then max (field d 0 1) f.tableSize else field d 0 1
  let vec := others.foldl (fun n p => n + max p.2.vectors p.2.tableSize) own
  let pv := others.foldl (fun n p => n + p.2.pvuSlots) (field d 8 2)
  let bn := others.foldl (fun n p => n + p.2.bneTicks) (field d 10 2)
  decide (vec ≤ 2048) && decide (pv ≤ 64 * s.activePvus.length) && decide (bn ≤ 64 * s.placeBnes.length)
    && decide ((s.placeOn fn s.placePvus (field d 8 2)).length = field d 8 2)
    && decide ((s.placeOn fn s.placeBnes (field d 10 2)).length = field d 10 2)

/-- The reservations of a descriptor are placed. -/
def State.reserve (s : State) (fn : Nat) (d : List Byte) : State :=
  let r := s.placeOn fn s.placePvus (field d 8 2) ++ s.placeOn fn s.placeBnes (field d 10 2)
  s.modFn fn (fun f => { f with pvuSlots := field d 8 2, bneTicks := field d 10 2, reserved := r })

/-- A generation count that the function has not had (R418). -/
def State.nextGen (s : State) (fn : Nat) : State :=
  let g := (KV.getD s.held.gens fn 0 + 1) % 2 ^ 32
  ({ s with held := { s.held with gens := KV.set s.held.gens fn g } } : State).modFn fn (fun f => { f with gen := g })

/-- n of a command names an instance that exists, in one of the states allowed (R524). -/
def State.instIn (s : State) (n : Nat) (states : List Nat) : Bool :=
  decide (n ≠ 0) && decide (n < 256) && s.fnExists n && (states.isEmpty || states.contains (s.getFn n).state)

/-- Instance number of a command. -/
def Job.inst (j : Job) : Nat := p16 j.par 0

/-- The instance is created (R526). -/
def State.createInst (s : State) (n : Nat) (d : List Byte) : State :=
  let f := applyFields { state := 1, vectors := field d 0 1, tableSize := field d 0 1 } d
  let s1 := (({ s with funcs := KV.set s.funcs n f } : State).reserve n d).nextGen n
  (s1.logEvent n (plainEvent 8)).cause (instPage n) 3

/-- INSTANCE_CREATE (R526). -/
def execInstanceCreate (job : Nat) (s : State) : Host.Outcome State Fault Refusal :=
  .next (s.onAdmin 0x0080 job (fun t j =>
    let n := j.inst
    if n = 0 ∨ 255 < n ∨ t.pcr.numVfs < n ∨ t.fnExists n then t.adminEnd job (badParam 0x12)
    else if !descOk n j.input then t.adminEnd job (badParam 0x0C)
    else if !t.poolOk n j.input then t.adminEnd job (badParam 0x13)
    else (t.createInst n j.input).adminEnd job {}))

/-- Vectors that the instance's queues name (R735). -/
def State.vectorsNamed (s : State) (fn : Nat) : Nat :=
  s.queues.foldl (fun m p => if p.1 / 65 = fn then max m (p.2.vector + 1) else m) 0

/-- Check 4 of R526. -/
def State.fits (s : State) (fn : Nat) (d : List Byte) : Bool :=
  decide (s.vectorsNamed fn ≤ field d 0 1) && decide ((s.ioQueues fn).length ≤ field d 1 1) && decide (s.domainCount fn ≤ field d 4 4)

/-- Check 5 of R526: the change is allowed under R528 or R530. -/
def State.inWindow (s : State) (fn : Nat) (d : List Byte) : Bool :=
  let f := s.getFn fn
  let only := decide (descBytes { applyFields f d with vectors := field d 0 1 } = descBytes f)
  s.maintenance || (decide (fn ≠ 0) && (decide (f.state = 1) || (s.pcr.recovery && only)))

/-- INSTANCE_MODIFY (R526, R528, R530): its effect comes at the next admission edge. -/
def execInstanceModify (job : Nat) (s : State) : Host.Outcome State Fault Refusal :=
  .next (s.onAdmin 0x0081 job (fun t j =>
    let n := j.inst
    if 255 < n ∨ !t.fnExists n ∨ (n ≠ 0 ∧ t.pcr.numVfs < n) then t.adminEnd job (badParam 0x12)
    else if !descOk n j.input then t.adminEnd job (badParam 0x0C)
    else if !t.poolOk n j.input then t.adminEnd job (badParam 0x13)
    else if !t.fits n j.input then t.adminEnd job (badParam 0x14)
    else if !t.inWindow n j.input then t.adminEnd job (badParam 0x15)
    else t.adminEnd job {}))

/-- A change of `VECTORS` takes effect at once while CREATED, and else at the next reset (R64). -/
def setVectors (f : Func) (v : Nat) : Func := { f with vectors := v, tableSize := if f.state = 1 then v else f.tableSize }

/-- The change of an `INSTANCE_MODIFY` takes effect (R528, R530). -/
def State.applyModify (s : State) (n : Nat) (d : List Byte) : State :=
  let s1 := (s.modFn n (fun f => setVectors (applyFields f d) (field d 0 1))).reserve n d
  let s2 : State := if n = 0 then { s1 with held := { s1.held with pfLimits := d } } else s1
  let s3 := s2.logEvent n (plainEvent 7)
  (if n = 0 then s3 else s3.message n 0x80 (descBytes (s3.getFn n))).cause (instPage n) 3

/-- Every I/O queue of a function starts one scan (R527). -/
def State.scanAll (s : State) (fn : Nat) : State :=
  (s.ioQueues fn).foldl (fun t q => match t.getQueue fn q with
    | some x => t.setQueue fn q { x with rescan := true }
    | none => t) s

/-- INSTANCE_ENABLE (R527). -/
def execInstanceEnable (job : Nat) (s : State) : Host.Outcome State Fault Refusal :=
  .next (s.onAdmin 0x0082 job (fun t j =>
    let n := j.inst
    if t.instIn n [1] then (t.setInst n 2).adminEnd job {}
    else if t.instIn n [4] then ((t.setInst n 2).scanAll n).adminEnd job {}
    else t.adminEnd job (badParam 0x12)))

/-- The drain bound: the latest release edge booked for the function (R540). -/
def State.drainBound (s : State) (fn : Nat) : Nat :=
  s.jobs.foldl (fun m p =>
    if p.2.fn = fn ∧ p.2.phase = .admitted ∧ p.2.cluster = none ∧ p.2.forward = none then max m p.2.relEdge else m) s.trd.edge

/-- A drain begins: QE takes nothing more (R540, R543). -/
def State.startDrain (s : State) (fn st job : Nat) : State :=
  ((s.setInst fn st).modFn fn (fun f => { f with quiesceEdge := s.drainBound fn, drainJob := some job })).adminWait job

/-- INSTANCE_QUIESCE (R540): taken jobs not admitted complete `CANCELLED`. -/
def execInstanceQuiesce (job : Nat) (s : State) : Host.Outcome State Fault Refusal :=
  .next (s.onAdmin 0x0083 job (fun t j =>
    let n := j.inst
    if !t.instIn n [2] then t.adminEnd job (badParam 0x12)
    else
      let t1 := t.startDrain n 3 job
      let t2 := (t1.ioQueues n ++ [64]).foldl (fun (u : State) q => u.cancelWaiting n q) t1
      t2.message n 0x81 (le 8 (t2.getFn n).quiesceEdge)))

/-- INSTANCE_QUIESCED (R540): the last job has been released and its head word written. -/
def execInstanceQuiesced (fn : Nat) (s : State) : Host.Outcome State Fault Refusal :=
  let f := s.getFn fn
  if f.state = 3 ∧ !s.jobs.any (fun p => decide (p.2.fn = fn) && !p.2.finished && p.2.cluster.isNone) then
    let s1 := ((s.setInst fn 4).modFn fn (fun x => { x with drainJob := none })).logEvent fn (plainEvent 3)
    .next (match f.drainJob with | some d => s1.adminEnd d {} | none => s1)
  else .next s

-- Resets (R538, R539, R542).

/-- A `MIGRATE_RESTORE` of the instance under execution completes `CANCELLED` (R542). -/
def State.cancelRestore (s : State) (fn : Nat) : State :=
  { s with jobs := KV.mapV (fun _ j => if j.q = 64 ∧ j.opcode = 0x008B ∧ j.inst = fn ∧ j.phase = .admitted then
      { j with result := some (statusDetail 0x0060 0) } else j) s.jobs }

/-- A reset of an instance begins (R538 step 1). `to` is the state it returns to when the cause fixes it. -/
def State.startReset (s : State) (fn : Nat) (back : Option Nat) (destroy flr : Bool) (job : Option Nat) : State :=
  let f := s.getFn fn
  if fn = 0 ∨ !s.fnExists fn then s
  else if f.state = 7 then
    s.modFn fn (fun x => { x with
      resetTo := back.getD x.resetTo, resetDestroy := x.resetDestroy || destroy, resetFlr := x.resetFlr || flr,
      drainJob := match job with | some d => some d | none => x.drainJob })
  else
    let s1 := match f.drainJob with | some d => s.adminEnd d (statusDetail 0x0060 0) | none => s
    let s2 := if f.state = 8 then s1.cancelRestore fn else s1
    (s2.setInst fn 7).modFn fn (fun x => { x with
      resetEdge := some (s.trd.edge + 1), resetTo := back.getD (if f.state = 1 ∨ f.state = 8 then 1 else 2), resetDestroy := destroy,
      resetFlr := flr, drainJob := job, offer := none, saving := none, restoring := none, chunk := 0 })

/-- INSTANCE_RESET (R538). -/
def execInstanceReset (job : Nat) (s : State) : Host.Outcome State Fault Refusal :=
  .next (s.onAdmin 0x0084 job (fun t j =>
    if t.instIn j.inst [] then (t.startReset j.inst none false false (some job)).adminWait job else t.adminEnd job (badParam 0x12)))

/-- INSTANCE_DESTROY (R538, R539). -/
def execInstanceDestroy (job : Nat) (s : State) : Host.Outcome State Fault Refusal :=
  .next (s.onAdmin 0x0085 job (fun t j =>
    if t.instIn j.inst [] then (t.startReset j.inst none true false (some job)).adminWait job else t.adminEnd job (badParam 0x12)))

/-- BUS_MASTER_ENABLE_CLEAR (R538). -/
def execBusMasterEnableClear (fn : Nat) (s : State) : Host.Outcome State Fault Refusal :=
  .next ((s.startReset fn none false false none).modFn fn (fun f => { f with busMaster := false }))

/-- Every instance is reset and returns to CREATED (R538, R539). -/
def State.resetAll (s : State) : State :=
  (s.funcs.map (·.1)).foldl (fun t n => (t.startReset n (some 1) false false none).modFn n (fun f => if n = 0 then f else f.pcieReset)) s

/-- VF_ENABLE_CLEAR (R538). -/
def execVfEnableClear (s : State) : Host.Outcome State Fault Refusal := .next ({ s with pcr := { s.pcr with vfEnable := false } } : State).resetAll

/-- A forwarded job is taken back with SQUASH (R660). -/
def State.squashForward (s : State) (id : Nat) : State :=
  match s.plk.forwards.find? (fun p => decide (p.2.job = id)) with
  | none => s
  | some (fid, f) =>
    let s1 : State := { s with plk := { s.plk with forwards := KV.erase s.plk.forwards fid } }
    match KV.get? s1.plk.nodes f.node with
    | some x => s1.sendFrame x.port 7 f.node (le 4 fid)
    | none => s1

/-- Step 2 of R538: the taken jobs of a function are dropped or squashed, their bookings go and their BNE runs abort. -/
def State.squashFn (s : State) (fn : Nat) : State :=
  let ids := (s.jobs.filter (fun p => decide (p.2.fn = fn) && decide (p.2.phase ≠ .written) && p.2.cluster.isNone)).map (·.1)
  let s1 := ids.foldl (fun t id => (t.modJob id (fun j => { j with squashed := true, rebook := false })).squashForward id) s
  let s2 := (List.range s1.bnes).foldl (fun t n => match (t.getBne n).jobId with
    | some id => if ids.contains id && decide ((t.getBne n).phase = .running) then t.bneAbort n .squash else t
    | none => t) s1
  let mine (b : Option Nat) : Bool := match b with | some id => ids.contains id | none => false
  { s2 with trd := { s2.trd with
      plan := s2.planWithout (fun b => mine b.job),
      signQ := s2.trd.signQ.map (fun q => { q with chains := q.chains.filter (fun c => !ids.contains c.1) }),
      pages := s2.trd.pages.filter (fun x => !ids.contains x.1) } }

/-- The job's effect has taken place (R539). -/
def State.committed (s : State) (id : Nat) (j : Job) : Bool :=
  let durable := !(s.kst.waiting ++ s.kst.page).any (fun r => decide (r.job = some id))
  (statefulSign j.opcode && j.leaf.isSome && decide (j.replay = none))
    || (decide (j.opcode = 0x0104) && decide (j.phase = .admitted))
    || (j.created.isSome && (match j.result with | some r => okStatus r.status | none => false))
    || (([0x0106, 0x0107].contains j.opcode) && j.result.isSome)
    || (decide (j.opcode = 0x0321) && j.result.isSome && durable)

/-- The SQUASHED record of a dropped or squashed job, and what it leaves behind (R539, R541). -/
def State.dropSquashed (s : State) (id : Nat) : State :=
  let j := s.getJob id
  let c := s.committed id j
  let h := if c then (match j.created with | some x => x | none => j.e.keyHandle) else j.e.keyHandle
  let s1 := s.logEvent j.fn (fun seq tick => {
    seq := seq, tick := tick, etype := 1, committed := c, queue := if j.q = 64 then 0xFFFF else j.q, entry := j.num, tag := j.e.tag,
    opcode := j.opcode, status := 0x0061, handle := h, detail := BitVec.ofNat 64 (j.leaf.getD 0) })
  let s2 := s1.releaseKey id j
  let s3 := if j.created.isNone then s2 else if c then s2.reveal id j else s2.dropCreated j { status := 0x0061 }
  { s3 with jobs := KV.erase s3.jobs id }

/-- An FLR takes the PCIe configuration state of its function with it; the other causes of a reset leave it (R539). -/
def Func.afterFlr (f : Func) : Func := if f.resetFlr then f.pcieReset else f

/-- Everything of a function that a reset clears (R407, R539). -/
def State.clearFn (s : State) (fn : Nat) : State :=
  let s1 : State := { s with
    queues := s.queues.filter (fun p => decide (p.1 / 65 ≠ fn))
    patterns := s.patterns.filter (fun p => decide (p.2.fn ≠ fn))
    jobs := s.jobs.filter (fun p => decide (p.2.fn ≠ fn) || p.2.cluster.isSome) }
  (s1.clearFnDgs fn).modFn fn (fun f => { f with
    aqCfg := 0x00020000, aqBase := 0, aqHw := 0, aqErr := false, aqEnabled := false, sampling := none, up := {}, dn := {},
    mbxVer := 2, mbxNext := none, messages := [], lastModule := false, dirty := none, offer := none, saving := none, restoring := none,
    chunk := 0, quiesceEdge := 0, drainJob := none, resetEdge := none, rng := {} }.afterFlr)

/-- The key objects of a destroyed instance's domain are deleted; persistent ones through the journal (R453, R551). -/
def State.dropDomain (s : State) (fn : Nat) (job : Option Nat) : State :=
  s.kst.objs.foldl (fun t p =>
    if p.1 / 16777216 ≠ fn then t
    else
      let h := BitVec.ofNat 32 p.1
      let k := p.2
      let t1 := (t.setKey h { k with deleted := true, holders := [] }).unpin h
      let t2 : State := { t1 with kst := { t1.kst with cleanup := t1.kst.cleanup ++ [h] } }
      if usagePersist k.usage then
        t2.journal { typ := 7, handle := h, a := k.serial, b := 0, obj := none, job := job, issued := t.trd.edge }
      else t2) s

/-- The command that waits for a reset finishes (R538 step 4). -/
def State.endReset (s : State) (f : Func) (fn : Nat) : State :=
  let s1 := if f.resetFlr then s.emit (.flrDone fn) else s
  match f.drainJob with | some d => s1.adminEnd d {} | none => s1

/-- INSTANCE_RESET_DONE (R538 steps 3 and 4, R539): from the edge e1 on, at which the jobs were dropped. -/
def execInstanceResetDone (fn : Nat) (s : State) : Host.Outcome State Fault Refusal :=
  let f := s.getFn fn
  match f.resetEdge with
  | none => .next s
  | some e1 =>
    if f.state ≠ 7 ∨ s.trd.edge < e1 then .next s
    else
      let ids := (s.jobs.filter (fun p => decide (p.2.fn = fn) && p.2.squashed && p.2.cluster.isNone)).map (·.1)
      let s1 := (ids.foldl State.dropSquashed s).clearFn fn
      if f.resetDestroy then
        let s2 := s1.dropDomain fn f.drainJob
        .next ((({ s2 with funcs := KV.erase s2.funcs fn, blk := KV.erase s2.blk (instPage fn) } : State)).endReset f fn)
      else
        let s2 := ((s1.modFn fn (fun x => { x with state := f.resetTo, tableSize := x.vectors })).nextGen fn).logEvent fn (plainEvent 2)
        .next (((s2.message fn 0x83 (le 4 (s2.getFn fn).gen)).cause (instPage fn) 3).endReset f fn)

/-- RECOVERY_WINDOW_CLOSE (R529): 10 s after the last retirement. -/
def execRecoveryWindowClose (s : State) : Host.Outcome State Fault Refusal :=
  .next { s with pcr := { s.pcr with recovery := false, recoveryTicks := 0 } }

-- Dirty-page logs (R552 to R554).

/-- DIRTY_LOG_START (R552): the log runs from the command's release edge. -/
def execDirtyLogStart (job : Nat) (s : State) : Host.Outcome State Fault Refusal :=
  .next (s.onAdmin 0x0090 job (fun t j =>
    let base := field j.input 0 8
    let len := field j.input 8 8
    if !t.instIn j.inst [2] then t.adminEnd job (badParam 0x12)
    else if base % 4096 ≠ 0 ∨ len % 4096 ≠ 0 ∨ !within len 4096 68719476736 then t.adminEnd job (badParam 0x04)
    else if 16 ≤ (t.funcs.filter (fun p => p.2.dirty.isSome && decide (p.1 ≠ j.inst))).length then t.adminEnd job (badParam 0x13)
    else t.adminEnd job {}))

/-- The log that a `DIRTY_LOG_START` starts. -/
def State.startDirty (s : State) (n : Nat) (d : List Byte) : State :=
  s.modFn n (fun f => { f with dirty := some { base := field d 0 8, length := field d 8 8, pages := [], outside := false } })

/-- The bitmap of a log from a page on, `n` bytes. -/
def dirtyBytes (d : DirtyLog) (first n : Nat) : List Byte :=
  (List.range n).map (fun j => BitVec.ofNat 8 (bitmap 8 (fun i => d.pages.contains (first + 8 * j + i))))

/-- DIRTY_LOG_READ (R553): what it writes, it clears. -/
def execDirtyLogRead (job : Nat) (s : State) : Host.Outcome State Fault Refusal :=
  .next (s.onAdmin 0x0091 job (fun t j =>
    match (if t.instIn j.inst [] then (t.getFn j.inst).dirty else none) with
    | none => t.adminEnd job (badParam 0x12)
    | some d =>
      let first := p32 j.par 4
      let n := min j.e.outCap (ceilDiv (d.length / 4096 - first) 8)
      let hit (p : Nat) : Bool := decide (first ≤ p) && decide (p < first + 8 * n)
      let out := dirtyBytes d first n
      let count := (d.pages.filter hit).length
      let t1 := t.modFn j.inst (fun f => { f with dirty := some { d with pages := d.pages.filter (fun p => !hit p), outside := false } })
      t1.adminEnd job { okOut out with detail := BitVec.ofNat 64 (count + b2n d.outside * 2 ^ 63) }))

/-- DIRTY_LOG_STOP (R554). -/
def execDirtyLogStop (job : Nat) (s : State) : Host.Outcome State Fault Refusal :=
  .next (s.onAdmin 0x0092 job (fun t j =>
    if t.instIn j.inst [] && (t.getFn j.inst).dirty.isSome then (t.modFn j.inst (fun f => { f with dirty := none })).adminEnd job {}
    else t.adminEnd job (badParam 0x12)))

-- Mailboxes (R534 to R537).

/-- The checks of a SEND (R536): the ERR value, 0 for none. `seq` is the sequence number expected, where one is. -/
def sendErr (m : Mailbox) (ver : Nat) (seq : Option Nat) (down : Bool) : Nat :=
  if m.full then 1
  else if field m.data 0 1 ≠ ver then 2
  else if 248 < field m.data 2 2 then 3
  else if (match seq with | some q => decide (field m.data 4 4 ≠ q) | none => false) then 4
  else if down ∧ 0x7F < field m.data 1 1 then 5
  else 0

/-- MBX_UP_SEND (R536): the tenant posts the up box. -/
def execMbxUpSend (fn : Nat) (s : State) : Host.Outcome State Fault Refusal :=
  if fn = 0 ∨ !s.fnExists fn ∨ !s.hostOpen then .next s
  else
    let f := s.getFn fn
    let next := (f.up.seq + 1) % 2 ^ 32
    let e := sendErr f.up f.mbxVer (if f.mbxVer = 2 then some next else none) false
    if e ≠ 0 then .next ((s.setFn fn { f with up := { f.up with err := e } }).cause (instPage fn) 2)
    else
      let m := { f.up with full := true, err := 0, seq := if f.mbxVer = 2 then next else f.up.seq }
      .next ((s.setFn fn { f with up := m }).irqSync (instPage 0))

/-- A message stands in the down box (R536): in version 2 with the module's own next sequence number. -/
def postDown (f : Func) (data : List Byte) (byModule : Bool) : Func :=
  let next := (f.dn.seq + 1) % 2 ^ 32
  let d := if f.mbxVer = 2 then patchBytes data 4 (le 4 next) else data
  { f with dn := { data := d, full := true, err := 0, seq := if f.mbxVer = 2 then next else f.dn.seq }, lastModule := byModule }

/-- MBX_DN_SEND (R536): the manager posts the down box. -/
def execMbxDnSend (fn : Nat) (s : State) : Host.Outcome State Fault Refusal :=
  if fn = 0 ∨ !s.fnExists fn ∨ !s.hostOpen then .next s
  else
    let f := s.getFn fn
    let e := sendErr f.dn f.mbxVer none true
    if e ≠ 0 then .next ((s.setFn fn { f with dn := { f.dn with err := e } }).cause (instPage 0) 2)
    else .next ((s.setFn fn (postDown f f.dn.data false)).irqSync (instPage fn))

/-- MBX_UP_ACK (R536): the manager frees the up box. -/
def execMbxUpAck (fn : Nat) (s : State) : Host.Outcome State Fault Refusal :=
  let f := s.getFn fn
  if fn = 0 ∨ !s.fnExists fn ∨ !s.hostOpen ∨ !f.up.full then .next s
  else .next (((s.setFn fn { f with up := { f.up with full := false } }).irqSync (instPage 0)).cause (instPage fn) 1)

/-- MBX_DN_ACK (R536): the tenant frees the down box. -/
def execMbxDnAck (fn : Nat) (s : State) : Host.Outcome State Fault Refusal :=
  let f := s.getFn fn
  if fn = 0 ∨ !s.fnExists fn ∨ !s.hostOpen ∨ !f.dn.full then .next s
  else
    let s1 := (s.setFn fn { f with dn := { f.dn with full := false } }).irqSync (instPage fn)
    .next (if f.lastModule then s1 else s1.cause (instPage 0) 1)

/-- MODULE_MESSAGE (R537): MGC sends its oldest message when the down box is empty. -/
def execModuleMessage (fn : Nat) (s : State) : Host.Outcome State Fault Refusal :=
  let f := s.getFn fn
  if !s.fnExists fn ∨ f.dn.full ∨ !s.running then .next s
  else match f.messages with
    | [] => .next s
    | m :: rest =>
      let data := fit 256 (le 1 f.mbxVer ++ m.take 1 ++ le 2 (m.length - 1) ++ zeros 4 ++ m.drop 1)
      .next ((s.setFn fn (postDown { f with messages := rest } data true)).irqSync (instPage fn))

-- The instance page (R124 to R126, R531, R532).

/-- Jobs admitted and not released, and taken and not admitted (R532). -/
def State.inflight (s : State) (fn : Nat) : Nat × Nat :=
  let xs := s.jobs.filter (fun p => decide (p.2.fn = fn) && decide (p.2.q ≠ 64) && !p.2.finished && p.2.cluster.isNone)
  ((xs.filter (fun p => decide (p.2.phase = .admitted))).length, (xs.filter (fun p => decide (p.2.phase ≠ .admitted))).length)

/-- `INST_AQ_STATUS` (R126). -/
def State.aqStatus (s : State) (fn : Nat) : W32 :=
  let f := s.getFn fn
  BitVec.ofNat 32 (b2n f.aqEnabled * 2 ^ 31 + b2n (s.queueJobs fn 64).isEmpty * 2 ^ 30 + b2n f.aqErr * 2 ^ 29)

/-- Instances whose up box is FULL. -/
def State.upFull (s : State) : List Nat := (s.funcs.filter (fun p => decide (p.1 ≠ 0) && p.2.up.full)).map (·.1)

/-- The block-specific registers of an instance page. -/
def State.readInst (s : State) (fn off : Nat) : W32 :=
  let f := s.getFn fn
  match off with
  | 0x104 => f.aqCfg
  | 0x108 => s.aqStatus fn
  | 0x118 => BitVec.ofNat 32 f.aqBase
  | 0x11C => BitVec.ofNat 32 (f.aqBase / 2 ^ 32)
  | 0x120 => BitVec.ofNat 32 f.aqHw
  | 0x124 => BitVec.ofNat 32 (f.aqHw / 2 ^ 32)
  | 0x128 => BitVec.ofNat 32 ((if fn = 0 then 2 else f.state) * 2 ^ 28 + (if f.state = 6 then min 65535 (s.inflight fn).2 else 0))
  | 0x12C => BitVec.ofNat 32 f.gen
  | 0x130 => BitVec.ofNat 32 f.vectors
  | 0x134 => BitVec.ofNat 32 f.ioqLimit
  | 0x138 => BitVec.ofNat 32 f.keyLimit
  | 0x13C => BitVec.ofNat 32 f.pvuSlots
  | 0x140 => BitVec.ofNat 32 f.bneTicks
  | 0x144 => BitVec.ofNat 32 (f.dgsSlots * 256 + f.dgsCtx)
  | 0x148 => BitVec.ofNat 32 f.pinAllow
  | 0x14C => BitVec.ofNat 32 f.takenLimit
  | 0x150 => BitVec.ofNat 32 f.perm
  | 0x154 => BitVec.ofNat 32 (min 65535 (s.inflight fn).1 * 65536 + min 65535 (s.inflight fn).2)
  | 0x158 => BitVec.ofNat 32 f.evSeq
  | 0x15C => BitVec.ofNat 32 (f.evSeq / 2 ^ 32)
  | 0x160 => BitVec.ofNat 32 (b2n f.offer.isSome * 2 ^ 31 + b2n f.saving.isSome * 2 ^ 30 + b2n f.exported * 2 ^ 29 + f.chunk % 65536)
  | 0x164 => (match f.dirty with
    | some d => BitVec.ofNat 32 (2 ^ 31 + b2n d.outside * 2 ^ 30 + min 0x1FFFFFF d.pages.length)
    | none => 0)
  | 0x168 => BitVec.ofNat 32 f.quiesceEdge
  | 0x16C => BitVec.ofNat 32 (f.quiesceEdge / 2 ^ 32)
  | 0x174 =>
    let up := s.upFull
    let pf := if fn = 0 then up.headD 0 * 256 + min 255 up.length else 0
    BitVec.ofNat 32 (b2n f.up.full * 2 ^ 31 + f.up.err * 2 ^ 28 + pf)
  | 0x17C => BitVec.ofNat 32 (b2n f.dn.full * 2 ^ 31 + f.dn.err * 2 ^ 28 + f.messages.length)
  | 0x180 => BitVec.ofNat 32 (0x00020100 + f.mbxVer)
  | 0x184 => if fn = 0 then BitVec.ofNat 32 (b2n s.pcr.recovery * 2 ^ 31 + min 0xFFFFFF s.pcr.recoveryTicks) else 0
  | _ => 0

/-- Writes of the ring base and head-word address (R124, R128): ignored while EN = 1. -/
def State.writeInst (s : State) (fn off : Nat) (v : W32) : State :=
  let f := s.getFn fn
  if bit f.aqCfg 31 then s
  else match off with
    | 0x118 => s.setFn fn { f with aqBase := f.aqBase / 2 ^ 32 * 2 ^ 32 + v.toNat / 4096 * 4096 }
    | 0x11C => s.setFn fn { f with aqBase := f.aqBase % 2 ^ 32 + v.toNat * 2 ^ 32 }
    | 0x120 => s.setFn fn { f with aqHw := f.aqHw / 2 ^ 32 * 2 ^ 32 + v.toNat / 8 * 8 }
    | 0x124 => s.setFn fn { f with aqHw := f.aqHw % 2 ^ 32 + v.toNat * 2 ^ 32 }
    | _ => s

end Sys2Proof.Machine
end

