-- ==== Sys2Proof/Machine/Patch.lean ====
section
/-! DEFINITION. Bobbin (R495 to R522): patch images and their checks (R510 to R514), the patch commands (R515 to R519), the
turns of the engines (R517), and the sequencer registers (R521, R522). -/

namespace Sys2Proof.Machine

-- The image (R510, R511).

def imgBody (m : List Byte) : Nat := field m 16 4
def imgHss (m : List Byte) : Nat := field m 20 2

/-- A directory entry: type, offset, length, record count. -/
structure PatchSection where
  typ   : Nat
  zero  : Bool
  off   : Nat
  len   : Nat
  count : Nat
  deriving DecidableEq, Repr

/-- The directory of an image. -/
def imgSections (m : List Byte) : List PatchSection :=
  (List.range (field m 6 2)).map (fun i =>
    let o := 64 + 16 * i
    { typ := field m o 1, zero := decide (field m (o + 1) 3 = 0), off := field m (o + 4) 4, len := field m (o + 8) 4, count := field m (o + 12) 4 })

/-- A kernel record: ID, word address, and the number of words. -/
structure PatchKernel where
  id    : Nat
  addr  : Nat
  words : Nat
  /-- offset of the record in the image -/
  off   : Nat
  deriving DecidableEq, Repr

/-- The kernel records of a section; none where they do not fill it exactly. -/
def kernelRecs (m : List Byte) : Nat → Nat → Nat → Option (List PatchKernel)
  | 0, off, stop => if off = stop then some [] else none
  | n + 1, off, stop =>
    let k : PatchKernel := { id := field m off 2, words := field m (off + 2) 2, addr := field m (off + 4) 4, off := off }
    if stop < off + 32 + 8 * k.words then none else (kernelRecs m n (off + 32 + 8 * k.words) stop).map (k :: ·)

/-- Kernels of an image for PVUs (section 5) or BNEs (section 6). -/
def imgKernels (m : List Byte) (bne : Bool) : Option (List PatchKernel) :=
  (imgSections m).foldl (fun acc x =>
    if x.typ = (if bne then 6 else 5) then
      (match acc, kernelRecs m x.count x.off (x.off + x.len) with | some a, some b => some (a ++ b) | _, _ => none)
    else acc) (some [])

/-- Microword records: patch RAM offset and microword. -/
def imgUcode (m : List Byte) (bne : Bool) : List (Nat × BitVec 192) :=
  (imgSections m).flatMap (fun x =>
    if x.typ = (if bne then 2 else 1) then
      (List.range x.count).map (fun i => (field m (x.off + 32 * i) 2, BitVec.ofNat 192 (field m (x.off + 32 * i + 4) 24)))
    else [])

/-- Match records: index, enabled, ROM address, patch RAM offset. -/
def imgMatches (m : List Byte) (bne : Bool) : List (Nat × Bool × Nat × Nat) :=
  (imgSections m).flatMap (fun x =>
    if x.typ = (if bne then 4 else 3) then
      (List.range x.count).map (fun i =>
        let o := x.off + 8 * i
        (field m o 1, decide (field m (o + 1) 1 % 2 = 1), field m (o + 2) 2, field m (o + 4) 2))
    else [])

/-- Spans do not overlap. -/
def disjointSpans (xs : List (Nat × Nat)) : Bool :=
  match xs.mergeSort (fun a b => a.1 ≤ b.1) with
  | [] => true
  | y :: ys => (ys.foldl (fun (acc : Bool × Nat) z => (acc.1 && decide (acc.2 ≤ z.1), z.1 + z.2)) (true, y.1 + y.2)).1

/-- The conditions of R503. -/
def condListed (c : Nat) : Bool := decide (c ≤ 0x04) || within c 0x08 0x0D || within c 0x10 0x14 || decide (c = 0x20) || decide (c = 0x21)

/-- Check 1 of R514. -/
def imgShape (m : List Byte) : Bool :=
  decide (64 ≤ m.length) && decide (imgBody m + 4627 + imgHss m = m.length) && decide (m.take 4 = [0x4E, 0x52, 0x50, 0x41])
    && decide (field m 4 1 = 1)

/-- The records of one section lie in their ranges. -/
def sectionOk (m : List Byte) (x : PatchSection) : Bool :=
  let rec1 (i : Nat) : Bool :=
    let o := x.off + 32 * i
    let w := field m (o + 4) 24
    decide (field m o 2 ≤ 4095) && decide (field m (o + 2) 2 = 0) && decide (field m (o + 28) 4 = 0) && decide (w / 2 ^ 128 % 256 = 0)
      && condListed (w / 2 ^ 166 % 64)
  let rec3 (i : Nat) : Bool :=
    let o := x.off + 8 * i
    decide (field m o 1 ≤ 63) && decide (field m (o + 1) 1 ≤ 1) && decide (field m (o + 2) 2 ≤ 0x2FFF) && decide (field m (o + 4) 2 ≤ 4095)
      && decide (field m (o + 6) 2 = 0)
  let rec5 (k : PatchKernel) : Bool :=
    if x.typ = 5 then decide (field m (k.off + 24) 8 = 0) && decide (k.addr + k.words ≤ 32768)
    else decide (slice m (k.off + 12) 20 = zeros 20) && decide (k.addr + k.words ≤ 16384)
  if x.typ = 1 ∨ x.typ = 2 then decide (x.len = 32 * x.count) && (List.range x.count).all rec1
  else if x.typ = 3 ∨ x.typ = 4 then decide (x.len = 8 * x.count) && (List.range x.count).all rec3
  else if x.typ = 5 ∨ x.typ = 6 then (match kernelRecs m x.count x.off (x.off + x.len) with | some ks => ks.all rec5 | none => false)
  else false

/-- A list has no repeats. -/
def noRepeats (xs : List Nat) : Bool := decide (xs.eraseDups.length = xs.length)

/-- Check 2 of R514. -/
def imgContents (m : List Byte) : Bool :=
  let xs := imgSections m
  let dirEnd := 64 + 16 * field m 6 2
  decide (field m 5 1 < 4) && within (field m 6 2) 1 16 && decide (1 ≤ field m 8 4) && decide (imgBody m ≤ 1048576)
    && decide (slice m 22 42 = zeros 42)
    && decide ((xs.map (fun x => x.off + x.len)).foldl max 0 = imgBody m)
    && xs.all (fun x => x.zero && decide (dirEnd ≤ x.off) && decide (x.off + x.len ≤ imgBody m) && sectionOk m x)
    && disjointSpans (xs.map (fun x => (x.off, x.len)))
    && [false, true].all (fun b => noRepeats ((imgMatches m b).map (·.1))
        && noRepeats (((imgMatches m b).filter (·.2.1)).map (fun r => r.2.2.1))
        && (match imgKernels m b with | some ks => disjointSpans (ks.map (fun k => (k.addr, k.words))) | none => false))

/-- Engine codes present on the part, PVUs first (R517). -/
def State.engineCodes (s : State) : List Nat := (List.range s.pvus).map (0x10 + ·) ++ (List.range s.bnes).map (0x20 + ·)

/-- An engine is a target of an image. -/
def targeted (targets code : Nat) : Bool := if code < 0x20 then decide (targets % 2 = 1) else decide (targets / 2 % 2 = 1)

/-- The context of the ML-DSA signature: "NRN48-PATCH" (R512). -/
def patchContext : List Byte := [0x4E, 0x52, 0x4E, 0x34, 0x38, 0x2D, 0x50, 0x41, 0x54, 0x43, 0x48]

/-- The checks of R514: status and reason of the first failure. -/
def State.imageFault (s : State) (m : List Byte) : Option (Nat × Nat) :=
  let body := m.take (imgBody m)
  let hss := m.drop (imgBody m + 4627)
  if !imgShape m ∨ !imgContents m then some (0x0030, 0x0E)
  else if !(s.engineCodes.filter (targeted (field m 5 1))).all (fun c => decide (Config.romVer c % 256 = field m 14 2)) then some (0x0030, 0x10)
  else if !mldsaVerify 3 Config.vendorMldsa (muOf Config.vendorMldsa (pureRep patchContext body)) (slice m (imgBody m) 4627) then some (0x0030, 0x0E)
  else if !hssVerify Config.vendorHss body hss then some (0x0030, 0x0E)
  else if field m 8 4 < s.held.patchCnt then some (0x0024, 0x0F)
  else none

/-- An image as MGC keeps it. -/
def imageOf (m : List Byte) : PatchImage := { seq := field m 8 4, id := field m 12 2, targets := field m 5 1, bytes := m }

/-- PATCH_LOAD (R514, R517): the image is staged. -/
def execPatchLoad (job : Nat) (s : State) : Host.Outcome State Fault Refusal :=
  .next (s.onAdmin 0x0098 job (fun t j =>
    match t.imageFault j.input with
    | some (st, r) => t.adminEnd job (statusDetail st r)
    | none => ({ t with patches := { t.patches with images := KV.set t.patches.images 2 (imageOf j.input) } } : State).adminEnd job {}))

-- Engines.

/-- What an image writes into a sequencer (R511, R517). -/
def loadBobbin (im : PatchImage) (bne : Bool) (b : Bobbin) : Bobbin :=
  let ms := imgMatches im.bytes bne
  let ks := (imgKernels im.bytes bne).getD []
  { b with
    patchId := im.id, seq := im.seq, matchEn := (ms.filter (·.2.1)).length,
    matches_ := (ms.filter (·.2.1)).map (fun r => (r.1, r.2.2.1, r.2.2.2)),
    patchRam := (imgUcode im.bytes bne).foldl (fun r x => KV.set r x.1 x.2) [],
    kernels := ks.foldl (fun r k => (List.range k.words).foldl (fun r i =>
      KV.set r (k.addr + i) (BitVec.ofNat 64 (field im.bytes (k.off + 32 + 8 * i) 8))) r) [],
    reloading := false }

/-- The sequencer of an engine code. -/
def State.getBob (s : State) (code : Nat) : Bobbin := if code < 0x20 then (s.getPvu (code - 0x10)).bob else (s.getBne (code - 0x20)).bob

/-- The control store of an engine in the regions of R571, with 24 bytes of it for each microword (log entry 63). -/
def controlStore (code : Nat) : Nat := if code < 0x20 then 27 + (code - 0x10) else 43 + (code - 0x20)

/-- Patch RAM is written where an injection is armed (R572): the error stays until Darning finds it. -/
def State.injectPatch (s : State) (code : Nat) (b : Bobbin) : State :=
  match s.injectAt (controlStore code) (fun a => (KV.get? b.patchRam (a / 24 - 0x3000)).isSome && decide (0x3000 ≤ a / 24)) with
  | (none, t) => t
  | (some (kind, a), t) => if kind < 2 then t.keepInjected (controlStore code) (a / 8) (decide (kind = 1)) else t

/-- MGC writes an image into an engine. -/
def State.loadEngine (s0 : State) (code : Nat) (im : PatchImage) : State :=
  let s := if targeted im.targets code then s0.injectPatch code (loadBobbin im (decide (0x20 ≤ code)) (s0.getBob code)) else s0
  if !targeted im.targets code then s
  else if code < 0x20 then
    let p := s.getPvu (code - 0x10)
    s.setPvu (code - 0x10) { p with bob := loadBobbin im false p.bob }
  else
    let b := s.getBne (code - 0x20)
    s.setBne (code - 0x20) { b with bob := loadBobbin im true b.bob }

/-- The image in force. -/
def State.bootImage (s : State) : Option PatchImage := s.patches.active.bind (KV.get? s.patches.images)

/-- Engines of one kind. -/
def kindOf (code : Nat) : Bool := decide (0x20 ≤ code)

/-- The engines whose turn it is: the first PVU and the first BNE of those left. -/
def turnHeads (left : List Nat) : List Nat := ((left.find? (fun c => !kindOf c)).toList) ++ ((left.find? kindOf).toList)

/-- The engines left after some have gone; the next ones are drained, and the command completes after the last (R517). -/
def State.setTurn (s : State) (job : Nat) (left : List Nat) (ended : List Nat) : State :=
  let book := (s.trd.noBook.filter (fun c => !ended.contains c)) ++ (turnHeads left).filter (fun c => !s.trd.noBook.contains c)
  let s1 : State := { s with
    trd := { s.trd with noBook := book }, patches := { s.patches with turn := if left.isEmpty then none else some { job := job, left := left } } }
  if left.isEmpty then s1.adminEnd job { detail := BitVec.ofNat 64 s1.patchDetail } else s1

/-- PATCH_ACTIVATE steps 1 to 3, and the turns begin (R517). -/
def State.activateImage (s : State) (job : Nat) (im : PatchImage) : State :=
  let slot := if s.patches.active = some 0 then 1 else 0
  let s0 := s.programPages (ceilDiv im.bytes.length 4096)
  let s1 : State := { s0 with
    patches := { s0.patches with images := KV.set s0.patches.images slot im, active := some slot }
    held := { s0.held with patchCnt := max s0.held.patchCnt im.seq } }
  let left := s1.engineCodes.filter (fun c => targeted im.targets c && !s1.retired c
    && !(decide ((s1.getBob c).patchId = im.id) && decide ((s1.getBob c).seq = im.seq)))
  (s1.adminWait job).setTurn job left []

/-- PATCH_ACTIVATE (R517). -/
def execPatchActivate (job : Nat) (s : State) : Host.Outcome State Fault Refusal :=
  .next (s.onAdmin 0x0099 job (fun t _ =>
    match KV.get? t.patches.images 2 with
    | none => t.adminEnd job (badParam 0x11)
    | some im => t.activateImage job im))

/-- The engine has drained: nothing is booked on it and no sign chain lives on it (R517). -/
def State.engineDrained (s : State) (code : Nat) : Bool :=
  let e := if code < 0x20 then code - 0x10 else code - 0x20 + 16
  !s.trd.plan.any (fun b => decide (b.eng = e)) && !s.trd.signQ.any (fun q => decide (q.pvu = e) && !q.chains.isEmpty)

/-- PATCH_ENGINE_TURN (R517): MGC writes a drained engine and reads it back; a mismatch fires its SELFTEST source. -/
def execPatchEngineTurn (code : Nat) (readBack : Bool) (s : State) : Host.Outcome State Fault Refusal :=
  match s.patches.turn, s.bootImage with
  | some t, some im =>
    if !(turnHeads t.left).contains code || !s.engineDrained code || s.pcr.frozen then .next s
    else
      let s1 := s.loadEngine code im
      let s2 := if readBack then s1 else s1.raise { src := code * 256 + 4 }
      .next (s2.setTurn t.job (t.left.filter (· ≠ code)) [code])
  | _, _ => .next s

/-- At an edge: engines that have been retired lose their turn (R517), and a turn whose command has ended goes no further (R518). -/
def State.dropTurn (s : State) : State :=
  match s.patches.turn with
  | none => s
  | some t =>
    if (s.getJob t.job).phase = .admitted then
      (if t.left.any s.retired then s.setTurn t.job (t.left.filter (fun c => !s.retired c)) (t.left.filter s.retired) else s)
    else { s with
      trd := { s.trd with noBook := s.trd.noBook.filter (fun c => !t.left.contains c) }, patches := { s.patches with turn := none } }

/-- PATCH_RAM_RELOAD_DONE (R497): MGC has reloaded a sequencer from the image in force. -/
def execPatchRamReloadDone (code : Nat) (s : State) : Host.Outcome State Fault Refusal :=
  if !s.engineCodes.contains code || !(s.getBob code).reloading then .next s
  else match s.bootImage with
    | some im => .next (s.loadEngine code im)
    | none => .next s

/-- `PATCH_STATUS` (R519). -/
def State.patchStatus (s : State) : List Byte :=
  let im (k : Option Nat) : Option PatchImage := k.bind (KV.get? s.patches.images)
  let two (x : Option PatchImage) : List Byte := match x with | some i => le 4 i.seq ++ le 2 i.id | none => zeros 6
  let alt := match s.patches.active with | some 0 => some 1 | some _ => some 0 | none => none
  let d := s.patchDetail
  le 4 s.held.patchCnt ++ two (im s.patches.active) ++ le 2 (Config.romVer 0x10 % 256) ++ two (im (some 2)) ++ two (im alt)
    ++ le 2 d ++ le 1 (d / 65536) ++ zeros 37

/-- PATCH_STATUS (R519). -/
def execPatchStatus (job : Nat) (s : State) : Host.Outcome State Fault Refusal :=
  .next (s.onAdmin 0x009A job (fun t _ => t.adminEnd job (okOut t.patchStatus)))

/-- PATCH_READ (R519). -/
def execPatchRead (job : Nat) (s : State) : Host.Outcome State Fault Refusal :=
  .next (s.onAdmin 0x009B job (fun t j =>
    let sel := p8 j.par 0
    let key := if sel = 0 then t.patches.active else if sel = 1 then some 2
      else if sel = 2 then (match t.patches.active with | some 0 => some 1 | some _ => some 0 | none => none) else none
    match key.bind (KV.get? t.patches.images) with
    | none => t.adminEnd job (badParam 0x11)
    | some im =>
      if j.e.outCap < im.bytes.length then t.adminEnd job { status := 0x0011, outLen := im.bytes.length }
      else t.adminEnd job (okOut im.bytes)))

-- Registers (R521, R522).

/-- `_BOB0` to `_BOB5` of an engine. -/
def State.readBob (s : State) (code off : Nat) : Option W32 :=
  if !s.engineCodes.contains code ∨ off < 0x1C0 ∨ 0x1D4 < off then none
  else
    let b := s.getBob code
    let shadow := decide (code < 0x20) && decide ((s.getPvu (code - 0x10)).phase = .handler)
    some (match off with
      | 0x1C0 => BitVec.ofNat 32 (b.patchId * 65536 + Config.romVer code % 256 * 256 + b.matchEn)
      | 0x1C4 => BitVec.ofNat 32 b.seq
      | 0x1C8 => BitVec.ofNat 32 (b.corr * 65536 + b.uncorr * 256)
      | 0x1CC => (match b.lastCorr with | some (half, a) => BitVec.ofNat 32 (2 ^ 31 + b2n half * 2 ^ 30 + a) | none => 0)
      | 0x1D0 => BitVec.ofNat 32 (b2n shadow * 2 ^ 31 + b.lastCause * 65536 + b.excTraps)
      | 0x1D4 => BitVec.ofNat 32 (b.passes * 65536 + b.lastTick)
      | _ => 0)

end Sys2Proof.Machine
end

