-- ==== Sys2Proof/Machine/Power.lean ====
section
/-! DEFINITION. Power-up, resets, supply events and lifecycle (R715 to R734), the PCIe link (R586, R716, R720), and the PCR
registers (R687, R700, R732, R733). -/

namespace Sys2Proof.Machine

-- Reset (R720).

/-- What is left of an object's stateful part after a reset: trees are rebuilt, grants are gone (R341, R353). -/
def resetStateful (st : Stateful) : Stateful :=
  { st with
    grants := [], asked := false, issued := st.durable, levels := st.levels.map (fun l =>
      { l with curBuilt := l.curBuilt && !st.cacheTrees, nextBuilt := l.nextBuilt && !st.cacheTrees, prevHeld := false }) }

/-- A persistent object as it stands in flash alone (R447). -/
def resetObj (k : KeyObj) : KeyObj :=
  { k with inCache := false, inDram := false, scorched := false, dramBad := false, holders := [], lastUse := 0, replicas := [], st := k.st.map resetStateful }

/-- KST after a reset: records that were durable have taken effect, the others have not, and volatile objects are gone
(R447, R467, R468). -/
def State.resetKst (s : State) : Kst :=
  let k0 := s.kst
  let s1 : State := { s with plk := {}, kst := { k0 with settled := k0.settled.filter (fun r => decide (r.typ ≠ 5)) } }
  let s2 := s1.settle
  let s3 := (k0.page ++ k0.waiting).reverse.foldl State.undoRecord s2
  let gone := s3.kst.objs.filter (fun p => p.2.deleted && usagePersist p.2.usage && !p.2.inFlash)
  let kept := s3.kst.objs.filter (fun p => p.2.inFlash && !p.2.deleted)
  { objs := KV.mapV (fun _ k => resetObj k) kept, lastIdx := k0.lastIdx, nextSerial := k0.nextSerial, durable := k0.durable,
    pageSeq := k0.pageSeq, ckptSeq := k0.ckptSeq, sinceCkpt := k0.sinceCkpt, erase := k0.erase ++ gone.map (fun p => p.2.serial),
    wear := k0.wear, written := k0.written, wearSaid := k0.wearSaid }

/-- The Fireguard loses its state with its supply: input power fails and there is no usable cell (R621, R726). -/
def loseFireguard (h : Held) : Held :=
  { h with
    ms := none, stickyLock := false, zeroized := false, valid := false, lost := true, rtc := 0, sticky := 0, evidence := [],
    evidCnt := 0, evidWait := [], patchCnt := 0, retired := 0, hsaRetired := 0, lka := Vector.replicate 24 (0, 1), last := [],
    caseCfg := 0, envCfg := 0x8BF, lightThresh := 0, loopCfg := Vector.replicate 48 0, prevLife := 0 }

/-- What is held across a reset (R627, R720). -/
def State.resetHeld (s : State) (powerLoss : Bool) : Held :=
  let h := { s.held with rtc := s.rtcNow }
  if powerLoss && h.vbatLow then loseFireguard h else h

/-- `RESET_CAUSE.CAUSE` (R733). -/
def causeCode : ResetCause → Nat
  | .powerUp => 1
  | .undervoltage => 2
  | .sysReset => 3
  | .pcrReset => 4

/-- The module in reset: everything at its reset value but what R720 keeps, the model's counters, and what the sensors see. -/
def State.inReset (s : State) (cause : ResetCause) : State :=
  let loss := decide (cause = .powerUp) || decide (cause = .undervoltage)
  let t := s.tmp
  { State.reset with
    pending := s.pending, out := s.out, part := s.part, nextJob := s.nextJob, nextPattern := s.nextPattern, free := s.free
    held := s.resetHeld loss
    kst := s.resetKst
    fls := { s.fls with lastFail := none, cnt := Vector.replicate 16 0 }
    patches := { s.patches with images := KV.erase s.patches.images 2, turn := none }
    hrt := { log := s.held.faultRing, logSeq := (match s.held.faultRing.head? with | some r => r.seq + 1 | none => 0) }
    tmp := { active := t.active, loopMeas := t.loopMeas, caseLevel := t.caseLevel, vin := t.vin, clk := t.clk, temp := t.temp,
             lightLevel := t.lightLevel }
    ent := { int := { pos := s.ent.int.pos }, host := { pos := s.ent.host.pos } }
    pvu := s.pvu.map (fun p => { mrgUsed := p.mrgUsed, mrgCount := p.mrgCount })
    bne := s.bne.map (fun b => { mrgUsed := b.mrgUsed, mrgCount := b.mrgCount })
    pcr := { input := s.pcr.input && !loss, cause := causeCode cause, tj := s.pcr.tj, gpioPins := s.pcr.gpioPins } }

/-- A reset (R720): the physical function gets back its reservations and its next generation count. -/
def State.afterReset (s : State) (cause : ResetCause) : State :=
  let s1 := s.inReset cause
  let s2 : State := if s1.held.pfLimits = [] then s1
    else (s1.modFn 0 (fun f => applyFields f s1.held.pfLimits)).reserve 0 s1.held.pfLimits
  s2.nextGen 0

/-- COLD_RESET (R720): a reset by `PCR_RESET` only follows its write. -/
def execColdReset (cause : ResetCause) (s : State) : Host.Outcome State Fault Refusal :=
  .next (if cause = .pcrReset ∧ !s.pcr.resetDue then s else s.afterReset cause)

/-- PCR_RESET (R733): the key must be right; the reset comes 10 µs later. -/
def execPcrReset (val : W32) (s : State) : Host.Outcome State Fault Refusal :=
  .next (s.onPage 0x71 (fun t =>
    if bits val 31 16 = 0xC01D ∧ bit val 0 then { t with pcr := { t.pcr with resetDue := true } } else t))

-- Power-up (R715 to R719).

/-- A step of the power-up, unless a FATAL event has ended it. -/
def State.bootStep (s : State) (n : Nat) (f : State → State) : State :=
  if s.hrt.halt.isSome then s
  else
    let t := f s
    if t.hrt.halt.isSome then t else { t with pcr := { t.pcr with step := n } }

/-- Step 3: MEM tests its checkers (R568), ENT runs the start-up tests (R427). -/
def State.bootMemories (s : State) (r : BootResults) : State :=
  if r.checkerFail then s.raise { src := 0x400A }
  else
    let bad := (List.range 8).filter r.startupFail.contains
    let s1 : State := { s with ent := { s.ent with
      startupDone := true, sources := s.ent.sources.mapIdx (fun n x => { x with state := if bad.contains n then .retired else .inService }) } }
    let s2 := bad.foldl (fun (t : State) n => (t.cause 0x31 0).raise { src := 0x3108, detail := n }) s1
    s2.irqSync 0x31

/-- A DRBG is instantiated (R428): its known-answer tests pass and its blocks come from at least two sources. -/
def instantiate (e : Ent) (kat : Bool) (d : Drbg) : Drbg :=
  if kat && decide (2 ≤ e.inService) then { d with state := .seeded, left := reseedLimit, reseeds := 0 } else d

/-- The two DRBGs (R428). -/
def State.bootDrbgs (s : State) (r : BootResults) : State :=
  let s1 : State := { s with ent := { s.ent with
    int := instantiate s.ent r.intKat s.ent.int, host := instantiate s.ent r.hostKat s.ent.host, reserve := 65536 } }
  let s2 := if r.intKat then s1 else s1.raise { src := 0x310D }
  let s3 := if r.hostKat then s2 else s2.raise { src := 0x310D }
  s3.seededCause

/-- The lifecycle state that a power-up takes: the first of R725 that applies. -/
def bootLife (h : Held) : Nat :=
  if h.decommissioned ∨ (h.valid ∧ h.life = 7) then 7
  else if !h.leftManufacture ∧ (!h.valid ∨ h.life = 1) then 1
  else if h.zeroized then 6
  else if !h.valid ∧ h.committed then 6
  else if h.stickyLock then 5
  else if h.ms = none ∨ h.life = 2 then 2
  else 3

/-- The lifecycle state is taken, with the response that it stands for (R620, R724, R725). -/
def State.takeLife (s : State) : State :=
  let n := bootLife s.held
  { s with
    held := { s.held with life := n, prevLife := if n = 5 then (if s.held.life = 5 then s.held.prevLife else s.held.life) else 0 }
    tmp := { s.tmp with response := if n = 5 then 2 else if n = 6 then 3 else 0 }
    pcr := { s.pcr with faultN1 := decide (n = 5) || decide (n = 6) } }

/-- Step 5: the Fireguard's self-check, its state, and evidence not yet copied (R623, R725, R726). -/
def State.bootFireguard (s : State) (r : BootResults) : State :=
  if r.fgCheckFail then s.raise { src := 0x5202 }
  else
    let s1 := s.takeLife
    let s2 : State := { s1 with held := { s1.held with
      evidRing := (s1.held.evidWait.reverse ++ s1.held.evidRing).take 4096, evidWait := [], lost := false } }
    (if s.held.lost then s2.raise { src := 0x5201 } else s2).bootDrbgs r

/-- Step 7: the PUF value, and MK where MS is present and nothing is locked (R449, R718). -/
def State.bootKeys (s : State) (r : BootResults) : State :=
  let s1 : State := { s with kst := { s.kst with pufOk := r.pufOk } }
  let s2 := if r.pufOk then s1 else s1.raise { src := 0x3201 }
  if s2.held.stickyLock ∨ s2.held.life = 5 ∨ s2.held.life = 6 ∨ s2.held.life = 7 then s2 else s2.kstOpen

/-- The flash slot of the image to boot (R520): the highest SEQ not below the counter. -/
def State.bootSlot (s : State) : Option Nat :=
  let good := [0, 1].filter (fun k => match KV.get? s.patches.images k with | some im => decide (s.held.patchCnt ≤ im.seq) | none => false)
  let seq (k : Nat) : Nat := match KV.get? s.patches.images k with | some im => im.seq | none => 0
  match good with
  | [] => none
  | k :: ks => some (ks.foldl (fun b x => if seq b < seq x then x else b) k)

/-- The domain of an engine is on (R706). -/
def State.engineOn (s : State) (code : Nat) (on : Bool) : State :=
  if code < 0x20 then s.setPvu (code - 0x10) { s.getPvu (code - 0x10) with powered := on }
  else s.setBne (code - 0x20) { s.getBne (code - 0x20) with powered := on }

/-- A Hash Array group with a core that is not retired has its domain on (R706). -/
def State.hsaOn (s : State) : BitVec 4 :=
  BitVec.ofNat 4 (bitmap 4 (fun g => (List.range 16).any (fun c => s.coreActive (16 * g + c))))

/-- The engine domains are on and every engine holds the image in force (R715 step 8, R723). -/
def State.enginesOn (s : State) (im : PatchImage) : State :=
  let on := s.engineCodes.filter (fun c => !s.retired c)
  let s1 := on.foldl (fun (t : State) c => (t.engineOn c true).loadEngine c im) s
  { s1 with hsa := { s1.hsa with powered := s1.hsaOn } }

/-- The engine domains in the order in which they are switched on (R715 step 8): codes, and 0x280 + group. -/
def State.domainOrder (s : State) : List Nat :=
  s.engineCodes.filter (fun c => !s.retired c) ++ ((List.range 4).filter (fun g => s.hsaOn.getLsbD g)).map (fun g => 0x280 + g)

/-- One engine domain is switched on, and its engine loaded from the image in force (R723). -/
def State.domainOn (s : State) (u : Nat) : State :=
  if 0x280 ≤ u then
    { s with hsa := { s.hsa with powered := s.hsa.powered ||| (BitVec.ofNat 4 (2 ^ (u - 0x280)) &&& s.hsaOn) } }
  else if s.retired u then s
  else
    let s1 := s.engineOn u true
    match s1.bootImage with | some im => s1.loadEngine u im | none => s1

/-- The domains whose time has come are on (R723 step 2). -/
def State.domainsDue (s : State) : State :=
  let due := s.pcr.powering.filter (fun x => decide (x.1 ≤ s.us))
  (due.map (·.2)).foldl State.domainOn { s with pcr := { s.pcr with powering := s.pcr.powering.filter (fun x => decide (s.us < x.1)) } }

/-- Step 8: the patch image (R520), and the counter after a loss of the Fireguard's state (R726). -/
def State.bootPatches (s : State) : State :=
  match s.bootSlot with
  | none => s.raise { src := 0x7F00 }
  | some k =>
    match KV.get? s.patches.images k with
    | none => s
    | some im =>
      ({ s with
        patches := { s.patches with active := some k }
        held := { s.held with patchCnt := if s.held.valid then s.held.patchCnt else im.seq } } : State).enginesOn im

/-- An engine is retired, and its domain is off (R577, R591, R717): codes of Hash Array cores are 256 + core,
whose retirement sets CORE_RETIRED (R329). -/
def State.retireNow (s : State) (code : Nat) : State :=
  if 256 ≤ code then
    let s1 : State := { s with held := { s.held with hsaRetired := s.held.hsaRetired ||| BitVec.ofNat 64 (2 ^ (code - 256)) } }
    ({ s1 with hsa := { s1.hsa with powered := s1.hsa.powered &&& s1.hsaOn } } : State).cause 0x28 1
  else
    let s1 : State := { s with held := { s.held with retired := s.held.retired ||| BitVec.ofNat 24 (2 ^ engIndex code) } }
    let s2 : State := if code < 0x20 then
        s1.setPvu (code - 0x10) { clearedPvu (s1.getPvu (code - 0x10)) with powered := false, active := false, testing := false }
      else s1.setBne (code - 0x20) { clearedBne (s1.getBne (code - 0x20)) with powered := false, active := false, testing := false }
    { s2 with trd := { s2.trd with
      sets := s2.trd.sets.filter (fun x => decide (x.1 ≠ engIndex code)), noBook := s2.trd.noBook.filter (· ≠ code) } }

/-- Steps 9 and 10: every test runs; engines and cores that fail are retired at once (R235, R717). -/
def State.bootTests (s : State) (r : BootResults) : State :=
  let codes := r.failEngines.filter (fun c => s.engineCodes.contains c && !s.retired c)
  let cores := r.failCores.filter s.coreActive
  let tested := (s.blockCodes.filter (fun k => (testInfo k).isSome && !s.retired k)).foldl (fun (t : State) k =>
    let u := t.setTest k { done := true, pass := !codes.contains k && !(decide (k = 0x28) && !cores.isEmpty), test := 15 }
    match (testInfo k).bind (·.cause) with | some c => u.cause k c | none => u) s
  let s1 := codes.foldl (fun (t : State) c => t.raise { src := c * 256 + 4 }) tested
  let s2 := cores.foldl (fun (t : State) c => t.raise { src := 0x2801, detail := c }) s1
  let s3 := s2.trd.retiring.foldl State.retireNow s2
  { s3 with trd := { s3.trd with retiring := [] } }

/-- The next leaf of a stateful key after a gap in the journal (R570). -/
def gapKey (g : Nat) (found : Option (Nat × Nat)) (st : Stateful) : Stateful :=
  let (e, a) := found.getD (st.durable, 0)
  let n := min (max (e + g * st.reserve) a) st.keyEnd
  { st with next := n, durable := n, issued := n }

/-- N moves past everything that may have been used, with a COMMIT record for each key (R570). -/
def State.replayGap (s : State) (r : BootResults) : State :=
  let found (h : Nat) : Option (Nat × Nat) := (r.gapKeys.find? (fun x => decide (x.1 = h))).map (·.2)
  let objs := KV.mapV (fun h k => match k.st with
    | some st => if st.worker then k else { k with st := some (gapKey r.journalGap (found h) st) }
    | none => k) s.kst.objs
  let s1 := ({ s with kst := { s.kst with objs := objs } } : State).flsCount 11 1 |>.cause 0x41 2 |>.raise { src := 0x4105 }
  objs.foldl (fun (t : State) p => match p.2.st with
    | some st => if st.worker then t else
        t.journal { typ := 2, handle := BitVec.ofNat 32 p.1, a := st.next, b := 0, obj := none, job := none, issued := 0 }
    | none => t) s1

/-- Step 11: with MK held, the journal is replayed (R349, R468, R570, R718). -/
def State.bootJournal (s : State) (r : BootResults) : State :=
  if !s.kst.mkHeld then s
  else
    let s1 := s.kstReplay
    if r.journalGap = 0 then s1 else s1.replayGap r

/-- Step 12: LKA takes the assessed levels and orders (R480). -/
def State.bootLka (s : State) : State :=
  { s with lka := { s.lka with engines := s.lka.engines.mapIdx (fun e x =>
      { x with cm := (vget s.held.lka e (0, 1)).1, order := (vget s.held.lka e (0, 1)).2 }) } }

/-- Trees are rebuilt from READY, in handle order (R341). -/
def State.rebuildTrees (s : State) : State :=
  s.kst.objs.foldl (fun (t : State) p => match p.2.st with
    | some st => t.startBuilds (BitVec.ofNat 32 p.1) p.2 st
    | none => t) s

/-- Step 13: READY. -/
def State.bootReady (s : State) (r : BootResults) : State :=
  ({ s.rebuildTrees with
    us := s.us + 1000 * r.bootMs
    trd := { s.rebuildTrees.trd with ready := true, edge := 0 }
    pcr := { s.rebuildTrees.pcr with ready := true, bootMs := r.bootMs % 65536 } } : State).cause 0x71 3

/-- The power-up of R715; a FATAL event ends it in SAFE_HALT before READY (R716, R717). -/
def State.powerUp (s : State) (r : BootResults) : State :=
  let s0 : State := { s with pcr := { s.pcr with
    input := true, powered := true, linkUp := true, cause := if s.pcr.cause = 0 then 1 else s.pcr.cause, gpioPins := r.pins } }
  let s2 := (s0.bootStep 1 id).bootStep 2 id
  let s4 := (s2.bootStep 3 (fun t => t.bootMemories r)).bootStep 4 (fun t => { t with hrt := { t.hrt with beatOk := true, edgeOk := true } })
  let s6 := (s4.bootStep 5 (fun t => t.bootFireguard r)).bootStep 6 (fun t => { t with mem := { t.mem with trained := true } })
  let s8 := (s6.bootStep 7 (fun t => t.bootKeys r)).bootStep 8 State.bootPatches
  let s10 := (s8.bootStep 9 (fun t => t.bootTests r)).bootStep 10 id
  let s12 := (s10.bootStep 11 (fun t => t.bootJournal r)).bootStep 12 State.bootLka
  s12.bootStep 13 (fun t => t.bootReady r)

/-- POWER_UP (R715): from reset or without power. -/
def execPowerUp (r : BootResults) (s : State) : Host.Outcome State Fault Refusal := .next (if s.pcr.powered then s else s.powerUp r)

-- The PCIe link (R586, R716, R720).

/-- The function's I/O queues, admin queue configuration and taken jobs are cleared after a link reset, with SQUASHED records
(R538, R720); TICK_EDGE does this at the edge that follows. -/
def State.dropLink (s : State) : State :=
  let s1 := s.squashFn 0
  let ids := (s1.jobs.filter (fun p => decide (p.2.fn = 0) && p.2.squashed && p.2.cluster.isNone)).map (·.1)
  let s2 := ids.foldl State.dropSquashed s1
  ({ s2 with
    queues := s2.queues.filter (fun p => decide (p.1 / 65 ≠ 0))
    jobs := s2.jobs.filter (fun p => decide (p.2.fn ≠ 0) || p.2.cluster.isSome) } : State).modFn 0 (fun f =>
      { f with aqCfg := 0x00020000, aqBase := 0, aqHw := 0, aqErr := false, aqEnabled := false, drainJob := none, resetEdge := none })

/-- A link reset: PCIe configuration state clears, every instance is reset to CREATED, and the physical function's queues take
nothing more (R720). -/
def State.linkReset (s : State) : State :=
  let s1 : State := { s with pcr := { s.pcr with
    linkUp := false, linkResets := satAdd s.pcr.linkResets 1 0xFFFF, vfEnable := false, numVfs := 0 } }
  let s2 := (((List.range 64) ++ [64]).foldl (fun (t : State) q => t.stopQueue 0 q) s1).modFn 0 (fun f =>
    { f.pcieReset with resetEdge := some (s.trd.edge + 1) })
  s2.resetAll

/-- LINK_RESET (R720). -/
def execLinkReset (s : State) : Host.Outcome State Fault Refusal := .next (if s.pcr.powered ∧ !s.pcr.frozen then s.linkReset else s)

/-- PCIE_LINK_UP (R697, R720): the link has trained. -/
def execPcieLinkUp (s : State) : Host.Outcome State Fault Refusal :=
  .next (if s.pcr.powered then { s with pcr := { s.pcr with linkUp := true } } else s)

/-- PCIE_LINK_CORR (R586). -/
def execPcieLinkCorr (s : State) : Host.Outcome State Fault Refusal :=
  .next (if s.pcr.powered ∧ !s.pcr.frozen then s.raise { src := 0x0101 } else s)

/-- FLR (R538, R720): of the physical function it is a link reset. -/
def execFlr (fn : Nat) (s : State) : Host.Outcome State Fault Refusal :=
  .next (if !s.pcr.powered ∨ s.pcr.frozen then s else if fn = 0 then s.linkReset else s.startReset fn none false true none)

/-- HIF answers configuration requests: from READY, or in the SAFE_HALT that ended the power-up (R716). -/
def State.configOpen (s : State) : Bool := s.pcr.ready || s.hrt.halt.isSome

/-- The bits of configuration space that the model holds: mask and value (R64, R68, R538). Message Control holds the function mask
in bit 30 and Table Size less one in bits 26:16 of its word (PCIe 5.0). -/
def State.configBits (s : State) (fn reg : Nat) : W32 × W32 :=
  let f := s.getFn fn
  if reg = 0x04 then (4, if f.busMaster then 4 else 0)
  else if reg = Config.msixCap then (0x47FF0000, BitVec.ofNat 32 (b2n f.fnMask * 2 ^ 30 + (f.tableSize - 1) % 2048 * 65536))
  else if fn = 0 ∧ reg = Config.sriovCap + 0x08 then (1, if s.pcr.vfEnable then 1 else 0)
  else if fn = 0 ∧ reg = Config.sriovCap + 0x10 then (0xFFFF, BitVec.ofNat 32 s.pcr.numVfs)
  else (0, 0)

/-- The messages that waited go out, each unless its own vector is masked (R68). -/
def State.sendDue (s : State) (fn : Nat) : State :=
  let f := s.getFn fn
  let due := f.pendingVec.filter (fun v => !f.maskedVec.contains v)
  if due.isEmpty then s
  else due.foldl (fun (t : State) v => t.sendMsix fn v) (s.setFn fn { f with pendingVec := f.pendingVec.filter f.maskedVec.contains })

/-- The function mask is cleared: what waited for it goes out (R68). -/
def State.fnUnmask (s : State) (fn : Nat) : State := (s.setFn fn { s.getFn fn with fnMask := false }).sendDue fn

/-- A write of configuration space: Bus Master Enable, the MSI-X function mask, VF Enable and NumVFs (R68, R538). -/
def State.configWrite (s : State) (fn reg : Nat) (v : W32) : State :=
  let f := s.getFn fn
  if reg = 0x04 then
    (if f.busMaster ∧ !bit v 2 then (s.startReset fn none false false none).modFn fn (fun x => { x with busMaster := false })
      else
        let t := s.modFn fn (fun x => { x with busMaster := bit v 2 })
        if bit v 2 then t.sendDue fn else t)
  else if reg = Config.msixCap then
    (if bit v 30 then s.modFn fn (fun x => { x with fnMask := true }) else if f.fnMask then s.fnUnmask fn else s)
  else if fn = 0 ∧ reg = Config.sriovCap + 0x08 then
    (let t : State := { s with pcr := { s.pcr with vfEnable := bit v 0 } }
     if s.pcr.vfEnable ∧ !bit v 0 then t.resetAll else t)
  else if fn = 0 ∧ reg = Config.sriovCap + 0x10 then
    (if s.pcr.vfEnable then s else { s with pcr := { s.pcr with numVfs := min 255 (bits v 15 0) } })
  else s

/-- PCIE_CONFIG_REQUEST (R716): retry status until READY, while the link is up. -/
def execPcieConfigRequest (fn : Nat) (write : Bool) (reg : Nat) (val : W32) (s : State) : Host.Outcome State Fault Refusal :=
  if !s.pcr.powered ∨ !s.pcr.linkUp then .next s
  else if !s.configOpen then .next (s.emit (.config none))
  else if write then .next (if s.pcr.frozen then s else s.configWrite fn reg val)
  else
    let m := s.configBits fn reg
    .next (s.emit (.config (some (merge m.1 (Config.pcieReg fn reg) m.2))))

-- Supply events (R721 to R723): what follows at the next edges is TICK_EDGE's.

/-- A power warning begins: the load is shed until it clears (R722). -/
def State.warned (s : State) : State :=
  { s with pcr := { s.pcr with warn := true, clearing := false, shed := true, warnings := satAdd s.pcr.warnings 1 0xFFFF } }

/-- POWER_WARNING (R721 step 1); a dip while the warning is clearing starts the 10 ms anew (R723). -/
def execPowerWarning (s : State) : Host.Outcome State Fault Refusal :=
  if !s.pcr.powered ∨ s.pcr.frozen then .next s
  else if s.pcr.warn then .next { s with pcr := { s.pcr with clearing := false } }
  else .next ((s.warned.discardAll.raise { src := 0x7103 }).irqSync 0x71)

/-- WARN_CLEAR (R723): the warning has cleared; the module acts at the next edge. -/
def execWarnClear (s : State) : Host.Outcome State Fault Refusal :=
  if !s.pcr.powered ∨ s.pcr.frozen ∨ !s.pcr.warn then .next s
  else .next { s with pcr := { s.pcr with clearing := true } }

-- Lifecycle (R727 to R731).

/-- A transition that the manager may request (R727). -/
def State.lifeAllowed (s : State) (target : Nat) : Bool :=
  let h := s.held
  let free := s.funcs.all (fun p => decide (p.1 = 0))
  match h.life, target with
  | 1, 2 => true
  | 2, 3 => h.ms.isSome && h.committed
  | 3, 4 => true
  | 4, 3 => true
  | 4, 7 => s.pcr.decomArmed && free
  | 6, 2 => h.zeroized && decide (s.pcr.erasing = 0)
  | _, _ => false

/-- A request for a lifecycle state (R727). -/
def State.requestLife (s : State) (target : Nat) : State :=
  if target = 0 then s
  else if s.lifeAllowed target then { s with pcr := { s.pcr with target := some target } }
  else s.raise { src := 0x7105 }

/-- A new master secret is stored, and KST starts with an empty object area and journal (R728). -/
def State.generateMs (s : State) : State :=
  if s.held.life = 2 ∧ s.held.ms = none ∧ s.intSeeded then
    let (bs, t) := s.drawInt 32
    let u : State := { t with
      held := { t.held with ms := some bs, valid := true }
      kst := { t.kst with
        objs := [], lastIdx := [], nextSerial := 0, waiting := [], page := [], programming := false, settled := [], durable := [],
        pageSeq := 0, ckptSeq := 0, sinceCkpt := 0, erase := [], cleanup := [], replayDone := true } }
    u.kstOpen
  else s.raise { src := 0x7105 }

/-- DECOM_ARM counts only in MAINTENANCE (R731). -/
def State.armDecom (s : State) : State := if s.maintenance then { s with pcr := { s.pcr with decomArmed := true } } else s

/-- A write of `PCR_LIFE_CTRL` (R732, R733). -/
def State.lifeCtrl (s : State) (v : W32) : State :=
  let s1 := if bit v 31 then s.generateMs else s
  let s2 := if bit v 30 then s1.armDecom else s1
  s2.requestLife (bits v 3 0)

/-- LIFECYCLE_TARGET (R727). -/
def execLifecycleTarget (val : W32) (s : State) : Host.Outcome State Fault Refusal := .next (s.onPage 0x71 (fun t => t.lifeCtrl val))
/-- GENERATE_MS (R728). -/
def execGenerateMs (s : State) : Host.Outcome State Fault Refusal := .next (s.onPage 0x71 (fun t => t.lifeCtrl 0x80000000))
/-- DECOM_ARM (R731). -/
def execDecomArm (s : State) : Host.Outcome State Fault Refusal := .next (s.onPage 0x71 (fun t => t.lifeCtrl 0x40000000))
/-- DECOM_ARM_EXPIRY (R731). -/
def execDecomArmExpiry (s : State) : Host.Outcome State Fault Refusal := .next { s with pcr := { s.pcr with decomArmed := false } }

/-- A lifecycle state is entered, with LIFE_CHANGE. -/
def State.setLife (s : State) (n : Nat) : State := (({ s with held := { s.held with life := n } } : State).cause 0x71 2)

/-- MAINTENANCE is left (R436, R593). -/
def State.leaveMaintenance (s : State) : State :=
  let t : State := { s with hrt := { s.hrt with drill := none, restoring := none } }
  t.endRaw

/-- The erasure of a re-enrolment (1) or of a decommissioning (2) starts (R730, R731). -/
def State.startErase (s : State) (n : Nat) : State :=
  { s with pcr := { s.pcr with erasing := n, decomArmed := s.pcr.decomArmed && decide (n = 1) } }

/-- A requested transition takes effect at an admission edge (R727, R730, R731): the erasures of re-enrolment and
decommissioning go on until AREA_ERASE_DONE. -/
def State.applyTarget (s : State) : State :=
  match s.pcr.target with
  | none => s
  | some n =>
    let t : State := { s with pcr := { s.pcr with target := none } }
    if !s.lifeAllowed n then t
    else if n = 7 then ((t.leaveMaintenance).takeResponse 3).startErase 2
    else if s.held.life = 6 then t.startErase 1
    else if s.held.life = 1 then ({ t with held := { t.held with leftManufacture := true } } : State).setLife 2
    else (if s.held.life = 4 then t.leaveMaintenance else t).setLife n

/-- The object area, the journal with its checkpoints, and the tree cache are empty (R730, R731). -/
def State.eraseArea (s : State) : State :=
  { s with
    kst := { s.kst with
      objs := [], lastIdx := [], waiting := [], page := [], programming := false, settled := [], durable := [], pageSeq := 0, ckptSeq := 0,
      sinceCkpt := 0, erase := [], cleanup := [] }
    trd := { s.trd with builds := [] } }

/-- Re-enrolment ends (R730): CUSTODY with MS absent. -/
def State.reenrolled (s : State) : State :=
  { s with
    held := { s.held with zeroized := false, ms := none, stickyLock := false, life := 2 }
    tmp := { s.tmp with response := 0 }
    pcr := { s.pcr with erasing := 0, faultN1 := false } }

/-- Decommissioning ends (R731): the mark, with the custodian table, the quorum definition and the allow list erased. -/
def State.decommission (s : State) : State :=
  { s with
    held := { s.held with decommissioned := true, custodians := [], committed := false, setId := 0, quorumDef := 0, allow := [],
                          life := 7 }
    pcr := { s.pcr with erasing := 0 } }

/-- AREA_ERASE_DONE (R730, R731): re-enrolment enters CUSTODY with MS absent; decommissioning is final. -/
def execAreaEraseDone (s : State) : Host.Outcome State Fault Refusal :=
  .next (if s.pcr.erasing = 1 then (((s.eraseArea).reenrolled).cause 0x71 2).irqSync 0x51
    else if s.pcr.erasing = 2 then ((s.eraseArea).decommission).cause 0x71 2
    else s)

-- Registers (R687, R700, R701, R732, R733).

/-- The level of each GPIO pin (R701): an output drives its level, an open-drain 1 leaves the pin to the board. -/
def State.gpioIn (s : State) : W16 :=
  let p := s.pcr
  let driven := p.gpioDir &&& ~~~(p.gpioOd &&& p.gpioOut)
  (p.gpioOut &&& driven) ||| (p.gpioPins &&& ~~~driven)

/-- The switched domains that are on (R706). -/
def State.domains (s : State) : Nat :=
  bitmap 16 (fun n => decide (n < s.pvus) && (s.getPvu n).powered) + 2 ^ 16 * bitmap 8 (fun n => decide (n < s.bnes) && (s.getBne n).powered)
    + 2 ^ 24 * s.hsa.powered.toNat + 2 ^ 28 * b2n (s.pcr.powered && decide (2 ≤ s.pcr.step))
    + 2 ^ 29 * b2n (s.pcr.powered && decide (8 ≤ s.pcr.step) && s.plkOn) + 2 ^ 30 * 3 * b2n (s.pcr.powered && decide (6 ≤ s.pcr.step))

/-- The PCR registers. -/
def State.readPcr (s : State) (off : Nat) : W32 :=
  let p := s.pcr
  match off with
  | 0x100 => BitVec.ofNat 32 (p.step * 2 ^ 24 + p.failStep * 65536)
  | 0x104 => BitVec.ofNat 32 p.bootMs
  | 0x108 => BitVec.ofNat 32 (s.held.life * 2 ^ 28 + s.held.prevLife * 2 ^ 24 + 2 * b2n p.decomArmed + b2n s.held.committed)
  | 0x114 => BitVec.ofNat 32 (p.linkResets * 65536 + p.cause)
  | 0x118 => BitVec.ofNat 32 (b2n p.warn * 2 ^ 31 + p.warnings)
  | 0x11C => BitVec.ofNat 32 s.domains
  | 0x180 => BitVec.ofNat 32 (b2n (p.frozen && decide (p.bankSource = 2)) * 2 ^ 31 + 2 * b2n p.bankTapEn + b2n p.bankPinEn)
  | 0x184 => BitVec.ofNat 32 (b2n p.frozen * 2 ^ 31 + p.bankSource * 2 ^ 28 + p.bankTick)
  | 0x1A0 => p.gpioDir.setWidth 32
  | 0x1A4 => p.gpioOut.setWidth 32
  | 0x1A8 => s.gpioIn.setWidth 32
  | 0x1AC => p.gpioOd.setWidth 32
  | _ => 0

/-- A write of PCR registers without a row of their own: the enables of BANK and the GPIO registers. -/
def State.writePcr (s : State) (off : Nat) (v : W32) : State :=
  let p := s.pcr
  let locked := (s.getBlk 0x71).lock
  if off = 0x180 ∧ !locked then { s with pcr := { p with bankTapEn := bit v 1, bankPinEn := bit v 0 } }
  else if off = 0x1A0 ∧ !locked then { s with pcr := { p with gpioDir := v.setWidth 16 } }
  else if off = 0x1A4 then { s with pcr := { p with gpioOut := v.setWidth 16 } }
  else if off = 0x1AC ∧ !locked then { s with pcr := { p with gpioOd := v.setWidth 16 } }
  else s

end Sys2Proof.Machine
end

