-- ==== Sys2Proof/Machine/Kernels.lean ====
section
/-! DEFINITION. The kernel of every command that Treadle releases, by opcode (R77). -/

namespace Sys2Proof.Machine

/-- Key management. -/
def keyKernel (op : Nat) : Option Kernel :=
  match op with
  | 0x0100 => some kKeyImport
  | 0x0101 => some kKeyExport
  | 0x0102 => some kPubkeyRegister
  | 0x0103 => some kPubkeyRead
  | 0x0104 => some kKeyDelete
  | 0x0105 => some kKeyAttrRead
  | 0x0106 => some kKeyAttrSet
  | 0x0107 => some kKeyBind
  | 0x0108 => some kSymKeygen
  | _ => none

/-- ML-KEM, ML-DSA and FN-DSA. -/
def latticeKernel (op : Nat) : Option Kernel :=
  match op with
  | 0x0200 => some kMlkemKeygen
  | 0x0201 => some kMlkemEncaps
  | 0x0202 => some kMlkemDecaps
  | 0x0210 => some kMldsaKeygen
  | 0x0211 => some kMldsaSign
  | 0x0212 => some kMldsaVerify
  | 0x0213 => some kMldsaSign
  | 0x0214 => some kMldsaVerify
  | 0x0220 => some kFndsaVerify
  | 0x0230 => some kMatrixPreload
  | _ => none

/-- Hash-based signatures. -/
def hashKernel (op : Nat) : Option Kernel :=
  match op with
  | 0x0300 => some kSlhKeygen
  | 0x0301 => some kSlhSign
  | 0x0302 => some kSlhVerify
  | 0x0303 => some kSlhSign
  | 0x0304 => some kSlhVerify
  | 0x0310 => some kStatefulKeygen
  | 0x0311 => some kStatefulSign
  | 0x0312 => some kLmsVerify
  | 0x0318 => some kStatefulKeygen
  | 0x0319 => some kStatefulSign
  | 0x031A => some kXmssVerify
  | 0x0320 => some kStatefulStatus
  | 0x0321 => some kStatefulAdvance
  | _ => none

/-- HQC and Classic McEliece. -/
def codeKernel (op : Nat) : Option Kernel :=
  match op with
  | 0x0400 => some kHqcKeygen
  | 0x0401 => some kHqcEncaps
  | 0x0402 => some kHqcDecaps
  | 0x0410 => some kMceKeygen
  | 0x0411 => some kMceEncaps
  | 0x0412 => some kMceDecaps
  | 0x0418 => some kMcePin
  | 0x0419 => some kMceUnpin
  | _ => none

/-- RSA and elliptic curves. -/
def classicKernel (op : Nat) : Option Kernel :=
  match op with
  | 0x0500 => some kRsaKeygen
  | 0x0501 => some kRsaSign
  | 0x0502 => some kRsaVerify
  | 0x0503 => some kRsaEncrypt
  | 0x0504 => some kRsaDecrypt
  | 0x0510 => some kEcKeygen
  | 0x0511 => some kEcdsaSign
  | 0x0512 => some kEcdsaVerify
  | 0x0513 => some kEcdh
  | 0x0520 => some kEddsaKeygen
  | 0x0521 => some kEddsaSign
  | 0x0522 => some kEddsaVerify
  | 0x0530 => some kXdhKeygen
  | 0x0531 => some kXdh
  | _ => none

/-- Hybrid and composite commands. -/
def hybridKernel (op : Nat) : Option Kernel :=
  match op with
  | 0x0600 => some kHybKeygen
  | 0x0601 => some kHybEncaps
  | 0x0602 => some kHybDecaps
  | 0x0610 => some kCompKeygen
  | 0x0611 => some kCompSign
  | 0x0612 => some kCompVerify
  | _ => none

/-- Digests, derivation and randomness. -/
def digestKernel (op : Nat) : Option Kernel :=
  match op with
  | 0x0700 => some kHmac
  | 0x0701 => some kHkdf
  | 0x0702 => some kKbkdf
  | 0x0710 => some kHash
  | 0x0780 => some kRngFill
  | _ => none

/-- Raw modular operations. -/
def rawOpKernel (op : Nat) : Option Kernel :=
  match op with
  | 0x0800 => some kModAdd
  | 0x0801 => some kModSub
  | 0x0802 => some kModMul
  | 0x0803 => some kModSqr
  | 0x0804 => some kModInv
  | 0x0805 => some kModExp
  | 0x0806 => some kModRand
  | _ => none

/-- The kernel of a command; an opcode that none names has no release. -/
def kernelOf (op : Nat) : Kernel :=
  let f := op / 256
  let k : Option Kernel :=
    if f = 1 then keyKernel op else if f = 2 then latticeKernel op else if f = 3 then hashKernel op else if f = 4 then codeKernel op
    else if f = 5 then classicKernel op else if f = 6 then hybridKernel op else if f = 7 then digestKernel op else if f = 8 then rawOpKernel op
    else if op = 0x0900 then some kPatternRun else if op = 0x0F00 then some kClusterStatus else none
  k.getD (fun s _ _ => (s, status 0x0012))

/-- Ticks between the admission of a command and its work: `RNG_FILL` is served in the tick of its admission (R433). -/
def kernelLag (op : Nat) : Nat := if op = 0x0780 then 0 else 1

end Sys2Proof.Machine
end

