-- ==== Sys2Proof/Machine/Turnaround.lean ====
section
/-! DEFINITION. What every engine and KST do around a tick edge: the end of the slots (R169, R219 to R222, R310 to R314),
MRG reseeds (R206, R207, R380), tree builds (R340), the ring of assessment (R483), pages (R214, R216). -/

namespace Sys2Proof.Machine

-- The end of the tick that has run.

/-- A block of the set that a PVU's segment reads carries a scorch mark. -/
def setMarked (p : Pvu) : Bool :=
  p.lsScorch.any (fun w => (List.range p.mcBlocks).any (fun i => decide (0x90000 / 8 + 128 * (Config.cacheBlock p.mcKey p.mcBlocks i % 448) ≤ w.1)
    && decide (w.1 < 0x90000 / 8 + 128 * (Config.cacheBlock p.mcKey p.mcBlocks i % 448) + 128)))

/-- A segment still running is closed: a pattern's has overrun its budget (R222), and so has one whose sequencer is parked; vendor code ends
by itself (R250), or in POISON where the set it reads is scorched (R315). -/
def State.closeSegment (s : State) (e : Nat) : State :=
  let p := s.getPvu e
  if p.phase = .dummy then s
  else if !p.vendor || p.bob.parked then s.pvuOverrun e
  else if setMarked p then (s.setPvu e { p with mcScorched := true }).segmentFails e { cause := 0x08 } p.pc
  else s.setPvu e { p with phase := .dummy, segMode := 0, segEnd := .ended p.lastSeg }

/-- The booking is the last of its job on the engine. -/
def State.lastOn (s : State) (b : Booking) : Bool :=
  match b.job, b.kind with
  | _, .fill _ _ _ => false
  | none, _ => false
  | some id, _ => !s.trd.plan.any (fun x => decide (x.job = some id) && decide (x.eng = b.eng) && decide (b.tick < x.tick)
      && (match x.kind with | .fill _ _ _ => false | _ => true))

/-- What dummy work of some cycles draws from its engine's MRG in a tick (R169): the spec gives no count, and the number is free. -/
def dummyDrawn (e t cycles : Nat) : Nat := if cycles = 0 then 0 else Config.dummyDraws e t

/-- The slot of a PVU ends: its dummy work, jobs handed back and assessment count (R169, R233, R483). -/
def State.endPvuSlot (s : State) (e : Nat) : State :=
  let t := s.trd.edge
  let s1 := ((s.runPositions e (s.positionsRun e) 64).closeSegment e).settleUnits e
  let p := s1.getPvu e
  if !s1.present (0x10 + e) || s1.retired (0x10 + e) || !p.powered then s1
  else
    let bs := s.slot e t
    let assess := s.assessSlot e t && s.lka.en && bs.isEmpty
    let usable := s.trd.period * (if p.derated then 1200 else 1600) - 1000
    let booked := if assess then usable else bs.foldl (fun n b => n + bookedCycles b) 0
    let busy := !bs.isEmpty || assess
    let active := p.active || busy
    let dummy := if active then usable - booked else 0
    let done := (bs.filter s.lastOn).length
    let c := vmod (vmod (vmod p.cnt 1 0 (· + dummy)) 4 0 (· + done)) 14 0 (· + b2n assess)
    let s2 := s1.setPvu e {
      p with
      active := active, idleTicks := if busy then 0 else p.idleTicks + 1, cnt := c, sampled := 0,
      mrgUsed := p.mrgUsed + dummyDrawn e t dummy }
    let s3 : State := { s2 with pmu := { s2.pmu with load := s2.pmu.load + booked, loadCap := s2.pmu.loadCap + usable } }
    s3.event (0x10 + e) 3 none dummy

/-- The slot of a BNE ends: a run whose W is past, and dummy cycles between runs. -/
def State.endBneSlot (s : State) (n : Nat) : State :=
  let t := s.trd.edge
  let b0 := s.getBne n
  let past := decide (b0.phase = .running) && s.trd.plan.all (fun b => !(decide (b.eng = 16 + n) && decide (b.start + 1 = b0.nextStart)
      && decide ((t + 1) * s.bneTick < b.start + 1000 + b.cycles)))
  let s0 := if past then s.endRun n else s
  let s1 := if (s0.getBne n).zeroing then s0.endClear n true else s0
  let b := s1.getBne n
  if !s1.present (0x20 + n) || s1.retired (0x20 + n) || !b.powered then s1
  else
    let load := s.bneLoad n t
    let assess := s.assessSlot (16 + n) t && s.lka.en && decide (load = 0)
    let busy := decide (0 < load) || assess
    let active := b.active || busy
    let c := vmod (vmod b.cnt 1 0 (· + (if active && !assess then s.bneTick - load else 0))) 10 0 (· + b2n assess)
    let dummy := if active && !assess then s.bneTick - load else 0
    s1.setBne n { b with active := active, idleTicks := if busy then 0 else b.idleTicks + 1, cnt := c, mrgUsed := b.mrgUsed + dummyDrawn (16 + n) t dummy }

/-- A compression fails its residue check (R326, R746): it counts against its core, and the job that it belongs to is retried whole. -/
def State.coreFault (s : State) (core : Nat) (job : Option Nat) : State :=
  if !s.coreActive core then s
  else
    let s1 := match job with
      | none => s
      | some id => s.modJob id (fun j => {
          j with
          faulted := true, faultSrc := 0x2800, faultEng := if j.faultEng.isNone then some (24 + core / 16) else j.faultEng, redo := none })
    s1.raise (s1.jobEvent 0x2800 job core 0)

/-- What the checks of a group's cores find in the tick that ends. -/
def State.groupFaults (s : State) (g : Nat) : State :=
  let bs := s.slot (24 + g) s.trd.edge
  (Config.coreFaults s.free).foldl (fun (u : State) x => u.coreFault (16 * g + x.1 % 16) ((bs[x.2]?).bind (·.job)))
    { s with free := s.free + 1 }

/-- A group of the Hash Array at the end of the tick (R169, R327). -/
def State.endGroup (s : State) (g : Nat) : State :=
  let bs := s.slot (24 + g) s.trd.edge
  let eq := loadOf bs / 4
  let dummy := if s.hsa.active && s.hsa.powered.getLsbD g then s.groupCap g / 4 - eq else 0
  let done := (bs.filter s.lastOn).length
  let h := s.hsa
  let s1 : State := { s with hsa := { h with
    eq := vmod h.eq g 0 (· + eq), dummy := vmod h.dummy g 0 (· + dummy), jobs := vmod h.jobs g 0 (· + done) } }
  let s2 := bs.foldl (fun (u : State) b => (u.event 0x28 1 (b.job.map (fun id => (u.getJob id).fn)) (b.cycles / 4)).event 0x28 3
    (b.job.map (fun id => (u.getJob id).fn)) (b2n (s.lastOn b))) s1
  let s3 := s2.event 0x28 2 none dummy
  if s.hsa.active then s3.groupFaults g else s3

/-- The Hash Array is active while it has had an allotment within 50 ticks (R31). -/
def State.endHsa (s : State) : State :=
  let busy := s.trd.plan.any (fun b => decide (24 ≤ b.eng) && decide (b.tick = s.trd.edge))
  let s1 := s.groups.foldl State.endGroup { s with hsa := { s.hsa with active := s.hsa.active || busy } }
  { s1 with hsa := { s1.hsa with idleTicks := if busy then 0 else s1.hsa.idleTicks + 1 } }

/-- Work of a booking in the tick has started its job (R119). -/
def State.markStarted (s : State) : State :=
  s.trd.plan.foldl (fun (u : State) b => match b.job with
    | some id => if b.tick ≤ s.trd.edge then u.modJob id (fun j => { j with started := true }) else u
    | none => u) s

/-- An allotment on the Hash Array starts its job with the tick that opens (R119, R325). -/
def State.startAllotments (s : State) : State :=
  s.trd.plan.foldl (fun (u : State) b => match b.job with
    | some id => if 24 ≤ b.eng ∧ b.tick ≤ s.trd.edge then u.modJob id (fun j => { j with started := true }) else u
    | none => u) s

/-- The verify sets that a booking of this tick has read were used in it (R314). -/
def State.touchSets (s : State) : State :=
  let t := s.trd.edge
  let used (x : Nat × W32 × Bool × Nat × Nat) : Bool := s.trd.plan.any (fun b => decide (b.eng = x.1) && decide (b.tick = t)
    && (match b.kind with
      | .cached h => x.2.2.1 && decide (h = x.2.1)
      | _ => false))
  { s with trd := { s.trd with sets := s.trd.sets.map (fun x => if used x then (x.1, x.2.1, x.2.2.1, x.2.2.2.1, t) else x) } }

/-- The sets kept when a PVU makes room for `n` blocks, of a list with the least recently used last. -/
def evict : Nat → Nat → List (Nat × W32 × Bool × Nat × Nat) → List (Nat × W32 × Bool × Nat × Nat)
  | 0, _, l => l
  | fuel + 1, n, l =>
    if (l.map (fun x => x.2.2.2.1)).sum + n ≤ 448 then l else evict fuel n l.dropLast

/-- A fill that has run places its set; a set in use is never evicted (R312, R314). -/
def State.placeSet (s : State) (e : Nat) (h : W32) (verify : Bool) (blocks : Nat) : State :=
  if s.holdsSet e h verify || (s.getKey h).isNone then s
  else
    let mine := s.trd.sets.filter (fun x => decide (x.1 = e))
    let reads (x : Nat × W32 × Bool × Nat × Nat) : Bool := s.setInUse e x.2.1 x.2.2.1 (s.trd.edge + horizon)
    let inUse := mine.filter reads
    let spare := (mine.filter (fun x => !reads x)).mergeSort (fun a b => decide (b.2.2.2.2 ≤ a.2.2.2.2))
    { s with trd := { s.trd with
        sets := s.trd.sets.filter (fun x => decide (x.1 ≠ e)) ++ inUse
          ++ evict spare.length (blocks + (inUse.map (fun x => x.2.2.2.1)).sum) spare ++ [(e, h, verify, blocks, s.trd.edge)] } }

/-- The fills of the tick. -/
def State.endFills (s : State) : State :=
  let fs := s.trd.plan.filter (fun b => decide (b.tick ≤ s.trd.edge) && (match b.kind with | .fill _ _ _ => true | _ => false))
  let s1 : State := { s with trd := { s.trd with
    plan := s.trd.plan.filter (fun b => !(decide (b.tick ≤ s.trd.edge) && (match b.kind with | .fill _ _ _ => true | _ => false))) } }
  fs.foldl (fun (u : State) b => match b.kind with
    | .fill h v k => u.placeSet b.eng h v k
    | _ => u) s1

/-- The slots of the tick end (R219). -/
def State.endSlots (s : State) : State :=
  let s1 := (List.range s.pvus).foldl State.endPvuSlot s.markStarted
  (((List.range s1.bnes).foldl State.endBneSlot s1).endHsa.touchSets).endFills

-- The turnaround of the slot that opens.

/-- An engine's MRG with a reseed absorbed or missed (R206, R207): counts and whether STALE has been set. -/
def missStale (missed : Nat) : Bool := decide (16 ≤ missed + 1)

/-- The reseed of one PVU's MRG; answers the sources that fire. -/
def State.reseedPvu (s : State) (e : Nat) : State × List Event :=
  let p := s.getPvu e
  if !s.present (0x10 + e) || s.retired (0x10 + e) || !p.powered then (s, [])
  else match s.ent.int.state with
    | .uninstantiated => (s, [])
    | .seeded =>
      let (_, s1) := s.drawInt 32
      let q := s1.getPvu e
      (s1.setPvu e { q with mrgStale := false, mrgMissed := 0, mrgCount := q.mrgCount + 1, cnt := vmod q.cnt 10 0 (· + 1) }, [])
    | .stopped =>
      let stale := p.mrgStale || missStale p.mrgMissed
      (s.setPvu e { p with mrgMissed := p.mrgMissed + 1, mrgStale := stale, cnt := vmod p.cnt 11 0 (· + 1) },
        { src := (0x10 + e) * 256 + 2 } :: (if stale && !p.mrgStale then [{ src := (0x10 + e) * 256 + 3 }] else []))

/-- The reseed of one BNE's MRG (R380). -/
def State.reseedBne (s : State) (n : Nat) : State × List Event :=
  let b := s.getBne n
  if !s.present (0x20 + n) || s.retired (0x20 + n) || !b.powered then (s, [])
  else match s.ent.int.state with
    | .uninstantiated => (s, [])
    | .seeded =>
      let (_, s1) := s.drawInt 32
      let q := s1.getBne n
      (s1.setBne n { q with mrgStale := false, mrgMissed := 0, mrgCount := q.mrgCount + 1, cnt := vmod q.cnt 8 0 (· + 1) }, [])
    | .stopped =>
      let stale := b.mrgStale || missStale b.mrgMissed
      (s.setBne n { b with mrgMissed := b.mrgMissed + 1, mrgStale := stale },
        { src := (0x20 + n) * 256 + 2 } :: (if stale && !b.mrgStale then [{ src := (0x20 + n) * 256 + 3 }] else []))

/-- Every engine's turnaround absorbs 256 bits (R206); the events of the edge come in the same cycle. -/
def State.reseeds (s : State) : State :=
  let step (acc : State × List Event) (f : State → State × List Event) : State × List Event :=
    let r := f acc.1
    (r.1, acc.2 ++ r.2)
  let a := (List.range s.pvus).foldl (fun acc e => step acc (fun u => u.reseedPvu e)) (s, [])
  let b := (List.range s.bnes).foldl (fun acc n => step acc (fun u => u.reseedBne n)) a
  b.1.raiseAll b.2

/-- The register files are cleared in the turnaround (R219). -/
def State.clearFiles (s : State) : State := { s with pvu := s.pvu.map (fun p => if p.phase = .dummy then segmentClear p else p) }

/-- The zero engine clears the pages that jobs have used and none holds any longer (R216, R223); a job whose pages are allocated for a later
tick has not used them yet. The shares of a job that has gone leave the key-path buffer. -/
def State.zeroPages (s : State) : State :=
  (List.range s.pvus).foldl (fun (u : State) e =>
    let p := u.getPvu e
    let mine := u.trd.pages.filter (fun x => decide (x.2.1 = e))
    let held := (mine.filter (fun x => decide (x.2.2.1 < u.trd.edge))).flatMap (fun x => x.2.2.2.2)
    let dirty := p.used.filter (fun g => !held.contains g)
    let p1 := { p with keyBuf := p.keyBuf.filter (fun k => mine.any (fun x => decide (x.1 = k.1))) }
    u.setPvu e (if dirty.isEmpty then p1 else clearPages p1 dirty)) s

/-- The next engine of the ring and the ticks to its slot, one edge on (R483). -/
def State.stepRing (s : State) : State :=
  let ring := s.activeEngines
  if s.lka.nextTicks ≠ 0 then { s with lka := { s.lka with nextTicks := s.lka.nextTicks - 1 } }
  else
    let i := ring.findIdx (fun x => decide (s.lka.nextEng < x))
    { s with lka := { s.lka with nextEng := ring.getD (i % max 1 ring.length) 0, nextTicks := s.assessInterval - 1 } }

-- Tree builds.

/-- The trees of a key are made with SHAKE256. -/
def keyShake (k : KeyObj) : Bool :=
  match (k.st.bind (fun st => st.levels.head?)) with
  | none => false
  | some l => if k.typ = 5 then lmsShake l.lms else (match xmssSet (decide (k.pset = 2)) l.lms with | some (sh, _, _, _) => sh | none => false)

/-- Equivalents of the Hash Array that no booking uses in a tick. -/
def State.freeEquivalents (s : State) (t : Nat) : Nat :=
  s.groups.foldl (fun n g => if s.hsa.powered.getLsbD g && s.engineOpen 0x28 then n + (s.groupCap g - loadOf (s.slot (24 + g) t)) / 4 else n) 0

/-- The PVUs with cycles that no booking uses in a tick: minimum order and cycles (R340). -/
def State.freeCycles (s : State) (t : Nat) : List (Nat × Nat) :=
  (List.range s.pvus).filterMap (fun e =>
    let bs := s.slot e t
    if s.pvuOpen e true && bs.all (fun b => !wholeSlot b) && !s.assessSlot e t then some (s.minOrder e, s.usable - loadOf bs) else none)

/-- Permutations of a build at an order on PVUs with free cycles, two going side by side (R330): those done, and the cycles left. -/
def takePerms (d : Nat) : List (Nat × Nat) → Nat → Nat × List (Nat × Nat)
  | [], _ => (0, [])
  | (m, c) :: r, n =>
    let u := permCycles (max m d)
    let k := min (c / u * 2) n
    let x := takePerms d r (n - k)
    (k + x.1, (m, c - ceilDiv k 2 * u) :: x.2)

/-- What is left of a tick for builds: the state, the equivalents of the Hash Array, the PVUs' cycles. -/
structure BuildPool where
  st   : State
  eq   : Nat
  pvus : List (Nat × Nat)

/-- A build gets `n` of its work: its key generation, if any, ends after the tick of its last allotment (R341). -/
def State.gaveBuild (s : State) (b : TreeBuild) (n : Nat) : State :=
  { s with
    trd := { s.trd with builds := s.trd.builds.map (fun x => if x = b then { x with left := x.left - n } else x) }
    jobs := KV.mapV (fun _ (j : Job) => if j.created = some b.key ∧ j.phase = .admitted ∧ j.cluster.isNone then
      { j with relEdge := s.trd.edge + 2, noRand := true } else j) s.jobs }

/-- One build takes what is left of the tick (R340): equivalents for SHA-256 types, PVU cycles at the key's order for SHAKE types. -/
def allotBuild (p : BuildPool) (b : TreeBuild) : BuildPool :=
  match p.st.getKey b.key with
  | none => p
  | some k =>
    if keyShake k then
      (let r := takePerms k.order p.pvus b.left
      if r.1 = 0 then p else { p with st := p.st.gaveBuild b r.1, pvus := r.2 })
    else
      (let n := min p.eq b.left
      if n = 0 then p else { p with st := p.st.gaveBuild b n, eq := p.eq - n })

/-- Jobs whose builds have got something of this tick count it (R341). -/
def countBuildTick (j : Job) : Job := if j.noRand ∧ j.phase = .admitted then { j with noRand := false, buildTicks := j.buildTicks + 1 } else j

/-- Builds whose last allotment lay in the tick that opens have ended (R340): the level holds the tree. -/
def State.endBuilds (s : State) : State :=
  let done := s.trd.builds.filter (fun b => decide (b.left = 0))
  let s1 : State := { s with trd := { s.trd with builds := s.trd.builds.filter (fun b => decide (b.left ≠ 0)) } }
  done.foldl (fun (u : State) b => match u.getKey b.key with
    | some k => (match k.st with
      | some st =>
        let st1 := { st with levels := builtLevel st.levels b.level b.tree }
        let u1 := u.setKey b.key { k with st := some st1 }
        if k.deleted then u1 else u1.startBuilds b.key { k with st := some st1 } st1
      | none => u)
    | none => u) s1

/-- Builds that a full tree cache held back start where it has room now (R339, R340). -/
def State.retryBuilds (s : State) : State :=
  s.kst.objs.foldl (fun (t : State) p => match p.2.st with
    | some st => if p.2.deleted then t else (t.addBuilds (BitVec.ofNat 32 p.1) p.2 st).1
    | none => t) s

/-- The next tick's free equivalents and cycles go to the pending builds, oldest first (R340). -/
def State.giveBuilds (s0 : State) : State :=
  let s := s0.retryBuilds
  if s.trd.builds.isEmpty || !s.running || s.pcr.warn then s
  else
    let t := s.trd.edge + 1
    let r := s.trd.builds.foldl allotBuild { st := s, eq := s.freeEquivalents t, pvus := s.freeCycles t }
    { r.st with jobs := KV.mapV (fun _ j => countBuildTick j) r.st.jobs }

-- The plan behind the edge.

/-- Bookings and pages that lie behind the edge go. -/
def State.prune (s : State) : State :=
  { s with trd := { s.trd with
      plan := s.trd.plan.filter (fun b => decide (s.trd.edge ≤ b.tick) || decide (s.trd.edge < s.planEdge b)),
      pages := s.trd.pages.filter (fun x => (KV.get? s.jobs x.1).isSome) } }

end Sys2Proof.Machine
end

