-- ==== Sys2Proof/Machine/Release.lean ====
section
/-! DEFINITION. Release at a tick edge (R25, R104, R170, R179, R188, R453), retries and re-planning (R185, R326, R578, R588 to
R590), retirement (R577), admin completions (R132), the power warning (R721 to R723), and completion messages (R69 to R71). -/

namespace Sys2Proof.Machine

-- Re-planning.

/-- Work of a booking that still lies before the edge, or is in progress on a BNE. -/
def State.ahead (s : State) (b : Booking) : Bool :=
  decide (s.trd.edge ≤ b.tick) || (decide (16 ≤ b.eng) && decide (b.eng < 24) && decide (s.trd.edge < s.planEdge b))

/-- The key generations that take one attempt after another (R364, R397). -/
def manyAttempts (op : Nat) : Bool := decide (op = 0x0410) || decide (op = 0x0500)

/-- A job is booked again (R185, R399, R578): its bookings of the parts named go, and it becomes an order-1 candidate. `parts`:
whether the PVU part and how many BNE runs; none = the whole job. -/
def State.replan (s : State) (id : Nat) (parts : Option (Bool × Nat)) (dry : Bool) : State :=
  let mine (b : Booking) : Bool := decide (b.job = some id) && (match parts with
    | none => true
    | some (pvu, runs) => (pvu && decide (b.eng < 16)) || (decide (0 < runs) && decide (16 ≤ b.eng) && decide (b.eng < 24)))
  let pvu := match parts with | none => true | some x => x.1
  let runs := (s.trd.plan.filter (fun b => mine b && decide (16 ≤ b.eng) && decide (b.eng < 24))).length
  let s1 := if pvu then s.dropChain id else s
  let s2 : State := { s1 with trd := { s1.trd with
    plan := s1.planWithout mine
    pages := if pvu then s1.trd.pages.filter (fun x => decide (x.1 ≠ id)) else s1.trd.pages } }
  s2.modJob id (fun j => {
    j with
    rebook := true, faulted := false, replanDry := dry, ended := false
    result := if manyAttempts j.opcode then j.result else none
    redo := match parts with
      | none => none
      | some (p, n) => if j.rebook && j.redo.isNone then none else addRedo (if j.rebook then j.redo else none) p (if n = 0 then 0 else max 1 runs) })

/-- A live chain of the job (R175). -/
def State.liveChain (s : State) (id : Nat) : Bool := s.trd.signQ.any (fun q => q.chains.any (fun c => decide (c.1 = id)))

/-- The faulted attempt of a chain is repeated in its next positions (R588). -/
def State.repeatAttempt (s : State) (id : Nat) : State :=
  { s with trd := { s.trd with signQ := s.trd.signQ.map (fun q =>
      if q.doneBy = id then { q with done := 0 } else q) } }

/-- One faulted job at the edge that ends its tick (R588, R590). -/
def State.retryJob (s : State) (id : Nat) : State :=
  let j := s.getJob id
  let n := j.retries + 1
  if 2 < n then s.finish id (statusDetail 0x0051 j.faultSrc)
  else
    let s1 := s.modJob id (fun x => { x with retries := n, redo := none, faulted := false, freshRetry := true })
    match j.redo with
    | none => s1.replan id none false
    | some (pvu, runs) =>
      if s.liveChain id && pvu && decide (n = 1) then
        let s2 := (s1.repeatAttempt id).modJob id (fun x => { x with retried := true, freshRetry := decide (0 < runs) })
        if runs = 0 then s2 else s2.replan id (some (false, runs)) false
      else s1.replan id (some (pvu, runs)) false

/-- Every job that a computation fault has failed in the tick; a squashed job is not retried (R590). -/
def State.retries (s : State) : State :=
  ((s.jobs.filter (fun p => p.2.faulted && decide (p.2.phase = .admitted) && !p.2.squashed)).mergeSort
    (fun a b => a.2.admitSeq ≤ b.2.admitSeq)).foldl (fun (u : State) p => u.retryJob p.1) s

/-- Jobs with work ahead on an engine, by a condition on the booking. -/
def State.jobsOn (s : State) (f : Booking → Bool) : List Nat :=
  (s.trd.plan.filterMap (fun b => if f b && s.ahead b then b.job else none)).eraseDups

/-- The chains on a PVU, oldest first. -/
def State.chainsOn (s : State) (e : Nat) : List Nat := (s.trd.signQ.filter (fun q => decide (q.pvu = e))).flatMap (fun q => q.chains.map (·.1))

/-- The chains whose positions the sign slots of a PVU in the tick that opens and in the next one are (R175, R185): of each queue with such
a slot, the oldest chain that may use it. -/
def State.chainsDue (s : State) (e : Nat) : List Nat :=
  (s.trd.signQ.filter (fun q => decide (q.pvu = e))).filterMap (fun q =>
    (((s.queueSlots q s.trd.edge).find? (fun y => decide (y.1 ≤ s.trd.edge + 1))).bind (fun y =>
      q.chains.find? (fun c => decide (c.2 ≤ max y.1 (s.trd.edge + 1))))).map (·.1))

/-- The computation-fault source of an engine (R588): the first of its block. -/
def runSource (e : Nat) : Nat := (if e < 16 then 0x10 + e else if e < 24 then 0x20 + (e - 16) else 0x28) * 256

/-- The parts of a job that lie on an engine. -/
def partsOn (e : Nat) : Option (Bool × Nat) := if e < 16 then some (true, 0) else if e < 24 then some (false, 1) else none

/-- The work of an engine that is retired at this edge (R185): what lies in the tick that opens and the next, or is in progress,
counts as faulted; the rest is re-planned. -/
def State.leaveEngine (s : State) (e : Nat) : State :=
  let edge := s.trd.edge
  let near := s.jobsOn (fun b => decide (b.eng = e) && decide (b.tick ≤ edge + 1))
  let nearChains := s.chainsDue e
  let far := (s.jobsOn (fun b => decide (b.eng = e)) ++ s.chainsOn e).eraseDups
  let s1 := (near ++ nearChains).eraseDups.foldl (fun (u : State) id =>
    let j := u.getJob id
    let n := j.retries + 1
    let u1 := u.modJob id (fun x => { x with retries := n, freshRetry := true, faultSrc := runSource e, faultEng := if x.faultEng.isNone then some e else x.faultEng })
    if 2 < n then u.finish id (statusDetail 0x0051 (runSource e)) else u1.replan id (partsOn e) false) s
  let s2 := (far.filter (fun id => !near.contains id && !nearChains.contains id)).foldl (fun (u : State) id => u.replan id (partsOn e) false) s1
  { s2 with trd := { s2.trd with
      plan := s2.trd.plan.filter (fun b => decide (b.eng ≠ e)), signQ := s2.trd.signQ.filter (fun q => decide (q.pvu ≠ e)) } }

/-- Group-ticks whose allotments exceed the group's equivalents lose the latest-admitted jobs (R326). -/
def State.fitGroups : Nat → State → State
  | 0, s => s
  | fuel + 1, s =>
    match s.trd.plan.find? (fun b => decide (24 ≤ b.eng) && decide (s.trd.edge ≤ b.tick) && decide (s.groupCap (b.eng - 24) < loadOf (s.slot b.eng b.tick))) with
    | none => s
    | some b =>
      match (((s.slot b.eng b.tick).filterMap (·.job)).mergeSort (fun x y => (s.getJob y).admitSeq ≤ (s.getJob x).admitSeq)).head? with
      | none => s
      | some id => (s.replan id none false).fitGroups fuel

/-- One retirement takes effect (R185, R577): the recovery window opens for a PVU or BNE (R529). -/
def State.retireAt (s : State) (code : Nat) : State :=
  if 256 ≤ code then (s.retireNow code).fitGroups (s.jobs.length + 1)
  else
    let s1 := (s.leaveEngine (engIndex code)).retireNow code
    { s1 with
      tests := KV.set s1.tests code { s1.getTest code with busy := false }
      pcr := { s1.pcr with recovery := true, recoveryTicks := 10000000 / s1.trd.period } }

/-- The retirements of the edge. -/
def State.retirements (s : State) : State :=
  let s1 : State := { s with trd := { s.trd with retiring := [] } }
  s.trd.retiring.foldl State.retireAt s1

/-- An engine that has passed its test in MAINTENANCE is back at an admission edge (R591). -/
def State.comeBack (s : State) : State :=
  let s1 := s.trd.returning.foldl (fun (u : State) code =>
    let u1 : State := {
      u with
      held := { u.held with retired := u.held.retired &&& ~~~(BitVec.ofNat 24 (2 ^ engIndex code)) }
      hrt := { u.hrt with engTimes := vset u.hrt.engTimes (engIndex code) [], engTotal := vset u.hrt.engTotal (engIndex code) 0 } }
    match u1.bootImage with
    | some im => (u1.engineOn code true).loadEngine code im
    | none => u1.engineOn code true) s
  { s1 with trd := { s1.trd with returning := [] } }

/-- The job of a run that a stopped domain has aborted (R383). -/
def State.abortedJob (s : State) (e : Nat) : List Nat :=
  if 16 ≤ e ∧ e < 24 ∧ (s.getBne (e - 16)).phase = .running ∧ (s.getBne (e - 16)).pathDone ∧ (s.getBne (e - 16)).zeroing then
    (s.getBne (e - 16)).jobId.toList.filter (fun id => decide ((s.getJob id).result = none) && decide ((s.getJob id).failed = none) && !(s.getJob id).finished)
  else []

/-- Jobs booked in a stopped domain beyond the tick in progress are re-planned outside it (R578), and so is one whose run was aborted. -/
def State.leaveDomains (s : State) : State :=
  if s.hrt.severe.isEmpty then s
  else
    let stopped (e : Nat) : Bool := if e < 24 then s.domainStopped (engCode e) else s.domainStopped 0x28
    (List.range 28).foldl (fun (u : State) e =>
      if !stopped e then u
      else
        let ids := (u.abortedJob e ++ (u.jobsOn (fun b => decide (b.eng = e) && decide (u.trd.edge ≤ b.tick))) ++ (if e < 16 then u.chainsOn e else [])).eraseDups
        let v := ids.foldl (fun (w : State) id => w.replan id (partsOn e) false) u
        { v with trd := { v.trd with plan := v.trd.plan.filter (fun b => !(decide (b.eng = e) && decide (u.trd.edge ≤ b.tick) && b.job.isNone)) } }) s

/-- The job handles secrets on PVUs (R207). -/
def State.secretOn (s : State) (id : Nat) : Bool :=
  let n := s.jobNeed (s.getJob id)
  n.sign.isSome || (match n.pvu with | some p => p.secret | none => false)

/-- Secret-handling work booked on an engine whose MRG is STALE is re-planned (R207, R380). -/
def State.leaveStale (s : State) : State :=
  (List.range 24).foldl (fun (u : State) e =>
    let stale := if e < 16 then (u.getPvu e).mrgStale else (u.getBne (e - 16)).mrgStale
    if !stale then u
    else
      let ids := ((u.jobsOn (fun b => decide (b.eng = e) && decide (u.trd.edge ≤ b.tick))) ++ (if e < 16 then u.chainsOn e else [])).eraseDups
      (ids.filter (fun id => decide (16 ≤ e) || u.secretOn id)).foldl (fun (w : State) id => w.replan id (partsOn e) true) u) s

-- Release.

/-- A journal record of the job is not yet durable (R453). -/
def State.recordOpen (s : State) (id : Nat) : Bool := (s.kst.waiting ++ s.kst.page).any (fun r => decide (r.job = some id))

/-- A pinning command's PVUs are all pinned, or let go (R361, R363). -/
def State.pinReady (s : State) (j : Job) : Bool :=
  if j.opcode = 0x0418 then !(List.range 16).any (fun e => decide ((s.getPvu e).pinning = some j.e.keyHandle))
  else if j.opcode = 0x0419 then decide (s.pinMap j.e.keyHandle = 0) else true

/-- The job's release edge has come and nothing holds it. -/
def State.due (s : State) (id : Nat) (j : Job) : Bool :=
  decide (j.phase = .admitted) && decide (j.q ≠ 64) && decide (j.relEdge ≤ s.trd.edge) && !j.rebook && !j.faulted && j.forward.isNone
    && !j.squashed && !s.liveChain id && (j.cluster.isSome || decide ((s.getFn j.fn).state ≠ 7))
    && !s.trd.builds.any (fun b => decide (j.created = some b.key)) && s.pinReady j

/-- The latency histogram counts the release (R188). -/
def State.histogram (s : State) (j : Job) : State :=
  if j.cls ≠ bits s.trd.histCfg 9 8 ∨ j.cluster.isSome then s
  else
    let i := min 23 (ticksField j {} s.trd.edge / (bits s.trd.histCfg 7 0 + 1))
    { s with trd := { s.trd with hist := vmod s.trd.hist i 0 (fun x => satAdd x 1 0xFFFFFFFF) } }

/-- LATE (R179): an `OK` release after the promise edge. -/
def State.isLate (s : State) (j : Job) (r : Result) : Bool :=
  decide (r.status = 0) && (match j.promise with | some p => decide (p < s.trd.edge) | none => false)

/-- LATE is counted. -/
def State.countLate (s : State) (j : Job) : State :=
  (({ s with trd := { s.trd with late := satAdd s.trd.late 1 0xFFFFFFFF } } : State).event 3 3 (some j.fn) 1)

/-- The result as the completion carries it: a replay's own flags (R113), LATE (R179). -/
def State.released (s : State) (j : Job) (r : Result) : Result :=
  match j.replay with
  | some w => { (if r.status = 0 then replayFlags w r else r) with ticksTo := some s.trd.edge }
  | none => { r with late := s.isLate j r, ticksTo := some s.trd.edge }

/-- A created key becomes known, and goes to the workers when it is to be replicated (R364, R397, R661). -/
def State.reveals (s : State) (id : Nat) (j : Job) (r : Result) : State :=
  if !okStatus r.status then s
  else
    let s1 := if manyAttempts j.opcode then s.reveal id j else s
    match j.created with
    | some h => if j.cluster.isNone ∧ j.replay.isNone then s1.replicate h else s1
    | none => s1

/-- A job is released (R25, R170). -/
def State.releaseJob (s : State) (id : Nat) (j : Job) (r : Result) : State :=
  let s1 := if s.isLate j r && j.replay.isNone then s.countLate j else s
  ((s1.histogram j).reveals id j r).finish id (s.released j r)

/-- One more attempt of a key generation is needed (R364, R397). -/
def moreAttempts (j : Job) (r : Result) : Bool :=
  manyAttempts j.opcode && (okStatus r.status || decide (r.status = 0x0042)) && decide (j.attempts + 1 < r.detail.toNat)

/-- One job at its release edge: its computation has taken place, at the latest now. -/
def State.releaseOne (s : State) (id : Nat) : State :=
  let j0 := s.getJob id
  if !s.due id j0 then s
  else
    let s1 := s.computeAfter (kernelLag j0.opcode) id (kernelOf j0.opcode)
    let j := s1.getJob id
    match j.result with
    | none => s1
    | some r =>
      if j.waitsJournal && s1.recordOpen id then s1
      else if moreAttempts j r then s1.modJob id (fun x => { x with attempts := x.attempts + 1, rebook := true, another := true })
      else s1.releaseJob id j r

/-- The releases of the edge, in order of admission (R25). -/
def State.releases (s : State) : State :=
  ((s.jobs.filter (fun p => s.due p.1 p.2)).mergeSort (fun a b => a.2.admitSeq ≤ b.2.admitSeq)).foldl (fun (u : State) p => u.releaseOne p.1) s

-- Admin completions.

/-- What some admin commands do at their release edge (R140, R530, R552, R675). -/
def State.adminEffect (s : State) (j : Job) (r : Result) : State :=
  if r.status ≠ 0 then s
  else if j.opcode = 0x0010 then s.createQueue j.fn r.detail.toNat j.input
  else if j.opcode = 0x0014 then s.startQueue j.fn (p16 j.par 0)
  else if j.opcode = 0x0081 then s.applyModify j.inst j.input
  else if j.opcode = 0x0090 then s.startDirty j.inst j.input
  else if j.opcode = 0x0040 ∧ p8 j.par 0 = 3 then s.beginSampling j.fn j.input j.par
  else s

/-- An admin command that has finished gets its completion (R132). -/
def State.adminRelease (s : State) (id : Nat) : State :=
  let j := s.getJob id
  match j.result with
  | none => s
  | some r => ((s.adminEffect j r).finish id r).aqClose j.fn

/-- Finished admin commands whose records are durable. -/
def State.adminReleases (s : State) : State :=
  let ids := (s.jobs.filter (fun p => decide (p.2.q = 64) && decide (p.2.phase = .admitted) && p.2.result.isSome && decide (p.2.relEdge ≤ s.trd.edge)
    && !s.recordOpen p.1 && decide ((s.getFn p.2.fn).state ≠ 7))).map (·.1)
  ids.foldl State.adminRelease s

/-- Taken entries that a state of the device answers (R136, R594, R613, R722). -/
def State.answerEntries (s : State) : State :=
  (s.jobs.filter (fun p => decide (p.2.phase = .staged) && p.2.cluster.isNone)).foldl (fun (u : State) p =>
    match u.entryStatus p.2.q p.2.opcode with
    | some st => ((u.finishWith p.1 st).aqClose p.2.fn)
    | none => u) s

-- Power warning.

/-- A taken job that a power warning does not end at edge e: an admin command under execution, other than a patch activation
(R518), a command whose record is being programmed (R722), and a forwarded job (R664). -/
def State.outlastsWarning (s : State) (id : Nat) (j : Job) : Bool :=
  (decide (j.q = 64) && (decide (j.phase = .admitted) || (decide (j.phase = .staged) && (s.entryStatus 64 j.opcode).isNone)) && decide (j.opcode ≠ 0x0099))
    || s.kst.page.any (fun r => decide (r.job = some id)) || (j.forward.isSome && decide (j.phase = .admitted))

/-- Records that have not started are dropped, and what they would have changed stands as before (R722). -/
def State.dropRecords (s : State) : State :=
  let s1 := s.kst.waiting.foldl State.undoRecord s
  { s1 with kst := { s1.kst with waiting := [] } }

/-- A key whose deletion does not come about is there again. -/
def State.undoDelete (s : State) (id : Nat) : State :=
  let j := s.getJob id
  if j.opcode = 0x0104 ∧ j.phase = .admitted then
    (match s.getKey j.e.keyHandle with | some k => s.setKey j.e.keyHandle { k with deleted := false } | none => s)
  else s

/-- An engine whose domain is switched off keeps its pin (R315, R705). -/
def darkPvu (p : Pvu) : Pvu := { clearedPvu p with pin := p.pin, powered := false, active := false, mrgStale := true }
def darkBne (b : Bne) : Bne := { clearedBne b with powered := false, active := false, mrgStale := true }

/-- The PVU, BNE and Hash Array domains are switched off; a run that goes on is aborted (R385, R705, R721 step 3). -/
def State.domainsOff (s : State) : State :=
  let u := s.abortRuns (List.range s.bnes) .powerWarn
  { u with
    pvu := u.pvu.map darkPvu
    bne := u.bne.map darkBne
    hsa := { u.hsa with powered := 0, active := false }
    pcr := { u.pcr with powering := [] }
    trd := { u.trd with plan := [], signQ := [], sets := [], pages := [] } }

/-- Edge e of a power warning (R349, R721 steps 2 to 4). -/
def State.shedPower (s : State) : State :=
  if !s.pcr.shed then s
  else
    let s0 : State := { s with pcr := { s.pcr with shed := false } }
    let ids := (s0.jobs.filter (fun p => !p.2.finished && !s0.outlastsWarning p.1 p.2)).map (·.1)
    let s1 := (ids.foldl State.undoDelete s0).dropRecords
    let s2 := ids.foldl (fun (u : State) id => u.finish id {
      status := 0x00A3, detail := if (u.getJob id).opcode = 0x0099 ∧ (u.getJob id).q = 64 then BitVec.ofNat 64 u.patchDetail else 0 }) s1
    let s3 := s2.aqCloseAll.domainsOff
    if s3.kst.programming then { s3 with kst := { s3.kst with commitDue := true } } else s3.kstCommit

/-- Fresh reservations for every stateful key (R349). -/
def State.reserveAll (s : State) : State := s.kst.objs.foldl (fun (u : State) p => u.reserveLeaves (BitVec.ofNat 32 p.1)) s

/-- Edge w after the warning has cleared (R723). -/
def State.clearWarning (s : State) : State :=
  if s.pcr.clearing && s.pcr.warn then
    let due := s.domainOrder.mapIdx (fun i u => (s.us + 500 * i, u))
    let s2 := ({ s with pcr := { s.pcr with warn := false, powering := due } } : State).cause 0x71 1
    let s3 := s2.reserveAll
    { s3 with queues := KV.mapV (fun _ q => { q with rescan := true }) s3.queues }
  else s

/-- Admission resumes once the reservations are durable (R723 step 5). -/
def State.endClearing (s : State) : State :=
  if s.pcr.clearing && !s.pcr.warn && !(s.kst.waiting ++ s.kst.page).any (fun r => decide (r.typ = 1)) then
    { s with pcr := { s.pcr with clearing := false } }
  else s

-- Completion messages.

/-- A queue's vector is due (R69). -/
def queueDue (q : Queue) (edge : Nat) : Bool :=
  q.irqDue || (decide (q.coalCount ≠ 0) && decide (q.coalCount ≤ q.unsent))
    || (decide (q.coalTicks ≠ 0) && (match q.oldest with | some f => decide (q.coalTicks ≤ edge - f) | none => false))

/-- One message for a vector; the counts of every queue on it restart (R70). -/
def State.signalVector (s : State) (fv : Nat × Nat) : State :=
  let restart (k : Nat) (q : Queue) : Queue := if k / 65 = fv.1 ∧ q.vector = fv.2 then { q with unsent := 0, oldest := none, irqDue := false } else q
  ({ s with queues := KV.mapV restart s.queues } : State).sendMsix fv.1 fv.2

/-- At most one message per vector at an edge (R69, R70). -/
def State.signalQueues (s : State) : State :=
  ((s.queues.filter (fun p => queueDue p.2 s.trd.edge)).map (fun p => (p.1 / 65, p.2.vector))).eraseDups.foldl State.signalVector s

end Sys2Proof.Machine
end

