-- ==== Sys2Proof/Machine/Tick.lean ====
section
/-! DEFINITION. TICK_EDGE: everything a tick edge does, in its order (R22 to R25, R158 to R190). -/

namespace Sys2Proof.Machine

/-- The length of the tick that ends: a change of period leaves it the one in force before (R159). -/
def State.tickLength (s : State) : Nat := s.trd.lastPeriod.getD s.trd.period

/-- The edge is counted, and time moves on by the length of the tick that ends (R19, R22, R159). -/
def State.countEdge (s : State) (length : Nat) : State :=
  { s with
    us := s.us + length
    hrt := { s.hrt with edgeOk := true }
    trd := { s.trd with edge := s.trd.edge + 1, tickInAge := s.trd.tickInAge + 1 } }

/-- What a write of `TRD_TICKCFG` has asked for takes effect: the source (R161), and the start of a period change (R159). -/
def State.followCfg (s : State) : State :=
  let t := s.trd
  let src := bits t.cfg 9 8
  let t1 : Treadle := if src = t.source then t else { t with source := src, locked := false, goodIntervals := 0 }
  { s with trd := { t1 with changing := t.changing || t.request } }

/-- The jobs of functions being reset are dropped at the edge after (R538 step 2, R720). -/
def State.squashes (s : State) : State :=
  (s.funcs.map (·.1)).foldl (fun (u : State) n =>
    match (u.getFn n).resetEdge with
    | some e => if u.trd.edge < e then u else if n = 0 then u.dropLink else u.squashFn n
    | none => u) s

/-- The seconds of a live drill and the ticks of the recovery window run (R529, R593). -/
def State.runTimers (s : State) : State :=
  let sec := s.us / 1000000 - (s.us - s.tickLength) / 1000000
  { s with
    trd := { s.trd with lastPeriod := none }
    hrt := { s.hrt with drill := s.hrt.drill.map (fun d => (d.1, d.2 - sec)) }
    pcr := { s.pcr with recoveryTicks := s.pcr.recoveryTicks - 1 } }

/-- The drain edge of a function follows the release edges of its jobs (R540). -/
def State.followDrains (s : State) : State :=
  (s.funcs.map (·.1)).foldl (fun (u : State) n =>
    let f := u.getFn n
    if (f.state = 3 ∨ f.state = 5) ∧ f.resetEdge.isNone then u.setFn n { f with quiesceEdge := max f.quiesceEdge (u.drainBound n) } else u) s

/-- Domains that resume are back. -/
def State.resumed (s : State) : State :=
  let t := s.resumeDomains
  { t with tmp := { t.tmp with resuming := false } }

/-- What changes at an admission edge before any job is considered (R478, R489, R578, R591, R613, R646, R727). -/
def State.applyChanges (s : State) : State := ((((s.resumed).applyLka).quorumAction).applyTarget).comeBack

/-- The edge is an admission edge: no period change is going on (R159). -/
def State.admissionEdge (s : State) : State :=
  if s.trd.changing then s
  else
    let s1 := s.applyChanges
    if s1.admStop = 0 then s1.admission else if s1.admStop = 3 then s1.orderOne.foldl State.stoppedOne s1 else s1

/-- A worker's edges count from its last TICK frame; a second edge without one shows that the next is overdue, and the lock is lost
(R163, R663). -/
def State.frameTickLost (s : State) : State :=
  let p := s.plk
  if !p.tickDue then s
  else if p.tickAge + 1 < 2 then { s with plk := { p with tickAge := p.tickAge + 1 } }
  else
    let s1 : State := { s with plk := { p with tickAge := 0, tickDue := false, locked := false, goodFrames := 0 } }
    if p.locked then s1.raise { src := 0x6005 } else s1

/-- The head sends its tick number to every worker that is UP (R656, R663); nothing is sent during a power warning (R664). -/
def State.tickFrames (s : State) : State :=
  if !s.plkOn || decide (s.plkRole ≠ 1) || s.pcr.warn then s
  else s.plk.nodes.foldl (fun (u : State) p => if p.2.state = 2 then u.sendFrame p.2.port 3 p.1 (le 8 u.trd.edge) else u) s

/-- One kind of event that no step of the table causes: it may occur in the tick any number of times. -/
def State.looseEvent (s : State) (k ev : Nat) : State :=
  ({ s with free := s.free + 1 } : State).event k ev none (Config.looseEvents (k * 256 + ev) s.free)

/-- Transfers on PCIe and in the DRAM, and the tick itself (R674). -/
def State.tickEvents (s : State) : State :=
  ((((s.event 3 6 none 1).looseEvent 1 1).looseEvent 1 2).looseEvent 0x40 5).looseEvent 0x40 6

/-- Every page's request is looked at again: level causes may have changed. -/
def State.syncPages (s : State) : State := s.irqSyncAll (s.blockCodes ++ s.funcs.map (fun p => 256 + p.1))

/-- A step of the edge that a halted module does not take (R594). -/
def State.whenRunning (s : State) (f : State → State) : State := if s.running then f s else s

/-- The tick that ends: its slots (R219), and then the edge's number and the ring of assessment, one edge on (R483). -/
def State.closeTick (s : State) : State := (((s.whenRunning State.endSlots).countEdge s.tickLength).whenRunning State.stepRing).followCfg

/-- Effects that came due: journal records (R343), resets, tree builds, faults and retirements (R185, R588). -/
def State.settleTick (s : State) : State :=
  let s1 := (s.squashes).whenRunning (fun u => ((u.settle).serveGrants).wearTest)
  let s2 := s1.whenRunning (fun u => ((u.endBuilds).retries).retirements)
  s2.whenRunning (fun u => (u.leaveDomains).leaveStale)

/-- The release edge (R25, R69, R101, R132, R677, R721): results, admin completions, what a power warning or a state of the
device ends, messages, and sampling records. -/
def State.releaseEdge (s : State) : State :=
  let s1 := (s.whenRunning State.releases).adminReleases
  let s2 := (((s1.shedPower).clearWarning).domainsDue).endClearing
  let s3 := ((s2.answerEntries).sweepReplicas).dropTurn
  (s3.signalQueues).writeAllSamples

/-- Admission and the plan (R22, R23, R171, R178, R184). -/
def State.planEdgeWork (s : State) : State := s.whenRunning (fun u => ((u.fullClock).admissionEdge).trim)

/-- The turnaround of the slots that open, and what is given to the next tick (R206, R216, R219, R340, R344, R483). -/
def State.openTick (s : State) : State :=
  let s1 := s.whenRunning (fun u => ((((((u.prune).startAllotments).zeroPages).loadStarts).clearFiles).reseeds).giveBuilds)
  let s2 := s1.whenRunning (fun u => u.startPage.frameTickLost.tickFrames)
  (((s2.followDrains).runTimers).tickEvents).syncPages

/-- TICK_OUT rises after the edge while `TRD_TICKOUT_CFG.EN` = 1 and the module is READY (R164). -/
def State.tickOutPulse (s : State) : State :=
  if s.running && decide (KV.getD s.regs (3 * 65536 + 0x114) 0 = 1) then s.emit .tickOut else s

/-- A tick edge. -/
def State.tickEdge (s : State) : State :=
  (((((s.closeTick).settleTick).releaseEdge).planEdgeWork).openTick).tickOutPulse

/-- TICK_EDGE (R22): from READY; BANK has stopped the clock (R680). -/
def execTickEdge (s : State) : Host.Outcome State Fault Refusal :=
  .next (if s.trd.ready && !s.pcr.frozen then s.tickEdge else s)

end Sys2Proof.Machine
end

