-- ==== Sys2Proof/Machine/HostRegs.lean ====
section
/-! DEFINITION. The host's register accesses: the maps of BAR0 and of the instance BAR (R41 to R50), what each address reads
(R43 to R46), the writes of registers without a command of their own (R14), and the latched high halves (R233). -/

namespace Sys2Proof.Machine

/-- What stands at an address of a function's BAR. `page` names a page key (a block code, or 256 + function) and an offset. -/
inductive RegTarget where
  | msixTable (fn off : Nat)
  | msixPba (fn off : Nat)
  | doorbell (fn idx : Nat)
  | page (key off : Nat)
  | view (fn off : Nat)
  | mailbox (fn : Nat) (byManager : Bool) (off : Nat)
  | dgs (fn off : Nat)
  | rng (fn off : Nat)
  | counters (fn off : Nat)
  | nothing
  deriving DecidableEq, Repr

/-- A block window of BAR0 (R42); the manager's own DGS, RNG and counter windows lie in it (R405, R431, R673). -/
def windowTarget (code off : Nat) : RegTarget :=
  if 0x1000 ≤ off ∧ off < 0x2000 then
    (if code = 0x30 then .dgs 0 (off - 0x1000) else if code = 0x31 then .rng 0 (off - 0x1000)
     else if code = 0x70 then .counters 0 (off - 0x1000) else .nothing)
  else if off < 0x1000 then .page code off else .nothing

/-- BAR0 of the physical function (R41). -/
def bar0Target (addr : Nat) : RegTarget :=
  if addr < 0x8000 then .msixTable 0 addr
  else if addr < 0x10000 then .msixPba 0 (addr - 0x8000)
  else if addr < 0x10200 then .doorbell 0 ((addr - 0x10000) / 8)
  else if addr < 0x100000 then .nothing
  else if addr < 0x900000 then windowTarget ((addr - 0x100000) / 0x10000) ((addr - 0x100000) % 0x10000)
  else if addr < 0x910000 then .page 256 (addr - 0x900000)
  else if addr < 0x1000000 then .nothing
  else if addr < 0x2000000 then
    let n := (addr - 0x1000000) / 0x10000
    let off := addr % 0x10000
    if n = 0 then .nothing else if off < 0x1000 then .view n off else if off < 0x1200 then .mailbox n true (off - 0x1000) else .nothing
  else .nothing

/-- The BAR of a virtual function (R47). -/
def instTarget (fn addr : Nat) : RegTarget :=
  if addr < 0x1000 then .page (256 + fn) addr
  else if addr < 0x1200 then .mailbox fn false (addr - 0x1000)
  else if 0x2000 ≤ addr ∧ addr < 0x3000 then .rng fn (addr - 0x2000)
  else if 0x3000 ≤ addr ∧ addr < 0x4000 then .dgs fn (addr - 0x3000)
  else if 0x4000 ≤ addr ∧ addr < 0x5000 then .counters fn (addr - 0x4000)
  else if 0x8000 ≤ addr ∧ addr < 0x8200 then .doorbell fn ((addr - 0x8000) / 8)
  else if 0xC000 ≤ addr ∧ addr < 0xE000 then .msixTable fn (addr - 0xC000)
  else if 0xE000 ≤ addr ∧ addr < 0x10000 then .msixPba fn (addr - 0xE000)
  else .nothing

def regTarget (fn addr : Nat) : RegTarget := if fn = 0 then bar0Target addr else instTarget fn addr

/-- The address is that of something that exists: a function, a present block, an entry of the table. -/
def State.targetExists (s : State) : RegTarget → Bool
  | .msixTable fn off => s.fnExists fn && decide (off / 16 < (s.getFn fn).tableSize)
  | .msixPba fn _ => s.fnExists fn
  | .doorbell fn _ => s.fnExists fn
  | .page key _ => s.pageExists key
  | .view fn _ => s.fnExists fn
  | .mailbox fn _ _ => s.fnExists fn
  | .dgs fn _ => s.fnExists fn
  | .rng fn _ => s.fnExists fn
  | .counters fn _ => s.fnExists fn
  | .nothing => false

-- Reads.

/-- The MSI-X table: message address and data, and the mask bit of each vector (PCIe 5.0, R68). -/
def State.readTable (s : State) (fn off : Nat) : W32 :=
  if off % 16 = 12 then BitVec.ofNat 32 (b2n ((s.getFn fn).maskedVec.contains (off / 16)))
  else KV.getD s.regs (tableKey fn off) 0

/-- The pending-bit array (R68). -/
def State.readPba (s : State) (fn off : Nat) : W32 :=
  BitVec.ofNat 32 (bitmap 32 (fun b => (s.getFn fn).pendingVec.contains (off * 8 + b)))

/-- The block-specific registers of a block. -/
def State.readBlock (s : State) (k off : Nat) : W32 :=
  if k = 0x01 then (if 0x200 ≤ off ∧ off < 0x400 then KV.getD s.regs (0x10000 + off) 0x80000000 else 0)
  else if k = 0x03 then s.readTrd off
  else if 0x10 ≤ k ∧ k < 0x20 then s.readPvu (k - 0x10) off
  else if 0x20 ≤ k ∧ k < 0x28 then s.readBne (k - 0x20) off
  else if k = 0x28 then s.readHsa off
  else if k = 0x30 then s.readDgs off
  else if k = 0x31 then s.readEnt off
  else if k = 0x32 then s.readKst off
  else if k = 0x40 then s.readMem off
  else if k = 0x41 then s.readFls off
  else if k = 0x50 then s.readHrt off
  else if k = 0x51 then s.readTmp off
  else if k = 0x52 then s.readFgd off
  else if k = 0x58 then s.readThm off
  else if k = 0x60 then s.readPlk off
  else if k = 0x70 then s.readPmu off
  else if k = 0x71 then s.readPcr off
  else if k = 0x72 then s.readLka off
  else if 256 ≤ k then s.readInst (k - 256) off
  else 0

/-- The offsets that the shadow of a retired block still shows (R44). -/
def shadowOffsets : List Nat := [0x000, 0x004, 0x008, 0x00C, 0x014, 0x040, 0x048]

/-- A register of a page (R43 to R45): an absent page reads zero. -/
def State.readPage (s : State) (k off : Nat) : W32 :=
  if !s.pageExists k then 0
  else if s.retired k && !shadowOffsets.contains off then 0
  else if off < 0x100 then s.readHeader k off (Config.blkVer (idCode k)) (Config.blkCap1 (idCode k))
  else match s.readTest k off with
    | some v => v
    | none => match s.readBob k off with
      | some v => v
      | none => s.readBlock k off

/-- A word of a mailbox (R535): the up box, then the down box. -/
def State.readMailbox (s : State) (fn off : Nat) : W32 :=
  let f := s.getFn fn
  BitVec.ofNat 32 (if off < 0x100 then field f.up.data off 4 else field f.dn.data (off - 0x100) 4)

/-- What a 32-bit read of the host shows, without the commands that a read causes. -/
def State.readTarget (s : State) (t : RegTarget) : W32 :=
  if !s.pcr.powered || !s.targetExists t then 0
  else match t with
    | .msixTable fn off => s.readTable fn off
    | .msixPba fn off => s.readPba fn off
    | .page k off => s.readPage k off
    | .view fn off => s.readPage (256 + fn) off
    | .mailbox fn _ off => s.readMailbox fn off
    | .dgs fn off => s.readWindow fn off
    | .rng fn off => s.readRng fn off
    | .counters fn off => s.readCounters fn off
    | .doorbell _ _ => 0
    | .nothing => 0

/-- The offsets of a block's 64-bit counters read under R46: the first, and the end of the array. -/
def counterSpan (k : Nat) : Nat × Nat :=
  if k = 0x03 then (0x108, 0x110)
  else if 0x10 ≤ k ∧ k < 0x20 then (0x140, 0x1B8)
  else if 0x20 ≤ k ∧ k < 0x28 then (0x140, 0x198)
  else if k = 0x28 then (0x120, 0x180)
  else if k = 0x30 then (0x1B0, 0x1B8)
  else if k = 0x31 then (0x130, 0x138)
  else if k = 0x32 then (0x140, 0x240)
  else if k = 0x40 then (0x150, 0x1D0)
  else if k = 0x41 then (0x140, 0x1C0)
  else if k = 0x50 then (0x110, 0x118)
  else if k = 0x52 then (0x104, 0x10C)
  else if k = 0x58 then (0x1A0, 0x1F8)
  else if k = 0x60 then (0x140, 0x1C0)
  else if k = 0x72 then (0x140, 0x180)
  else (0, 0)

/-- The address is the low half of a 64-bit counter. -/
def counterLow : RegTarget → Bool
  | .page k off =>
    let (a, b) := counterSpan k
    decide (a ≤ off) && decide (off < b) && decide ((off - a) % 8 = 0)
  | .counters _ off => decide (off < 8 * 192) && decide (off % 8 = 0)
  | _ => false

/-- Key of a BAR address. -/
def barKey (fn addr : Nat) : Nat := fn * 2 ^ 26 + addr

/-- The command that a read of an address is, where the table has a row for it (R415, R432, R649). -/
def readCommand : RegTarget → Option (State → Host.Outcome State Fault Refusal)
  | .rng fn off => if off = 0 ∨ off = 4 then some (execRngDataRead fn) else none
  | .dgs fn off =>
    if 0x800 ≤ off ∧ off < 0x1000 ∧ 0xC0 ≤ off % 256 then some (execDgsResultRead fn ((off - 0x800) / 256) ((off % 256 - 0xC0) / 4)) else none
  | .page k off => if k = 0x58 ∧ off = 0x110 then some execApduDataRead else none
  | _ => none

/-- The data that a command has just answered, taken back for the access that it serves. -/
def State.takeAnswer (s : State) : State × W32 :=
  match s.out with
  | .readData v :: o => ({ s with out := o }, v)
  | _ => (s, 0)

/-- The read of an address by its own command. -/
def State.readBy (s : State) (f : State → Host.Outcome State Fault Refusal) : State × W32 :=
  match f s with
  | .next t => t.takeAnswer
  | .fault _ => (s, 0)
  | .refused _ => (s, 0)

/-- A 32-bit read (R46, R233): the low half of a counter latches the high half, and the next read of the high half takes it. -/
def State.readReg (s : State) (fn addr : Nat) : State × W32 :=
  let t := regTarget fn addr
  match KV.get? s.latchHi (barKey fn addr) with
  | some v => ({ s with latchHi := KV.erase s.latchHi (barKey fn addr) }, v)
  | none =>
    match readCommand t with
    | some f => if s.pcr.powered && !s.pcr.frozen && s.targetExists t then s.readBy f else (s, s.readTarget t)
    | none =>
      let v := s.readTarget t
      if counterLow t && s.targetExists t then
        ({ s with latchHi := KV.set s.latchHi (barKey fn (addr + 4)) (s.readTarget (regTarget fn (addr + 4))) }, v)
      else (s, v)

/-- The page whose block an access reaches over the control fabric, if any: HIF itself holds the MSI-X structures and serves absent
and retired blocks (R43, R44, R611). -/
def State.seamPage (s : State) (t : RegTarget) : Option Nat :=
  let page : Option Nat := match t with
    | .page k _ => if s.retired k then none else some k
    | .view fn _ => some (256 + fn)
    | .mailbox fn _ _ => some (256 + fn)
    | .doorbell _ _ => some 0x02
    | .dgs _ _ => some 0x30
    | .rng _ _ => some 0x31
    | .counters _ _ => some 0x70
    | .msixTable _ _ => none
    | .msixPba _ _ => none
    | .nothing => none
  if s.hostOpen && s.targetExists t then page else none

/-- A 32-bit read as the control fabric carries it: one that fails twice reads zero (R612). -/
def State.readAccess (s : State) (fn addr : Nat) (copies : List CtlCopy) : State × W32 :=
  let r := s.ctlArrive (s.seamPage (regTarget fn addr)) copies
  if r.2 then r.1.readReg fn addr else (r.1, 0)

/-- The bytes that a read narrower than 32 bits addresses, in the low bytes of what is answered (R46). -/
def addressed (addr size : Nat) (v : W32) : W32 := BitVec.ofNat 32 (v.toNat / 2 ^ (8 * (addr % 4)) % 2 ^ (8 * size))

/-- COUNTER_LO_READ (R46, R233): a host read; of a counter's low half it latches the high half. A 64-bit read is two 32-bit reads,
the lower address first. -/
def execCounterLoRead (fn : Nat) (rd : HostRead) (s : State) : Host.Outcome State Fault Refusal :=
  if rd.size < 4 then
    let r := s.readAccess fn (rd.addr - rd.addr % 4) (rd.got.getD 0 [])
    .next (r.1.answer (addressed rd.addr rd.size r.2))
  else
    let r := s.readAccess fn rd.addr (rd.got.getD 0 [])
    let t := r.1.answer r.2
    if rd.size < 8 then .next t
    else
      let q := t.readAccess fn (rd.addr + 4) (rd.got.getD 1 [])
      .next (q.1.answer q.2)

-- Writes.

/-- The next state of a command that a register write causes. -/
def State.through (s : State) (f : State → Host.Outcome State Fault Refusal) : State :=
  match f s with
  | .next t => t
  | .fault _ => s
  | .refused _ => s

/-- `BLK_CTRL` (R55): LOCK is set by a 1; the enables are written. -/
def State.writeCtrl (s : State) (k : Nat) (v : W32) : State :=
  let t := s.onPage k (fun u => u.writeHeader k 0x010 v)
  if bit v 31 then t.through (execBlkCtrlLock k) else t

/-- A write to the common page header (R51). -/
def State.writeHead_ (s : State) (k off : Nat) (v : W32) : State :=
  if off = 0x010 then s.writeCtrl k v
  else if off = 0x024 then s.through (execIrqMask k v)
  else if off = 0x02C then s.through (execIrqClear k v)
  else if off = 0x040 then s.through (execFltStatus k v)
  else if off = 0x044 then s.through (execFltForce k v)
  else s.onPage k (fun u => u.writeHeader k off v)

/-- `HIF_IRQ_ROUTEn` (R67). -/
def State.writeHif (s : State) (off : Nat) (v : W32) : State :=
  if 0x200 ≤ off ∧ off < 0x400 ∧ off % 4 = 0 ∧ !(s.getBlk 1).lock then
    { s with regs := KV.set s.regs (0x10000 + off) (v &&& 0x8000003F) } else s

/-- `THM_SLOTn_CTRL` (R648): the bits set act in the order DEACTIVATE, ACTIVATE, WARM_RESET. -/
def State.writeSlotCtrl (s : State) (n : Nat) (v : W32) : State :=
  let t := if bit v 2 then s.through (execCardDeactivate n) else s
  let u := if bit v 1 then t.through (execCardActivate n) else t
  if bit v 0 then u.through (execCardWarmReset n) else u

/-- A write to a THM register (R647, R648). -/
def State.writeThmReg (s : State) (off : Nat) (v : W32) : State :=
  if off = 0x108 then s.through (execApduStart v)
  else if off = 0x110 then s.through (execApduDataWrite v)
  else if off = 0x120 then (s.through (execQuorumOpen v)).through (execQuorumClose v)
  else if 0x140 ≤ off ∧ off < 0x1A0 ∧ off % 16 = 8 then s.writeSlotCtrl ((off - 0x140) / 16) v
  else s.onPage 0x58 (fun u => u.writeThm off v)

/-- A write to a PLK register (R666, R667). -/
def State.writePlkReg (s : State) (off : Nat) (v : W32) : State :=
  if off = 0x114 then (s.through (execPeerFprWrite v)).through (execPeerFprClear v)
  else if 0x200 ≤ off ∧ off < 0x300 ∧ (off - 0x200) % 0x20 = 0 then
    let n := (off - 0x200) / 0x20
    let t := s.onPage 0x60 (fun u => u.writePlk off v)
    if n < s.portCount ∧ (s.getPort n).en ≠ bit v 31 then t.through (execPortEnable n (bit v 31)) else t
  else s.onPage 0x60 (fun u => u.writePlk off v)

/-- A write to a PCR register (R687, R701, R732). -/
def State.writePcrReg (s : State) (off : Nat) (v : W32) : State :=
  if off = 0x10C then s.through (execLifecycleTarget v)
  else if off = 0x110 then s.through (execPcrReset v)
  else if off = 0x180 then
    let t := s.onPage 0x71 (fun u => u.writePcr off v)
    if bit v 31 then t.through execBankCtrlEnter else t
  else s.onPage 0x71 (fun u => u.writePcr off v)

/-- A write to an HRT register (R599, R600). -/
def State.writeHrtReg (s : State) (off : Nat) (v : W32) : State :=
  if off = 0x108 then s.through (execHrtFirst v)
  else if off = 0x11C then s.through (execSrcCfgWrite v)
  else if off = 0x124 then s.through (execHrtAck v)
  else if off = 0x13C then s.through (execHrtBeat false)
  else s.onPage 0x50 (fun u => u.writeHrt off v)

/-- A write to a function's own instance page (R124, R534). -/
def State.writeInstReg (s : State) (fn off : Nat) (v : W32) : State :=
  if off = 0x100 then s.through (execInstAdb fn 4)
  else if off = 0x104 then s.through (if bit v 31 then execAdminQueueEnable fn v else execAdminQueueDisable fn v)
  else if off = 0x110 then s.through (execInstEcinv fn v)
  else if off = 0x170 then (if bit v 0 then s.through (execMbxUpSend fn) else s)
  else if off = 0x178 then (if bit v 1 then s.through (execMbxDnAck fn) else s)
  else s.onPage (256 + fn) (fun u => u.writeInst fn off v)

/-- A write to a block-specific register. -/
def State.writeBlock (s : State) (k off : Nat) (v : W32) : State :=
  if (testInfo k).any (fun i => decide (i.off = off)) then s.through (execSelftestStart k v)
  else if k = 0x01 then s.onPage k (fun u => u.writeHif off v)
  else if k = 0x03 then
    (if off = 0x100 then s.through (execTrdTickcfg v) else if off = 0x16C then s.through (execHistClear v)
     else s.onPage k (fun u => u.writeTrd off v))
  else if 0x20 ≤ k ∧ k < 0x28 then
    (if off = 0x108 then s.through (execBneDummyRatio (k - 0x20) v) else s.onPage k (fun u => u.writeBne (k - 0x20) off v))
  else if k = 0x31 then
    (if off = 0x140 ∧ bit v 31 then s.through (execEntRawCtrl v true) else s.onPage k (fun u => u.writeEnt off v))
  else if k = 0x32 then s.onPage k (fun u => u.writeKst off v)
  else if k = 0x40 then (if off = 0x140 then s.through (execInjectionArm v) else s.onPage k (fun u => u.writeMem off v))
  else if k = 0x50 then s.writeHrtReg off v
  else if k = 0x51 then
    (if off = 0x10C then s.through (execTmpRelease v) else if off = 0x124 then s.onPage k (fun u => u.writeTmp off v)
     else s.through (execTamperConfigWrite off v))
  else if k = 0x58 then s.writeThmReg off v
  else if k = 0x60 then s.writePlkReg off v
  else if k = 0x70 then (if off = 0x104 then s.through (execPmuFreeze v) else s.onPage k (fun u => u.writePmu off v))
  else if k = 0x71 then s.writePcrReg off v
  else if k = 0x72 then (if off = 0x10C then s.through (execLkaRelax v) else s.onPage k (fun u => u.writeLka off v))
  else if 256 ≤ k then s.writeInstReg (k - 256) off v
  else s

/-- A write through the manager's view of an instance (R534). -/
def State.writeView (s : State) (fn off : Nat) (v : W32) : State :=
  if off = 0x170 ∧ bit v 1 then s.through (execMbxUpAck fn)
  else if off = 0x178 ∧ bit v 0 then s.through (execMbxDnSend fn)
  else s

/-- Mailbox data (R534, R536): the sender's box, ignored while it is FULL. -/
def State.writeMailbox (s : State) (fn : Nat) (byManager : Bool) (off : Nat) (v : W32) : State :=
  let f := s.getFn fn
  if byManager then
    (if off < 0x100 ∨ f.dn.full then s
     else s.setFn fn { f with dn := { f.dn with data := patchBytes f.dn.data (off - 0x100) (le 4 v.toNat) } })
  else if 0x100 ≤ off ∨ f.up.full then s
  else s.setFn fn { f with up := { f.up with data := patchBytes f.up.data off (le 4 v.toNat) } }

/-- The command that a write of `DGS_VCTRL` spells (R409): exactly one bit. -/
def State.writeVctrl (s : State) (fn view : Nat) (v : W32) : State :=
  let c := v.toNat % 128
  if c = 1 then s.through (execDgsOpen fn view)
  else if c = 2 then s.through (execDgsStart fn view)
  else if c = 4 then s.through (execDgsFinal fn view)
  else if c = 8 then s.through (execDgsAbort fn view)
  else if c = 16 then s.through (execDgsSave fn view)
  else if c = 32 then s.through (execDgsRestore fn view)
  else if c = 64 then s.through (execDgsClose fn view)
  else s.writeWindow fn (0x800 + 256 * view) v

/-- A write to a Digest Service window (R405, R408). -/
def State.writeDgsReg (s : State) (fn off : Nat) (v : W32) : State :=
  if off = 0x004 then s.through (execDgsKload fn v)
  else if off = 0x00C then s.through (execDgsKunload fn v)
  else if 0x800 ≤ off ∧ off < 0x1000 ∧ off % 256 = 0 then s.writeVctrl fn ((off - 0x800) / 256) v
  else if 0x800 ≤ off ∧ off < 0x1000 ∧ 0x80 ≤ off % 256 ∧ off % 256 < 0xC0 then
    s.through (execDgsVdata fn ((off - 0x800) / 256) 4 (v.setWidth 64))
  else s.writeWindow fn off v

/-- A write to the MSI-X table: a vector's mask bit, or its message address and data. -/
def State.writeTable (s : State) (fn off : Nat) (v : W32) : State :=
  if off % 16 = 12 then (if bit v 0 then s.msixMask fn (off / 16) else s.through (execMsixUnmask fn (off / 16)))
  else { s with regs := KV.set s.regs (tableKey fn off) v }

/-- A 32-bit write reaches what stands at its address; anything else ignores it (R43 to R45). -/
def State.writeTarget (s : State) (t : RegTarget) (v : W32) : State :=
  match t with
  | .msixTable fn off => s.writeTable fn off v
  | .doorbell fn idx => s.through (execDoorbell fn idx 4)
  | .page k off => if off < 0x100 then s.writeHead_ k off v else s.writeBlock k off v
  | .view fn off => s.writeView fn off v
  | .mailbox fn m off => s.writeMailbox fn m off v
  | .dgs fn off => s.writeDgsReg fn off v
  | .rng fn off => s.writeRng fn off v
  | .msixPba _ _ => s
  | .counters _ _ => s
  | .nothing => s

def State.writeReg (s : State) (fn addr : Nat) (v : W32) : State :=
  let t := regTarget fn addr
  if s.hostOpen && s.targetExists t then s.writeTarget t v else s

/-- The registers of the common header (R51): all but its reserved offsets. -/
def headerRegister (off : Nat) : Bool :=
  decide (off < 0x018) || (decide (0x020 ≤ off) && decide (off < 0x030)) || (decide (0x040 ≤ off) && decide (off < 0x050))
    || (decide (0x060 ≤ off) && decide (off < 0x084)) || decide (off = 0x0F0)

/-- Where the block-specific registers of a page lie: first offset, and the one past the last, of each stretch that the block's
table gives. -/
def registerSpans (k : Nat) : List (Nat × Nat) :=
  if k = 0x01 then [(0x200, 0x400)]
  else if k = 0x03 then [(0x100, 0x1D0), (0x200, 0x310)]
  else if 0x10 ≤ k ∧ k < 0x20 then [(0x100, 0x138), (0x140, 0x1B8), (0x1C0, 0x1D8)]
  else if 0x20 ≤ k ∧ k < 0x28 then [(0x100, 0x130), (0x140, 0x198), (0x1C0, 0x1D8)]
  else if k = 0x28 then [(0x100, 0x1C0)]
  else if k = 0x30 then [(0x100, 0x104), (0x110, 0x1C4)]
  else if k = 0x31 then [(0x100, 0x150)]
  else if k = 0x32 then [(0x100, 0x240)]
  else if k = 0x40 then [(0x100, 0x1D0), (0x200, 0x310)]
  else if k = 0x41 then [(0x100, 0x120), (0x140, 0x1C0)]
  else if k = 0x50 then [(0x100, 0x14C), (0x150, 0x164), (0x180, 0x220), (0x280, 0x300)]
  else if k = 0x51 then [(0x100, 0x200)]
  else if k = 0x52 then [(0x100, 0x134), (0x140, 0x1CC)]
  else if k = 0x58 then [(0x100, 0x114), (0x120, 0x134), (0x140, 0x1F8), (0x200, 0x240)]
  else if k = 0x60 then [(0x100, 0x1C0), (0x200, 0x380)]
  else if k = 0x70 then [(0x100, 0x1C0), (0x200, 0x500)]
  else if k = 0x71 then [(0x100, 0x120), (0x180, 0x188), (0x1A0, 0x1B0)]
  else if k = 0x72 then [(0x100, 0x120), (0x140, 0x180), (0x200, 0x260)]
  else if 256 ≤ k then [(0x100, 0x10C), (0x110, 0x114), (0x118, 0x188)]
  else []

def spansHold (l : List (Nat × Nat)) (off : Nat) : Bool := l.any (fun p => decide (p.1 ≤ off) && decide (off < p.2))

/-- A 32-bit register stands at the address (R45, R46); the MSI-X structures and the counters' array are none (R46, R673), and a
port of PLK has six registers of its eight words. -/
def isRegister : RegTarget → Bool
  | .page k off =>
    if off < 0x100 then headerRegister off
    else spansHold (registerSpans k) off && !(decide (k = 0x60) && decide (0x200 ≤ off) && decide (off < 0x300) && decide (0x18 ≤ off % 0x20))
  | .view fn off => if off < 0x100 then headerRegister off else spansHold (registerSpans (256 + fn)) off
  | .mailbox _ _ _ => true
  | .doorbell _ _ => true
  | .dgs _ off => spansHold [(0x000, 0x010), (0x100, 0x200)] off || (decide (0x800 ≤ off) && !spansHold [(0x01C, 0x080)] (off % 256))
  | .rng _ off => spansHold [(0x000, 0x008), (0x010, 0x018)] off
  | .counters _ _ => false
  | .msixTable _ _ => false
  | .msixPba _ _ => false
  | .nothing => false

/-- A write narrower than 32 bits (R46): discarded, and counted where it goes to a register. -/
def State.narrowWrite (s : State) (fn addr : Nat) : State :=
  let t := regTarget fn (addr - addr % 4)
  if s.hostOpen && s.targetExists t && isRegister t then s.raise { src := 0x0100, fn := fn } else s

/-- A 32-bit write as the control fabric carries it: one that fails twice is discarded (R612). -/
def State.writeAccess (s : State) (fn addr : Nat) (v : W32) (copies : List CtlCopy) : State :=
  let r := s.ctlArrive (s.seamPage (regTarget fn addr)) copies
  if r.2 then r.1.writeReg fn addr v else r.1

def isDoorbell : RegTarget → Bool
  | .doorbell _ _ => true
  | _ => false

/-- REGISTER_WRITE (R14, R46): a 64-bit access is two 32-bit accesses, the lower address first; a doorbell takes it whole. -/
def execRegisterWrite (fn addr size : Nat) (val : HostWord) (s : State) : Host.Outcome State Fault Refusal :=
  .next (if size < 4 then s.narrowWrite fn addr
    else if addr % 4 ≠ 0 then s
    else
      let t := s.writeAccess fn addr (val.val.setWidth 32) (val.got.getD 0 [])
      if size < 8 || isDoorbell (regTarget fn addr) then t
      else t.writeAccess fn (addr + 4) ((val.val >>> 32).setWidth 32) (val.got.getD 1 []))

end Sys2Proof.Machine
end

