-- ==== Sys2Proof/Machine/Migrate.lean ====
section
/-! DEFINITION. Native migration (R543 to R551): offers, freezing, the chunks of a blob (R547), the sections of its body
(R548), and their restoration. -/

namespace Sys2Proof.Machine

-- Offers (R545).

/-- The ephemeral key pairs of an offer: ML-KEM-1024 (set 3) and P-384 (set 2). -/
def Offer.kemSk (o : Offer) : List Byte := genPriv 1 3 o.kemSeed
def Offer.kemPk (o : Offer) : List Byte := genPub 1 3 o.kemSeed
def Offer.ecSk (o : Offer) : List Byte := genPriv 10 2 o.ecSeed
def Offer.ecPk (o : Offer) : List Byte := genPub 10 2 o.ecSeed

/-- The offer record (R545). -/
def offerRecord (n : Nat) (o : Offer) : List Byte :=
  let body := [0x4E, 0x52, 0x4D, 0x4F] ++ le 1 1 ++ le 1 2 ++ le 2 n ++ le 4 o.id ++ le 4 Config.deviceChain.length
    ++ fit 16 Config.serial ++ fit 32 o.nonce ++ o.kemPk ++ o.ecPk ++ zeros 3 ++ Config.deviceChain
  let sig := Config.deviceSign body
  body ++ le 2 sig.length ++ sig

/-- Identifiers of the live offers. -/
def State.offerIds (s : State) : List Nat := s.funcs.filterMap (fun p => p.2.offer.map (·.id))

/-- MIGRATE_OFFER (R545): the pairs and the nonce are drawn from the internal DRBG; the command waits for it to be seeded. -/
def execMigrateOffer (job : Nat) (s : State) : Host.Outcome State Fault Refusal :=
  .next (s.onAdmin 0x0088 job (fun t j =>
    if !t.instIn j.inst [1] then t.adminEnd job (badParam 0x12)
    else if !t.intSeeded then t
    else
      let (kem, t1) := t.drawInt 64
      let (ec, t2) := t1.drawInt (curveOf 2).drawLen
      let (nonce, t3) := t2.drawInt 32
      let o : Offer := { id := freshId t3.offerIds (2 ^ 32) 257 (Config.offerId t3.free), nonce := nonce, kemSeed := kem, ecSeed := ec }
      let t4 : State := { t3 with free := t3.free + 1 }
      (t4.modFn j.inst (fun f => { f with offer := some o })).adminEnd job (okOut (offerRecord j.inst o))))

/-- MIGRATE_OFFER_EXPIRY (R545): an offer lives for 600 s. -/
def execMigrateOfferExpiry (fn : Nat) (s : State) : Host.Outcome State Fault Refusal := .next (s.modFn fn (fun f => { f with offer := none }))

-- Freezing (R543, R551).

/-- MIGRATE_FREEZE (R543): nothing more is taken, and entries not admitted form the pending set. -/
def execMigrateFreeze (job : Nat) (s : State) : Host.Outcome State Fault Refusal :=
  .next (s.onAdmin 0x0089 job (fun t j => if t.instIn j.inst [2] then t.startDrain j.inst 5 job else t.adminEnd job (badParam 0x12)))

/-- INSTANCE_FROZEN (R543): at the release edge of the last admitted job. -/
def execInstanceFrozen (fn : Nat) (s : State) : Host.Outcome State Fault Refusal :=
  let f := s.getFn fn
  if f.state = 5 ∧ !s.jobs.any (fun p => decide (p.2.fn = fn) && decide (p.2.phase = .admitted) && p.2.cluster.isNone) then
    let s1 := ((s.setInst fn 6).modFn fn (fun x => { x with drainJob := none, chunk := 0, saving := none })).logEvent fn (plainEvent 4)
    let pending := (s.inflight fn).2
    .next (match f.drainJob with | some d => s1.adminEnd d { detail := BitVec.ofNat 64 pending } | none => s1)
  else .next s

/-- MIGRATE_ABORT (R551): pending entries are admitted as usual; EXPORTED keys stay so. -/
def execMigrateAbort (job : Nat) (s : State) : Host.Outcome State Fault Refusal :=
  .next (s.onAdmin 0x008C job (fun t j =>
    if t.instIn j.inst [6] then
      (((t.setInst j.inst 2).modFn j.inst (fun f => { f with saving := none, chunk := 0 })).logEvent j.inst (plainEvent 6)).adminEnd job {}
    else t.adminEnd job (badParam 0x12)))

-- The body (R548).

/-- A section: type, length, content. -/
def section_ (typ : Nat) (c : List Byte) : List Byte := le 2 typ ++ le 4 c.length ++ zeros 2 ++ c

/-- The descriptor of a queue (R140). -/
def queueDesc (x : Queue) : List Byte :=
  le 8 x.ring ++ le 8 x.headAddr ++ le 4 x.depth ++ le 1 x.ver ++ le 1 (b2n x.ordered) ++ le 1 x.vector ++ le 1 x.coalCount
    ++ le 1 x.coalTicks ++ zeros 1 ++ le 2 x.defDeadline ++ zeros 4

/-- Entry HEAD + i of a queue has its completion (R544). -/
def State.entryDone (s : State) (fn q n : Nat) : Bool := match s.jobAt fn q n with | some (_, j) => j.finished | none => true

/-- The done bitmap of a queue (R544), rounded up to bytes. -/
def State.doneMap (s : State) (fn q : Nat) (x : Queue) : List Byte :=
  let n := x.sp - x.head
  (List.range (ceilDiv n 8)).map (fun b => BitVec.ofNat 8 (bitmap 8 (fun i => decide (8 * b + i < n) && s.entryDone fn q (x.head + 8 * b + i))))

/-- A QUEUE section. -/
def State.queueSection (s : State) (fn q : Nat) (x : Queue) : List Byte :=
  section_ 3 (queueDesc x ++ le 1 q ++ zeros 3 ++ le 4 x.head ++ le 4 x.sp ++ le 4 x.epoch ++ s.doneMap fn q x)

/-- A record of a WINDOW section. -/
def winBytes (r : WinRec) : List Byte :=
  le 8 r.tag.toNat ++ fit 16 r.fp ++ le 1 (b2n r.done) ++ zeros 1 ++ le 2 r.status ++ le 2 r.cflags ++ zeros 2 ++ le 4 r.outLen
    ++ le 4 r.handle.toNat ++ le 8 r.detail.toNat

/-- The private part of a KEY section (R548): what formats 1 and 2 of R454 wrap; nothing for an object without one. -/
def migPrivate (k : KeyObj) : List Byte :=
  if k.st.isSome then Config.migPart k.typ k.pset k.priv k.pub
  else if 16 ≤ k.typ then k.priv
  else if k.priv = [] then []
  else oakEncode k.typ k.pset k.priv k.pub

/-- A KEY section. -/
def keySection (h : W32) (k : KeyObj) : List Byte :=
  let binds := (List.range 4).flatMap (fun i => match k.bindings[i]? with | some b => fit 32 b.1 ++ le 1 (b2n b.2) | none => zeros 33)
  section_ 6 (attrRecord h k ++ binds ++ migPrivate k ++ k.pub
    ++ (match k.st with | some st => le 8 st.next | none => []))

/-- The body of an instance's blob. -/
def State.migBody (s : State) (fn : Nat) : List Byte :=
  let f := s.getFn fn
  let aq := s.getQueue fn 64
  let (h, p) := match aq with | some x => (x.head, x.sp) | none => (0, 0)
  let qs := s.ioQueues fn
  section_ 1 (descBytes f)
    ++ section_ 2 (le 4 f.aqCfg.toNat ++ le 8 f.aqBase ++ le 8 f.aqHw ++ le 4 h ++ le 4 p)
    ++ qs.flatMap (fun q => match s.getQueue fn q with | some x => s.queueSection fn q x | none => [])
    ++ qs.flatMap (fun q => match s.getQueue fn q with | some x => section_ 4 (le 2 q ++ zeros 2 ++ x.window.flatMap winBytes) | none => [])
    ++ (s.fnPatterns fn).flatMap (fun x => section_ 5 (le 2 x.id ++ zeros 2 ++ x.container))
    ++ (s.kst.objs.filter (fun x => decide (x.1 / 16777216 = fn) && !x.2.deleted)).flatMap (fun x => keySection (BitVec.ofNat 32 x.1) x.2)
    ++ section_ 7 (f.events.reverse.flatMap eventBytes)

-- Chunks (R546, R547).

/-- Plain bytes of one chunk. -/
def chunkSize : Nat := 4190208

/-- K (R546): HKDF-SHA-384. -/
def migKey (nonce ss z : List Byte) (offer : Nat) (source : List Byte) : List Byte :=
  hkdf 2 (ss ++ z) nonce ([0x41, 0x45, 0x54, 0x48, 0x41, 0x4F, 0x5A, 0x20, 0x4D, 0x49, 0x47] ++ le 4 offer ++ source) 32

/-- The header of a chunk. -/
def chunkHeader (m : Migration) (index : Nat) : List Byte :=
  [0x4E, 0x52, 0x4D, 0x42] ++ le 1 m.version ++ zeros 1 ++ le 2 index ++ le 4 m.chunks ++ le 4 m.offerId ++ fit 16 m.source
    ++ le 8 m.body.length ++ zeros 24

/-- The nonce of a chunk. -/
def chunkNonce (index : Nat) : List Byte := zeros 8 ++ be 4 index

/-- A chunk; `front` is the ciphertext and the source point of chunk 0. -/
def chunkBytes (m : Migration) (index : Nat) (front : List Byte) : List Byte :=
  let h := chunkHeader m index
  let plain := (m.body.drop (chunkSize * index)).take chunkSize
  h ++ front ++ fit (plain.length + 16) (gcmSeal m.key (chunkNonce index) h plain)

/-- Length of a chunk. -/
def chunkLength (total index : Nat) : Nat := 64 + (if index = 0 then 1665 else 0) + min chunkSize (total - chunkSize * index) + 16

/-- The parts of an offer record: chain, signed bytes, signature; none where the record is malformed. -/
def offerParts (o : List Byte) : Option (List Byte × List Byte × List Byte) :=
  let n := field o 12 4
  let at_ := 1732 + n
  if o.take 4 = [0x4E, 0x52, 0x4D, 0x4F] ∧ field o 4 1 = 1 ∧ at_ + 2 + field o at_ 2 = o.length then
    some (slice o 1732 n, o.take at_, slice o (at_ + 2) (field o at_ 2))
  else none

/-- The offer is accepted for an instance and a blob version (R546). -/
def offerOk (o : List Byte) (n version : Nat) : Bool :=
  match offerParts o with
  | none => false
  | some (chain, body, sig) => Config.chainOk chain body sig && decide (version ≤ field o 5 1) && decide (field o 6 2 = n)

/-- Every stateful key of a domain stops assigning and is marked EXPORTED by a journal record (R352). -/
def State.exportKeys (s : State) (fn job : Nat) : State :=
  s.kst.objs.foldl (fun t p => match p.2.st with
    | none => t
    | some st =>
      if p.1 / 16777216 ≠ fn ∨ p.2.deleted ∨ p.2.exported then t
      else
        let h := BitVec.ofNat 32 p.1
        let t1 := t.setKey h { p.2 with exported := true, st := some { st with stopped := true } }
        t1.journal { typ := 3, handle := h, a := st.next, b := 0, obj := none, job := some job, issued := t.trd.edge }) s

/-- A domain holds an EXPORTED key. -/
def State.anyExported (s : State) (fn : Nat) : Bool := s.kst.objs.any (fun p => decide (p.1 / 16777216 = fn) && p.2.exported)

/-- Chunk 0 of a save (R546, R547, R352): its release waits for the EXPORTED records. -/
def State.saveFirst (s : State) (job : Nat) (j : Job) (version : Nat) : State :=
  let n := j.inst
  let o := j.input
  let body := s.migBody n
  if !offerOk o n version then s.adminEnd job (denied 0x16)
  else if !s.intSeeded then s
  else
    let (rnd, s1) := s.drawInt 32
    let (seed, s2) := s1.drawInt (curveOf 2).drawLen
    let (ct, ss) := mlkemEncaps 3 (slice o 64 1568) rnd
    let qs := genPub 10 2 seed
    let z := fit 48 ((ecAgree 2 (genPriv 10 2 seed) (slice o 1632 97)).getD [])
    let s3 := s2.exportKeys n job
    let m : Migration := {
      version := version, offerId := field o 8 4, key := migKey (slice o 32 32) ss z (field o 8 4) (fit 16 Config.serial),
      chunks := max 1 (ceilDiv body.length chunkSize), body := body, source := fit 16 Config.serial }
    let s4 := s3.modFn n (fun f => { f with saving := some m, chunk := 1, exported := f.exported || s3.anyExported n })
    (s4.modJob job (fun x => { x with waitsJournal := true })).adminEnd job (okOut (chunkBytes m 0 (ct ++ qs)))

/-- A later chunk of a save. -/
def State.saveNext (s : State) (job : Nat) (m : Migration) (index : Nat) : State :=
  (s.modFn (s.getJob job).inst (fun f => { f with chunk := index + 1 })).adminEnd job (okOut (chunkBytes m index []))

/-- MIGRATE_SAVE (R546, R547, R554): version 2 of a FROZEN instance, version 1 of a QUIESCED one; its length, its capacity and the version
have been checked when it was taken (R736). A chunk that is not the next one has no reason code of its own in the spec (log entry 57). -/
def execMigrateSave (job : Nat) (s : State) : Host.Outcome State Fault Refusal :=
  .next (s.onAdmin 0x008A job (fun t j =>
    let version := p8 j.par 2
    let index := p16 j.par 4
    let f := t.getFn j.inst
    if !t.instIn j.inst [if version = 2 then 6 else 4] then t.adminEnd job (badParam 0x12)
    else match f.saving with
      | none => if index = 0 then t.saveFirst job j version else t.adminEnd job (badParam 0x0C)
      | some m => if index = f.chunk ∧ index < m.chunks ∧ m.version = version then t.saveNext job m index else t.adminEnd job (badParam 0x0C)))

-- Restoration (R549, R550).

/-- The sections of a body; none where it does not parse. -/
def sections : Nat → List Byte → Option (List (Nat × List Byte))
  | 0, _ => none
  | _, [] => some []
  | fuel + 1, bs =>
    let n := field bs 2 4
    if bs.length < 8 + n then none
    else (sections fuel (bs.drop (8 + n))).map (fun r => (field bs 0 2, slice bs 8 n) :: r)

/-- Records of a WINDOW section. -/
def winOf : Nat → List Byte → List WinRec
  | 0, _ => []
  | _, [] => []
  | fuel + 1, bs => {
      tag := BitVec.ofNat 64 (field bs 0 8), fp := slice bs 8 16, done := decide (field bs 24 1 = 1), status := field bs 26 2,
      cflags := field bs 28 2, outLen := field bs 32 4, handle := BitVec.ofNat 32 (field bs 36 4),
      detail := BitVec.ofNat 64 (field bs 40 8), job := 0 } :: winOf fuel (bs.drop 48)

/-- Events of an EVENTS section, newest first. -/
def eventsOf : Nat → List Byte → List EventRec → List EventRec
  | 0, _, acc => acc
  | _, [], acc => acc
  | fuel + 1, bs, acc => eventsOf fuel (bs.drop 64) ({
      seq := field bs 0 8, tick := field bs 8 8, etype := field bs 16 1, committed := decide (field bs 17 1 % 2 = 1), queue := field bs 18 2,
      entry := field bs 20 4, tag := BitVec.ofNat 64 (field bs 24 8), opcode := field bs 32 2, status := field bs 34 2,
      handle := BitVec.ofNat 32 (field bs 36 4), detail := BitVec.ofNat 64 (field bs 40 8) } :: acc)

/-- The stateful part of a restored key (R352): N = E = the N carried; nothing is built. -/
def migStateful (content : List Byte) (n : Nat) : Stateful :=
  let levels := (Config.migTrees content).map (fun x => ({ lms := x.1, ots := x.2.1, height := x.2.2 } : TreeLevel))
  ({ durable := n, issued := n, keyEnd := levelSpan levels 0, reserve := Config.migReserve content,
     cacheTrees := Config.migCache content, levels := levels } : Stateful).moveTo n

/-- A KEY section is restored under its handle; persistent objects are journaled, and a stateful key reserves (R352, R549). -/
def State.restoreKey (s : State) (job : Nat) (c : List Byte) : State :=
  let h := BitVec.ofNat 32 (field c 0 4)
  let typ := field c 4 1
  let ps := field c 5 1
  let stateful := decide (typ = 5 ∨ typ = 6)
  let tail := c.drop 164
  let body := if stateful then tail.take (tail.length - 8) else tail
  let publen := if stateful then Config.migPubLen typ ps body else if typ < 16 then (pubLen typ ps).getD 0 else 0
  let content := body.take (body.length - publen)
  let flags := field c 12 2
  let bind (i : Nat) : List Byte × Bool := (slice c (32 + 33 * i) 32, decide (field c (64 + 33 * i) 1 = 1))
  let k : KeyObj := {
    typ := typ, pset := ps, order := field c 6 1, usage := BitVec.ofNat 32 (field c 8 4), priv :=
      if stateful then Config.migPriv typ ps content else if 16 ≤ typ then content else oakPriv typ ps content,
    pub := body.drop (body.length - publen), pair := decide (flags % 2 = 1), publicOnly := decide (flags / 2 % 2 = 1),
    ephemeral := decide (flags / 4 % 2 = 1), consumed := decide (flags / 8 % 2 = 1), damaged := decide (flags / 32 % 2 = 1),
    bindings := (List.range (min 4 (field c 14 1))).map bind,
    st := if stateful then some (migStateful content (field tail (tail.length - 8) 8)) else none }
  let s1 := (s.createKey job h k).reserveLeaves h
  let i := h.toNat % 16777216
  let d := handleDomain h
  let s2 : State := { s1 with kst := { s1.kst with lastIdx := KV.set s1.kst.lastIdx d (max i (KV.getD s1.kst.lastIdx d 0)) } }
  match k.st with
  | some st => s2.startBuilds h k st
  | none => s2

/-- Entries of [HEAD, SP) are taken again in order from their reads, whatever their OWN, and a PENDING record with the entry's
tag is bound to it; those done already are passed by the head alone (R550 step 2). Answers the reads left. -/
def State.retake : Nat → State → Nat → Nat → (Nat → Bool) → List Fetched → State × List Fetched
  | 0, s, _, _, _, rs => (s, rs)
  | n + 1, s, fn, q, done, rs =>
    match s.getQueue fn q with
    | none => (s, rs)
    | some x =>
      if done x.sp then
        let id := s.nextJob
        let s1 : State := { (s.setQueue fn q { x with sp := x.sp + 1 }).setJob id { fn := fn, q := q, num := x.sp, ver := x.ver, phase := .written } with
          nextJob := id + 1 }
        State.retake n s1 fn q done rs
      else match rs with
        | .data bs :: rest =>
          let e := entryOf x.ver bs
          let bound := { x with window := x.window.map (fun r => if !r.done && decide (r.tag = e.tag) then { r with job := s.nextJob } else r) }
          State.retake n ((s.setQueue fn q bound).takeEntry fn q bound e) fn q done rest
        | .failed :: rest => State.retake n (s.takeFailed fn q x) fn q done rest
        | [] => State.retake n (s.takeFailed fn q x) fn q done []

/-- A queue is recreated with its head word, HEAD unchanged and EPOCH + 1, and its pending entries are taken (R550). -/
def State.restoreQueue (s : State) (fn q : Nat) (x : Queue) (head sp epoch : Nat) (done : Nat → Bool) (rs : List Fetched) : State × List Fetched :=
  let y := { x with head := head, sp := head, epoch := epoch + 1 }
  let r := State.retake (sp - head) ((s.setQueue fn q y).writeHead fn y) fn q done rs
  match r.1.getQueue fn q with
  | some z => ((r.1.setQueue fn q { z with rescan := true }).moveHead fn q, r.2)
  | none => r

/-- One section takes effect: the state, the reads left and the highest new EPOCH so far. -/
def State.restoreSection (job fn : Nat) (acc : State × List Fetched × Nat) (x : Nat × List Byte) : State × List Fetched × Nat :=
  let (s, rs, ep) := acc
  let c := x.2
  match x.1 with
  | 2 =>
    let cfg := BitVec.ofNat 32 (field c 0 4)
    let on := bit cfg 31
    let s1 := s.modFn fn (fun f => { f with aqCfg := cfg, aqBase := field c 4 8, aqHw := field c 12 8, aqEnabled := on })
    if !on then (s1, rs, ep)
    else
      let q : Queue := { ring := field c 4 8, headAddr := field c 12 8, depth := 2 ^ bits cfg 15 12, ver := bits cfg 19 16, vector := bits cfg 5 0, ordered := true }
      let r := s1.restoreQueue fn 64 q (field c 20 4) (field c 24 4) 0 (fun _ => false) rs
      (r.1, r.2, ep)
  | 3 =>
    let head := field c 36 4
    let e := field c 44 4
    let done (n : Nat) : Bool := decide (field c (48 + (n - head) / 8) 1 / 2 ^ ((n - head) % 8) % 2 = 1)
    let win := match s.getQueue fn (field c 32 1) with | some y => y.window | none => []
    let r := s.restoreQueue fn (field c 32 1) { queueOf c with window := win } head (field c 40 4) e done rs
    (r.1, r.2, max ep (e + 1))
  | 5 =>
    let p : Pattern := { fn := fn, id := field c 0 2, container := c.drop 4, digest := slice c 36 32, unloading := none }
    ({ s with patterns := KV.set s.patterns s.nextPattern p, nextPattern := s.nextPattern + 1 }, rs, ep)
  | 6 => (s.restoreKey job c, rs, ep)
  | 7 =>
    let ev := eventsOf (c.length / 64) c []
    (s.modFn fn (fun f => { f with events := ev, evSeq := match ev with | r :: _ => r.seq + 1 | [] => f.evSeq }), rs, ep)
  | _ => (s, rs, ep)

/-- The replay windows stand before the queues' entries are taken. -/
def State.restoreWindow (fn : Nat) (s : State) (x : Nat × List Byte) : State :=
  if x.1 = 4 then s.setQueue fn (field x.2 0 2) { window := winOf (x.2.length / 48) (x.2.drop 4) } else s

/-- Descriptor `d` lies within the instance's resources (R549). -/
def withinResources (f : Func) (d : List Byte) : Bool :=
  decide (field d 0 1 ≤ f.vectors) && decide (field d 1 1 ≤ f.ioqLimit) && decide (field d 2 1 ≤ f.dgsCtx) && decide (field d 3 1 ≤ f.dgsSlots)
    && decide (field d 4 4 ≤ f.keyLimit) && decide (field d 8 2 ≤ f.pvuSlots) && decide (field d 10 2 ≤ f.bneTicks)
    && decide (field d 12 1 ≤ f.pinAllow) && onlyBits (field d 13 1) f.perm && decide (field d 16 4 ≤ f.takenLimit)

/-- A restore ends without success: the instance is CREATED again (R549). -/
def State.failRestore (s : State) (fn job : Nat) (r : Result) : State :=
  ((if (s.getFn fn).state = 8 then s.setInst fn 1 else s).modFn fn (fun f => { f with restoring := none, chunk := 0 })).adminEnd job r

/-- The last chunk has arrived (R550). -/
def State.finishRestore (s : State) (fn job : Nat) (m : Migration) (reads : List Fetched) : State :=
  match sections (m.body.length + 1) m.body with
  | none => s.failRestore fn job (statusDetail 0x0030 0x17)
  | some xs =>
    if !xs.all (fun x => decide (x.1 ≠ 1) || withinResources (s.getFn fn) x.2) then s.failRestore fn job (badParam 0x14)
    else
      -- keys and patterns stand before the queues' entries are looked at
      let rank (t : Nat) : Nat := if t = 6 then 0 else if t = 5 then 1 else if t = 7 then 2 else if t = 2 then 3 else 4
      let s0 := xs.foldl (State.restoreWindow fn) s
      let ys := xs.mergeSort (fun a b => rank a.1 ≤ rank b.1)
      let r := ys.foldl (State.restoreSection job fn) (s0, reads, 0)
      let s1 := ((r.1.setInst fn 2).modFn fn (fun f => { f with restoring := none, chunk := 0 })).logEvent fn (plainEvent 5)
      ((s1.message fn 0x82 (fit 16 m.source ++ le 4 r.2.2)).modJob job (fun x => { x with waitsJournal := true })).adminEnd job {}

/-- The header of a chunk is in order (R547, R549): the format, the length, the offer, and the index that is due. -/
def chunkOk (c : List Byte) (index offerId : Nat) : Bool :=
  let front := if index = 0 then 1665 else 0
  let total := field c 32 8
  decide (c.take 4 = [0x4E, 0x52, 0x4D, 0x42]) && within (field c 4 1) 1 2 && decide (field c 5 1 = 0) && decide (slice c 40 24 = zeros 24)
    && decide (64 + front + 16 ≤ c.length) && decide (field c 12 4 = offerId) && decide (field c 6 2 = index)
    && decide (field c 8 4 = max 1 (ceilDiv total chunkSize)) && decide (c.length = chunkLength total index)

/-- The plain text of a chunk; none where its tag fails. -/
def openChunk (key c : List Byte) (index : Nat) : Option (List Byte) :=
  let front := if index = 0 then 1665 else 0
  (gcmOpen key (chunkNonce index) (c.take 64) (c.drop (64 + front))).map (fun p => fit (c.length - 64 - front - 16) p)

/-- A chunk's plain text is added to the body; after the last chunk the instance runs. -/
def State.addChunk (s : State) (fn job : Nat) (m : Migration) (index : Nat) (plain : List Byte) (reads : List Fetched) : State :=
  let m1 := { m with body := m.body ++ plain }
  if index + 1 = m.chunks then s.finishRestore fn job m1 reads
  else (s.modFn fn (fun f => { f with restoring := some m1, chunk := index + 1 })).adminEnd job {}

/-- Chunk 0 of a restore: K comes from the offer's keys, and the offer is consumed (R545, R546). -/
def State.restoreFirst (s : State) (fn job : Nat) (o : Offer) (c : List Byte) (reads : List Fetched) : State :=
  let ss := mlkemDecaps 3 o.kemSk (slice c 64 1568)
  let z := fit 48 ((ecAgree 2 o.ecSk (slice c 1632 97)).getD [])
  let key := migKey o.nonce ss z o.id (slice c 16 16)
  match (if chunkOk c 0 o.id then openChunk key c 0 else none) with
  | none => s.failRestore fn job (statusDetail 0x0030 0x17)
  | some plain =>
    let m : Migration := { version := field c 4 1, offerId := o.id, key := key, chunks := field c 8 4, body := [], source := slice c 16 16 }
    ((s.setInst fn 8).modFn fn (fun f => { f with offer := none })).addChunk fn job m 0 plain reads

/-- MIGRATE_RESTORE (R549, R550). `reads` are the entries of the queues' pending sets, the admin queue's first, then by local
index, read from host memory with the last chunk. -/
def execMigrateRestore (job : Nat) (reads : List Fetched) (s : State) : Host.Outcome State Fault Refusal :=
  .next (s.onAdmin 0x008B job (fun t j =>
    let n := j.inst
    let f := t.getFn n
    if t.instIn n [1] then (match f.offer with
      | some o => t.restoreFirst n job o j.input reads
      | none => t.adminEnd job (statusDetail 0x0030 0x17))
    else if t.instIn n [8] then (match f.restoring with
      | some m =>
        if chunkOk j.input f.chunk m.offerId then (match openChunk m.key j.input f.chunk with
          | some plain => t.addChunk n job m f.chunk plain reads
          | none => t.failRestore n job (statusDetail 0x0030 0x17))
        else t.failRestore n job (statusDetail 0x0030 0x17)
      | none => t.adminEnd job (statusDetail 0x0030 0x17))
    else t.adminEnd job (badParam 0x12)))

end Sys2Proof.Machine
end

