-- ==== Sys2Proof/Machine/TestPort.lean ====
section
/-! DEFINITION. The test port (R683) and the read-out of BANK (R684). -/

namespace Sys2Proof.Machine

/-- A test-port instruction takes effect while the module has power; the port puts the bits out. -/
def State.tap (s : State) (ir : Nat) (out : List Bool) : State :=
  ({ s with pcr := { s.pcr with tapIr := ir } } : State).emit (.tdo out)

/-- What the boundary register captures: the state of the pins, which the spec does not lay out. -/
def State.captured (s : State) (n : Nat) : List Bool := (List.range n).map (Config.boundary s.free)

/-- EXTEST and SAMPLE/PRELOAD (IEEE 1149.1): the captured bits come out while new ones go in. -/
def State.boundaryScan (s : State) (ir : Nat) (tdi : List Bool) : State :=
  let t := s.tap ir (s.captured tdi.length)
  { t with free := t.free + 1, pcr := { t.pcr with tapShift := tdi } }

/-- EXTEST (R683). -/
def execExtest (tdi : List Bool) (s : State) : Host.Outcome State Fault Refusal :=
  .next (if s.pcr.powered then s.boundaryScan 0x00 tdi else s)

/-- SAMPLE_PRELOAD (R683). -/
def execSamplePreload (tdi : List Bool) (s : State) : Host.Outcome State Fault Refusal :=
  .next (if s.pcr.powered then s.boundaryScan 0x01 tdi else s)

/-- The IDCODE value (R683). -/
def idcodeValue : W32 := 0x14804A3D

/-- IDCODE (R683): 32 bits, the least significant first. -/
def execIdcode (s : State) : Host.Outcome State Fault Refusal :=
  .next (if s.pcr.powered then s.tap 0x02 (bitsOf 32 idcodeValue.toNat) else s)

/-- BYPASS (IEEE 1149.1): a register of one bit, captured as 0. -/
def execBypass (tdi : List Bool) (s : State) : Host.Outcome State Fault Refusal :=
  .next (if s.pcr.powered then s.tap 0xFF ((false :: tdi).take tdi.length) else s)

/-- BANK_ADDR (R683): the 64-bit read-out address. -/
def execBankAddr (addr : W64) (s : State) : Host.Outcome State Fault Refusal :=
  .next (if s.pcr.powered then { s with pcr := { s.pcr with tapIr := 0x09, bankAddr := addr } } else s)

/-- Regions whose contents read zero outside MANUFACTURE (R684). -/
def secretRegion (r : Nat) : Bool :=
  (decide (0x10 ≤ r) && decide (r < 0x30)) || (decide (0x60 ≤ r) && decide (r < 0x68)) || r == 0x70 || r == 0x71 || r == 0x73

/-- The region of R684 exists on the part. -/
def State.regionListed (s : State) (r : Nat) : Bool :=
  if r < 0x10 then false
  else if r < 0x40 then decide (r % 16 < s.pvus)
  else if r < 0x60 then (if r < 0x50 then decide (r - 0x40 < s.pvus) else decide (r - 0x50 < s.bnes))
  else if r < 0x68 then decide (r - 0x60 < s.bnes)
  else r == 0x70 || r == 0x71 || r == 0x72 || r == 0x73 || r == 0x74 || r == 0x80

/-- Bytes of a region whose size the spec gives: the local store (R213), the program store (R237), the key cache (R445) and the
staging buffer (R88). -/
def regionBytes (r : Nat) : Option Nat :=
  if r < 0x20 then some 1048576
  else if 0x30 ≤ r ∧ r < 0x40 then some 524288
  else if r = 0x70 then some 33554432
  else if r = 0x71 then some 16777216
  else none

/-- Eight bytes of a PVU's local store. -/
def State.storeWord (s : State) (n off : Nat) : W64 :=
  BitVec.ofNat 64 (unLe ((List.range 8).map (fun i => if off + i < 1048576 then KV.getD (s.getPvu n).ls (off + i) 0 else 0)))

/-- The data at a read-out address (R684), and the state after it: region 0 is read as the host reads it. -/
def State.bankRead (s : State) (r off : Nat) : State × W64 :=
  if r = 0 then
    let a := s.readReg 0 off
    let b := a.1.readReg 0 (off + 4)
    (b.1, BitVec.ofNat 64 (a.2.toNat + b.2.toNat * 2 ^ 32))
  else if !s.regionListed r || (regionBytes r).any (fun n => decide (n ≤ off)) || (secretRegion r && decide (s.held.life ≠ 1)) then (s, 0)
  else if 0x10 ≤ r ∧ r < 0x20 then (s, s.storeWord (r - 0x10) off)
  else ({ s with free := s.free + 1 }, Config.bankData r off s.free)

/-- BANK_DATA (R683, R684): the data at the address, zero outside BANK; the address then advances by 8. -/
def execBankData (s : State) : Host.Outcome State Fault Refusal :=
  .next (if s.pcr.powered then
    let a := s.pcr.bankAddr
    let r := if s.pcr.frozen then s.bankRead (bits64 a 63 48) (bits64 a 47 0) else (s, 0)
    let t : State := { r.1 with pcr := { r.1.pcr with bankAddr := a + 8 } }
    t.tap 0x0A (bitsOf 64 r.2.toNat)
  else s)

end Sys2Proof.Machine
end

