-- ==== Sys2Proof/Machine/Dispatch.lean ====
section
/-! DEFINITION. One arm per command: each calls its own meaning. -/

namespace Sys2Proof.Machine

/-- The effect of a command on everything but the queue. -/
def exec (i : Instr) (s : State) : Host.Outcome State Fault Refusal :=
  match i with
  | .registerWrite fn addr size val => Sys2Proof.Machine.execRegisterWrite fn addr size val s
  | .counterLoRead fn rd => Sys2Proof.Machine.execCounterLoRead fn rd s
  | .irqClear blk val => Sys2Proof.Machine.execIrqClear blk val s
  | .irqMask blk val => Sys2Proof.Machine.execIrqMask blk val s
  | .msixUnmask fn vec => Sys2Proof.Machine.execMsixUnmask fn vec s
  | .blkCtrlLock blk => Sys2Proof.Machine.execBlkCtrlLock blk s
  | .fltStatus blk val => Sys2Proof.Machine.execFltStatus blk val s
  | .fltForce blk val => Sys2Proof.Machine.execFltForce blk val s
  | .hrtAck val => Sys2Proof.Machine.execHrtAck val s
  | .hrtFirst val => Sys2Proof.Machine.execHrtFirst val s
  | .hrtBeat fromMgc => Sys2Proof.Machine.execHrtBeat fromMgc s
  | .hrtRestore val pass => Sys2Proof.Machine.execHrtRestore val pass s
  | .srcCfgWrite val => Sys2Proof.Machine.execSrcCfgWrite val s
  | .doorbell fn idx size => Sys2Proof.Machine.execDoorbell fn idx size s
  | .instAdb fn size => Sys2Proof.Machine.execInstAdb fn size s
  | .instEcinv fn val => Sys2Proof.Machine.execInstEcinv fn val s
  | .adminQueueEnable fn val => Sys2Proof.Machine.execAdminQueueEnable fn val s
  | .adminQueueDisable fn val => Sys2Proof.Machine.execAdminQueueDisable fn val s
  | .scan fn q reads => Sys2Proof.Machine.execScan fn q reads s
  | .scanResume fn q reads => Sys2Proof.Machine.execScanResume fn q reads s
  | .entryFetch fn q read => Sys2Proof.Machine.execEntryFetch fn q read s
  | .inputFetch job rd => Sys2Proof.Machine.execInputFetch job rd s
  | .tickEdge => Sys2Proof.Machine.execTickEdge s
  | .segmentStart pvu start => Sys2Proof.Machine.execSegmentStart pvu start s
  | .segmentOverrun pvu => Sys2Proof.Machine.execSegmentOverrun pvu s
  | .bneRunStart start => Sys2Proof.Machine.execBneRunStart start s
  | .bneRunEnd bne => Sys2Proof.Machine.execBneRunEnd bne s
  | .trdTickcfg val => Sys2Proof.Machine.execTrdTickcfg val s
  | .periodApplied => Sys2Proof.Machine.execPeriodApplied s
  | .histClear val => Sys2Proof.Machine.execHistClear val s
  | .tickInEdge interval phase => Sys2Proof.Machine.execTickInEdge interval phase s
  | .tickinLost => Sys2Proof.Machine.execTickinLost s
  | .damperStageChange tj => Sys2Proof.Machine.execDamperStageChange tj s
  | .pvuDerate pvu => Sys2Proof.Machine.execPvuDerate pvu s
  | .engineClockGate code => Sys2Proof.Machine.execEngineClockGate code s
  | .selftestStart blk val => Sys2Proof.Machine.execSelftestStart blk val s
  | .selftestDone blk pass cores => Sys2Proof.Machine.execSelftestDone blk pass cores s
  | .pvuNop w => Sys2Proof.Machine.execPvuNop w s
  | .pvuEnd w => Sys2Proof.Machine.execPvuEnd w s
  | .brB w => Sys2Proof.Machine.execBrB w s
  | .brC w => Sys2Proof.Machine.execBrC w s
  | .loop w => Sys2Proof.Machine.execLoop w s
  | .call w => Sys2Proof.Machine.execCall w s
  | .ret w => Sys2Proof.Machine.execRet w s
  | .modset w => Sys2Proof.Machine.execModset w s
  | .kload w => Sys2Proof.Machine.execKload w s
  | .sysrd w => Sys2Proof.Machine.execSysrd w s
  | .rdstat w => Sys2Proof.Machine.execRdstat w s
  | .resume w => Sys2Proof.Machine.execResume w s
  | .skipH w => Sys2Proof.Machine.execSkipH w s
  | .failH w => Sys2Proof.Machine.execFailH w s
  | .accept w => Sys2Proof.Machine.execAccept w s
  | .reject w => Sys2Proof.Machine.execReject w s
  | .addX w => Sys2Proof.Machine.execAddX w s
  | .subX w => Sys2Proof.Machine.execSubX w s
  | .andX w => Sys2Proof.Machine.execAndX w s
  | .orX w => Sys2Proof.Machine.execOrX w s
  | .xorX w => Sys2Proof.Machine.execXorX w s
  | .shlX w => Sys2Proof.Machine.execShlX w s
  | .shrX w => Sys2Proof.Machine.execShrX w s
  | .sarX w => Sys2Proof.Machine.execSarX w s
  | .mulX w => Sys2Proof.Machine.execMulX w s
  | .mulhuX w => Sys2Proof.Machine.execMulhuX w s
  | .addiX w => Sys2Proof.Machine.execAddiX w s
  | .liX w => Sys2Proof.Machine.execLiX w s
  | .lisX w => Sys2Proof.Machine.execLisX w s
  | .scmp w => Sys2Proof.Machine.execScmp w s
  | .scmpi w => Sys2Proof.Machine.execScmpi w s
  | .xmmul w => Sys2Proof.Machine.execXmmul w s
  | .xmadd w => Sys2Proof.Machine.execXmadd w s
  | .smov w => Sys2Proof.Machine.execSmov w s
  | .sxor w => Sys2Proof.Machine.execSxor w s
  | .sand w => Sys2Proof.Machine.execSand w s
  | .sor w => Sys2Proof.Machine.execSor w s
  | .sadd w => Sys2Proof.Machine.execSadd w s
  | .sins w => Sys2Proof.Machine.execSins w s
  | .sext w => Sys2Proof.Machine.execSext w s
  | .sbcast w => Sys2Proof.Machine.execSbcast w s
  | .vmov w => Sys2Proof.Machine.execVmov w s
  | .vadd w => Sys2Proof.Machine.execVadd w s
  | .vsub w => Sys2Proof.Machine.execVsub w s
  | .vand w => Sys2Proof.Machine.execVand w s
  | .vor w => Sys2Proof.Machine.execVor w s
  | .vxor w => Sys2Proof.Machine.execVxor w s
  | .vnot w => Sys2Proof.Machine.execVnot w s
  | .vshli w => Sys2Proof.Machine.execVshli w s
  | .vsrli w => Sys2Proof.Machine.execVsrli w s
  | .vbcast w => Sys2Proof.Machine.execVbcast w s
  | .vmadd w => Sys2Proof.Machine.execVmadd w s
  | .vmsub w => Sys2Proof.Machine.execVmsub w s
  | .vmneg w => Sys2Proof.Machine.execVmneg w s
  | .vmmul w => Sys2Proof.Machine.execVmmul w s
  | .vmmulx w => Sys2Proof.Machine.execVmmulx w s
  | .vcmpeq w => Sys2Proof.Machine.execVcmpeq w s
  | .vcmpltu w => Sys2Proof.Machine.execVcmpltu w s
  | .vsel w => Sys2Proof.Machine.execVsel w s
  | .vperm w => Sys2Proof.Machine.execVperm w s
  | .vext w => Sys2Proof.Machine.execVext w s
  | .vins w => Sys2Proof.Machine.execVins w s
  | .vred w => Sys2Proof.Machine.execVred w s
  | .pand w => Sys2Proof.Machine.execPand w s
  | .por w => Sys2Proof.Machine.execPor w s
  | .pxor w => Sys2Proof.Machine.execPxor w s
  | .pnot w => Sys2Proof.Machine.execPnot w s
  | .pfirst w => Sys2Proof.Machine.execPfirst w s
  | .pcnt w => Sys2Proof.Machine.execPcnt w s
  | .vld w => Sys2Proof.Machine.execVld w s
  | .vst w => Sys2Proof.Machine.execVst w s
  | .vlds w => Sys2Proof.Machine.execVlds w s
  | .vsts w => Sys2Proof.Machine.execVsts w s
  | .vgather w => Sys2Proof.Machine.execVgather w s
  | .vscatter w => Sys2Proof.Machine.execVscatter w s
  | .vldff w => Sys2Proof.Machine.execVldff w s
  | .vgatherff w => Sys2Proof.Machine.execVgatherff w s
  | .sld w => Sys2Proof.Machine.execSld w s
  | .sst w => Sys2Proof.Machine.execSst w s
  | .xld w => Sys2Proof.Machine.execXld w s
  | .xst w => Sys2Proof.Machine.execXst w s
  | .vldk w => Sys2Proof.Machine.execVldk w s
  | .vldkff w => Sys2Proof.Machine.execVldkff w s
  | .sldk w => Sys2Proof.Machine.execSldk w s
  | .ntt w => Sys2Proof.Machine.execNtt w s
  | .intt w => Sys2Proof.Machine.execIntt w s
  | .pwmul w => Sys2Proof.Machine.execPwmul w s
  | .pwmac w => Sys2Proof.Machine.execPwmac w s
  | .vcompress w => Sys2Proof.Machine.execVcompress w s
  | .vdecompress w => Sys2Proof.Machine.execVdecompress w s
  | .vpack w => Sys2Proof.Machine.execVpack w s
  | .vunpack w => Sys2Proof.Machine.execVunpack w s
  | .vp2r w => Sys2Proof.Machine.execVp2r w s
  | .vdecomp w => Sys2Proof.Machine.execVdecomp w s
  | .vmkhint w => Sys2Proof.Machine.execVmkhint w s
  | .vusehint w => Sys2Proof.Machine.execVusehint w s
  | .vinf w => Sys2Proof.Machine.execVinf w s
  | .vcenter w => Sys2Proof.Machine.execVcenter w s
  | .kinit w => Sys2Proof.Machine.execKinit w s
  | .kabss w => Sys2Proof.Machine.execKabss w s
  | .kabsl w => Sys2Proof.Machine.execKabsl w s
  | .kabsx w => Sys2Proof.Machine.execKabsx w s
  | .kfinal w => Sys2Proof.Machine.execKfinal w s
  | .samplentt w => Sys2Proof.Machine.execSamplentt w s
  | .samplerej w => Sys2Proof.Machine.execSamplerej w s
  | .sampleeta w => Sys2Proof.Machine.execSampleeta w s
  | .samplecbd w => Sys2Proof.Machine.execSamplecbd w s
  | .sampleball w => Sys2Proof.Machine.execSampleball w s
  | .mshare w => Sys2Proof.Machine.execMshare w s
  | .mrefresh w => Sys2Proof.Machine.execMrefresh w s
  | .ma2b w => Sys2Proof.Machine.execMa2b w s
  | .mb2a w => Sys2Proof.Machine.execMb2a w s
  | .mand w => Sys2Proof.Machine.execMand w s
  | .mcomp w => Sys2Proof.Machine.execMcomp w s
  | .mdecomp w => Sys2Proof.Machine.execMdecomp w s
  | .mnorm w => Sys2Proof.Machine.execMnorm w s
  | .meq w => Sys2Proof.Machine.execMeq w s
  | .msel w => Sys2Proof.Machine.execMsel w s
  | .unmask w => Sys2Proof.Machine.execUnmask w s
  | .bneNop w => Sys2Proof.Machine.execBneNop w s
  | .ldin w => Sys2Proof.Machine.execLdin w s
  | .ldkey w => Sys2Proof.Machine.execLdkey w s
  | .stout w => Sys2Proof.Machine.execStout w s
  | .setmod w => Sys2Proof.Machine.execSetmod w s
  | .range w => Sys2Proof.Machine.execRange w s
  | .madd w => Sys2Proof.Machine.execMadd w s
  | .msub w => Sys2Proof.Machine.execMsub w s
  | .mmul w => Sys2Proof.Machine.execMmul w s
  | .msqr w => Sys2Proof.Machine.execMsqr w s
  | .minv w => Sys2Proof.Machine.execMinv w s
  | .mexp w => Sys2Proof.Machine.execMexp w s
  | .mrand w => Sys2Proof.Machine.execMrand w s
  | .mcopy w => Sys2Proof.Machine.execMcopy w s
  | .mcswap w => Sys2Proof.Machine.execMcswap w s
  | .mclr w => Sys2Proof.Machine.execMclr w s
  | .bneEnd w => Sys2Proof.Machine.execBneEnd w s
  | .queueNop job => Sys2Proof.Machine.execQueueNop job s
  | .patternRun job => Sys2Proof.Machine.execPatternRun job s
  | .rngFill job => Sys2Proof.Machine.execRngFill job s
  | .clusterStatus job => Sys2Proof.Machine.execClusterStatus job s
  | .mlkemKeygen job => Sys2Proof.Machine.execMlkemKeygen job s
  | .mlkemEncaps job => Sys2Proof.Machine.execMlkemEncaps job s
  | .mlkemDecaps job => Sys2Proof.Machine.execMlkemDecaps job s
  | .mldsaKeygen job => Sys2Proof.Machine.execMldsaKeygen job s
  | .mldsaSign job => Sys2Proof.Machine.execMldsaSign job s
  | .mldsaVerify job => Sys2Proof.Machine.execMldsaVerify job s
  | .hashmldsaSign job => Sys2Proof.Machine.execHashmldsaSign job s
  | .hashmldsaVerify job => Sys2Proof.Machine.execHashmldsaVerify job s
  | .fndsaVerify job => Sys2Proof.Machine.execFndsaVerify job s
  | .matrixPreload job => Sys2Proof.Machine.execMatrixPreload job s
  | .slhdsaKeygen job => Sys2Proof.Machine.execSlhdsaKeygen job s
  | .slhdsaSign job => Sys2Proof.Machine.execSlhdsaSign job s
  | .slhdsaVerify job => Sys2Proof.Machine.execSlhdsaVerify job s
  | .hashslhdsaSign job => Sys2Proof.Machine.execHashslhdsaSign job s
  | .hashslhdsaVerify job => Sys2Proof.Machine.execHashslhdsaVerify job s
  | .lmsKeygen job => Sys2Proof.Machine.execLmsKeygen job s
  | .lmsSign job => Sys2Proof.Machine.execLmsSign job s
  | .lmsVerify job => Sys2Proof.Machine.execLmsVerify job s
  | .xmssKeygen job => Sys2Proof.Machine.execXmssKeygen job s
  | .xmssSign job => Sys2Proof.Machine.execXmssSign job s
  | .xmssVerify job => Sys2Proof.Machine.execXmssVerify job s
  | .statefulStatus job => Sys2Proof.Machine.execStatefulStatus job s
  | .statefulAdvance job => Sys2Proof.Machine.execStatefulAdvance job s
  | .hqcKeygen job => Sys2Proof.Machine.execHqcKeygen job s
  | .hqcEncaps job => Sys2Proof.Machine.execHqcEncaps job s
  | .hqcDecaps job => Sys2Proof.Machine.execHqcDecaps job s
  | .mceKeygen job => Sys2Proof.Machine.execMceKeygen job s
  | .mceEncaps job => Sys2Proof.Machine.execMceEncaps job s
  | .mceDecaps job => Sys2Proof.Machine.execMceDecaps job s
  | .mcePin job => Sys2Proof.Machine.execMcePin job s
  | .pinLoad pvu => Sys2Proof.Machine.execPinLoad pvu s
  | .mceUnpin job => Sys2Proof.Machine.execMceUnpin job s
  | .unpinDone pvu => Sys2Proof.Machine.execUnpinDone pvu s
  | .modAdd job => Sys2Proof.Machine.execModAdd job s
  | .modSub job => Sys2Proof.Machine.execModSub job s
  | .modMul job => Sys2Proof.Machine.execModMul job s
  | .modSqr job => Sys2Proof.Machine.execModSqr job s
  | .modInv job => Sys2Proof.Machine.execModInv job s
  | .modExp job => Sys2Proof.Machine.execModExp job s
  | .modRand job => Sys2Proof.Machine.execModRand job s
  | .rsaKeygen job => Sys2Proof.Machine.execRsaKeygen job s
  | .rsaSign job => Sys2Proof.Machine.execRsaSign job s
  | .rsaVerify job => Sys2Proof.Machine.execRsaVerify job s
  | .rsaEncrypt job => Sys2Proof.Machine.execRsaEncrypt job s
  | .rsaDecrypt job => Sys2Proof.Machine.execRsaDecrypt job s
  | .ecKeygen job => Sys2Proof.Machine.execEcKeygen job s
  | .ecdsaSign job => Sys2Proof.Machine.execEcdsaSign job s
  | .ecdsaVerify job => Sys2Proof.Machine.execEcdsaVerify job s
  | .ecdh job => Sys2Proof.Machine.execEcdh job s
  | .eddsaKeygen job => Sys2Proof.Machine.execEddsaKeygen job s
  | .eddsaSign job => Sys2Proof.Machine.execEddsaSign job s
  | .eddsaVerify job => Sys2Proof.Machine.execEddsaVerify job s
  | .xdhKeygen job => Sys2Proof.Machine.execXdhKeygen job s
  | .xdh job => Sys2Proof.Machine.execXdh job s
  | .hybKeygen job => Sys2Proof.Machine.execHybKeygen job s
  | .hybEncaps job => Sys2Proof.Machine.execHybEncaps job s
  | .hybDecaps job => Sys2Proof.Machine.execHybDecaps job s
  | .compKeygen job => Sys2Proof.Machine.execCompKeygen job s
  | .compSign job => Sys2Proof.Machine.execCompSign job s
  | .compVerify job => Sys2Proof.Machine.execCompVerify job s
  | .keyImport job => Sys2Proof.Machine.execKeyImport job s
  | .keyExport job => Sys2Proof.Machine.execKeyExport job s
  | .pubkeyRegister job => Sys2Proof.Machine.execPubkeyRegister job s
  | .pubkeyRead job => Sys2Proof.Machine.execPubkeyRead job s
  | .keyDelete job => Sys2Proof.Machine.execKeyDelete job s
  | .keyDeleteCleanup handle => Sys2Proof.Machine.execKeyDeleteCleanup handle s
  | .objectBlockErase serial ok => Sys2Proof.Machine.execObjectBlockErase serial ok s
  | .keyAttrRead job => Sys2Proof.Machine.execKeyAttrRead job s
  | .keyAttrSet job => Sys2Proof.Machine.execKeyAttrSet job s
  | .keyBind job => Sys2Proof.Machine.execKeyBind job s
  | .symKeygen job => Sys2Proof.Machine.execSymKeygen job s
  | .hmac job => Sys2Proof.Machine.execHmac job s
  | .hkdf job => Sys2Proof.Machine.execHkdf job s
  | .kbkdf job => Sys2Proof.Machine.execKbkdf job s
  | .hash job => Sys2Proof.Machine.execHash job s
  | .journalProgramDone ok => Sys2Proof.Machine.execJournalProgramDone ok s
  | .identify job => Sys2Proof.Machine.execIdentify job s
  | .setVersion job => Sys2Proof.Machine.execSetVersion job s
  | .setVersionApply fn => Sys2Proof.Machine.execSetVersionApply fn s
  | .queueCreate job => Sys2Proof.Machine.execQueueCreate job s
  | .queueDestroy job => Sys2Proof.Machine.execQueueDestroy job s
  | .queueDestroyDone job => Sys2Proof.Machine.execQueueDestroyDone job s
  | .queueCancel job reads => Sys2Proof.Machine.execQueueCancel job reads s
  | .queueCancelDone job => Sys2Proof.Machine.execQueueCancelDone job s
  | .patternLoad job => Sys2Proof.Machine.execPatternLoad job s
  | .patternUnload job => Sys2Proof.Machine.execPatternUnload job s
  | .patternUnloadDone job => Sys2Proof.Machine.execPatternUnloadDone job s
  | .logRead job => Sys2Proof.Machine.execLogRead job s
  | .pmuAssign job => Sys2Proof.Machine.execPmuAssign job s
  | .pmuRelease job => Sys2Proof.Machine.execPmuRelease job s
  | .sampleStart job => Sys2Proof.Machine.execSampleStart job s
  | .sampleStop job => Sys2Proof.Machine.execSampleStop job s
  | .instanceCreate job => Sys2Proof.Machine.execInstanceCreate job s
  | .instanceModify job => Sys2Proof.Machine.execInstanceModify job s
  | .instanceEnable job => Sys2Proof.Machine.execInstanceEnable job s
  | .instanceQuiesce job => Sys2Proof.Machine.execInstanceQuiesce job s
  | .instanceQuiesced fn => Sys2Proof.Machine.execInstanceQuiesced fn s
  | .instanceReset job => Sys2Proof.Machine.execInstanceReset job s
  | .instanceDestroy job => Sys2Proof.Machine.execInstanceDestroy job s
  | .flr fn => Sys2Proof.Machine.execFlr fn s
  | .busMasterEnableClear fn => Sys2Proof.Machine.execBusMasterEnableClear fn s
  | .vfEnableClear => Sys2Proof.Machine.execVfEnableClear s
  | .instanceResetDone fn => Sys2Proof.Machine.execInstanceResetDone fn s
  | .migrateOffer job => Sys2Proof.Machine.execMigrateOffer job s
  | .migrateOfferExpiry fn => Sys2Proof.Machine.execMigrateOfferExpiry fn s
  | .migrateFreeze job => Sys2Proof.Machine.execMigrateFreeze job s
  | .instanceFrozen fn => Sys2Proof.Machine.execInstanceFrozen fn s
  | .migrateSave job => Sys2Proof.Machine.execMigrateSave job s
  | .migrateRestore job reads => Sys2Proof.Machine.execMigrateRestore job reads s
  | .migrateAbort job => Sys2Proof.Machine.execMigrateAbort job s
  | .dirtyLogStart job => Sys2Proof.Machine.execDirtyLogStart job s
  | .dirtyLogRead job => Sys2Proof.Machine.execDirtyLogRead job s
  | .dirtyLogStop job => Sys2Proof.Machine.execDirtyLogStop job s
  | .recoveryWindowClose => Sys2Proof.Machine.execRecoveryWindowClose s
  | .mbxUpSend fn => Sys2Proof.Machine.execMbxUpSend fn s
  | .mbxDnSend fn => Sys2Proof.Machine.execMbxDnSend fn s
  | .mbxUpAck fn => Sys2Proof.Machine.execMbxUpAck fn s
  | .mbxDnAck fn => Sys2Proof.Machine.execMbxDnAck fn s
  | .moduleMessage fn => Sys2Proof.Machine.execModuleMessage fn s
  | .patchLoad job => Sys2Proof.Machine.execPatchLoad job s
  | .patchActivate job => Sys2Proof.Machine.execPatchActivate job s
  | .patchEngineTurn code readBack => Sys2Proof.Machine.execPatchEngineTurn code readBack s
  | .patchStatus job => Sys2Proof.Machine.execPatchStatus job s
  | .patchRead job => Sys2Proof.Machine.execPatchRead job s
  | .bneDummyRatio bne val => Sys2Proof.Machine.execBneDummyRatio bne val s
  | .dgsKload fn handle => Sys2Proof.Machine.execDgsKload fn handle s
  | .keyLoadDone fn => Sys2Proof.Machine.execKeyLoadDone fn s
  | .dgsKunload fn slot => Sys2Proof.Machine.execDgsKunload fn slot s
  | .dgsOpen fn view => Sys2Proof.Machine.execDgsOpen fn view s
  | .dgsStart fn view => Sys2Proof.Machine.execDgsStart fn view s
  | .dgsVdata fn view size val => Sys2Proof.Machine.execDgsVdata fn view size val s
  | .dgsBlockCompressed fn view mismatches => Sys2Proof.Machine.execDgsBlockCompressed fn view mismatches s
  | .dgsFinal fn view => Sys2Proof.Machine.execDgsFinal fn view s
  | .dgsFinalDone fn view => Sys2Proof.Machine.execDgsFinalDone fn view s
  | .dgsAbort fn view => Sys2Proof.Machine.execDgsAbort fn view s
  | .dgsSave fn view => Sys2Proof.Machine.execDgsSave fn view s
  | .dgsRestore fn view => Sys2Proof.Machine.execDgsRestore fn view s
  | .dgsClose fn view => Sys2Proof.Machine.execDgsClose fn view s
  | .dgsResultRead fn view word => Sys2Proof.Machine.execDgsResultRead fn view word s
  | .rngDataRead fn => Sys2Proof.Machine.execRngDataRead fn s
  | .rngFifoRefill fn => Sys2Proof.Machine.execRngFifoRefill fn s
  | .conditionedBlock src health => Sys2Proof.Machine.execConditionedBlock src health s
  | .oscCalibration deviation => Sys2Proof.Machine.execOscCalibration deviation s
  | .drbgReseed host => Sys2Proof.Machine.execDrbgReseed host s
  | .entRawCtrl val startupPass => Sys2Proof.Machine.execEntRawCtrl val startupPass s
  | .entRawData bits => Sys2Proof.Machine.execEntRawData bits s
  | .lkaRelax val => Sys2Proof.Machine.execLkaRelax val s
  | .assessmentSlotEnd code m => Sys2Proof.Machine.execAssessmentSlotEnd code m s
  | .darningPass kind durationMs found => Sys2Proof.Machine.execDarningPass kind durationMs found s
  | .rowRetirement region row ue => Sys2Proof.Machine.execRowRetirement region row ue s
  | .injectionArm val => Sys2Proof.Machine.execInjectionArm val s
  | .flashRefresh block correctedBits warnPause => Sys2Proof.Machine.execFlashRefresh block correctedBits warnPause s
  | .glowToggle => Sys2Proof.Machine.execGlowToggle s
  | .tickStall => Sys2Proof.Machine.execTickStall s
  | .mgcStall => Sys2Proof.Machine.execMgcStall s
  | .logLost => Sys2Proof.Machine.execLogLost s
  | .telemetryRecord m => Sys2Proof.Machine.execTelemetryRecord m s
  | .pmuClear val => Sys2Proof.Machine.execPmuClear val s
  | .pmuFreeze val => Sys2Proof.Machine.execPmuFreeze val s
  | .tamperAlarm input meas => Sys2Proof.Machine.execTamperAlarm input meas s
  | .selvedgeCheck traces => Sys2Proof.Machine.execSelvedgeCheck traces s
  | .loopCheck n meas bitsMatch => Sys2Proof.Machine.execLoopCheck n meas bitsMatch s
  | .caseSwitch n level => Sys2Proof.Machine.execCaseSwitch n level s
  | .monitorDisagree m detectorB => Sys2Proof.Machine.execMonitorDisagree m detectorB s
  | .vbatLow mv => Sys2Proof.Machine.execVbatLow mv s
  | .tamperConfigWrite off val => Sys2Proof.Machine.execTamperConfigWrite off val s
  | .tmpRelease val => Sys2Proof.Machine.execTmpRelease val s
  | .evidenceCopy => Sys2Proof.Machine.execEvidenceCopy s
  | .drillExpiry => Sys2Proof.Machine.execDrillExpiry s
  | .cardInserted slot => Sys2Proof.Machine.execCardInserted slot s
  | .cardRemoved slot => Sys2Proof.Machine.execCardRemoved slot s
  | .cardActivate slot => Sys2Proof.Machine.execCardActivate slot s
  | .cardDeactivate slot => Sys2Proof.Machine.execCardDeactivate slot s
  | .cardWarmReset slot => Sys2Proof.Machine.execCardWarmReset slot s
  | .atrReceived slot atr => Sys2Proof.Machine.execAtrReceived slot atr s
  | .atrTimeout slot => Sys2Proof.Machine.execAtrTimeout slot s
  | .vccOvercurrent slot => Sys2Proof.Machine.execVccOvercurrent slot s
  | .apduDataWrite val => Sys2Proof.Machine.execApduDataWrite val s
  | .apduStart val => Sys2Proof.Machine.execApduStart val s
  | .apduResponse slot resp => Sys2Proof.Machine.execApduResponse slot resp s
  | .apduDataRead => Sys2Proof.Machine.execApduDataRead s
  | .quorumOpen val => Sys2Proof.Machine.execQuorumOpen val s
  | .quorumClose val => Sys2Proof.Machine.execQuorumClose val s
  | .quorumCard slot c => Sys2Proof.Machine.execQuorumCard slot c s
  | .quorumTimeout => Sys2Proof.Machine.execQuorumTimeout s
  | .portEnable port enable => Sys2Proof.Machine.execPortEnable port enable s
  | .peerFprWrite val => Sys2Proof.Machine.execPeerFprWrite val s
  | .peerFprClear val => Sys2Proof.Machine.execPeerFprClear val s
  | .plkTrain port p => Sys2Proof.Machine.execPlkTrain port p s
  | .plkKeepalive port h => Sys2Proof.Machine.execPlkKeepalive port h s
  | .plkKeepaliveSend port => Sys2Proof.Machine.execPlkKeepaliveSend port s
  | .plkTick port h tickNum phase => Sys2Proof.Machine.execPlkTick port h tickNum phase s
  | .plkJob port h f => Sys2Proof.Machine.execPlkJob port h f s
  | .plkResult port h fid record output => Sys2Proof.Machine.execPlkResult port h fid record output s
  | .plkRefuse port h fid status => Sys2Proof.Machine.execPlkRefuse port h fid status s
  | .plkSquash port h fids => Sys2Proof.Machine.execPlkSquash port h fids s
  | .plkKeyPut port h k => Sys2Proof.Machine.execPlkKeyPut port h k s
  | .plkKeyDel port h handle => Sys2Proof.Machine.execPlkKeyDel port h handle s
  | .plkKeyAck port h handle => Sys2Proof.Machine.execPlkKeyAck port h handle s
  | .plkGrantReq port h handle => Sys2Proof.Machine.execPlkGrantReq port h handle s
  | .plkGrant port h handle first last => Sys2Proof.Machine.execPlkGrant port h handle first last s
  | .plkRevoke port h handle => Sys2Proof.Machine.execPlkRevoke port h handle s
  | .linkDownTimeout port => Sys2Proof.Machine.execLinkDownTimeout port s
  | .portRetrainRetry port => Sys2Proof.Machine.execPortRetrainRetry port s
  | .setEndpointId eid => Sys2Proof.Machine.execSetEndpointId eid s
  | .getEndpointId => Sys2Proof.Machine.execGetEndpointId s
  | .getMctpVersionSupport msgType => Sys2Proof.Machine.execGetMctpVersionSupport msgType s
  | .getMessageTypeSupport => Sys2Proof.Machine.execGetMessageTypeSupport s
  | .getTid => Sys2Proof.Machine.execGetTid s
  | .getPldmVersion pldmType => Sys2Proof.Machine.execGetPldmVersion pldmType s
  | .getPldmTypes => Sys2Proof.Machine.execGetPldmTypes s
  | .getPldmCommands pldmType => Sys2Proof.Machine.execGetPldmCommands pldmType s
  | .getPdrRepositoryInfo => Sys2Proof.Machine.execGetPdrRepositoryInfo s
  | .getPdr record => Sys2Proof.Machine.execGetPdr record s
  | .getSensorReading sensor => Sys2Proof.Machine.execGetSensorReading sensor s
  | .getStateSensorReadings sensor => Sys2Proof.Machine.execGetStateSensorReadings sensor s
  | .readVin => Sys2Proof.Machine.execReadVin s
  | .readIin => Sys2Proof.Machine.execReadIin s
  | .readVout => Sys2Proof.Machine.execReadVout s
  | .readIout => Sys2Proof.Machine.execReadIout s
  | .readTemperature1 => Sys2Proof.Machine.execReadTemperature1 s
  | .readPout => Sys2Proof.Machine.execReadPout s
  | .statusWord => Sys2Proof.Machine.execStatusWord s
  | .clearFaults => Sys2Proof.Machine.execClearFaults s
  | .pmbusRevision => Sys2Proof.Machine.execPmbusRevision s
  | .mfrId => Sys2Proof.Machine.execMfrId s
  | .spdmGetVersion => Sys2Proof.Machine.execSpdmGetVersion s
  | .uartConsoleInput c => Sys2Proof.Machine.execUartConsoleInput c s
  | .pcieConfigRequest fn write reg val => Sys2Proof.Machine.execPcieConfigRequest fn write reg val s
  | .bankN lowUs => Sys2Proof.Machine.execBankN lowUs s
  | .bankCtrlEnter => Sys2Proof.Machine.execBankCtrlEnter s
  | .extest tdi => Sys2Proof.Machine.execExtest tdi s
  | .samplePreload tdi => Sys2Proof.Machine.execSamplePreload tdi s
  | .idcode => Sys2Proof.Machine.execIdcode s
  | .bankEnter => Sys2Proof.Machine.execBankEnter s
  | .bankAddr addr => Sys2Proof.Machine.execBankAddr addr s
  | .bankData => Sys2Proof.Machine.execBankData s
  | .bypass tdi => Sys2Proof.Machine.execBypass tdi s
  | .powerUp r => Sys2Proof.Machine.execPowerUp r s
  | .powerWarning => Sys2Proof.Machine.execPowerWarning s
  | .warnClear => Sys2Proof.Machine.execWarnClear s
  | .coldReset cause => Sys2Proof.Machine.execColdReset cause s
  | .pcrReset val => Sys2Proof.Machine.execPcrReset val s
  | .linkReset => Sys2Proof.Machine.execLinkReset s
  | .lifecycleTarget val => Sys2Proof.Machine.execLifecycleTarget val s
  | .generateMs => Sys2Proof.Machine.execGenerateMs s
  | .decomArm => Sys2Proof.Machine.execDecomArm s
  | .decomArmExpiry => Sys2Proof.Machine.execDecomArmExpiry s
  | .alarmCleared input => Sys2Proof.Machine.execAlarmCleared input s
  | .pcieLinkCorr => Sys2Proof.Machine.execPcieLinkCorr s
  | .pcieLinkUp => Sys2Proof.Machine.execPcieLinkUp s
  | .spdmRequest code req => Sys2Proof.Machine.execSpdmRequest code req s
  | .areaEraseDone => Sys2Proof.Machine.execAreaEraseDone s
  | .plkNak port h seq => Sys2Proof.Machine.execPlkNak port h seq s
  | .nextClassAttempt slot => Sys2Proof.Machine.execNextClassAttempt slot s
  | .ppsResponse slot resp => Sys2Proof.Machine.execPpsResponse slot resp s
  | .unsupportedPldmCmd pldmType cmd => Sys2Proof.Machine.execUnsupportedPldmCmd pldmType cmd s
  | .pmbusOtherCommand cmd write => Sys2Proof.Machine.execPmbusOtherCommand cmd write s
  | .patchRamReloadDone code => Sys2Proof.Machine.execPatchRamReloadDone code s

end Sys2Proof.Machine
end

