-- ==== Sys2Proof/Safety.lean ====
section
/-! DEFINITION. What counts as a safe run: the outcomes of steps, and the invariants that every step keeps. -/

namespace Sys2Proof.Machine

/-- The step answers a next state. -/
def State.runs (s : State) : Prop := ∃ t, step s = .next t

/-- What the lifecycle's values always say together: the state is one of the seven of R726; the mark of R731 stands exactly in
DECOMMISSIONED (7); no re-enrolment erases a decommissioned module; and a module in LOCKED (5) under the sticky lock remembers
the state that an unlock returns to (R617, R727), which is neither LOCKED nor DECOMMISSIONED. -/
def lifeOk (life prev erasing : Nat) (sticky decom : Bool) : Prop :=
  (1 ≤ life ∧ life ≤ 7) ∧ (decom = true ↔ life = 7) ∧ (erasing = 1 → life ≠ 7)
  ∧ (life = 5 → sticky = true → 1 ≤ prev ∧ prev ≤ 6 ∧ prev ≠ 5)

/-- The lifecycle invariant of a state. -/
def State.lifeInv (s : State) : Prop :=
  lifeOk s.held.life s.held.prevLife s.pcr.erasing s.held.stickyLock s.held.decommissioned

/-- The MSI-X message of a vector: the address and data words of its table entry (R64, R68). -/
def State.vectorMessage (s : State) (fn vec : Nat) : Output :=
  let word (off : Nat) : Nat := (KV.getD s.regs (tableKey fn (16 * vec + off)) 0).toNat
  .msix fn vec (word 0 + 2 ^ 32 * word 4) (word 8)

/-- What an interrupt request may touch, and nothing else: the request marks of pages, messages and their pending bits, what is
put out (only added to), and the counters that count messages. -/
def State.Signals (s t : State) : Prop :=
  t = { s with blk := t.blk, out := t.out, funcs := t.funcs, pmu := { s.pmu with ctr := t.pmu.ctr, ovf := t.pmu.ovf } }
  ∧ (∀ k, t.getBlk k = { s.getBlk k with request := (t.getBlk k).request })
  ∧ (∀ f, t.getFn f = { s.getFn f with pendingVec := (t.getFn f).pendingVec })
  ∧ (∃ l, t.out = l ++ s.out)

/-- What posting to host memory may touch beside an interrupt request: the pages noted in a function's dirty-page log (R25, R552). -/
def State.Posts (s t : State) : Prop :=
  t = { s with blk := t.blk, out := t.out, funcs := t.funcs, pmu := { s.pmu with ctr := t.pmu.ctr, ovf := t.pmu.ovf } }
  ∧ (∀ k, t.getBlk k = { s.getBlk k with request := (t.getBlk k).request })
  ∧ (∀ f, t.getFn f = { s.getFn f with pendingVec := (t.getFn f).pendingVec, dirty := (t.getFn f).dirty })
  ∧ (∃ l, t.out = l ++ s.out)

/-- The command answers `u`, but for what an interrupt request may touch. -/
def State.makes (s : State) (c : Instr) (u : State) : Prop := ∃ t, exec c s = .next t ∧ u.Signals t

/-- The command answers `u`, but for what a post to host memory and an interrupt request may touch. -/
def State.posts (s : State) (c : Instr) (u : State) : Prop := ∃ t, exec c s = .next t ∧ u.Posts t

-- Commands of the engines.

/-- The PVU instruction that a row of the table is, with its word (R247 to R270). -/
def pvuRow : Instr → Option (PvuOp × PvuWord)
  | .pvuNop w => some (opNop, w)
  | .pvuEnd w => some (opEnd, w)
  | .brB w => some (opB, w)
  | .brC w => some (opBc, w)
  | .loop w => some (opLoop, w)
  | .call w => some (opCall, w)
  | .ret w => some (opRet, w)
  | .modset w => some (opModset, w)
  | .kload w => some (opKload, w)
  | .sysrd w => some (opSysrd, w)
  | .rdstat w => some (opRdstat, w)
  | .resume w => some (opResume, w)
  | .skipH w => some (opSkip, w)
  | .failH w => some (opFail, w)
  | .accept w => some (opAccept, w)
  | .reject w => some (opReject, w)
  | .addX w => some (opAddX, w)
  | .subX w => some (opSubX, w)
  | .andX w => some (opAndX, w)
  | .orX w => some (opOrX, w)
  | .xorX w => some (opXorX, w)
  | .shlX w => some (opShlX, w)
  | .shrX w => some (opShrX, w)
  | .sarX w => some (opSarX, w)
  | .mulX w => some (opMulX, w)
  | .mulhuX w => some (opMulhuX, w)
  | .addiX w => some (opAddiX, w)
  | .liX w => some (opLiX, w)
  | .lisX w => some (opLisX, w)
  | .scmp w => some (opScmp, w)
  | .scmpi w => some (opScmpi, w)
  | .xmmul w => some (opXmmul, w)
  | .xmadd w => some (opXmadd, w)
  | .smov w => some (opSmov, w)
  | .sxor w => some (opSxor, w)
  | .sand w => some (opSand, w)
  | .sor w => some (opSor, w)
  | .sadd w => some (opSadd, w)
  | .sins w => some (opSins, w)
  | .sext w => some (opSext, w)
  | .sbcast w => some (opSbcast, w)
  | .vmov w => some (opVmov, w)
  | .vadd w => some (opVadd, w)
  | .vsub w => some (opVsub, w)
  | .vand w => some (opVand, w)
  | .vor w => some (opVor, w)
  | .vxor w => some (opVxor, w)
  | .vnot w => some (opVnot, w)
  | .vshli w => some (opVshli, w)
  | .vsrli w => some (opVsrli, w)
  | .vbcast w => some (opVbcast, w)
  | .vmadd w => some (opVmadd, w)
  | .vmsub w => some (opVmsub, w)
  | .vmneg w => some (opVmneg, w)
  | .vmmul w => some (opVmmul, w)
  | .vmmulx w => some (opVmmulx, w)
  | .vcmpeq w => some (opVcmpeq, w)
  | .vcmpltu w => some (opVcmpltu, w)
  | .vsel w => some (opVsel, w)
  | .vperm w => some (opVperm, w)
  | .vext w => some (opVext, w)
  | .vins w => some (opVins, w)
  | .vred w => some (opVred, w)
  | .pand w => some (opPand, w)
  | .por w => some (opPor, w)
  | .pxor w => some (opPxor, w)
  | .pnot w => some (opPnot, w)
  | .pfirst w => some (opPfirst, w)
  | .pcnt w => some (opPcnt, w)
  | .vld w => some (opVld, w)
  | .vst w => some (opVst, w)
  | .vlds w => some (opVlds, w)
  | .vsts w => some (opVsts, w)
  | .vgather w => some (opVgather, w)
  | .vscatter w => some (opVscatter, w)
  | .vldff w => some (opVldff, w)
  | .vgatherff w => some (opVgatherff, w)
  | .sld w => some (opSld, w)
  | .sst w => some (opSst, w)
  | .xld w => some (opXld, w)
  | .xst w => some (opXst, w)
  | .kinit w => some (opKinit, w)
  | .kabss w => some (opKabss, w)
  | .kabsl w => some (opKabsl, w)
  | .kabsx w => some (opKabsx, w)
  | .kfinal w => some (opKfinal, w)
  | .vldk w => some (opVldk, w)
  | .vldkff w => some (opVldkff, w)
  | .sldk w => some (opSldk, w)
  | .samplentt w => some (opSamplentt, w)
  | .samplerej w => some (opSamplerej, w)
  | .sampleeta w => some (opSampleeta, w)
  | .samplecbd w => some (opSamplecbd, w)
  | .sampleball w => some (opSampleball, w)
  | .ntt w => some (opNtt, w)
  | .intt w => some (opIntt, w)
  | .pwmul w => some (opPwmul, w)
  | .pwmac w => some (opPwmac, w)
  | .vcompress w => some (opVcompress, w)
  | .vdecompress w => some (opVdecompress, w)
  | .vpack w => some (opVpack, w)
  | .vunpack w => some (opVunpack, w)
  | .vp2r w => some (opVp2r, w)
  | .vdecomp w => some (opVdecomp, w)
  | .vmkhint w => some (opVmkhint, w)
  | .vusehint w => some (opVusehint, w)
  | .vinf w => some (opVinf, w)
  | .vcenter w => some (opVcenter, w)
  | .mshare w => some (opMshare, w)
  | .mrefresh w => some (opMrefresh, w)
  | .ma2b w => some (opMa2b, w)
  | .mb2a w => some (opMb2a, w)
  | .mand w => some (opMand, w)
  | .mcomp w => some (opMcomp, w)
  | .mdecomp w => some (opMdecomp, w)
  | .mnorm w => some (opMnorm, w)
  | .meq w => some (opMeq, w)
  | .msel w => some (opMsel, w)
  | .unmask w => some (opUnmask, w)
  | _ => none

/-- The BNE command that a row of the table is, with its word (R372). -/
def bneRow : Instr → Option (BneOp × BneWord)
  | .bneNop w => some (bneOpNop, w)
  | .ldin w => some (bneOpLdin, w)
  | .ldkey w => some (bneOpLdkey, w)
  | .stout w => some (bneOpStout, w)
  | .setmod w => some (bneOpSetmod, w)
  | .range w => some (bneOpRange, w)
  | .madd w => some (bneOpMadd, w)
  | .msub w => some (bneOpMsub, w)
  | .mmul w => some (bneOpMmul, w)
  | .msqr w => some (bneOpMsqr, w)
  | .minv w => some (bneOpMinv, w)
  | .mexp w => some (bneOpMexp, w)
  | .mrand w => some (bneOpMrand, w)
  | .mcopy w => some (bneOpMcopy, w)
  | .mcswap w => some (bneOpMcswap, w)
  | .mclr w => some (bneOpMclr, w)
  | .bneEnd w => some (bneOpEnd, w)
  | _ => none

/-- The command names a PVU or a BNE that the part does not have (R1, R3). -/
def State.namesAbsent (s : State) (c : Instr) : Bool :=
  match pvuRow c, bneRow c with
  | some (_, i), _ => !s.present (0x10 + i.pvu) || decide (16 ≤ i.pvu)
  | none, some (_, i) => !s.present (0x20 + i.bne) || decide (8 ≤ i.bne)
  | none, none => false

/-- A segment or a handler runs on a PVU that the module has, and no patched routine holds its sequencer (R220, R502). -/
def State.pvuRuns (s : State) (n : Nat) : Prop :=
  s.present (0x10 + n) = true ∧ n < 16 ∧ s.running = true ∧ (s.getPvu n).phase ≠ .dummy ∧ (s.getPvu n).bob.parked = false

/-- No error is injected into stored words (R572) and no function samples instructions (R675). -/
def State.quiet (s : State) : Prop :=
  s.mem.injected = [] ∧ s.mem.injArmed = false ∧ ∀ f ∈ s.funcs, f.2.sampling = none

/-- The PVU as its next instruction finds it: a dummy instruction may have gone before (R475). -/
def State.pvuReady (s : State) (n : Nat) : Pvu := (s.getPvu n).interleave n

/-- The cycle in which an instruction starts on its PVU (R244). -/
def State.pvuStart (s : State) (op : PvuOp) (i : PvuWord) : Nat := op.start (s.pvuReady i.pvu) i

/-- What an instruction does on its PVU once its word is legal and its operands may be used. -/
def State.pvuRes (s : State) (op : PvuOp) (i : PvuWord) : PvuRes := op.body (s.pvuStart op i) i.pvu (s.pvuReady i.pvu) i

/-- The routine of an instruction that has words of patch RAM (R501, R504); none where the ROM's stands as published. -/
def State.pvuRoutine (s : State) (op : PvuOp) (i : PvuWord) : Option MicroRun :=
  let p := s.pvuReady i.pvu
  p.bob.routine false p.microEnv (pvuEntry op.cls op.func) p.budget

/-- Issue time and latency of an instruction: its table's, or those that a patched routine's words give (R244, R501). -/
def State.pvuTime (s : State) (op : PvuOp) (i : PvuWord) : Nat × Nat := patchedTime (s.pvuRoutine op i) (op.time (s.pvuReady i.pvu) i)

/-- A PVU may execute an instruction now: a segment runs and has cycles left (R222), the word is legal and no rule on its
operands is broken (R228), and no check of the engine fails (R204, R502). -/
def State.pvuAccepts (s : State) (op : PvuOp) (i : PvuWord) : Prop :=
  (s.pvuRuns i.pvu ∧ s.quiet) ∧ s.pvuStart op i < (s.pvuReady i.pvu).budget ∧ op.check (s.pvuReady i.pvu) i = none
    ∧ (s.pvuRoutine op i).any (fun x => decide (x.ends = .fault)) = false
    ∧ (s.pvuRes op i).fault (s.pvuReady i.pvu) i (op.unit i) = (s.pvuRes op i).exc

/-- Every architectural register that is not among `d`, its share tag and its scorch marks are the same. -/
def Pvu.Only (d : List Reg) (p q : Pvu) : Prop :=
  (∀ k, Reg.l k ∉ d → vget q.l k 0 = vget p.l k 0 ∧ vget q.lScorch k 0 = vget p.lScorch k 0 ∧ vget q.lTag k .pub = vget p.lTag k .pub)
  ∧ (∀ k, Reg.s k ∉ d → vget q.s k 0 = vget p.s k 0 ∧ vget q.sScorch k 0 = vget p.sScorch k 0 ∧ vget q.sTag k .pub = vget p.sTag k .pub)
  ∧ (∀ k, Reg.x k ∉ d → vget q.x k 0 = vget p.x k 0 ∧ q.xScorch.getLsbD k = p.xScorch.getLsbD k ∧ vget q.xTag k .pub = vget p.xTag k .pub)
  ∧ (∀ k, Reg.p k ∉ d → vget q.p k 0 = vget p.p k 0 ∧ vget q.pScorch k 0 = vget p.pScorch k 0)
  ∧ (∀ k, Reg.m k ∉ d → vget q.m k {} = vget p.m k {})
  ∧ (Reg.stat ∉ d → q.ffcount = p.ffcount ∧ q.flagEq = p.flagEq ∧ q.flagLtu = p.flagLtu ∧ q.flagLt = p.flagLt
      ∧ q.flagScorch = p.flagScorch)

/-- What an instruction may change of a PVU beside the registers, with everything else unchanged: the local store and its marks
only where `store` says so, the Keccak units only where `ku` says so, the return stack only where `flow` says so. -/
def Pvu.Rest (store ku flow : Bool) (p q : Pvu) : Prop :=
  q = { p with
    l := q.l, s := q.s, x := q.x, p := q.p, m := q.m, ffcount := q.ffcount, flagEq := q.flagEq, flagLtu := q.flagLtu,
    flagLt := q.flagLt, flagScorch := q.flagScorch, lTag := q.lTag, sTag := q.sTag, xTag := q.xTag, lScorch := q.lScorch,
    sScorch := q.sScorch, xScorch := q.xScorch, pScorch := q.pScorch, lReady := q.lReady, sReady := q.sReady,
    xReady := q.xReady, pReady := q.pReady, mReady := q.mReady, statReady := q.statReady, pc := q.pc, cyc := q.cyc,
    lastDone := q.lastDone, resumeAt := q.resumeAt, cnt := q.cnt, phase := q.phase, segMode := q.segMode, segEnd := q.segEnd,
    mrgUsed := q.mrgUsed, dummyCnt := q.dummyCnt, dummyAt := q.dummyAt, mcScorched := q.mcScorched,
    bob := { p.bob with micro := q.bob.micro, saved := q.bob.saved, parked := q.bob.parked },
    ls := if store then q.ls else p.ls, lsTag := if store then q.lsTag else p.lsTag,
    lsScorch := if store then q.lsScorch else p.lsScorch,
    ku := if ku then q.ku else p.ku, retStack := if flow then q.retStack else p.retStack }

/-- A store (R258). -/
def PvuOp.stores (op : PvuOp) : Bool := decide (op.cls = 4) && [0x01, 0x03, 0x05, 0x09, 0x0B].contains op.func
/-- A load from a squeeze buffer (R260). -/
def PvuOp.streams (op : PvuOp) : Bool := decide (op.cls = 4) && decide (0x0C ≤ op.func)
/-- CALL and RET (R248). -/
def PvuOp.calls (op : PvuOp) : Bool := decide (op.cls = 0) && (decide (op.func = 0x05) || decide (op.func = 0x06))

/-- The registers that an instruction may write: its destinations; a stream load writes one register for each share that its
unit holds (R260). -/
def PvuOp.writes (op : PvuOp) (p : Pvu) (i : PvuWord) : List Reg :=
  if op.streams then
    (List.range (p.getKu (unitB i)).buf.length).map (fun k => if op.func = 0x0E then .s (rdN i + k) else .l (rdN i + k)) ++ op.dst p i
  else op.dst p i

/-- Bits 63:0 of X register `n`; X0 reads zero (R192). -/
def Pvu.xReg (p : Pvu) (n : Nat) : W64 := if n = 0 then 0 else vget p.x n 0

/-- What X register `n` reads after `v` has been written to it: X0 ignores writes (R192). -/
def xWritten (n : Nat) (v : W64) : W64 := if n = 0 then 0 else v

/-- Element `e` of width code `w` of an L register: it occupies bits W·e to W·e + W - 1 (R193). -/
def Pvu.laneL (p : Pvu) (n w e : Nat) : Nat := (vget p.l n 0).toNat / 2 ^ (wBits w * e) % 2 ^ wBits w

/-- Element `e` of width code `w` of an S register (R195). -/
def Pvu.laneS (p : Pvu) (n w e : Nat) : Nat := (vget p.s n 0).toNat / 2 ^ (wBits w * e) % 2 ^ wBits w

/-- Bit `b` of a predicate register; P0 reads all ones (R192). -/
def Pvu.predBit (p : Pvu) (n b : Nat) : Bool := if n = 0 then true else (vget p.p n 0).getLsbD b

/-- Element `e` of width code `w` is active under predicate `pg`: its governing bit is floor(e / 2), e or 2e (R193, R194). -/
def Pvu.governs (p : Pvu) (pg w e : Nat) : Bool := p.predBit pg (if w = 0 then e / 2 else if w = 1 then e else 2 * e)

/-- An operand element of a modular instruction: at 32 bits, bits 30:0 (R242). -/
def modOperand (w v : Nat) : Nat := if w = 1 then v % 2 ^ 31 else v

/-- The command answers a next state whose PVU `n` is as `P` says. -/
def State.pvuGives (s : State) (c : Instr) (n : Nat) (P : Pvu → Prop) : Prop := ∃ t, exec c s = .next t ∧ P (t.getPvu n)

/-- The registers, the flags, the local store, the Keccak units and the return stack of `q` are those of `r`. -/
def Pvu.SameArch (q r : Pvu) : Prop :=
  q.l = r.l ∧ q.s = r.s ∧ q.x = r.x ∧ q.p = r.p ∧ q.m = r.m ∧ q.ls = r.ls ∧ q.ku = r.ku ∧ q.retStack = r.retStack
    ∧ q.ffcount = r.ffcount ∧ q.flagEq = r.flagEq ∧ q.flagLtu = r.flagLtu ∧ q.flagLt = r.flagLt

/-- Outside PVU `n`, an instruction changes only what counting its events may change, and that a job's last segment has ended. -/
def State.PvuFrame (s : State) (n : Nat) (t : State) : Prop :=
  (∀ m, m ≠ n → t.getPvu m = s.getPvu m)
  ∧ t = { s with pvu := t.pvu, jobs := t.jobs, blk := t.blk, out := t.out, funcs := t.funcs, pmu := { s.pmu with ctr := t.pmu.ctr, ovf := t.pmu.ovf } }
  ∧ (∀ k, t.getBlk k = { s.getBlk k with request := (t.getBlk k).request })
  ∧ (∀ f, t.getFn f = { s.getFn f with pendingVec := (t.getFn f).pendingVec })
  ∧ (∀ j, t.getJob j = { s.getJob j with ended := (t.getJob j).ended })

/-- The routine of a BNE command that has words of patch RAM (R501, R504). -/
def State.bneRoutine (s : State) (o : BneOp) (i : BneWord) : Option MicroRun :=
  let b := s.getBne i.bne
  b.bob.routine true {} (bneEntry o.op) b.w

/-- A valid word stands at a BNE whose run's command path goes on (R370, R373); no error is injected into stored words (R572), and
neither a failed read-back after a clear (R383) nor a fault of the sequencer (R502) comes first. -/
def State.bneReady (s : State) (o : BneOp) (i : BneWord) : Prop :=
  (s.present (0x20 + i.bne) = true ∧ i.bne < 8 ∧ s.running = true ∧ (s.getBne i.bne).phase = .running
    ∧ (s.getBne i.bne).pathDone = false ∧ (s.getBne i.bne).bob.parked = false ∧ o.valid i = true)
    ∧ s.mem.injected = [] ∧ s.mem.injArmed = false
    ∧ (s.bneRoutine o i).any (fun x => decide (x.ends = .fault)) = false
    ∧ ¬((s.getBne i.bne).zeroing = true ∧ i.upset = .readBack)

/-- A BNE may execute a command now: the word stands ready, and no check of its result or of the kernel's invariants fails (R381, R382). -/
def State.bneTakes (s : State) (o : BneOp) (i : BneWord) : Prop :=
  s.bneReady o i ∧ ¬(residueChecked o.op = true ∧ i.upset = .residue) ∧ (s.getBne i.bne).invariantFails o i = false

/-- Every slot of the operand memory that is not among `ds` is the same. -/
def Bne.OnlySlots (ds : List Nat) (b c : Bne) : Prop :=
  ∀ k, k ∉ ds → vget c.slots k 0 = vget b.slots k 0 ∧ vget c.scorch k 0 = vget b.scorch k 0

/-- A modulus context passes every check of R197: the modulus is odd and fits 31 bits, the length is one of three, and the root's power is −1. -/
def ModCtx.checked (c : ModCtx) : Prop :=
  c.q % 2 = 1 ∧ 3 ≤ c.q ∧ c.q < 2 ^ 31 ∧ c.omega < c.q ∧ (c.n = 256 ∨ c.n = 512 ∨ c.n = 1024)
    ∧ c.omega ^ (if c.incomplete then c.n / 2 else c.n) % c.q = c.q - 1

/-- Every valid modulus context of a PVU passes the checks of R197. -/
def Pvu.modsOk (p : Pvu) : Prop := ∀ k, (vget p.m k {}).valid = true → (vget p.m k {}).checked

/-- What every step keeps of a PVU: its local store is in canonical form and its valid contexts pass their checks. -/
def State.pvuInv (s : State) : Prop := ∀ n, (s.getPvu n).lsWf = true ∧ (s.getPvu n).modsOk

/-- `n` bits reversed (R262). -/
def bitRev : Nat → Nat → Nat
  | 0, _ => 0
  | n + 1, i => i % 2 * 2 ^ n + bitRev n (i / 2)

/-- The exponent of the root at point `k` of `c` (R262). -/
def ModCtx.pointExp (c : ModCtx) (k : Nat) : Nat := 2 * bitRev (Nat.log2 (if c.incomplete then c.n / 2 else c.n)) k + 1

/-- Coefficient `k` of the polynomials that start at register `r`: it runs on into the next register (R200), read under R242. -/
def Pvu.coef (p : Pvu) (w r k : Nat) : Nat := modOperand w (p.laneL (r + k / (512 / 2 ^ w)) w (k % (512 / 2 ^ w)))

/-- The polynomials that an operand holds: two where N is 256 at 16 bits (R200). -/
def polysHeld (w : Nat) (c : ModCtx) : Nat := if w = 0 ∧ c.n = 256 then 2 else 1

/-- The value that the arithmetic shares of the group at `n` spell modulo `q`, element `e` (R270). -/
def Pvu.sumL (p : Pvu) (n w q e : Nat) : Nat := ((List.range (p.order + 1)).map (fun k => modOperand w (p.laneL (n + k) w e))).sum % q

/-- The value that the Boolean shares of the group at `n` spell, element `e` (R270). -/
def Pvu.xorL (p : Pvu) (n w e : Nat) : Nat := (List.range (p.order + 1)).foldl (fun v k => v ^^^ p.laneL (n + k) w e) 0

/-- The value that the Boolean shares of a group of S registers spell. -/
def Pvu.xorS (p : Pvu) (n : Nat) : Nat := (List.range (p.order + 1)).foldl (fun v k => v ^^^ (vget p.s (n + k) 0).toNat) 0

/-- Decompose of FIPS 204, as R264 names it: `r1` and `r0` of `r` modulo `q` with γ₂ = `g`. -/
def Decomposed (q g r : Nat) (r1 : Nat) (r0 : Int) : Prop :=
  ∃ c : Int, -(g : Int) < c ∧ c ≤ g ∧ (((r % q : Nat) : Int) - c) % (2 * g) = 0
    ∧ (if ((r % q : Nat) : Int) - c = q - 1 then r1 = 0 ∧ r0 = c - 1 else (r1 : Int) = (((r % q : Nat) : Int) - c) / (2 * g) ∧ r0 = c)

/-- Full blocks of an open block are absorbed (R265): the state and what is left. -/
def absorbBlocks (r : Nat) : Nat → List W64 → List Byte → List W64 × List Byte
  | 0, a, b => (a, b)
  | n + 1, a, b => if b.length < r then (a, b) else absorbBlocks r n (keccakF (xorBlock a (b.take r))) (b.drop r)

/-- The byte offset of element `e` of a local-store access (R256); `d` is its distance from the base. -/
def Pvu.lsOff (p : Pvu) (i : PvuWord) (d : Int) : Nat :=
  (((p.xReg i.ra.toNat).toNat + (i.imm.setWidth 23).toInt + d) % 2 ^ 64).toNat

/-- The number that `n` bytes of a space spell from an offset (R213). -/
def Pvu.spaceNum (p : Pvu) (i : PvuWord) (o n : Nat) : Nat :=
  unLe ((List.range n).map (fun k => readByte p (i.imm.toNat / 2 ^ 23) (o + k)))

/-- The command answers a next state whose BNE `n` is as `P` says. -/
def State.bneGives (s : State) (c : Instr) (n : Nat) (P : Bne → Prop) : Prop := ∃ t, exec c s = .next t ∧ P (t.getBne n)

-- Commands of the job queues.

/-- The command that a row of the table computes: its opcode, the ticks after admission before which its
work does not take place (R25, R433), the job, and its kernel. -/
def jobRow : Instr → Option (Nat × Nat × Nat × Kernel)
  | .keyImport id => some (0x0100, 1, id, kKeyImport)
  | .keyExport id => some (0x0101, 1, id, kKeyExport)
  | .pubkeyRegister id => some (0x0102, 1, id, kPubkeyRegister)
  | .pubkeyRead id => some (0x0103, 1, id, kPubkeyRead)
  | .keyDelete id => some (0x0104, 1, id, kKeyDelete)
  | .keyAttrRead id => some (0x0105, 1, id, kKeyAttrRead)
  | .keyAttrSet id => some (0x0106, 1, id, kKeyAttrSet)
  | .keyBind id => some (0x0107, 1, id, kKeyBind)
  | .symKeygen id => some (0x0108, 1, id, kSymKeygen)
  | .mlkemKeygen id => some (0x0200, 1, id, kMlkemKeygen)
  | .mlkemEncaps id => some (0x0201, 1, id, kMlkemEncaps)
  | .mlkemDecaps id => some (0x0202, 1, id, kMlkemDecaps)
  | .mldsaKeygen id => some (0x0210, 1, id, kMldsaKeygen)
  | .mldsaSign id => some (0x0211, 1, id, kMldsaSign)
  | .mldsaVerify id => some (0x0212, 1, id, kMldsaVerify)
  | .hashmldsaSign id => some (0x0213, 1, id, kMldsaSign)
  | .hashmldsaVerify id => some (0x0214, 1, id, kMldsaVerify)
  | .fndsaVerify id => some (0x0220, 1, id, kFndsaVerify)
  | .matrixPreload id => some (0x0230, 1, id, kMatrixPreload)
  | .slhdsaKeygen id => some (0x0300, 1, id, kSlhKeygen)
  | .slhdsaSign id => some (0x0301, 1, id, kSlhSign)
  | .slhdsaVerify id => some (0x0302, 1, id, kSlhVerify)
  | .hashslhdsaSign id => some (0x0303, 1, id, kSlhSign)
  | .hashslhdsaVerify id => some (0x0304, 1, id, kSlhVerify)
  | .lmsKeygen id => some (0x0310, 1, id, kStatefulKeygen)
  | .lmsSign id => some (0x0311, 1, id, kStatefulSign)
  | .lmsVerify id => some (0x0312, 1, id, kLmsVerify)
  | .xmssKeygen id => some (0x0318, 1, id, kStatefulKeygen)
  | .xmssSign id => some (0x0319, 1, id, kStatefulSign)
  | .xmssVerify id => some (0x031A, 1, id, kXmssVerify)
  | .statefulStatus id => some (0x0320, 1, id, kStatefulStatus)
  | .statefulAdvance id => some (0x0321, 1, id, kStatefulAdvance)
  | .hqcKeygen id => some (0x0400, 1, id, kHqcKeygen)
  | .hqcEncaps id => some (0x0401, 1, id, kHqcEncaps)
  | .hqcDecaps id => some (0x0402, 1, id, kHqcDecaps)
  | .mceKeygen id => some (0x0410, 1, id, kMceKeygen)
  | .mceEncaps id => some (0x0411, 1, id, kMceEncaps)
  | .mceDecaps id => some (0x0412, 1, id, kMceDecaps)
  | .mcePin id => some (0x0418, 1, id, kMcePin)
  | .mceUnpin id => some (0x0419, 1, id, kMceUnpin)
  | .rsaKeygen id => some (0x0500, 1, id, kRsaKeygen)
  | .rsaSign id => some (0x0501, 1, id, kRsaSign)
  | .rsaVerify id => some (0x0502, 1, id, kRsaVerify)
  | .rsaEncrypt id => some (0x0503, 1, id, kRsaEncrypt)
  | .rsaDecrypt id => some (0x0504, 1, id, kRsaDecrypt)
  | .ecKeygen id => some (0x0510, 1, id, kEcKeygen)
  | .ecdsaSign id => some (0x0511, 1, id, kEcdsaSign)
  | .ecdsaVerify id => some (0x0512, 1, id, kEcdsaVerify)
  | .ecdh id => some (0x0513, 1, id, kEcdh)
  | .eddsaKeygen id => some (0x0520, 1, id, kEddsaKeygen)
  | .eddsaSign id => some (0x0521, 1, id, kEddsaSign)
  | .eddsaVerify id => some (0x0522, 1, id, kEddsaVerify)
  | .xdhKeygen id => some (0x0530, 1, id, kXdhKeygen)
  | .xdh id => some (0x0531, 1, id, kXdh)
  | .hybKeygen id => some (0x0600, 1, id, kHybKeygen)
  | .hybEncaps id => some (0x0601, 1, id, kHybEncaps)
  | .hybDecaps id => some (0x0602, 1, id, kHybDecaps)
  | .compKeygen id => some (0x0610, 1, id, kCompKeygen)
  | .compSign id => some (0x0611, 1, id, kCompSign)
  | .compVerify id => some (0x0612, 1, id, kCompVerify)
  | .hmac id => some (0x0700, 1, id, kHmac)
  | .hkdf id => some (0x0701, 1, id, kHkdf)
  | .kbkdf id => some (0x0702, 1, id, kKbkdf)
  | .hash id => some (0x0710, 1, id, kHash)
  | .rngFill id => some (0x0780, 0, id, kRngFill)
  | .modAdd id => some (0x0800, 1, id, kModAdd)
  | .modSub id => some (0x0801, 1, id, kModSub)
  | .modMul id => some (0x0802, 1, id, kModMul)
  | .modSqr id => some (0x0803, 1, id, kModSqr)
  | .modInv id => some (0x0804, 1, id, kModInv)
  | .modExp id => some (0x0805, 1, id, kModExp)
  | .modRand id => some (0x0806, 1, id, kModRand)
  | .patternRun id => some (0x0900, 1, id, kPatternRun)
  | .clusterStatus id => some (0x0F00, 1, id, kClusterStatus)
  | _ => none

/-- What a few of these rows wait for beside their own work: a fill of a matrix set, a PVU to be pinned or unpinned, the end of the
pattern's code (R281, R316, R361, R363). -/
def State.jobWaits (s : State) : Instr → Bool
  | .matrixPreload id => s.trd.plan.any (fun b => decide (b.job = some id))
  | .mcePin id => (List.range 16).any (fun e => decide ((s.getPvu e).pinning = some (s.getJob id).e.keyHandle))
  | .mceUnpin id => decide (s.pinMap (s.getJob id).e.keyHandle ≠ 0)
  | .patternRun id => !((s.getJob id).ended || (s.getJob id).failed.isSome)
  | _ => false

/-- A job's computation takes place now: it was admitted with this opcode, its work lies in or after its last booked tick, and
nothing has answered it (R23, R25, R453). -/
def State.computes (s : State) (op lag id : Nat) (j : Job) : Prop :=
  s.running = true ∧ KV.get? s.jobs id = some j ∧ j.opcode = op ∧ j.phase = .admitted ∧ j.result = none ∧ j.rebook = false
    ∧ j.faulted = false ∧ j.forward = none ∧ j.admitted + lag ≤ s.trd.edge
    ∧ (∀ b ∈ s.trd.plan, b.job = some id → b.tick ≤ s.trd.edge) ∧ (∀ b ∈ s.trd.builds, j.created ≠ some b.key)

/-- A job's computation takes place now, with no scorched data that bites and no failure of its engine (R563). -/
def State.runsClean (s : State) (op id : Nat) (j : Job) : Prop := s.computes op 1 id j ∧ s.bites j = false ∧ j.failed = none

/-- The internal DRBG serves without reaching its limit (R429). -/
def State.intAmple (s : State) : Prop := s.ent.int.state = .seeded ∧ 8 < s.ent.int.left

/-- The next `n` bytes of the internal DRBG. -/
def State.intBytes (s : State) (n : Nat) : List Byte := (List.range n).map (fun i => Config.intDrbg (s.ent.int.pos + i))

/-- The entry of a job has been answered with a status (R101, R106): its completion is decided or written, or its entry has been
passed by the head. -/
def State.answered (t : State) (id status : Nat) : Prop :=
  KV.get? t.jobs id = none ∨ ∃ j r, KV.get? t.jobs id = some j ∧ j.finished = true ∧ j.result = some r ∧ r.status = status

/-- The admin command of an entry ends now with a result (R132), and the state is otherwise `u`. -/
def State.adminEnds (s : State) (c : Instr) (id : Nat) (j : Job) (u : State) (r : Result) : Prop :=
  exec c s = .next (u.setJob id { j with phase := .admitted, started := true, admitted := s.trd.edge, relEdge := s.trd.edge + 1, result := some r })

/-- An admin command is under execution and has no result yet. -/
def State.adminHeld (t : State) (id : Nat) : Prop := ∃ j, KV.get? t.jobs id = some j ∧ j.phase = .admitted ∧ j.result = none

/-- An edge cause of a page is latched in `IRQ_RAW` (R61). -/
def State.latched (s : State) (k n : Nat) : State := s.setBlk k { s.getBlk k with irqEdge := (s.getBlk k).irqEdge ||| bitW n }

/-- The job as it stands while its admin command is under execution (R132). -/
def Job.opened (j : Job) (s : State) : Job := { j with phase := .admitted, started := true, admitted := s.trd.edge }

/-- The job as it stands once its admin command has finished (R132). -/
def Job.closed (j : Job) (s : State) (r : Result) : Job := { j.opened s with relEdge := s.trd.edge + 1, result := some r }

/-- Every function but `fn` is the same, but for its pending messages. -/
def State.otherFns (s t : State) (fn : Nat) : Prop := ∀ m, m ≠ fn → t.getFn m = { s.getFn m with pendingVec := (t.getFn m).pendingVec }

/-- The command answers `u` with a word returned to the reader, but for what an interrupt request may touch. -/
def State.reads (s : State) (c : Instr) (u : State) (w : W32) : Prop := ∃ t, u.Signals t ∧ exec c s = .next (t.answer w)

/-- The command answers `u` and then fires a fault source (R575), but for what an interrupt request may touch before it. -/
def State.fires (s : State) (c : Instr) (u : State) (e : Event) : Prop := ∃ t, u.Signals t ∧ exec c s = .next (t.raise e)

/-- The job waits in queue `q` of function `fn`: taken, not started and without a result (R119, R129). -/
def State.waitsIn (s : State) (fn q k : Nat) : Prop :=
  ∃ x, KV.get? s.jobs k = some x ∧ x.fn = fn ∧ x.q = q ∧ x.finished = false ∧ x.cluster = none ∧ x.phase ≠ .admitted ∧ x.started = false

/-- The tables of jobs, functions, queues, keys and replicas hold one entry for each number, in rising order. -/
def State.tablesInv (s : State) : Prop :=
  s.jobs.sorted = true ∧ s.funcs.sorted = true ∧ s.queues.sorted = true ∧ s.kst.objs.sorted = true ∧ s.plk.keys.sorted = true

end Sys2Proof.Machine
end

