-- ==== Sys2Proof/Certificates/Slice0/Obligations.lean ====
section
/-! DEFINITION. The statements about the model, each from the numbered rules of the spec. -/

open Sys2Proof Sys2Proof.Machine

-- The block.

/-- A step with command c at the front of the queue is c's effect on the state whose queue is the rest. -/
def Obligations.StepRunsFrontCommand : Prop :=
  ∀ (c : Instr) (rest : List Instr) (s : State), step { s with pending := c :: rest } = exec c { s with pending := rest }

/-- Every command answers a next state but those that name a PVU or a BNE that the part does not have: these have no effect to take
and stop with the fault absentUnit. -/
def Obligations.EveryCommandAnswers : Prop :=
  ∀ (c : Instr) (s : State),
    (s.namesAbsent c = true → exec c s = .fault .absentUnit) ∧ (s.namesAbsent c = false → ∃ t, exec c s = .next t)

/-- The queue is first in, first out, and the part stays the same: whatever the state, a step that answers a next state has taken the
command at the front of the queue and no other, and no command puts one in. On an empty queue the block idles (the model's choice,
log entry 1). -/
def Obligations.QueueFirstInFirstOut : Prop :=
  ∀ (s t : State), step s = .next t → t.pending = s.pending.tail ∧ t.part = s.part ∧ (s.pending = [] → t = s)

/-- The lifecycle invariant is kept by every step, from every state that has it: the state is one of the seven, the mark of
decommissioning stands exactly in DECOMMISSIONED, no re-enrolment erases a decommissioned module, and a module in LOCKED under the
sticky lock remembers a state to return to that is neither LOCKED nor DECOMMISSIONED (R726 to R731, R617). -/
def Obligations.LifecycleInvariant : Prop := ∀ (s t : State), s.lifeInv → step s = .next t → t.lifeInv

/-- The invariants hold after reset: the lifecycle invariant, and that of the engines' memories. -/
def Obligations.InvariantsAtReset : Prop := State.reset.lifeInv ∧ State.reset.pvuInv ∧ State.reset.tablesInv

/-- The tables of jobs, functions, queues, keys and replicas hold one entry for each number: every step from such a state leads to such a state. -/
def Obligations.TablesInvariant : Prop := ∀ (s t : State), s.tablesInv → step s = .next t → t.tablesInv

/-- A module that has been decommissioned stays so in every step from a state with the lifecycle invariant. -/
def Obligations.DecommissionedForever : Prop :=
  ∀ (s t : State), s.lifeInv → s.held.life = 7 → step s = .next t → t.held.life = 7 ∧ t.held.decommissioned = true

/-- The module's time advances at tick edges alone. A TICK_EDGE answers a next state from every state: from READY and outside BANK it adds one
edge and the length of the tick, and keeps the period; else it changes nothing. Every other command but PERIOD_APPLIED, POWER_UP and COLD_RESET leaves
the edge number, the period and the microseconds as they are. -/
def Obligations.TimeAdvancesAtEdges : Prop :=
  (∀ s : State, ∃ t, exec .tickEdge s = .next t
    ∧ (s.trd.ready = true → s.pcr.frozen = false →
        t.us = s.us + s.tickLength ∧ t.trd.edge = s.trd.edge + 1 ∧ t.trd.period = s.trd.period)
    ∧ (s.trd.ready = false ∨ s.pcr.frozen = true → t = s))
  ∧ (∀ (c : Instr) (s t : State), exec c s = .next t →
      c ≠ .tickEdge → c ≠ .periodApplied → (∀ r, c ≠ .powerUp r) → (∀ r, c ≠ .coldReset r) →
      t.us = s.us ∧ t.trd.edge = s.trd.edge ∧ t.trd.period = s.trd.period)

/-- The values after reset that the spec gives: Treadle at 20 µs, MANUFACTURE, the physical function alone and enabled, every mask set, an
admin queue of depth 16 at version 2, dummy ratio 4, no fault, no retired engine, no engine working, every register file and buffer zero. -/
def Obligations.ResetValues : Prop :=
  let r := State.reset
  r.trd.cfg = 0x14 ∧ r.trd.period = 20 ∧ r.trd.edge = 0 ∧ r.trd.plan = [] ∧ r.pending = [] ∧ r.out = []
    ∧ r.held.life = 1 ∧ r.held.retired = 0 ∧ r.held.hsaRetired = 0 ∧ r.held.stickyLock = false ∧ r.held.envCfg = 0x8BF
    ∧ r.funcs.map (·.1) = [0] ∧ (r.getFn 0).state = 2 ∧ (r.getFn 0).aqCfg = 0x00020000 ∧ (r.getFn 0).mbxVer = 2
    ∧ (∀ k, (r.getBlk k).irqMask = 0xFFFFFFFF ∧ (r.getBlk k).irqEdge = 0 ∧ (r.getBlk k).lock = false ∧ (r.getBlk k).irqEn = false)
    ∧ r.hrt.cfg = 5 ∧ r.hrt.first = none ∧ r.hrt.halt = none ∧ r.hrt.log = [] ∧ r.mem.hours = 24 ∧ r.mem.count = 2
    ∧ r.fls.good = 4096 ∧ r.fls.spare = 64 ∧ r.plk.cfg = 0x40000000 ∧ r.plk.fwdCfg = 0x100 ∧ r.pmu.sampMax = 0x40
    ∧ (∀ n, n < 16 → (r.getPvu n).phase = .dummy ∧ (r.getPvu n).ls = [] ∧ ∀ k, (r.getPvu n).xReg k = 0)
    ∧ (∀ n, n < 8 → (r.getBne n).ratio = 4 ∧ (r.getBne n).phase = .idle ∧ ∀ k, vget (r.getBne n).slots k 0 = 0)
    ∧ (∀ n, n < 6 → (vget r.thm.slots n {}).cfg = 0x83)
    ∧ r.tmp.response = 0 ∧ r.pcr.ready = false ∧ r.pcr.powered = false

-- Host registers.

/-- Registers that a host write reaches (R14, R41 to R47, R51 to R59), at their addresses in BAR0: BLK_CTRL, FLT_CTRL, event selectors and SCRATCH of a
present block, the lock holding FLT_CTRL; read-only registers of the header and addresses where nothing stands ignore a write; a 64-bit write is
two 32-bit writes, the lower address first. -/
def Obligations.RegisterWrites : Prop :=
  ∀ (s : State) (k : Nat) (val : W64), k < 0x80 → s.pageWritable k = true →
    let at_ (off : Nat) : Nat := 0x100000 + 0x10000 * k + off
    let v : W32 := val.setWidth 32
    let b := s.getBlk k
    (bit v 31 = false → s.makes (.registerWrite 0 (at_ 0x010) 4 { val := val }) (s.setBlk k { b with evtEn := bit v 1, irqEn := bit v 0 }))
      ∧ (bit v 31 = true → s.makes (.registerWrite 0 (at_ 0x010) 4 { val := val }) (s.setBlk k { b with evtEn := bit v 1, irqEn := bit v 0, lock := true }))
      ∧ (b.lock = false → s.makes (.registerWrite 0 (at_ 0x04C) 4 { val := val }) (s.setBlk k { b with corrIrq := bit v 0 }))
      ∧ (b.lock = true → exec (.registerWrite 0 (at_ 0x04C) 4 { val := val }) s = .next s)
      ∧ (∀ e, e < (blockCaps k).2.2 → e < 8 → exec (.registerWrite 0 (at_ (0x060 + 4 * e)) 4 { val := val }) s
          = .next (s.setBlk k { b with evtSel := vset b.evtSel e (v &&& 0x8000FFFF) }))
      ∧ exec (.registerWrite 0 (at_ 0x0F0) 4 { val := val }) s = .next (s.setBlk k { b with scratch := v })
      ∧ (∀ off ∈ [0x000, 0x004, 0x008, 0x00C, 0x014, 0x020, 0x028, 0x048], exec (.registerWrite 0 (at_ off) 4 { val := val }) s = .next s)
      ∧ (∀ fn addr, s.targetExists (regTarget fn addr) = false → exec (.registerWrite fn addr 4 { val := val }) s = .next s)
      ∧ (∀ fn addr idx, addr % 4 = 0 → regTarget fn addr = .doorbell fn idx → s.hostOpen = true → s.fnExists fn = true → ∀ size, 4 ≤ size →
          exec (.registerWrite fn addr size { val := val }) s = exec (.doorbell fn idx 4) s)
      ∧ (∀ fn addr t u, addr % 4 = 0 → (∀ idx, regTarget fn addr ≠ .doorbell fn idx) → exec (.registerWrite fn addr 4 { val := val }) s = .next t → exec (.registerWrite fn (addr + 4) 4 { val := val >>> 32 }) t = .next u →
          exec (.registerWrite fn addr 8 { val := val }) s = .next u)

/-- Accesses of special width (R46, R233). A write narrower than 32 bits to a register, a doorbell or an admin doorbell is discarded and counted: one NARROW_WRITE event (0x0100) of class NOTE is logged with the next sequence number, latched, and counted
in its block; engines, queues and functions stay as they are but for interrupts. A 64-bit counter is read as one value: a read of its low half answers the low half and holds the high half as it then stands, and the next read of the high half
answers what is held, once; any other read answers the register and changes nothing else. An access whose CRC fails on the control fabric (R59, R611, R612) is sent once more; when that fails too the write is discarded, the read answers zero,
and both failures stand in the page's seam status and in the count of the tamper envelope. -/
def Obligations.HostAccesses : Prop :=
  (
    ∀ (s : State) (fn : Nat) (c : Instr), s.hostOpen = true → s.fnExists fn = true → s.srcN 0x0100 = 0 →
      (∃ size val, size < 4 ∧ c = .registerWrite fn (if fn = 0 then 0x900100 else 0x100) size { val := val })
        ∨ (∃ idx size, size < 4 ∧ c = .doorbell fn idx size) ∨ (∃ size, size < 4 ∧ c = .instAdb fn size) →
      ∃ t r, exec c s = .next t ∧ t.hrt.log = (r :: s.hrt.log).take 8192 ∧ t.hrt.logSeq = s.hrt.logSeq + 1
        ∧ r.seq = s.hrt.logSeq ∧ r.source = 0x0100 ∧ r.cls = 0 ∧ r.ecls = 0 ∧ r.fn = fn ∧ r.tick = s.trd.edge
        ∧ (t.getSrc 0x0100).latched.isSome = true ∧ (t.getSrc 0x0100).events = satAdd (s.getSrc 0x0100).events 1 0xFFFF
        ∧ (t.getBlk 1).fltEvents = satAdd (s.getBlk 1).fltEvents 1 0xFFFFFF ∧ (t.getBlk 1).fltLast = 0
        ∧ t.queues = s.queues ∧ t.jobs = s.jobs ∧ t.trd = s.trd ∧ t.pvu = s.pvu ∧ t.bne = s.bne ∧ t.held = s.held ∧ t.regs = s.regs
  )
  ∧ (
    ∀ (s : State) (fn addr : Nat),
      let key := barKey fn addr
      let low := regTarget fn addr
      (KV.get? s.latchHi key = none → counterLow low = true → s.targetExists low = true →
        ∃ t, exec (.counterLoRead fn { addr := addr }) s = .next t ∧ t.out = .readData (s.readTarget low) :: s.out
          ∧ KV.get? t.latchHi (barKey fn (addr + 4)) = some (s.readTarget (regTarget fn (addr + 4)))
          ∧ t = { s with out := t.out, latchHi := t.latchHi })
      ∧ (∀ v, KV.get? s.latchHi key = some v →
        ∃ t, exec (.counterLoRead fn { addr := addr }) s = .next t ∧ t.out = .readData v :: s.out ∧ KV.get? t.latchHi key = none
          ∧ t = { s with out := t.out, latchHi := t.latchHi })
      ∧ (KV.get? s.latchHi key = none → counterLow low = false → readCommand low = none →
        exec (.counterLoRead fn { addr := addr }) s = .next { s with out := .readData (s.readTarget low) :: s.out })
  )
  ∧ (
    ∀ (s : State) (fn addr k : Nat) (v : W64) (c d : CtlCopy), addr % 4 = 0 → s.seamPage (regTarget fn addr) = some k → ctlSound c = false →
      let seam (t : State) (x : CtlCopy) : Prop := (t.getBlk k).seamErr = true ∧ (t.getBlk k).seamCount = satAdd (satAdd (s.getBlk k).seamCount 1 0xFFFF) 1 0xFFFF
        ∧ (t.getBlk k).seamOvf = true ∧ (t.getBlk k).seamSender = x.sender.toNat ∧ t.tmp.seamFabric = satAdd (satAdd s.tmp.seamFabric 1 0xFFFF) 1 0xFFFF
        ∧ t.regs = s.regs ∧ t.queues = s.queues ∧ t.jobs = s.jobs ∧ t.pvu = s.pvu
      (ctlSound d = true →
        exec (.registerWrite fn addr 4 { val := v, got := [[c, d]] }) s = exec (.registerWrite fn addr 4 { val := v }) (s.fabricFailure k c.sender.toNat)
        ∧ exec (.counterLoRead fn { addr := addr, got := [[c, d]] }) s = exec (.counterLoRead fn { addr := addr }) (s.fabricFailure k c.sender.toNat))
      ∧ (ctlSound d = false →
        (∃ t, exec (.registerWrite fn addr 4 { val := v, got := [[c, d]] }) s = .next t ∧ seam t d)
        ∧ (∃ t, exec (.counterLoRead fn { addr := addr, got := [[c, d]] }) s = .next t ∧ seam t d ∧ t.out.head? = some (.readData 0)))
  )


/-- The interrupt registers of a block (R55, R61, R65): LOCK is set by a 1 and stays; IRQ_CLEAR clears the edge causes written 1; IRQ_MASK takes the value written; the request is looked at again, and one that holds sends its message on the
vector that the block's route names (R67). Unmasking a vector (R68) clears its mask and its pending bit; with the pending bit set, the function unmasked and its writes allowed, one message with the address and data of the vector's
table entry is sent, and without it none. -/
def Obligations.InterruptRegisters : Prop :=
  (
    ∀ (s : State) (blk : Nat) (val : W32), s.pageWritable blk = true →
      let b := s.getBlk blk
      let cleared := s.setBlk blk { b with irqEdge := b.irqEdge &&& ~~~val }
      let masked := s.setBlk blk { b with irqMask := val }
      let route := KV.getD s.regs (0x10000 + 0x200 + 4 * blk) 0x80000000
      let asks (c : Instr) (u : State) : Prop := ∃ t, exec c s = .next t ∧ u.Signals t ∧ (t.getBlk blk).request = u.request blk
        ∧ (u.request blk = true → blk < 256 → bit route 31 = true → s.msixOff 0 = false → (s.getFn 0).fnMask = false →
            (s.getFn 0).maskedVec.contains (bits route 5 0) = false → t.out = s.vectorMessage 0 (bits route 5 0) :: s.out)
        ∧ (u.request blk = false → t.out = s.out)
      asks (.irqClear blk val) cleared ∧ asks (.irqMask blk val) masked
        ∧ exec (.blkCtrlLock blk) s = .next (s.setBlk blk { b with lock := true })
  )
  ∧ (
    ∀ (s : State) (fn vec : Nat), s.hostOpen = true → s.fnExists fn = true →
      let f := s.getFn fn
      let u := s.setFn fn { f with maskedVec := f.maskedVec.filter (· ≠ vec), pendingVec := f.pendingVec.filter (· ≠ vec) }
      (f.pendingVec.contains vec = false → exec (.msixUnmask fn vec) s = .next u)
      ∧ (f.pendingVec.contains vec = true → s.msixOff fn = false → f.fnMask = false →
          ∃ t, exec (.msixUnmask fn vec) s = .next t ∧ t.out = s.vectorMessage fn vec :: s.out ∧ (t.getFn fn).pendingVec = f.pendingVec.filter (· ≠ vec)
            ∧ u.Signals t)
  )


-- Fault collection.

/-- Acknowledging (R582, R583): FLT_STATUS clears the latches of the sources written 1, HRT_ACK that of the source it names or, with ALL, those of class SEVERE
or below and no other; HRT_FIRST re-arms the first-error latch. Nothing but latches and interrupts changes. -/
def Obligations.FaultAcknowledge : Prop :=
  ∀ (s : State) (blk : Nat) (val : W32),
    let only (t : State) (P : Nat → Prop) : Prop :=
      (∀ id, P id → (t.getSrc id) = { s.getSrc id with latched := none }) ∧ (∀ id, ¬P id → t.getSrc id = s.getSrc id)
        ∧ t.held = s.held ∧ t.trd = s.trd ∧ t.pvu = s.pvu ∧ t.jobs = s.jobs ∧ t.hrt = { s.hrt with src := t.hrt.src }
    (s.hostOpen = true → s.pageExists blk = true →
      ∃ t, exec (.fltStatus blk val) s = .next t ∧ only t (fun id => id / 256 = blk ∧ id % 256 < 32 ∧ bit val (id % 256) = true))
    ∧ (s.pageWritable 0x50 = true → bit val 31 = false → ∃ t, exec (.hrtAck val) s = .next t ∧ only t (fun id => id = bits val 15 0))
    ∧ (s.pageWritable 0x50 = true → bit val 31 = true → (s.hrt.src.map (·.1)).Nodup →
      ∃ t, exec (.hrtAck val) s = .next t ∧ only t (fun id => ∃ c, (s.getSrc id).latched = some c ∧ c ≤ 3))
    ∧ (s.pageWritable 0x50 = true → bit val 31 = true →
      exec (.hrtFirst val) s = .next { s with hrt := { s.hrt with first := none, overflow := false } })

/-- Hearth's other registers and timers: N and W of a source are written while unlocked, and a source that only tightens refuses to loosen (R585); the heartbeat counts
only from MGC (R597); a retired engine is tested in MAINTENANCE, as its test unit shows, and one that passes is to return, its count of computation faults cleared (R591); the drill disarms (R593); GLOW
toggles in quadrature while its conditions hold and stands low without them (R596). -/
def Obligations.HearthRegisters : Prop :=
  ∀ (s : State) (val : W32),
    let id := s.hrt.srcSel
    let n := bits val 31 24
    let w := bits val 19 0
    let loosens := s.srcN id < n ∨ (n = 0 ∧ s.srcN id ≠ 0) ∨ w < s.srcW id
    (∀ i, srcInfo id = some i → s.pageWritable 0x50 = true → (s.getBlk 0x50).lock = false →
      (i.cls < 2 → (w = 0 → n = 0) → (i.relax = true ∨ ¬loosens) →
        exec (.srcCfgWrite val) s = .next (s.setSrc id { s.getSrc id with n := some n, w := some w }))
      ∧ (i.relax = false → loosens → exec (.srcCfgWrite val) s = .next s))
    ∧ (s.pcr.frozen = false → s.hrt.halt = none → exec (.hrtBeat true) s = .next { s with hrt := { s.hrt with beatOk := true } })
    ∧ exec (.hrtBeat false) s = .next s
    ∧ (∀ pass, s.pageWritable 0x50 = true → s.held.life = 4 → s.retired (bits val 7 0) = true →
      ∃ t, exec (.hrtRestore val pass) s = .next t
        ∧ (t.getTest (bits val 7 0)) = { s.getTest (bits val 7 0) with busy := false, done := true, pass := pass, test := 15 }
        ∧ t.held.retired = s.held.retired ∧ t.jobs = s.jobs
        ∧ (pass = true → t.trd = { s.trd with returning := s.trd.returning ++ [bits val 7 0] } ∧ t.held = s.held
            ∧ t.hrt = { s.hrt with engTimes := vset s.hrt.engTimes (engIndex (bits val 7 0)) [], restoring := none })
        ∧ (pass = false → t.trd.returning = s.trd.returning ∧ (t.getSrc (bits val 7 0 * 256 + 4)).latched.isSome = true))
    ∧ (s.pageWritable 0x50 = true → s.held.life ≠ 4 ∨ s.retired (bits val 7 0) = false → ∀ pass, exec (.hrtRestore val pass) s = .next s)
    ∧ exec .drillExpiry s = .next { s with hrt := { s.hrt with drill := none } }
    ∧ (s.glowRun = true → exec .glowToggle s = .next { s with hrt := { s.hrt with glowA := !s.hrt.glowA, glowB := s.hrt.glowA } })
    ∧ (s.glowRun = false → exec .glowToggle s = .next { s with hrt := { s.hrt with glowA := false, glowB := false } })

/-- Raised events (R586, R592, R594, R597, R744): a tick stall and a stalled MGC are FATAL and take the module to SAFE_HALT: every engine stops, the plan is empty, the cause is recorded, the running module closes, and a halt that has come
keeps its first cause. FLT_FORCE of one source raises one forced event of it, outside MAINTENANCE without a response: no engine is retired, no domain stopped, the module not halted; a corrected PCIe error and lost log records raise theirs. -/
def Obligations.RaisedEvents : Prop :=
  (
    ∀ (s : State), s.pcr.frozen = false → s.pcr.powered = true →
      let halts (c : Instr) (src : Nat) : Prop := ∃ t, exec c s = .next t ∧ t.running = false
        ∧ (s.hrt.halt = none → t.hrt.halt = some (src, s.trd.edge) ∧ t.trd.plan = [] ∧ ∀ n, n < 16 → (t.getPvu n).phase = .dummy)
        ∧ (s.hrt.halt ≠ none → t.hrt.halt = s.hrt.halt)
      halts .tickStall 0x7104 ∧ halts .mgcStall 0x7F01
  )
  ∧ (
    ∀ (s : State) (blk n : Nat) (val : W32),
      (s.pageWritable blk = true → blk < 256 → blk ∉ [0x28, 0x40, 0x58, 0x60, 0x72] → n < (blockCaps blk).1 → n < 32 → blk * 256 + n ≠ 0x5100 → val = bitW n →
        exec (.fltForce blk val) s = .next (s.raise { src := blk * 256 + n, forced := true })
        ∧ (s.held.life ≠ 4 → ∃ t, exec (.fltForce blk val) s = .next t
            ∧ t.hrt.halt = s.hrt.halt ∧ (2 ≤ rawClass { src := blk * 256 + n } → t.hrt.severe = s.hrt.severe ∧ t.trd = s.trd ∧ t.pvu = s.pvu ∧ t.held.retired = s.held.retired)))
      ∧ (s.pageWritable blk = true → blk ∈ [0x28, 0x40, 0x58, 0x60, 0x72] → n < (blockCaps blk).1 → n < 32 → val = bitW n →
        exec (.fltForce blk val) s = .next (({ s with free := s.free + 1 } : State).raise { src := blk * 256 + n, forced := true, detail := s.forcedDetail (blk * 256 + n) }))
      ∧ (s.pcr.powered = true → s.pcr.frozen = false → exec .pcieLinkCorr s = .next (s.raise { src := 0x0101 }))
      ∧ (s.hrt.lost ≠ 0 ∨ s.hrt.ringFail = true → exec .logLost s = .next
          (({ s with hrt := { s.hrt with lost := 0, ringFail := false } } : State).raise { src := 0x5000, detail := s.hrt.lost + b2n s.hrt.ringFail * 2 ^ 32 }))
  )


-- Queues.

/-- Doorbells (R48, R86, R124): a doorbell of a queue that exists requests its scan; one of an index with no queue is discarded and raises DOORBELL_RANGE (0x0200) with
the index; the admin doorbell counts only while the admin queue is enabled; a function that is being reset takes none; INST_ECINV drops the untaken copies of one slot or of
a whole queue and nothing else (R95, R96). -/
def Obligations.Doorbells : Prop :=
  ∀ (s : State) (fn idx size : Nat) (val : W32), s.hostOpen = true → s.fnExists fn = true → 4 ≤ size →
    let st := (s.getFn fn).state
    (∀ x, st ≠ 0 → st ≠ 7 → idx < 64 → s.getQueue fn idx = some x →
      exec (.doorbell fn idx size) s = .next (s.setQueue fn idx { x with rescan := true }))
    ∧ (st ≠ 0 → st ≠ 7 → 64 ≤ idx ∨ s.getQueue fn idx = none →
      exec (.doorbell fn idx size) s = .next (s.raise { src := 0x0200, detail := idx, fn := fn }))
    ∧ (st = 0 ∨ st = 7 → exec (.doorbell fn idx size) s = .next s)
    ∧ (∀ x, (s.getFn fn).aqEnabled = true → s.getQueue fn 64 = some x →
      exec (.instAdb fn size) s = .next (s.setQueue fn 64 { x with rescan := true }))
    ∧ ((s.getFn fn).aqEnabled = false → exec (.instAdb fn size) s = .next s)
    ∧ (s.part = 0 → exec (.instEcinv fn val) s = .next s)
    ∧ (∀ x, s.part ≠ 0 → s.getQueue fn (bits val 21 16) = some x → x.want = [] → exec (.instEcinv fn val) s = .next (s.setQueue fn (bits val 21 16)
        { x with cache := if bit val 31 then [] else x.cache.filter (fun c => decide (c.1 ≠ bits val 15 0)) }))

/-- The admin queue (R127 to R129): EN = 1 with a valid configuration enables it with the ring, head word, depth, version and vector in the registers and writes a zero head
word; an invalid one, and one while the queue still drains, sets CFG_ERR; EN = 0 closes an enabled queue that has nothing unfinished, and while it was disabled writes the configuration. -/
def Obligations.AdminQueueEnabling : Prop :=
  ∀ (s : State) (fn : Nat) (val : W32), s.hostOpen = true → s.fnExists fn = true →
    let f := s.getFn fn
    let x : Queue := {
      ring := f.aqBase, headAddr := f.aqHw, depth := 2 ^ bits val 15 12, ver := bits val 19 16, vector := bits val 5 0, ordered := true }
    let ok := 4 ≤ bits val 15 12 ∧ bits val 15 12 ≤ 12 ∧ 1 ≤ bits val 19 16 ∧ bits val 19 16 ≤ 2 ∧ bits val 5 0 < f.tableSize ∧ f.state ≠ 1
    let free := bit f.aqCfg 31 = false ∧ f.aqEnabled = false
    (free → ok →
      s.posts (.adminQueueEnable fn val)
        ((s.setFn fn { f with aqCfg := (val &&& 0x000FF03F) ||| 0x80000000, aqErr := false, aqEnabled := true }).setQueue fn 64 x)
      ∧ (s.dmaOff fn = false → ∃ t, exec (.adminQueueEnable fn val) s = .next t ∧ .hostWrite fn f.aqHw (List.replicate 8 0) ∈ t.out))
    ∧ (free → ¬ok → exec (.adminQueueEnable fn val) s = .next (s.setFn fn { f with aqCfg := val &&& 0x000FF03F, aqErr := true }))
    ∧ (bit f.aqCfg 31 = false → f.aqEnabled = true →
        exec (.adminQueueEnable fn val) s = .next (s.setFn fn { f with aqCfg := val &&& 0x000FF03F, aqErr := true }))
    ∧ (bit f.aqCfg 31 = true → exec (.adminQueueEnable fn val) s = .next s)
    ∧ (bit f.aqCfg 31 = false → exec (.adminQueueDisable fn val) s = .next (s.setFn fn { f with aqCfg := val &&& 0x000FF03F }))
    ∧ (∀ y, bit f.aqCfg 31 = true → f.aqEnabled = true → s.getQueue fn 64 = some y → s.queueJobs fn 64 = [] →
      ∃ t, exec (.adminQueueDisable fn val) s = .next t ∧ t.getFn fn = { f with aqCfg := f.aqCfg &&& 0x7FFFFFFF, aqEnabled := false }
        ∧ t.getQueue fn 64 = none ∧ t = { s with funcs := t.funcs, queues := t.queues, jobs := t.jobs })

/-- A scan reads the entry at SP (R86, R87, R89, R91): one that starts, resumes, or goes on with the next read. An entry with OWN = 1 that no check refuses and no condition pauses
is taken: a job of the next number stands in its first phase with the entry's fields, and SP goes on by one; at OWN = 0 the scan stops with SP unchanged;
a first read that failed is retried. HEAD and the other queues stay. -/
def Obligations.ScanTakesEntries : Prop :=
  ∀ (s : State) (fn q : Nat) (x : Queue) (bs : List Byte) (c : Instr),
    s.getQueue fn q = some x → s.mayScan fn q x = true → x.cache = [] → x.want = [] ∨ x.want.head? = some x.sp → x.head ≤ x.sp → x.sp < x.head + x.depth →
    let e := entryOf x.ver bs
    let starts (r : Fetched) : Prop := (c = .scan fn q [r] ∧ x.rescan = true ∧ x.scanning = false ∧ x.paused = false)
      ∨ (c = .scanResume fn q [r] ∧ x.paused = true) ∨ (c = .entryFetch fn q r ∧ x.scanning = true)
    let others (t : State) : Prop := (∀ k, k ≠ qkey fn q → KV.get? t.queues k = KV.get? s.queues k) ∧ t.patterns = s.patterns ∧ t.kst = s.kst ∧ t.trd = s.trd
    (starts (.data bs) → bit e.ctl 31 = false →
      ∃ t y, exec c s = .next t ∧ t.getQueue fn q = some y ∧ y.sp = x.sp ∧ y.head = x.head ∧ y.scanning = false ∧ y.paused = false ∧ others t ∧ t.jobs = s.jobs)
    ∧ (starts (.data bs) → bit e.ctl 31 = true → s.pauses fn q x e = false → s.early fn q x.ver e false = none → s.entryStatus q (bits e.ctl 15 0) = none →
      ∃ t y j, exec c s = .next t ∧ t.getQueue fn q = some y ∧ y.sp = x.sp + 1 ∧ y.head = x.head ∧ others t
        ∧ t.nextJob = s.nextJob + 1 ∧ KV.get? t.jobs s.nextJob = some j ∧ j.fn = fn ∧ j.q = q ∧ j.num = x.sp ∧ j.e = e ∧ j.phase = .fetching ∧ j.result = none
        ∧ (∀ k, k ≠ s.nextJob → KV.get? t.jobs k = KV.get? s.jobs k))
    ∧ (starts .failed → x.retried = false →
      ∃ t y, exec c s = .next t ∧ t.getQueue fn q = some y ∧ y.sp = x.sp ∧ y.head = x.head ∧ y.retried = true ∧ others t ∧ t.jobs = s.jobs)

/-- The reads of a taken entry and the replay rules (R110 to R116, R736): an entry that passes its checks is staged with its input and fingerprint. A side-effecting request with a tag is entered in its queue's
window when the tag is new; the same request with a finished record answers from it, and with an unfinished one waits as a duplicate. A beat to staging moves its link's sequence on; one that fails its code twice
leaves the input to be read again (R17, R611, R612). -/
def Obligations.InputFetch : Prop :=
  ∀ (s : State) (job : Nat) (rd : InputReads) (j : Job) (outs : List (Nat × Nat)) (bs : List Byte),
    KV.get? s.jobs job = some j → j.phase = .fetching → s.pcr.frozen = false → s.checks j rd = .inl outs → rd.scorched = false →
    readInput j.e rd = some bs → rd.arrived = [] → rd.copyDiffers = false → s.mem.injArmed = false →
    let j1 := { j with pieces := outs, input := bs, scorched := false, scorchAt := 0, fp := fingerprint j bs }
    let plain := s.setJob job { j1 with phase := .staged }
    let effects := sideEffecting j.opcode (j.e.par j.ver) (s.ephemeralKey j.e) = true
    (j.q = 64 → exec (.inputFetch job rd) s = .next plain)
    ∧ (j.e.tag = 0 → statefulSign j.opcode = false → exec (.inputFetch job rd) s = .next plain)
    ∧ (∀ x, j.q ≠ 64 → effects → j.e.tag ≠ 0 → s.getQueue j.fn j.q = some x →
      (x.window.find? (fun r => decide (r.tag = j.e.tag)) = none → x.window.length < 4096 ∨ x.window.any (·.done) = true →
        ∃ w, exec (.inputFetch job rd) s = .next ((s.setQueue j.fn j.q { x with window := w }).setJob job { j1 with phase := .staged })
          ∧ ∃ r ∈ w, r.tag = j.e.tag ∧ r.fp = j1.fp ∧ r.done = false ∧ r.job = job)
      ∧ (∀ r, x.window.find? (fun r => decide (r.tag = j.e.tag)) = some r → r.job ≠ job → r.fp = j1.fp →
        (r.done = true → exec (.inputFetch job rd) s = .next (s.setJob job { j1 with phase := .staged, replay := some r }))
        ∧ (r.done = false → exec (.inputFetch job rd) s = .next (s.setJob job { j1 with phase := .duplicate, dupOf := some r.job })))
      ∧ (∀ r, x.window.find? (fun r => decide (r.tag = j.e.tag)) = some r → r.job ≠ job → r.fp ≠ j1.fp →
        exec (.inputFetch job rd) s = .next ((s.setJob job j1).finishWith job 0x0070)))
    ∧ (∀ f r, let lost : InputReads := { rd with arrived := [(f, r)] }
      (s.beatSound f = true → exec (.inputFetch job lost) s = exec (.inputFetch job rd) (s.linkPassed (linkKey 0 f.sender f.receiver)))
      ∧ (s.beatSound f = false → s.beatSound r = false → j.retries < 2 →
        ∃ t, exec (.inputFetch job lost) s = .next t ∧ t.getJob job = { j with retries := j.retries + 1 } ∧ t.tmp.seamSeq = s.tmp.seamSeq
          ∧ t.tmp.seamFabric = satAdd (satAdd s.tmp.seamFabric 1 0xFFFF) 1 0xFFFF))

-- Treadle.

/-- Treadle's registers and time base. TRD_TICKCFG (R158, R160): a valid write to an unlocked page is kept whole and, with another period than the one in force, requests a change; the period in force, with no change under way, leaves period and request as they were; a period outside
10 to 160 or a reserved source is refused whole: CFG_ERR is set and CFG_ERR (0x0300) raised. TRD_HIST_CFG takes its fields and with CLEAR zeroes every bin (R188). After the drain the new period is in force, the
change is over and cause 2 is latched (R159); an edge of TICK_IN within a cycle of the period counts toward lock, and the eighth in a row with a phase within one cycle locks; from the eighth on each tick is corrected by one cycle, so that the phase moves by what the interval differs from the corrected tick (R161); a lost TICK_IN ends the lock
and raises TICKIN_LOST (R163). -/
def Obligations.TickRegisters : Prop :=
  (
    ∀ (s : State) (val : W32), s.pageWritable 3 = true →
      let good := 10 ≤ bits val 7 0 ∧ bits val 7 0 ≤ 160 ∧ bits val 9 8 < 2
      let h : State := { s with trd := { s.trd with histCfg := val &&& 0x3FF } }
      ((s.getBlk 3).lock = false → good → s.trd.changing = true ∨ bits val 7 0 ≠ s.trd.period →
          exec (.trdTickcfg val) s = .next { s with trd := { s.trd with cfg := val &&& 0x3FF, request := true } })
      ∧ ((s.getBlk 3).lock = false → good → s.trd.changing = false → bits val 7 0 = s.trd.period →
          exec (.trdTickcfg val) s = .next { s with trd := { s.trd with cfg := (val &&& 0x300) ||| (s.trd.cfg &&& 0xFF) } })
      ∧ ((s.getBlk 3).lock = true → exec (.trdTickcfg val) s = .next s)
      ∧ ((s.getBlk 3).lock = false → ¬good → ∃ u : State, exec (.trdTickcfg val) s = .next (u.raise { src := 0x0300 })
          ∧ u.trd = { s.trd with cfgErr := true } ∧ (u.getBlk 3).irqEdge.getLsbD 3 = true ∧ u.held = s.held ∧ u.jobs = s.jobs ∧ u.hrt = s.hrt)
      ∧ (bit val 31 = false → exec (.histClear val) s = .next h)
      ∧ (bit val 31 = true → exec (.histClear val) s = .next { h with trd := { h.trd with hist := Vector.replicate 24 0 } })
  )
  ∧ (
    ∀ (s : State) (interval : Nat) (phase : Int), s.running = true →
      let t := s.trd
      let near := 25 * t.period ≤ interval + 1 ∧ interval ≤ 25 * t.period + 1
      let good := if 25 * t.period ≤ interval + 1 ∧ interval ≤ 25 * t.period + 1 then t.goodIntervals + 1 else 0
      let step : Int := if t.source = 1 ∧ 8 ≤ t.goodIntervals then (if 0 < t.phase then 1 else if t.phase < 0 then -1 else 0) else 0
      let ph : Int := if t.tickInDue = true ∧ near then t.phase + interval - 25 * t.period - step else phase
      let seen : Treadle := { t with tickInSeen := true, tickInDue := true, tickInAge := 0, phase := ph, goodIntervals := if t.source = 1 then good else 0 }
      (t.changing = true → s.planDrained = true → ∃ u, exec .periodApplied s = .next u ∧ u.trd.period = bits t.cfg 7 0 ∧ u.trd.changing = false ∧ u.trd.request = false
        ∧ u.trd.plan = [] ∧ u.trd.edge = t.edge ∧ u.us = s.us ∧ (u.getBlk 3).irqEdge.getLsbD 2 = true ∧ u.jobs = s.jobs ∧ u.held = s.held)
      ∧ (t.changing = false → exec .periodApplied s = .next s)
      ∧ (t.locked = true ∨ t.source ≠ 1 ∨ good < 8 ∨ 1 < ph.natAbs → exec (.tickInEdge interval phase) s = .next { s with trd := seen })
      ∧ (t.locked = false → t.source = 1 → 8 ≤ good → ph.natAbs ≤ 1 → ∃ u, exec (.tickInEdge interval phase) s = .next u
          ∧ u.trd = { seen with locked := true } ∧ (u.getBlk 3).irqEdge.getLsbD 1 = true)
      ∧ (near → t.source = 1 → t.locked = true → ∃ u, exec (.tickInEdge interval phase) s = .next u ∧ u.trd.goodIntervals = t.goodIntervals + 1 ∧ u.trd.locked = true)
      ∧ (t.source = 1 → t.tickInDue = true → ∃ u v : State, exec .tickinLost s = .next v ∧ v = u.raise { src := 0x0301 }
          ∧ u.trd = { t with tickInDue := false, locked := false, goodIntervals := 0 } ∧ (u.getBlk 3).irqEdge.getLsbD 0 = true)
  )


/-- Temperature and clocks (R31, R183, R184): the Damper stage rises at 125, 140 and 150 °C and falls only below 120, 135 and 145 °C; an engine without a
booked slot for 50 ticks is gated; a PVU whose booked slots fit runs at 1.2 GHz once the stage asks for it. -/
def Obligations.TemperatureAndClocks : Prop :=
  ∀ (s : State) (tj : Int) (n : Nat),
    let p := s.getPvu n
    let b := s.getBne n
    let up : Nat := if 1200 ≤ tj then 3 else if 1120 ≤ tj then 2 else if 1000 ≤ tj then 1 else 0
    (∃ t, exec (.damperStageChange tj) s = .next t ∧ t.pcr.tj = tj ∧ t.pcr.stage = damperStage s.pcr.stage tj ∧ t.trd.stage = t.pcr.stage
      ∧ (s.pcr.stage ≤ up → t.pcr.stage = up)
      ∧ (t.pcr.stage < s.pcr.stage → (t.pcr.stage = 0 → tj < 960) ∧ (t.pcr.stage ≤ 1 → tj < 1080) ∧ (t.pcr.stage ≤ 2 → tj < 1160)))
    ∧ (n < 16 → p.active = true → 50 ≤ p.idleTicks → exec (.engineClockGate (0x10 + n)) s = .next (s.setPvu n { p with active := false }))
    ∧ (n < 8 → b.active = true → 50 ≤ b.idleTicks → exec (.engineClockGate (0x20 + n)) s = .next (s.setBne n { b with active := false }))
    ∧ (s.hsa.active = true → 50 ≤ s.hsa.idleTicks → exec (.engineClockGate 0x28) s = .next { s with hsa := { s.hsa with active := false } })
    ∧ (n < 16 → p.idleTicks < 50 → exec (.engineClockGate (0x10 + n)) s = .next s)
    ∧ (n < s.pvus → s.pcr.stage ≠ 0 → p.derated = false → s.retired (0x10 + n) = false →
        (∀ k ∈ s.trd.plan, k.eng = n → s.trd.edge ≤ k.tick → loadOf (s.slot n k.tick) ≤ s.trd.period * 1200 - 1000) →
        ∃ t, exec (.pvuDerate n) s = .next t ∧ (t.getPvu n).derated = true ∧ ∀ m, m ≠ n → (t.getPvu m).derated = (s.getPvu m).derated)

-- PVU instructions.

/-- Every row of the PVU instruction set but FAIL, whose word its PVU accepts and which raises no exception, answers a next state: the
registers, flags, local store and Keccak units are those its body computes, the program counter and the cycle count go on (R244), and
nothing but its destinations and what its class may change is changed, on that PVU or elsewhere. A dummy instruction may go before it (R475), and the words of
a patched routine give its issue time (R501). -/
def Obligations.PvuInstructionCompletes : Prop :=
  ∀ (c : Instr) (op : PvuOp) (i : PvuWord) (s : State) (pc : Nat),
    pvuRow c = some (op, i) → s.pvuAccepts op i → (s.pvuRes op i).exc = none → nextPc (s.pvuReady i.pvu) (s.pvuRes op i) = some pc →
    ∃ t, exec c s = .next t
      ∧ (t.getPvu i.pvu).SameArch (s.pvuRes op i).p
      ∧ (t.getPvu i.pvu).pc = pc
      ∧ (t.getPvu i.pvu).cyc = s.pvuStart op i + (s.pvuTime op i).1 + (s.pvuRes op i).wait + (s.pvuRes op i).extra
      ∧ (s.getPvu i.pvu).Only (op.writes (s.pvuReady i.pvu) i) (t.getPvu i.pvu)
      ∧ (s.getPvu i.pvu).Rest op.stores (decide (op.cls = 6) || op.streams) op.calls (t.getPvu i.pvu)
      ∧ s.PvuFrame i.pvu t

/-- Scalar instructions (R242, R247, R249, R251): ADD, SUB, AND, OR, XOR, SHL, SHR, SAR, MUL, MULHU, ADDI, LI and LIS answer a next state with the
table's result in Xd, X0 ignoring it, and the program counter one on; SCMP and SCMPI set EQ, LTU and LT; RDSTAT reads VSTAT with the flags in bits 18:16
and FFCOUNT in bits 9:0; XMMUL and XMADD reduce by the modulus that MC names, reading bits 30:0 of their operands. -/
def Obligations.ScalarInstructions : Prop :=
  (
    ∀ (s : State) (i : PvuWord),
      let p := s.getPvu i.pvu
      let a := p.xReg i.ra.toNat
      let b := p.xReg i.rb.toNat
      let gives (c : Instr) (op : PvuOp) (v : W64) : Prop := s.pvuAccepts op i →
        s.pvuGives c i.pvu (fun q => q.xReg i.rd.toNat = xWritten i.rd.toNat v ∧ q.pc = p.pc + 1)
      gives (.addX i) opAddX (a + b) ∧ gives (.subX i) opSubX (a - b) ∧ gives (.andX i) opAndX (a &&& b)
        ∧ gives (.orX i) opOrX (a ||| b) ∧ gives (.xorX i) opXorX (a ^^^ b)
        ∧ gives (.shlX i) opShlX (a <<< (b.toNat % 64)) ∧ gives (.shrX i) opShrX (a >>> (b.toNat % 64))
        ∧ gives (.sarX i) opSarX (a.sshiftRight (b.toNat % 64)) ∧ gives (.mulX i) opMulX (a * b)
        ∧ gives (.mulhuX i) opMulhuX (BitVec.ofNat 64 (a.toNat * b.toNat / 2 ^ 64))
        ∧ gives (.addiX i) opAddiX (a + i.imm.signExtend 64) ∧ gives (.liX i) opLiX (i.imm.signExtend 64)
        ∧ gives (.lisX i) opLisX ((a <<< 25) ||| i.imm.setWidth 64)
  )
  ∧ (
    ∀ (s : State) (i : PvuWord),
      let p := s.getPvu i.pvu
      let a := p.xReg i.ra.toNat
      let b := p.xReg i.rb.toNat
      let m := i.imm.signExtend 64
      let q0 := (vget p.m i.mc.toNat {}).q
      let flags (c : Instr) (op : PvuOp) (x y : W64) : Prop := s.pvuAccepts op i →
        s.pvuGives c i.pvu (fun q => q.flagEq = decide (x = y) ∧ q.flagLtu = x.ult y ∧ q.flagLt = x.slt y ∧ q.ffcount = p.ffcount ∧ q.pc = p.pc + 1)
      let gives (c : Instr) (op : PvuOp) (v : W64) : Prop := s.pvuAccepts op i →
        s.pvuGives c i.pvu (fun q => q.xReg i.rd.toNat = xWritten i.rd.toNat v ∧ q.pc = p.pc + 1)
      flags (.scmp i) opScmp a b ∧ flags (.scmpi i) opScmpi a m
        ∧ gives (.rdstat i) opRdstat (BitVec.ofNat 64 (p.ffcount % 1024 + 2 ^ 16 * b2n p.flagEq + 2 ^ 17 * b2n p.flagLtu + 2 ^ 18 * b2n p.flagLt))
        ∧ gives (.xmmul i) opXmmul (BitVec.ofNat 64 ((a.toNat % 2 ^ 31) * (b.toNat % 2 ^ 31) % q0))
        ∧ gives (.xmadd i) opXmadd (BitVec.ofNat 64 ((a.toNat % 2 ^ 31 + b.toNat % 2 ^ 31) % q0))
  )


/-- Short vectors (R252): every element of Sd after SMOV, SXOR, SAND, SOR, SADD, SINS and SBCAST, and Xd after SEXT. -/
def Obligations.ShortVectors : Prop :=
  ∀ (s : State) (i : PvuWord) (e : Nat), e < 8 / 2 ^ i.w.toNat →
    let p := s.getPvu i.pvu
    let w := i.w.toNat
    let a := p.laneS i.ra.toNat w e
    let b := p.laneS i.rb.toNat w e
    let x := (p.xReg i.ra.toNat).toNat % 2 ^ wBits w
    let gives (c : Instr) (op : PvuOp) (v : Nat) : Prop := s.pvuAccepts op i →
      s.pvuGives c i.pvu (fun q => q.laneS i.rd.toNat w e = v ∧ q.pc = p.pc + 1)
    gives (.smov i) opSmov a ∧ gives (.sxor i) opSxor (a ^^^ b) ∧ gives (.sand i) opSand (a &&& b) ∧ gives (.sor i) opSor (a ||| b)
      ∧ gives (.sadd i) opSadd ((a + b) % 2 ^ wBits w)
      ∧ gives (.sins i) opSins (if e = i.imm.toNat then x else p.laneS i.rd.toNat w e)
      ∧ gives (.sbcast i) opSbcast x
      ∧ (s.pvuAccepts opSext i → s.pvuGives (.sext i) i.pvu (fun q =>
          q.xReg i.rd.toNat = xWritten i.rd.toNat (BitVec.ofNat 64 (p.laneS i.ra.toNat w i.imm.toNat)) ∧ q.pc = p.pc + 1))

/-- Long vectors, element by element (R194, R242, R253): an active element of Ld takes the table's result, an inactive one keeps its
value, after VMOV, VADD, VSUB, VAND, VOR, VXOR, VNOT, VSHLI, VSRLI, VBCAST, VSEL and VPERM, and, where the valid contexts pass
their checks (kept by every step), after VMADD, VMSUB, VMNEG, VMMUL and VMMULX. -/
def Obligations.LongVectors : Prop :=
  ∀ (s : State) (i : PvuWord) (e : Nat), e < 512 / 2 ^ i.w.toNat →
    let p := s.getPvu i.pvu
    let w := i.w.toNat
    let W := wBits w
    let a := p.laneL i.ra.toNat w e
    let b := p.laneL i.rb.toNat w e
    let m (v : Nat) : Nat := modOperand w v
    let q0 := (vget p.m i.mc.toNat {}).q
    let gives (c : Instr) (op : PvuOp) (v : Nat) : Prop := s.pvuAccepts op i →
      s.pvuGives c i.pvu (fun q =>
        q.laneL i.rd.toNat w e = (if p.governs i.pg.toNat w e then v else p.laneL i.rd.toNat w e) ∧ q.pc = p.pc + 1)
    gives (.vmov i) opVmov a ∧ gives (.vadd i) opVadd ((a + b) % 2 ^ W) ∧ gives (.vsub i) opVsub ((2 ^ W + a - b) % 2 ^ W)
      ∧ gives (.vand i) opVand (a &&& b) ∧ gives (.vor i) opVor (a ||| b) ∧ gives (.vxor i) opVxor (a ^^^ b)
      ∧ gives (.vnot i) opVnot (2 ^ W - 1 - a)
      ∧ gives (.vshli i) opVshli (a * 2 ^ i.imm.toNat % 2 ^ W) ∧ gives (.vsrli i) opVsrli (a / 2 ^ i.imm.toNat)
      ∧ gives (.vbcast i) opVbcast ((p.xReg i.ra.toNat).toNat % 2 ^ W)
      ∧ (p.modsOk → gives (.vmadd i) opVmadd ((m a + m b) % q0)
        ∧ gives (.vmsub i) opVmsub (((m a : Int) - m b).emod q0).toNat
        ∧ gives (.vmneg i) opVmneg ((-(m a : Int)).emod q0).toNat
        ∧ gives (.vmmul i) opVmmul (m a * m b % q0)
        ∧ gives (.vmmulx i) opVmmulx (m a * ((p.xReg i.rb.toNat).toNat % 2 ^ 31) % q0))
      ∧ gives (.vsel i) opVsel (if p.governs i.rc.toNat w e then a else b)
      ∧ gives (.vperm i) opVperm (p.laneL i.ra.toNat w (b % (512 / 2 ^ w)))

/-- Predicates and single elements (R253, R254): VCMPEQ, VCMPLTU, PAND, POR, PXOR, PNOT and PFIRST bit by bit of Pd, P0 ignoring
the write; VEXT, VINS. -/
def Obligations.PredicatesAndElements : Prop :=
  ∀ (s : State) (i : PvuWord) (k e : Nat), k < 256 → e < 512 / 2 ^ i.w.toNat →
    let p := s.getPvu i.pvu
    let w := i.w.toNat
    let n := i.rd.toNat
    let el := if w = 2 then k / 2 else k
    let gives (c : Instr) (op : PvuOp) (v : Bool) : Prop := s.pvuAccepts op i →
      s.pvuGives c i.pvu (fun q => q.predBit n k = (if n = 0 then true else v) ∧ q.pc = p.pc + 1)
    gives (.vcmpeq i) opVcmpeq (p.governs i.pg.toNat w el && decide (p.laneL i.ra.toNat w el = p.laneL i.rb.toNat w el))
      ∧ gives (.vcmpltu i) opVcmpltu (p.governs i.pg.toNat w el && decide (p.laneL i.ra.toNat w el < p.laneL i.rb.toNat w el))
      ∧ gives (.pand i) opPand (p.predBit i.ra.toNat k && p.predBit i.rb.toNat k)
      ∧ gives (.por i) opPor (p.predBit i.ra.toNat k || p.predBit i.rb.toNat k)
      ∧ gives (.pxor i) opPxor (p.predBit i.ra.toNat k ^^ p.predBit i.rb.toNat k)
      ∧ gives (.pnot i) opPnot (!p.predBit i.ra.toNat k)
      ∧ gives (.pfirst i) opPfirst (decide (k < min (p.xReg i.ra.toNat).toNat 256))
      ∧ (s.pvuAccepts opPcnt i → s.pvuGives (.pcnt i) i.pvu (fun q => q.xReg n =
          xWritten n (BitVec.ofNat 64 ((List.range 256).countP (fun b => p.predBit i.ra.toNat b))) ∧ q.pc = p.pc + 1))
      ∧ (s.pvuAccepts opVext i → s.pvuGives (.vext i) i.pvu (fun q =>
          q.xReg n = xWritten n (BitVec.ofNat 64 (p.laneL i.ra.toNat w i.imm.toNat)) ∧ q.pc = p.pc + 1))
      ∧ (s.pvuAccepts opVins i → s.pvuGives (.vins i) i.pvu (fun q =>
          q.laneL n w e = (if e = i.imm.toNat then (p.xReg i.ra.toNat).toNat % 2 ^ wBits w else p.laneL n w e) ∧ q.pc = p.pc + 1))

/-- Control (R221, R229, R247, R248, R250): NOP, B, BC, LOOP, CALL and RET move the program counter, a target outside the program being
shut out by its own hypothesis, and a taken branch costs 3 cycles where no patched routine counts its own; END, ACCEPT and REJECT end the segment or the attempt; RESUME and SKIP leave the handler. -/
def Obligations.ControlFlow : Prop :=
  ∀ (s : State) (i : PvuWord),
    let p := s.getPvu i.pvu
    let x := p.xReg i.ra.toNat
    let goes (c : Instr) (op : PvuOp) (target : Int) (P : Pvu → Prop) : Prop := s.pvuAccepts op i → 0 ≤ target → target < p.progLen →
      s.pvuGives c i.pvu (fun q => (q.pc : Int) = target ∧ P q)
    goes (.brB i) opB (p.pc + i.imm.toInt) (fun q => s.pvuRoutine opB i = none → q.cyc = s.pvuStart opB i + 3)
      ∧ (branchCond p i.rd.toNat = true → goes (.brC i) opBc (p.pc + i.imm.toInt) (fun q => s.pvuRoutine opBc i = none → q.cyc = s.pvuStart opBc i + 3))
      ∧ (branchCond p i.rd.toNat = false → s.pvuAccepts opBc i →
          s.pvuGives (.brC i) i.pvu (fun q => q.pc = p.pc + 1 ∧ (s.pvuRoutine opBc i = none → q.cyc = s.pvuStart opBc i + 1)))
      ∧ (i.ra.toNat ≠ 0 → x ≠ 1 → goes (.loop i) opLoop (p.pc + i.imm.toInt) (fun q => q.xReg i.ra.toNat = x - 1))
      ∧ (i.ra.toNat = 0 ∨ x = 1 → s.pvuAccepts opLoop i → s.pvuGives (.loop i) i.pvu (fun q => q.pc = p.pc + 1 ∧ q.xReg i.ra.toNat = 0))
      ∧ goes (.call i) opCall (p.pc + i.imm.toInt) (fun q => q.retStack = (p.pc + 1) :: p.retStack)
      ∧ (∀ r rest, p.retStack = r :: rest → goes (.ret i) opRet r (fun q => q.retStack = rest))
      ∧ goes (.resume i) opResume p.exc.epc (fun q => q.phase = .running ∧ q.resumeAt = (if p.exc.epart then p.exc.eidx else 0))
      ∧ goes (.skipH i) opSkip ((p.exc.epc : Int) + 1) (fun q => q.phase = .running ∧ q.resumeAt = 0)
      ∧ (s.pvuAccepts opNop i → s.pvuGives (.pvuNop i) i.pvu (fun q => q.pc = p.pc + 1 ∧ (s.pvuRoutine opNop i = none → q.cyc = s.pvuStart opNop i + 1)))
      ∧ (s.pvuAccepts opEnd i → s.pvuGives (.pvuEnd i) i.pvu (fun q => q.phase = .dummy ∧ q.segEnd = .ended (decide (i.imm.toNat = 1))))
      ∧ (s.pvuAccepts opAccept i → s.pvuGives (.accept i) i.pvu (fun q => q.phase = .dummy ∧ q.segEnd = .attempt true))
      ∧ (s.pvuAccepts opReject i → s.pvuGives (.reject i) i.pvu (fun q => q.phase = .dummy ∧ q.segEnd = .attempt false))

/-- MODSET sets a context that passes every check of R197; one that fails a check raises MOD_INVALID, and the context is unchanged. -/
def Obligations.ModulusContexts : Prop :=
  ∀ (s : State) (i : PvuWord),
    let p := s.getPvu i.pvu
    let q0 := (p.xReg i.ra.toNat).toNat
    let root := (p.xReg i.rb.toNat).toNat
    let n := if i.imm.toNat % 4 = 0 then 256 else if i.imm.toNat % 4 = 1 then 512 else 1024
    let inc := decide (i.imm.toNat / 4 % 2 = 1)
    let good := q0 % 2 = 1 ∧ 3 ≤ q0 ∧ q0 < 2 ^ 31 ∧ root < q0 ∧ root ^ (if inc then n / 2 else n) % q0 = q0 - 1
    s.pvuAccepts opModset i →
      (good → s.pvuGives (.modset i) i.pvu (fun q =>
        vget q.m i.rd.toNat {} = { valid := true, q := q0, n := n, incomplete := inc, omega := root }
          ∧ q.pc = p.pc + 1 ∧ (s.pvuRoutine opModset i = none → q.cyc = s.pvuStart opModset i + 40)))
      ∧ (¬good → p.phase = .running → ∀ h, p.ehandler = some h → p.vendor = false →
        s.pvuGives (.modset i) i.pvu (fun q => q.m = p.m ∧ q.exc.ecause = 4 ∧ q.exc.epc = p.pc ∧ q.phase = .handler ∧ q.pc = h))

/-- Local-store loads (R194, R227, R256): after VLD, VLDS, VGATHER and, below FFCOUNT, VLDFF and VGATHERFF, an active element holds the w bytes at its
offset, least significant first, and an inactive one its old value; SLD takes 16 bytes and XLD w bytes from the base. -/
def Obligations.LocalStoreLoads : Prop :=
  ∀ (s : State) (i : PvuWord) (e : Nat), e < 512 / 2 ^ i.w.toNat →
    let p := s.getPvu i.pvu
    let w := i.w.toNat
    let n := 2 * 2 ^ w
    let strided : Int := e * (p.xReg i.rb.toNat).toInt
    let indexed : Int := (p.laneL i.rb.toNat w e * n : Nat)
    let loads (c : Instr) (op : PvuOp) (d : Int) (ff : Bool) : Prop := s.pvuAccepts op i → (s.pvuRes op i).exc = none →
      s.pvuGives c i.pvu (fun q => q.laneL i.rd.toNat w e
          = (if p.governs i.pg.toNat w e = true ∧ p.resumeAt ≤ e ∧ (ff = true → e < q.ffcount) then p.spaceNum i (p.lsOff i d) n
             else p.laneL i.rd.toNat w e) ∧ q.pc = p.pc + 1 ∧ q.ls = p.ls)
    loads (.vld i) opVld (e * n : Nat) false ∧ loads (.vlds i) opVlds strided false ∧ loads (.vgather i) opVgather indexed false
      ∧ loads (.vldff i) opVldff (e * n : Nat) true ∧ loads (.vgatherff i) opVgatherff indexed true
      ∧ (s.pvuAccepts opSld i → (s.pvuRes opSld i).exc = none → s.pvuGives (.sld i) i.pvu (fun q =>
          (vget q.s i.rd.toNat 0).toNat = p.spaceNum i (p.lsOff i 0) 16 ∧ q.pc = p.pc + 1 ∧ q.ls = p.ls))
      ∧ (s.pvuAccepts opXld i → (s.pvuRes opXld i).exc = none → s.pvuGives (.xld i) i.pvu (fun q =>
          q.xReg i.rd.toNat = xWritten i.rd.toNat (BitVec.ofNat 64 (p.spaceNum i (p.lsOff i 0) n)) ∧ q.pc = p.pc + 1 ∧ q.ls = p.ls))

/-- When several active elements of one VST, VSTS or VSCATTER address the same byte, the element with the highest index is the one that remains: the byte at
an address holds byte `k` of the last active element, and of that element's last byte, that addresses it (in a job's pages no element addresses one byte twice). -/
def Obligations.StoreOverlap : Prop :=
  ∀ (s : State) (i : PvuWord),
    let p := s.getPvu i.pvu
    let w := i.w.toNat
    let n := 2 * 2 ^ w
    let active (e : Nat) : Prop := e < 512 / 2 ^ w ∧ p.governs i.pg.toNat w e = true ∧ p.resumeAt ≤ e
    let stores (c : Instr) (op : PvuOp) (d : Nat → Int) : Prop := s.pvuAccepts op i → (s.pvuRes op i).exc = none →
      s.pvuGives c i.pvu (fun q =>
        ∀ e k, active e → k < n →
          (∀ e' k', active e' → k' < n → e < e' ∨ (e = e' ∧ k < k') → jobAddr p (p.lsOff i (d e') + k') ≠ jobAddr p (p.lsOff i (d e) + k)) →
          (KV.getD q.ls (jobAddr p (p.lsOff i (d e) + k)) 0).toNat = p.laneL i.rd.toNat w e / 256 ^ k % 256)
    stores (.vst i) opVst (fun e => (e * n : Nat)) ∧ stores (.vsts i) opVsts (fun e => e * (p.xReg i.rb.toNat).toInt)
      ∧ stores (.vscatter i) opVscatter (fun e => (p.laneL i.rb.toNat w e * n : Nat))

/-- Local-store stores change the bytes they address and no other (R256, R257): every address that no byte of an active element has reads as before, and the
program counter goes on; SST stores the 16 bytes of Sd and XST the low w bytes of Xd. -/
def Obligations.LocalStoreStores : Prop :=
  ∀ (s : State) (i : PvuWord),
    let p := s.getPvu i.pvu
    let w := i.w.toNat
    let n := 2 * 2 ^ w
    let active (e : Nat) : Prop := e < 512 / 2 ^ w ∧ p.governs i.pg.toNat w e = true ∧ p.resumeAt ≤ e
    let stores (c : Instr) (op : PvuOp) (d : Nat → Int) : Prop := s.pvuAccepts op i → (s.pvuRes op i).exc = none →
      s.pvuGives c i.pvu (fun q => q.pc = p.pc + 1 ∧ ∀ a, (∀ e k, active e → k < n → a ≠ jobAddr p (p.lsOff i (d e) + k)) →
        KV.getD q.ls a 0 = KV.getD p.ls a 0)
    let one (c : Instr) (op : PvuOp) (m v : Nat) : Prop := s.pvuAccepts op i → (s.pvuRes op i).exc = none →
      s.pvuGives c i.pvu (fun q => q.pc = p.pc + 1
        ∧ (∀ a, (∀ k, k < m → a ≠ jobAddr p (p.lsOff i 0 + k)) → KV.getD q.ls a 0 = KV.getD p.ls a 0)
        ∧ (∀ k, k < m → (∀ k', k < k' → k' < m → jobAddr p (p.lsOff i 0 + k') ≠ jobAddr p (p.lsOff i 0 + k)) →
            (KV.getD q.ls (jobAddr p (p.lsOff i 0 + k)) 0).toNat = v / 256 ^ k % 256))
    stores (.vst i) opVst (fun e => (e * n : Nat)) ∧ stores (.vsts i) opVsts (fun e => e * (p.xReg i.rb.toNat).toInt)
      ∧ stores (.vscatter i) opVscatter (fun e => (p.laneL i.rb.toNat w e * n : Nat))
      ∧ one (.sst i) opSst 16 (vget p.s i.rd.toNat 0).toNat ∧ one (.xst i) opXst n (p.xReg i.rd.toNat).toNat

/-- The invariant of the engines' memories: from every state, a step keeps every local store in canonical form (addresses rising, no zero byte listed) and
every valid modulus context within the checks of R197. -/
def Obligations.PvuInvariant : Prop := ∀ (s t : State), s.pvuInv → step s = .next t → t.pvuInv

/-- NTT and the pointwise products (R262, R263): the transform's sums of powers of the root in bit-reversed order, of a FULL and of an INCOMPLETE context, for one
or two polynomials of an operand or one over two registers (R200); PWMUL, and PWMAC which adds to d, coefficient by coefficient or modulo X² − γ. -/
def Obligations.NttTransforms : Prop :=
  ∀ (s : State) (i : PvuWord) (h k : Nat),
    let p := s.getPvu i.pvu
    let w := i.w.toNat
    let c := vget p.m i.mc.toNat {}
    let at_ (q : Pvu) (r j : Nat) : Nat := q.coef w r (h * c.n + j)
    let a (j : Nat) : Nat := at_ p i.ra.toNat j
    let b (j : Nat) : Nat := at_ p i.rb.toNat j
    let d (j : Nat) : Nat := at_ p i.rd.toNat j
    let g : Nat := c.omega ^ c.pointExp k
    let cell (j e : Nat) : Nat := p.coef w j e
    p.modsOk → h < polysHeld w c →
    (c.incomplete = false →
      (k < c.n → s.pvuAccepts opNtt i → s.pvuGives (.ntt i) i.pvu (fun q => q.pc = p.pc + 1
        ∧ at_ q i.rd.toNat k = ((List.range c.n).map (fun j => a j * g ^ j)).sum % c.q))
      ∧ (k < 512 / 2 ^ w →
        (s.pvuAccepts opPwmul i → s.pvuGives (.pwmul i) i.pvu (fun q => q.pc = p.pc + 1
          ∧ cell i.ra.toNat k * cell i.rb.toNat k % c.q = q.coef w i.rd.toNat k))
        ∧ (s.pvuAccepts opPwmac i → s.pvuGives (.pwmac i) i.pvu (fun q => q.pc = p.pc + 1
          ∧ (cell i.rd.toNat k + cell i.ra.toNat k * cell i.rb.toNat k) % c.q = q.coef w i.rd.toNat k))))
    ∧ (c.incomplete = true → k < c.n / 2 →
      (∀ e, e < 2 → s.pvuAccepts opNtt i → s.pvuGives (.ntt i) i.pvu (fun q => q.pc = p.pc + 1
        ∧ at_ q i.rd.toNat (2 * k + e) = ((List.range (c.n / 2)).map (fun j => a (2 * j + e) * g ^ j)).sum % c.q))
      ∧ (let x0 := a (2 * k) * b (2 * k) + a (2 * k + 1) * b (2 * k + 1) * g
         let x1 := a (2 * k) * b (2 * k + 1) + a (2 * k + 1) * b (2 * k)
         (s.pvuAccepts opPwmul i → s.pvuGives (.pwmul i) i.pvu (fun q => q.pc = p.pc + 1
           ∧ at_ q i.rd.toNat (2 * k) = x0 % c.q ∧ at_ q i.rd.toNat (2 * k + 1) = x1 % c.q))
         ∧ (s.pvuAccepts opPwmac i → s.pvuGives (.pwmac i) i.pvu (fun q => q.pc = p.pc + 1
           ∧ at_ q i.rd.toNat (2 * k) = (d (2 * k) + x0) % c.q ∧ at_ q i.rd.toNat (2 * k + 1) = (d (2 * k + 1) + x1) % c.q))))

/-- INTT is the exact inverse of NTT (R262): the transform's sums over its result give back the operand, reduced modulo q, and its result is reduced. -/
def Obligations.InverseTransform : Prop :=
  ∀ (s : State) (i : PvuWord) (h : Nat),
    let p := s.getPvu i.pvu
    let w := i.w.toNat
    let c := vget p.m i.mc.toNat {}
    let at_ (q : Pvu) (r j : Nat) : Nat := q.coef w r (h * c.n + j)
    p.modsOk → h < polysHeld w c → s.pvuAccepts opIntt i →
    s.pvuGives (.intt i) i.pvu (fun q => q.pc = p.pc + 1
      ∧ (∀ j, j < c.n → at_ q i.rd.toNat j < c.q)
      ∧ (c.incomplete = false → ∀ k, k < c.n →
          ((List.range c.n).map (fun j => at_ q i.rd.toNat j * (c.omega ^ c.pointExp k) ^ j)).sum % c.q = at_ p i.ra.toNat k % c.q)
      ∧ (c.incomplete = true → ∀ k e, k < c.n / 2 → e < 2 →
          ((List.range (c.n / 2)).map (fun j => at_ q i.rd.toNat (2 * j + e) * (c.omega ^ c.pointExp k) ^ j)).sum % c.q
            = at_ p i.ra.toNat (2 * k + e) % c.q))

/-- Encodings of coefficients (R264): VCOMPRESS, VDECOMPRESS, VP2R, VDECOMP, VMKHINT, VUSEHINT and VCENTER of every active element, VPACK bit by bit, VUNPACK of
every element, and VINF and VRED over the active ones. -/
def Obligations.PolynomialEncodings : Prop :=
  ∀ (s : State) (i : PvuWord) (e : Nat), e < 512 / 2 ^ i.w.toNat →
    let p := s.getPvu i.pvu
    let w := i.w.toNat
    let W := wBits w
    let n := i.imm.toNat
    let q0 := (vget p.m i.mc.toNat {}).q
    let m (k : Nat) : Nat := modOperand w (p.laneL i.ra.toNat w k)
    let mb := modOperand w (p.laneL i.rb.toNat w e)
    let on := p.governs i.pg.toNat w e
    let acts := (List.range (512 / 2 ^ w)).filter (fun k => p.governs i.pg.toNat w k)
    let small (x : Nat) : Nat := min (x % q0) (q0 - x % q0)
    let half := if n = 0 then (q0 - 1) / 88 else (q0 - 1) / 32
    let divides := if n = 0 then (q0 - 1) % 88 = 0 else (q0 - 1) % 32 = 0
    let rd := i.rd.toNat
    let gives (c : Instr) (op : PvuOp) (v : Nat) : Prop := s.pvuAccepts op i →
      s.pvuGives c i.pvu (fun q => q.laneL rd w e = (if on then v else p.laneL rd w e) ∧ q.pc = p.pc + 1)
    let two (q : Pvu) (r1 : Nat) (r0 : Int) : Prop := q.pc = p.pc + 1
      ∧ q.laneL rd w e = (if on then r1 else p.laneL rd w e)
      ∧ q.laneL (rd + 1) w e = (if on then (r0 % (q0 : Int)).toNat else p.laneL (rd + 1) w e)
    p.modsOk →
    gives (.vcompress i) opVcompress ((2 * 2 ^ n * m e + q0) / (2 * q0) % 2 ^ n)
      ∧ gives (.vdecompress i) opVdecompress ((2 * q0 * m e + 2 ^ n) / (2 * 2 ^ n) % q0)
      ∧ gives (.vcenter i) opVcenter (if m e % q0 ≤ (q0 - 1) / 2 then m e % q0 else 2 ^ W + m e % q0 - q0)
      ∧ (s.pvuAccepts opVpack i → s.pvuGives (.vpack i) i.pvu (fun q => q.pc = p.pc + 1 ∧ ∀ t, t < 8192 →
          (vget q.l rd 0).getLsbD t = (decide (t < n * (512 / 2 ^ w)) && (p.laneL i.ra.toNat w (t / n)).testBit (t % n))))
      ∧ (s.pvuAccepts opVunpack i → s.pvuGives (.vunpack i) i.pvu (fun q => q.pc = p.pc + 1
          ∧ q.laneL rd w e = (vget p.l i.ra.toNat 0).toNat / 2 ^ (e * n) % 2 ^ n))
      ∧ (s.pvuAccepts opVp2r i → ∃ (r1 : Nat) (r0 : Int), -4096 < r0 ∧ r0 ≤ 4096 ∧ ((m e % q0 : Nat) : Int) = r1 * 8192 + r0
          ∧ s.pvuGives (.vp2r i) i.pvu (fun q => two q r1 r0))
      ∧ (divides → s.pvuAccepts opVdecomp i → ∃ (r1 : Nat) (r0 : Int), Decomposed q0 half (m e) r1 r0
          ∧ s.pvuGives (.vdecomp i) i.pvu (fun q => two q r1 r0))
      ∧ (divides → s.pvuAccepts opVmkhint i → ∃ (x y : Nat) (r0 r0' : Int), Decomposed q0 half mb x r0 ∧ Decomposed q0 half (mb + m e) y r0'
          ∧ s.pvuGives (.vmkhint i) i.pvu (fun q =>
              q.laneL rd w e = (if on then (if x = y then 0 else 1) else p.laneL rd w e) ∧ q.pc = p.pc + 1))
      ∧ (divides → s.pvuAccepts opVusehint i → ∃ (x : Nat) (r0 : Int), Decomposed q0 half mb x r0
          ∧ s.pvuGives (.vusehint i) i.pvu (fun q => q.laneL rd w e = (if on then
                (if m e ≠ 1 then x else if 0 < r0 then (x + 1) % ((q0 - 1) / (2 * half)) else (x + ((q0 - 1) / (2 * half) - 1)) % ((q0 - 1) / (2 * half)))
              else p.laneL rd w e) ∧ q.pc = p.pc + 1))
      ∧ (s.pvuAccepts opVinf i → s.pvuGives (.vinf i) i.pvu (fun q => q.pc = p.pc + 1
          ∧ q.xReg rd = xWritten rd (BitVec.ofNat 64 ((acts.map (fun k => small (m k))).foldl max 0))))
      ∧ (s.pvuAccepts opVred i → s.pvuGives (.vred i) i.pvu (fun q => q.pc = p.pc + 1
          ∧ q.xReg rd = xWritten rd (BitVec.ofNat 64 ((acts.map m).sum % q0))))

/-- The Keccak units (R201, R202, R265), unmasked and from PUBLIC registers: KINIT clears a unit into ABSORB with its function and order; KABSS, KABSL and KABSX
take the first bytes of their register, a full rate block being permuted into the state; KFINAL pads the open block into the state and turns to SQUEEZE. -/
def Obligations.KeccakUnits : Prop :=
  ∀ (s : State) (i : PvuWord) (a : List W64) (b : List Byte),
    let p := s.getPvu i.pvu
    let u := i.imm.toNat % 2
    let k := p.getKu u
    let n := i.imm.toNat / 2
    let rate := kuRate k.fn
    let open_ := k.order = 0 ∧ k.shares = [a] ∧ a.length = 25 ∧ k.block = [b] ∧ b.length < rate
    let absorbs (c : Instr) (op : PvuOp) (tag : ShareTag) (bytes : List Byte) : Prop := s.pvuAccepts op i → open_ → tag = .pub →
      s.pvuGives c i.pvu (fun q => q.pc = p.pc + 1 ∧ q.getKu (1 - u) = p.getKu (1 - u)
        ∧ (let r := absorbBlocks rate 16 a (b ++ bytes.take n)
           (q.getKu u).shares = [r.1] ∧ (q.getKu u).block = [r.2] ∧ (q.getKu u).phase = .absorb ∧ (q.getKu u).fn = k.fn ∧ (q.getKu u).buf = k.buf))
    (s.pvuAccepts opKinit i → s.pvuGives (.kinit i) i.pvu (fun q => q.pc = p.pc + 1 ∧ q.getKu (1 - u) = p.getKu (1 - u)
        ∧ (let d := i.imm.toNat / 32
           q.getKu u = { phase := .absorb, fn := i.imm.toNat / 2 % 16, order := d, shares := List.replicate (d + 1) (List.replicate 25 0),
                         block := List.replicate (d + 1) [], buf := List.replicate (d + 1) [], freeAt := s.pvuStart opKinit i + 4 })))
      ∧ absorbs (.kabss i) opKabss (p.tag (.s i.ra.toNat)) (le 16 (vget p.s i.ra.toNat 0).toNat)
      ∧ absorbs (.kabsl i) opKabsl (p.tag (.l i.ra.toNat)) (le 1024 (vget p.l i.ra.toNat 0).toNat)
      ∧ absorbs (.kabsx i) opKabsx (p.tag (.x i.ra.toNat)) (le 8 (p.xReg i.ra.toNat).toNat)
      ∧ (s.pvuAccepts opKfinal i → open_ → s.pvuGives (.kfinal i) i.pvu (fun q => q.pc = p.pc + 1 ∧ q.getKu (1 - u) = p.getKu (1 - u)
          ∧ q.getKu u = { k with phase := .squeeze, shares := [xorBlock a (padBlock rate (kuSuffix k.fn) b)], block := [[]], stalled := false,
                                 freeAt := max k.freeAt (s.pvuStart opKfinal i + 1) + 25 }))

/-- Stream loads and samplers (R203, R259 to R261, R267 to R269) on an unmasked unit whose buffer holds the bytes, no permutation ending before the start: bytes leave the
head of the buffer in element order, for active elements only; FFCOUNT says where a first-fault load or a sampler stopped. -/
def Obligations.StreamsAndSampling : Prop :=
  ∀ (s : State) (i : PvuWord) (b : List Byte) (e : Nat), e < 512 / 2 ^ i.w.toNat →
    let p := s.getPvu i.pvu
    let w := i.w.toNat
    let n := 2 * 2 ^ w
    let rd := i.rd.toNat
    let old := p.laneL rd w e
    let act (j : Nat) : Bool := p.governs i.pg.toNat w j && decide (p.resumeAt ≤ j)
    let rank (j : Nat) : Nat := ((List.range j).filter act).length
    let total := rank (512 / 2 ^ w)
    let lim := (p.xReg i.rc.toNat).toNat / n
    let ready (op : PvuOp) (u need : Nat) : Prop := s.pvuAccepts op i ∧ (p.getKu u).phase = .squeeze ∧ (p.getKu u).order = 0
      ∧ (p.getKu u).hasShare = false ∧ (p.getKu u).buf = [b] ∧ need ≤ b.length ∧ ((p.getKu u).stalled = true ∨ s.pvuStart op i < (p.getKu u).freeAt)
    let left (q : Pvu) (u k : Nat) : Prop := q.pc = p.pc + 1 ∧ (q.getKu u).buf = [b.drop k]
    let q0 := (vget p.m i.mc.toNat {}).q
    let ub := i.rb.toNat % 2
    let ui := i.imm.toNat % 2
    let L := i.imm.toNat / 2 % 4096
    let eta := i.imm.toNat / 2 ^ 13 % 64
    let byte (k : Nat) : Nat := (b.getD k 0).toNat
    let bitAt (k : Nat) : Nat := byte (k / 8) / 2 ^ (k % 8) % 2
    let x := (p.xReg i.rb.toNat).toNat
    let fills (c : Instr) (op : PvuOp) (vals : List Nat) : Prop := ready op ui L → s.pvuGives c i.pvu (fun q => left q ui L
      ∧ q.ffcount = min 256 (x + vals.length) ∧ q.laneL rd w e = (if x ≤ e ∧ e < 256 then vals.getD (e - x) old else old))
    p.modsOk → p.predBites i.pg.toNat w = false →
    (ready opVldk ub (total * n) → s.pvuGives (.vldk i) i.pvu (fun q => left q ub (total * n)
        ∧ q.laneL rd w e = (if act e then unLe ((b.drop (rank e * n)).take n) else old)))
      ∧ (ready opVldkff ub (min lim total * n) → s.pvuGives (.vldkff i) i.pvu (fun q => left q ub (min lim total * n)
          ∧ q.laneL rd w e = (if act e = true ∧ rank e < lim then unLe ((b.drop (rank e * n)).take n) else old)
          ∧ (act e = true → (e < q.ffcount ↔ rank e < lim)) ∧ (total ≤ lim → p.xReg i.rc.toNat ≠ 0 → q.ffcount = 512 / 2 ^ w)
          ∧ (p.xReg i.rc.toNat = 0 → q.ffcount = 0)))
      ∧ (ready opSldk ub 16 → s.pvuGives (.sldk i) i.pvu (fun q => left q ub 16 ∧ (vget q.s rd 0).toNat = unLe (b.take 16)))
      ∧ fills (.samplentt i) opSamplentt ((List.range (L / 3)).flatMap (fun t =>
          [byte (3 * t) + 256 * (byte (3 * t + 1) % 16), byte (3 * t + 1) / 16 + 16 * byte (3 * t + 2)].filter (fun v => decide (v < q0))))
      ∧ fills (.samplerej i) opSamplerej (((List.range (L / 3)).map (fun t => unLe ((b.drop (3 * t)).take 3) % 2 ^ 23)).filter (fun v => decide (v < q0)))
      ∧ fills (.sampleeta i) opSampleeta (((List.range (2 * L)).map (fun t => byte (t / 2) / 16 ^ (t % 2) % 16)).filterMap (fun v =>
          if eta = 2 then (if v < 15 then some ((2 - ((v % 5 : Nat) : Int)) % (q0 : Int)).toNat else none)
          else (if v < 9 then some ((4 - (v : Int)) % (q0 : Int)).toNat else none)))
      ∧ (ready opSamplecbd ui (64 * eta) → s.pvuGives (.samplecbd i) i.pvu (fun q => left q ui (64 * eta)
          ∧ (let sum (o : Nat) : Nat := ((List.range eta).map (fun t => bitAt (2 * e * eta + o + t))).sum
             q.laneL rd w e = (if e < 256 then (((sum 0 : Int) - sum eta) % (q0 : Int)).toNat else old))))
      ∧ (ready opSampleball ui L → s.pvuGives (.sampleball i) i.pvu (fun q => left q ui L
          ∧ (let r := sampleBall q0 eta (b.take L)
             q.laneL rd w e = r.2.getD e 0 ∧ q.ffcount = 256 - eta + r.1)))

/-- The masking gadgets (R270), whatever the masks: the shares that a gadget writes spell the value it is to compute from the values that its source shares
spell, and UNMASK and MNORM answer that value in a PUBLIC register. -/
def Obligations.MaskingGadgets : Prop :=
  ∀ (s : State) (i : PvuWord) (e : Nat), e < 512 / 2 ^ i.w.toNat →
    let p := s.getPvu i.pvu
    let w := i.w.toNat
    let q0 := (vget p.m i.mc.toNat {}).q
    let rd := i.rd.toNat
    let n := i.imm.toNat
    let a := p.laneL i.ra.toNat w e
    let ar (k : Nat) : Nat := p.sumL i.ra.toNat w q0 k
    let gives (c : Instr) (op : PvuOp) (P : Pvu → Prop) : Prop := s.pvuAccepts op i → s.pvuGives c i.pvu (fun q => q.pc = p.pc + 1 ∧ q.order = p.order ∧ P q)
    let arith (c : Instr) (op : PvuOp) (v : Nat) : Prop := gives c op (fun q => q.sumL rd w q0 e = v)
    let bool (c : Instr) (op : PvuOp) (v : Nat) : Prop := gives c op (fun q => q.xorL rd w e = v)
    let half := if n / 2 = 0 then (q0 - 1) / 88 else (q0 - 1) / 32
    p.order ≤ 3 → p.modsOk →
    (n = 0 → arith (.mshare i) opMshare (modOperand w a % q0) ∧ arith (.mrefresh i) opMrefresh (p.sumL rd w q0 e)
        ∧ gives (.unmask i) opUnmask (fun q => q.laneL rd w e = ar e ∧ q.tag (.l rd) = .pub))
      ∧ (n = 1 → bool (.mshare i) opMshare a ∧ bool (.mrefresh i) opMrefresh (p.xorL rd w e)
        ∧ gives (.unmask i) opUnmask (fun q => q.laneL rd w e = p.xorL i.ra.toNat w e ∧ q.tag (.l rd) = .pub))
      ∧ bool (.ma2b i) opMa2b (ar e)
      ∧ arith (.mb2a i) opMb2a (modOperand w (p.xorL i.ra.toNat w e) % q0)
      ∧ bool (.mand i) opMand (p.xorL i.ra.toNat w e &&& p.xorL i.rb.toNat w e)
      ∧ bool (.mcomp i) opMcomp ((2 * 2 ^ (n / 2) * ar e + q0) / (2 * q0) % 2 ^ (n / 2))
      ∧ ((if n / 2 = 0 then (q0 - 1) % 88 = 0 else (q0 - 1) % 32 = 0) → rd ≠ i.rc.toNat → s.pvuAccepts opMdecomp i →
          ∃ (r1 : Nat) (r0 : Int), Decomposed q0 half (ar e) r1 r0
            ∧ gives (.mdecomp i) opMdecomp (fun q => q.sumL rd w q0 e = r1 ∧ q.sumL i.rc.toNat w q0 e = (r0 % (q0 : Int)).toNat))
      ∧ gives (.mnorm i) opMnorm (fun q => q.tag (.x rd) = .pub ∧ q.xReg rd = xWritten rd (if
          (List.range (512 / 2 ^ w)).all (fun k => !p.governs i.pg.toNat w k || decide (min (ar k) (q0 - ar k) < n / 2)) then 1 else 0))
      ∧ gives (.meq i) opMeq (fun q => q.xorS rd = (if
          (List.range (512 / 2 ^ w)).all (fun k => !p.governs i.pg.toNat w k || decide (p.xorL i.ra.toNat w k = p.xorL i.rb.toNat w k)) then 1 else 0))
      ∧ bool (.msel i) opMsel (if (p.xorS i.rc.toNat).testBit 0 then p.xorL i.ra.toNat w e else p.xorL i.rb.toNat w e)

/-- Exceptions (R222, R225, R228 to R230), of every PVU instruction: a cause found before its body runs enters the pattern's handler where it can be resumed, with the
registers, flags, local store and units unchanged, and else ends the segment; FAIL ends it with FAIL; a segment at its declared worst case, and SEGMENT_OVERRUN, end it with
OVERRUN. ECAUSE and EPC say what and where. -/
def Obligations.PvuExceptions : Prop :=
  ∀ (s : State) (c : Instr) (op : PvuOp) (i : PvuWord), s.pvuRuns i.pvu → s.quiet →
    let p := s.getPvu i.pvu
    let ends (c : Instr) (cause : Nat) : Prop := s.pvuGives c i.pvu (fun q => q.phase = .dummy ∧ q.exc.ecause = cause ∧ q.exc.epc = p.pc
      ∧ q.exc.eidx = 0 ∧ q.exc.eaddr = 0 ∧ q.exc.epart = false)
    (∀ cause, pvuRow c = some (op, i) → s.pvuStart op i < p.budget → op.check (s.pvuReady i.pvu) i = some cause →
      (∀ h, p.phase = .running → p.ehandler = some h → p.vendor = false → resumable cause = true → s.pvuGives c i.pvu (fun q =>
        q.phase = .handler ∧ q.pc = h ∧ q.exc = { ecause := cause, epc := p.pc } ∧ q.SameArch p ∧ q.cyc = s.pvuStart op i + 12))
      ∧ (p.phase = .running → p.ehandler = none ∨ p.vendor = true ∨ resumable cause = false → ends c cause)
      ∧ (p.phase = .handler → resumable cause = true → ends c 0x0B))
    ∧ (s.pvuAccepts opFail i → ends (.failH i) 0x0C)
    ∧ (pvuRow c = some (op, i) → p.budget ≤ s.pvuStart op i → ends c 0x0A)
    ∧ (i.pvu < s.pvus → ends (.segmentOverrun i.pvu) 0x0A)

/-- SEGMENT_START (R196, R219, R220, R246): the booked segment of a job that has not ended starts in its slot with cleared registers, its first instruction at cycle 16, the booking's cycles as its budget and the job's pages; a pattern's segment
starts at the entry its container names; nothing starts on a PVU that runs. What a segment reads of its job (R209, R247): SYSRD answers the order, the segment's index, the job's pages or, in a sign slot, the attempt;
KLOAD writes share k of the key's bytes to the k-th register of its group, with the tag of that share. -/
def Obligations.SegmentStart : Prop :=
  (
    ∀ (s : State) (n index : Nat) (b b0 : Booking) (id part parts : Nat),
      let p := s.getPvu n
      let j := s.getJob id
      let slot := s.slot n s.trd.edge
      s.running = true → s.trd.ready = true → n < s.pvus → s.retired (0x10 + n) = false → p.powered = true →
      (p.phase ≠ .dummy → exec (.segmentStart n { index := index }) s = .next s)
      ∧ (p.phase = .dummy → p.slotTick ≠ s.trd.edge ∨ p.slotNext ≤ index →
          slot[0]? = some b0 → wholeSlot b0 = false ∨ b0.kind = b.kind → slot[index]? = some b → b.job = some id → j.dummyWork = false →
          b.kind = .segment part parts ∨ b.kind = .whole part parts →
          s.pvuGives (.segmentStart n { index := index }) n (fun q => q.phase = .running ∧ q.cyc = 16 ∧ q.budget = b.cycles ∧ q.order = b.order ∧ q.jobId = some id
              ∧ q.segIndex = part ∧ q.slotTick = s.trd.edge ∧ q.slotNext = index + 1 ∧ q.jobPages = s.pagesOf id n ∧ q.retStack = []
              ∧ (∀ k, q.xReg k = 0) ∧ (∀ k, vget q.l k 0 = 0) ∧ (∀ k, vget q.s k 0 = 0) ∧ (∀ k, (vget q.m k {}).valid = false) ∧ (∀ k, (q.getKu k).phase = .idle)
              ∧ (j.opcode ≠ 0x0900 → q.vendor = true ∧ q.pc = 0)
              ∧ (∀ x, j.opcode = 0x0900 → s.patFind j.fn (p16 j.par 0) = some x →
                  q.vendor = false ∧ q.pc = field x.container (segRecord part) 2 ∧ q.progLen = field x.container 8 2)))
  )
  ∧ (
    ∀ (s : State) (i : PvuWord),
      let p := s.getPvu i.pvu
      let n := i.imm.toNat
      let rd := i.rd.toNat
      let o := n % 65536
      (s.pvuAccepts opSysrd i → s.pvuGives (.sysrd i) i.pvu (fun q => q.pc = p.pc + 1
          ∧ (n = 0 → q.xReg rd = xWritten rd (BitVec.ofNat 64 p.order)) ∧ (n = 1 → q.xReg rd = xWritten rd (BitVec.ofNat 64 p.segIndex))
          ∧ (n = 2 → q.xReg rd = xWritten rd (BitVec.ofNat 64 p.jobPages.length))
          ∧ (n = 3 → q.xReg rd = xWritten rd (if p.signSlot then BitVec.ofNat 64 p.attempt else 0))))
      ∧ (p.order ≤ 3 → n / 65536 % 2 = 0 → o + 1024 ≤ (p.keyShares.headD []).length → s.pvuAccepts opKload i →
          s.pvuGives (.kload i) i.pvu (fun q => q.pc = p.pc + 1 ∧ ∀ k, k ≤ p.order →
            (vget q.l (rd + k) 0).toNat = unLe (slice (p.keyShares.getD k []) o 1024) ∧ q.tag (.l (rd + k)) = .share k ((Reg.l (rd + k)).group p.order)))
      ∧ (p.order ≤ 3 → n / 65536 % 2 = 1 → o + 16 ≤ (p.keyShares.headD []).length → s.pvuAccepts opKload i →
          s.pvuGives (.kload i) i.pvu (fun q => q.pc = p.pc + 1 ∧ ∀ k, k ≤ p.order →
            (vget q.s (rd + k) 0).toNat = unLe (slice (p.keyShares.getD k []) o 16) ∧ q.tag (.s (rd + k)) = .share k ((Reg.s (rd + k)).group p.order)))
  )

-- BNE commands.

/-- Every BNE command of a run whose word is valid and whose operands carry no mark completes (R370 to R373, R386): the command counts and its cycles pass, its result is
written (MEXP's powers of the base in the window slots too), and but for the slots it writes, the buffers, the run's flags, its dummy steps' draws and the sequencer everything
stays, on that BNE and elsewhere but for counted events and interrupts. -/
def Obligations.BneCommandCompletes : Prop :=
  ∀ (s : State) (c : Instr) (o : BneOp) (i : BneWord), bneRow c = some (o, i) → s.bneTakes o i →
    let b := s.getBne i.bne
    let reads := (List.range 128).filter (fun k => (o.useA && decide (k = i.a.toNat)) || (o.useB && decide (k = i.b.toNat))
      || (decide (o.op = 0x0E) && decide (k = i.d.toNat)))
    let writes := (if o.useD && decide (o.op ≠ 0x0E) then [i.d.toNat] else []) ++ (if o.op = 0x0E then [i.a.toNat, i.b.toNat] else [])
      ++ (if o.op = 0x04 then [32 + 2 * i.mc.toNat, 33 + 2 * i.mc.toNat] else []) ++ (if o.op = 0x0B then List.range 32 else [])
    (∀ k ∈ reads, vget b.scorch k 0 = 0) → b.keyScorched = false →
    ∃ t q, exec c s = .next t ∧ (s.setBne i.bne q).Signals t ∧ b.OnlySlots writes q
      ∧ q.cmdIndex = b.cmdIndex + 1 ∧ q.realCyc = b.realCyc + (match s.bneRoutine o i with | none => bneCycles o.op i.len.toNat (o.exp i) | some x => x.clocks) ∧ q.pathDone = decide (o.op = 0x10)
      ∧ q = { b with slots := q.slots, scorch := q.scorch, outBuf := q.outBuf, rangeFail := q.rangeFail, notInvertible := q.notInvertible,
                     modulusInvalid := q.modulusInvalid, ctxLen := q.ctxLen, randUsed := q.randUsed, pathDone := q.pathDone,
                     cmdIndex := q.cmdIndex, realCyc := q.realCyc, cnt := q.cnt, mrgUsed := q.mrgUsed, stepCnt := q.stepCnt, stepAt := q.stepAt,
                     bob := { b.bob with micro := q.bob.micro, parked := q.bob.parked } }

/-- The results of the BNE commands (R368, R369, R372 to R375): modular results are those of the table for operands below m, and 0 with RANGE_FAIL for others; SETMOD sets m
and R² mod m; MINV inverts or says NOT_INVERTIBLE; MEXP powers under an odd m of at least 3; the moves are to the last byte. -/
def Obligations.BneResults : Prop :=
  ∀ (s : State) (i : BneWord),
    let b := s.getBne i.bne
    let L := i.len.toNat
    let M := 2 ^ (64 * L)
    let v (q : Bne) (k : Nat) : Nat := (vget q.slots k 0).toNat
    let x := v b i.a.toNat % M
    let y := v b i.b.toNat % M
    let m := v b (32 + 2 * i.mc.toNat)
    let d := i.d.toNat
    let n := i.imm.toNat
    let off := n % 16384
    let clean (k : Nat) : Prop := vget b.scorch k 0 = 0
    let gives (c : Instr) (o : BneOp) (P : Bne → Prop) : Prop := s.bneTakes o i → s.bneGives c i.bne P
    let modular (c : Instr) (o : BneOp) (inRange : Prop) (r : Nat) : Prop :=
      (inRange → gives c o (fun q => v q d = r % M ∧ q.rangeFail = b.rangeFail)) ∧ (¬inRange → gives c o (fun q => v q d = 0 ∧ q.rangeFail = true))
    modular (.madd i) bneOpMadd (x < m ∧ y < m) ((x + y) % m)
      ∧ modular (.msub i) bneOpMsub (x < m ∧ y < m) (((x : Int) - y) % (m : Int)).toNat
      ∧ modular (.mmul i) bneOpMmul (x < m ∧ y < m) (x * y % m)
      ∧ modular (.msqr i) bneOpMsqr (x < m) (x * x % m)
      ∧ (x < m → m < M → Nat.gcd x m = 1 → gives (.minv i) bneOpMinv (fun q => v q d * x % m = 1 % m ∧ v q d < m ∧ q.notInvertible = b.notInvertible))
      ∧ (x < m → Nat.gcd x m ≠ 1 → gives (.minv i) bneOpMinv (fun q => v q d = 0 ∧ q.notInvertible = true ∧ q.rangeFail = b.rangeFail))
      ∧ (clean i.b.toNat → m % 2 = 1 → 3 ≤ m → x < m → gives (.mexp i) bneOpMexp (fun q => v q d = x ^ (v b i.b.toNat % 2 ^ (n % 32768)) % m % M
          ∧ q.modulusInvalid = b.modulusInvalid))
      ∧ (clean i.b.toNat → m % 2 = 0 ∨ m < 3 → gives (.mexp i) bneOpMexp (fun q => v q d = 0 ∧ q.modulusInvalid = true))
      ∧ (clean i.a.toNat → 0 < x → gives (.setmod i) bneOpSetmod (fun q => v q (32 + 2 * i.mc.toNat) = x ∧ v q (33 + 2 * i.mc.toNat) = M ^ 2 % x
          ∧ vget q.ctxLen i.mc.toNat 0 = L ∧ q.modulusInvalid = (b.modulusInvalid || decide (x < 2))))
      ∧ gives (.range i) bneOpRange (fun q => q.rangeFail = (b.rangeFail || decide (m ≤ x) || (decide (n % 2 = 1) && decide (x = 0))))
      ∧ gives (.ldin i) bneOpLdin (fun q => v q d = (if n / 2 ^ 23 % 2 = 1 then unBe (slice b.inBuf off (8 * L)) else unLe (slice b.inBuf off (8 * L))))
      ∧ (b.keyScorched = false → gives (.ldkey i) bneOpLdkey (fun q => v q d = unLe (slice (b.keyParts.getD (n % 256) []) 0 (8 * L))))
      ∧ (clean i.a.toNat → b.outBuf.length = 8192 → gives (.stout i) bneOpStout (fun q => q.outBuf.length = 8192
          ∧ (∀ k, k < 8 * L → (q.outBuf.getD (off + k) 0).toNat = x / 256 ^ (if n / 2 ^ 23 % 2 = 1 then 8 * L - 1 - k else k) % 256)
          ∧ (∀ k, k < off ∨ off + 8 * L ≤ k → q.outBuf.getD k 0 = b.outBuf.getD k 0)))
      ∧ (b.randUsed + (8 * L + 8) ≤ b.randBuf.length → (if n % 2 = 1 then 2 ≤ m else 1 ≤ m) → m ≤ M → gives (.mrand i) bneOpMrand (fun q =>
          (let r := unLe (slice b.randBuf b.randUsed (8 * L + 8))
           v q d = (if n % 2 = 1 then r % (m - 1) + 1 else r % m)) ∧ q.randUsed = b.randUsed + (8 * L + 8)))
      ∧ gives (.mcopy i) bneOpMcopy (fun q => v q d = x)
      ∧ (clean d → v b d / 2 ^ off % 2 = 1 → gives (.mcswap i) bneOpMcswap (fun q => v q i.a.toNat = y ∧ v q i.b.toNat = x))
      ∧ (clean d → v b d / 2 ^ off % 2 = 0 → gives (.mcswap i) bneOpMcswap (fun q => q.slots = b.slots))
      ∧ gives (.mclr i) bneOpMclr (fun q => v q d = 0)
      ∧ gives (.bneNop i) bneOpNop (fun q => q.slots = b.slots ∧ q.pathDone = false)
      ∧ gives (.bneEnd i) bneOpEnd (fun q => q.slots = b.slots ∧ q.pathDone = true)

/-- Runs of a BNE (R167, R370, R373, R377, R378, R381 to R383, R387): a booked run of a job that goes on starts with its input, cycles and ratio; W's end frees the engine; outside a
run commands change nothing; an invalid word ends the command path with cleared slots, and so do a result that fails its residues and a kernel's invariant that fails at END, whose
job is then faulted or holds INVARIANT_FAILED; a beat to the engine that is lost faults its job, and a share word lost twice raises KEY_SEAM (R612); a clear that does not read back as zero fires ZERO_FAIL; a ratio from 2 to 8 is taken while unlocked and no other. -/
def Obligations.BneRuns : Prop :=
  ∀ (s : State) (n : Nat) (val : W32),
    let b := s.getBne n
    let r := bits val 3 0
    (∀ bk id, s.running = true → s.trd.ready = true → n < s.bnes → n < 8 → s.retired (0x20 + n) = false → b.powered = true → b.phase ≠ .running →
      s.nextRun n = some bk → bk.job = some id →
      (let j := s.getJob id
       (needsInt j.opcode j.par = false ∧ j.opcode ≠ 0x0806) ∨ s.intSeeded = true →
       j.finished = false → j.squashed = false → j.faulted = false → j.failed = none →
        s.bneGives (.bneRunStart { bne := n }) n (fun q => q.phase = .running ∧ q.jobId = some id ∧ q.w = bk.cycles ∧ q.k = runRatio bk ∧ q.cmdIndex = 0 ∧ q.realCyc = 0
          ∧ q.pathDone = false ∧ q.inBuf = slice j.input 0 16384 ∧ q.outBuf = List.replicate 8192 0 ∧ q.nextStart = bk.start + 1 ∧ q.rangeFail = false))
      ∧ (∀ f r, s.beatSound f = false → s.beatSound r = false → (KV.get? s.jobs id).isSome = true →
          ∃ t, exec (.bneRunStart { bne := n, arrived := [.fabric f r] }) s = .next t ∧ (t.getJob id).faulted = true ∧ (t.getJob id).faultSrc = 0x5101
            ∧ t.tmp.seamFabric = satAdd (satAdd s.tmp.seamFabric 1 0xFFFF) 1 0xFFFF)
      ∧ (∀ w r, s.shareSound w = false → s.shareSound r = false →
          ∃ t, exec (.bneRunStart { bne := n, arrived := [.keyPath w r] }) s = .next t ∧ t.tmp.active.getLsbD 62 = true ∧ t.held.sticky.getLsbD 62 = true
            ∧ t.tmp.seamKey = satAdd (satAdd s.tmp.seamKey 1 0xFFFF) 1 0xFFFF))
    ∧ (s.running = true → n < s.bnes → n < 8 → b.phase = .running → ∃ t, exec (.bneRunEnd n) s = .next t ∧ t.jobs = s.jobs ∧ t.trd = s.trd ∧ t.pvu = s.pvu
        ∧ (t.getBne n).phase = .between ∧ (t.getBne n).jobId = none ∧ (t.getBne n).slots = b.slots)
    ∧ (∀ c o i, bneRow c = some (o, i) → s.present (0x20 + i.bne) = true → i.bne < 8 →
        let d := s.getBne i.bne
        let src := (0x20 + i.bne) * 256
        let clears (e : Nat) (P : Job → Prop) : Prop := ∃ (u : State) (x : Event), exec c s = .next (u.raise x) ∧ x.src = src + e
          ∧ (∀ k, vget (u.getBne i.bne).slots k 0 = 0) ∧ (u.getBne i.bne).outBuf = [] ∧ (u.getBne i.bne).pathDone = true
          ∧ (∀ id j, d.jobId = some id → KV.get? s.jobs id = some j → j.failed = none → P (u.getJob id));
        (¬(d.zeroing = true ∧ i.upset = .readBack) → s.running = false ∨ d.phase ≠ .running ∨ d.pathDone = true ∨ d.bob.parked = true → exec c s = .next s)
        ∧ (¬(d.zeroing = true ∧ i.upset = .readBack) → s.running = true → d.phase = .running → d.pathDone = false → d.bob.parked = false → o.valid i = false →
            s.bneGives c i.bne (fun q => (∀ k, vget q.slots k 0 = 0) ∧ q.outBuf = [] ∧ q.excLast.toNat / 2 ^ 24 = 6))
        ∧ (s.bneReady o i → residueChecked o.op = true → i.upset = .residue → (o.op = 0x0B → vget d.scorch i.b.toNat 0 = 0) →
            clears 0 (fun j => j.faulted = true))
        ∧ (s.bneReady o i → o.op = 0x10 → i.upset = .invariant → d.runKernel / 256 ≠ 8 → clears 1 (fun j => j.failed = some (0x0052, src + 1)))
        ∧ (d.zeroing = true → i.upset = .readBack → exec c s =
            .next ((s.setBne i.bne { d with zeroing := false, zeroOk := false, zeroTick := s.trd.edge % 65536 }).raise { src := src + 5 })))
    ∧ (n < s.bnes → n < 8 → s.pageWritable (0x20 + n) = true →
        ((s.getBlk (0x20 + n)).lock = true → exec (.bneDummyRatio n val) s = .next s)
        ∧ ((s.getBlk (0x20 + n)).lock = false → 2 ≤ r → r ≤ 8 → exec (.bneDummyRatio n val) s = .next (s.setBne n { b with ratio := r }))
        ∧ ((s.getBlk (0x20 + n)).lock = false → r < 2 ∨ 8 < r → s.bneGives (.bneDummyRatio n val) n (fun q => q.ratio = b.ratio)))

-- Commands of the job queues.

/-- Every computing command of the queues (R23, R25, R453, R563), at its job's turn, leaves its kernel's result with the job for the release edge; scorched data answers POISONED and
a failure of the job's engine that failure, but for a check of a hybrid or composite command's input that fails before (R400); before its turn, after it, or outside the running
module it changes nothing. -/
def Obligations.JobCommandComputes : Prop :=
  ∀ (s : State) (c : Instr) (op lag id : Nat) (k : Kernel) (j : Job), jobRow c = some (op, lag, id, k) →
    (s.computes op lag id j → s.jobWaits c = false →
      let first := comesFirst op (k s id j).2.status
      (first = false → s.bites j = true → ∃ u : State, exec c s = .next (u.modJob id (fun x => { x with result := some { status := 0x0050, detail := 0x4001 } }))
        ∧ u.jobs = s.jobs ∧ u.trd = s.trd ∧ u.queues = s.queues ∧ ∀ n, u.getPvu n = { s.getPvu n with cnt := (u.getPvu n).cnt })
      ∧ (∀ st d, first = false → s.bites j = false → j.failed = some (st, d) →
          exec c s = .next (s.setJob id { j with result := some { status := st, detail := BitVec.ofNat 64 d } }))
      ∧ (first = true ∨ (s.bites j = false ∧ j.failed = none) → exec c s = .next ((k s id j).1.modJob id (fun x => { x with result := some (k s id j).2 }))))
    ∧ (KV.get? s.jobs id = some j → j.result.isSome = true ∨ j.phase ≠ .admitted ∨ j.opcode ≠ op ∨ s.trd.edge < j.admitted + lag ∨ s.running = false →
        exec c s = .next s)
    ∧ (KV.get? s.jobs id = none → exec c s = .next s)

/-- Commands that change nothing but their job. The raw modular operations (R388 to R390): the modulus and the operands are big-endian numbers of 8L bytes; a modulus below 2 answers MODULUS_INVALID, an operand not below it OPERAND_RANGE, a value without
inverse NOT_INVERTIBLE; else the output is the table's result in 8L bytes; MOD_RAND draws. A stateful signature is that of the leaf that admission assigned and names it (R342, R347); STATEFUL_ADVANCE names the new N (R351), STATEFUL_STATUS answers the
record of the counters (R350); MCE_PIN answers the PVUs pinned (R361), HASH the digest (R738). -/
def Obligations.PureCommands : Prop :=
  (
    ∀ (s : State) (id : Nat) (j : Job),
      let n := 8 * p16 j.par 0
      let num (k : Nat) : Nat := unBe (slice j.input (k * n) n)
      let m := num 0
      let a := num 1
      let b := num 2
      let ends (c : Instr) (op : Nat) (r : Result) : Prop := s.runsClean op id j → exec c s = .next (s.setJob id { j with result := some r })
      let outs (c : Instr) (op v : Nat) : Prop := ends c op { output := be n v, outLen := n }
      let bad (c : Instr) (op : Nat) (two : Bool) : Prop := (m < 2 → ends c op { status := 0x0034 })
        ∧ (2 ≤ m → op = 0x0805 → m % 2 = 0 → ends c op { status := 0x0034 })
        ∧ (2 ≤ m → (op = 0x0805 → m % 2 = 1) → m ≤ a ∨ (two = true ∧ m ≤ b) → ends c op { status := 0x0032 })
      bad (.modAdd id) 0x0800 true ∧ bad (.modSub id) 0x0801 true ∧ bad (.modMul id) 0x0802 true ∧ bad (.modSqr id) 0x0803 false
        ∧ bad (.modInv id) 0x0804 false ∧ bad (.modExp id) 0x0805 false
        ∧ (2 ≤ m → a < m → b < m → outs (.modAdd id) 0x0800 ((a + b) % m) ∧ outs (.modSub id) 0x0801 (((a : Int) - b) % (m : Int)).toNat
            ∧ outs (.modMul id) 0x0802 (a * b % m))
        ∧ (2 ≤ m → a < m → outs (.modSqr id) 0x0803 (a * a % m) ∧ (m % 2 = 1 → outs (.modExp id) 0x0805 (a ^ unBe (slice j.input (2 * n) (p16 j.par 2)) % m))
            ∧ (Nat.gcd a m ≠ 1 → ends (.modInv id) 0x0804 { status := 0x0033 })
            ∧ (Nat.gcd a m = 1 → ∃ v, v < m ∧ v * a % m = 1 ∧ outs (.modInv id) 0x0804 v))
        ∧ (s.intAmple → 2 ≤ m → s.runsClean 0x0806 id j → ∃ t v, exec (.modRand id) s = .next t ∧ v < m ∧ (p8 j.par 4 % 2 = 1 → 1 ≤ v)
            ∧ (t.getJob id).result = some { output := be n v, outLen := n } ∧ t.ent.int.pos = s.ent.int.pos + (n + 8) ∧ t.queues = s.queues ∧ t.kst = s.kst)
  )
  ∧ (
    ∀ (s : State) (id : Nat) (j : Job),
      let ends (c : Instr) (op : Nat) (r : Result) : Prop := s.runsClean op id j → s.jobWaits c = false → exec c s = .next (s.setJob id { j with result := some r })
      let pins := (List.range 16).map (fun e => if (s.getPvu e).pin.map (·.1) = some j.e.keyHandle then 2 ^ e else 0)
      (∀ k q n, s.jobKey j = some k → j.leaf = some q → s.outNeedKey j k = some n →
          (let sig := (statefulSignature k q j.input ++ List.replicate n 0).take n
           let r : Result := { output := sig, outLen := n, detail := BitVec.ofNat 64 q }
           ends (.lmsSign id) 0x0311 r ∧ ends (.xmssSign id) 0x0319 r))
        ∧ (∀ q, j.leaf = some q → ends (.statefulAdvance id) 0x0321 { detail := BitVec.ofNat 64 q })
        ∧ (∀ k st, s.jobKey j = some k → k.st = some st → s.runsClean 0x0320 id j → ∃ r, exec (.statefulStatus id) s = .next (s.setJob id { j with result := some r })
            ∧ r.status = 0 ∧ r.outLen = 32 ∧ field r.output 0 8 = st.next % 2 ^ 64 ∧ field r.output 8 8 = st.durable % 2 ^ 64 ∧ field r.output 16 8 = st.keyEnd % 2 ^ 64
            ∧ field r.output 24 4 = st.reserve % 2 ^ 32)
        ∧ ends (.mcePin id) 0x0418 { detail := BitVec.ofNat 64 pins.sum } ∧ ends (.mceUnpin id) 0x0419 {}
        ∧ (let d := digestOf (p8 j.par 8) j.input (p16 j.par 10)
           ends (.hash id) 0x0710 { output := d, outLen := d.length })
  )

/-- Key generation by seed (R290, R294, R297, R332, R397, R460): ML-KEM, ML-DSA, SLH-DSA, EC, EdDSA, X25519 or X448, HQC and symmetric keys are stored under the assigned handle from the next
bytes of the internal DRBG, whose position moves past them and the nonce of the record in DRAM (R444); the result names the handle, and of other keys only whether the key cache and DRAM hold
them may change, to make room (R446). -/
def Obligations.KeyGeneration : Prop :=
  ∀ (s : State) (id : Nat) (j : Job) (h : W32), j.created = some h → s.intAmple → s.tablesInv →
    let p := j.par
    let after (c : Instr) (op n : Nat) (P : KeyObj → Prop) (out : List Byte) : Prop := s.runsClean op id j → ∃ t k, exec c s = .next t ∧ t.getKey h = some k ∧ P k
      ∧ k.usage = BitVec.ofNat 32 (p32 p 4) ∧ k.created = s.trd.edge ∧ k.serial = s.kst.nextSerial ∧ t.kst.nextSerial = s.kst.nextSerial + 1
      ∧ (t.getJob id).result = some { output := out, outLen := out.length, handle := h } ∧ t.ent.int.pos = s.ent.int.pos + n + 12
      ∧ (∀ h', h' ≠ h → s.getKey h' = none → t.getKey h' = none)
      ∧ (∀ h' x, h' ≠ h → s.getKey h' = some x → ∃ y, t.getKey h' = some y ∧ y = { x with inCache := y.inCache, inDram := y.inDram }) ∧ t.queues = s.queues ∧ t.trd = s.trd ∧ t.pvu = s.pvu ∧ t.held = s.held
    let pair (c : Instr) (op typ n : Nat) : Prop := after c op n (fun k => k.typ = typ ∧ k.pset = p8 p 0 ∧ k.order = genOrder typ (p8 p 0) (p8 p 1) ∧ k.pair = true
      ∧ k.priv = genPriv typ (p8 p 0) (s.intBytes n) ∧ k.pub = genPub typ (p8 p 0) (s.intBytes n)) (genPub typ (p8 p 0) (s.intBytes n))
    pair (.mlkemKeygen id) 0x0200 1 64 ∧ pair (.mldsaKeygen id) 0x0210 2 32 ∧ pair (.slhdsaKeygen id) 0x0300 4 (3 * slhN (p8 p 0))
      ∧ pair (.ecKeygen id) 0x0510 10 (curveOf (p8 p 0)).drawLen ∧ pair (.eddsaKeygen id) 0x0520 11 (privLen 11 (p8 p 0))
      ∧ pair (.xdhKeygen id) 0x0530 12 (privLen 12 (p8 p 0)) ∧ pair (.hqcKeygen id) 0x0400 7 (80 + (hqcSet (p8 p 0)).k)
      ∧ after (.symKeygen id) 0x0108 (symLen (p8 p 0) (p8 p 1) (p16 p 10)) (fun k => k.typ = p8 p 0 ∧ k.pset = p8 p 1
          ∧ k.priv = s.intBytes (symLen (p8 p 0) (p8 p 1) (p16 p 10))) []

/-- Keys that are read, tightened and deleted (R451, R458 to R462): the public part and the attributes are output; KEY_ATTR_SET refuses a change that loosens and leaves the key, and after one that tightens no
usage bit is set that was clear; KEY_BIND holds at most four bindings; a deleted key's cleanup removes it, and only it, with its slots. -/
def Obligations.KeyAttributes : Prop :=
  ∀ (s : State) (id : Nat) (j : Job) (k : KeyObj), j.cluster = none → s.getKey j.e.keyHandle = some k →
    (k.inDram = true → s.intAmple) → s.mem.injArmed = false →
    let h := j.e.keyHandle
    let u : W32 := BitVec.ofNat 32 (p32 j.par 4)
    let o := p8 j.par 2
    let ends (c : Instr) (op : Nat) (r : Result) : Prop := s.runsClean op id j → exec c s = .next (s.setJob id { j with result := some r })
    let sets (c : Instr) (op : Nat) (P : KeyObj → Prop) (Q : Result → Prop) : Prop := s.runsClean op id j → ∃ t k' r, exec c s = .next t ∧ t.getKey h = some k' ∧ P k'
      ∧ (t.getJob id).result = some r ∧ Q r ∧ (∀ h', h' ≠ h → t.getKey h' = s.getKey h') ∧ t.queues = s.queues ∧ t.pvu = s.pvu
    let flashOut := k.inFlash = true ∧ s.fls.state = 2
    ends (.pubkeyRead id) 0x0103 { output := k.pub, outLen := k.pub.length }
      ∧ ends (.keyAttrRead id) 0x0105 { output := attrRecord h k, outLen := (attrRecord h k).length }
      ∧ (tightens k.usage u k.order o = false → sets (.keyAttrSet id) 0x0106 (fun k' => k' = k) (fun r => r.status = 0x0024))
      ∧ (tightens k.usage u k.order o = true → ¬flashOut → sets (.keyAttrSet id) 0x0106
          (fun k' => k' = { k with usage := u, order := if o = 0 then k.order else o } ∧ (∀ b, b < 12 → k'.usage.getLsbD b = true → k.usage.getLsbD b = true))
          (fun r => r.status = 0))
      ∧ (k.bindings.length ≤ 4 → sets (.keyBind id) 0x0107 (fun k' => k'.bindings.length ≤ 4 ∧ k' = { k with bindings := k'.bindings }) (fun _ => True))
      ∧ (s.runsClean 0x0104 id j → ∃ t, exec (.keyDelete id) s = .next t ∧ (t.getJob id).result = some {} ∧ t.kst.objs = s.kst.objs
          ∧ (usagePersist k.usage = true → ∃ r, t.kst.waiting = s.kst.waiting ++ [r] ∧ r.typ = 7 ∧ r.handle = h ∧ r.job = some id))
      ∧ (s.kst.cleanup.contains h = true → k.deleted = true → k.holders = [] → ∃ t, exec (.keyDeleteCleanup h) s = .next t ∧ t.getKey h = none
          ∧ (∀ h', h' ≠ h → t.getKey h' = s.getKey h') ∧ h ∉ t.kst.cleanup ∧ (∀ x ∈ t.trd.sets, x.2.1 ≠ h) ∧ (∀ p ∈ t.dgs.slots, p.2.handle ≠ h)
          ∧ t.jobs = s.jobs ∧ t.queues = s.queues)
      ∧ (k.deleted = false ∨ k.holders ≠ [] → exec (.keyDeleteCleanup h) s = .next s)

/-- What the queues' jobs leave behind: a NOP is answered OK as soon as it is at rest (R109); a drained PVU takes a key, whose bytes then stand from offset 0 of its local store, and gives it back with a cleared local store (R218, R361, R363); a programmed journal
page makes its records durable, in order (R343, R465); an erase drops its object, and a failed program or erase costs a spare block (R462, R569). -/
def Obligations.QueueAftermath : Prop :=
  ∀ (s : State) (id n : Nat) (j : Job) (k : KeyObj) (h : W32),
    let x := s.getPvu n
    let lost (t : State) : Prop := t.fls.spare = s.fls.spare - 1 ∧ t.fls.good = s.fls.good - 1
    (KV.get? s.jobs id = some j → j.q ≠ 64 → j.opcode = 0 → j.phase = .staged → (s.getFn j.fn).state = 2 → s.running = true → s.deviceStatus = none →
        (j.fence && s.earlier j (fun _ => true)) = false → ∃ t, exec (.queueNop id) s = .next t ∧ t.answered id 0)
    ∧ (KV.get? s.jobs id = some j → j.opcode ≠ 0 ∨ j.phase ≠ .staged ∨ s.running = false ∨ (j.fence && s.earlier j (fun _ => true)) = true → exec (.queueNop id) s = .next s)
    ∧ (n < 16 → x.pinning = some h → s.drained n = true → s.running = true → s.getKey h = some k → ∃ t, exec (.pinLoad n) s = .next t
        ∧ t.getPvu n = { x with pin := some (h, k.pub.length), pinning := none, unpinning := false, ls := (t.getPvu n).ls, lsTag := [], lsScorch := [], used := [] }
        ∧ (t.getPvu n).lsWf = true ∧ (∀ a, KV.getD (t.getPvu n).ls a 0 = k.pub.getD a 0)
        ∧ t.trd = { s.trd with sets := s.trd.sets.filter (fun y => decide (y.1 ≠ n)) } ∧ (∀ m, m ≠ n → t.getPvu m = s.getPvu m) ∧ t.jobs = s.jobs)
    ∧ (n < 16 → x.unpinning = true → s.drained n = true → ∃ t, exec (.unpinDone n) s = .next t
        ∧ t.getPvu n = { x with pin := none, unpinning := false, ls := [], lsTag := [], lsScorch := [], used := [] } ∧ (∀ m, m ≠ n → t.getPvu m = s.getPvu m) ∧ t.jobs = s.jobs ∧ t.trd = s.trd)
    ∧ (s.drained n = false → exec (.pinLoad n) s = .next s ∧ exec (.unpinDone n) s = .next s)
    ∧ (s.kst.programming = true → s.pcr.frozen = false → s.kst.commitDue = false → ∃ t, exec (.journalProgramDone true) s = .next t ∧ t.kst.programming = false ∧ t.kst.page = []
        ∧ t.kst.settled = s.kst.settled ++ s.kst.page ∧ t.kst.pageSeq = s.kst.pageSeq + 1 ∧ (s.kst.sinceCkpt + 1 < 65536 →
          t.kst.durable = { seq := s.kst.pageSeq + 1, tick := s.kst.pageTick, ckpt := s.kst.ckptSeq, recs := s.kst.page } :: s.kst.durable)
        ∧ t.kst.waiting = s.kst.waiting ∧ t.jobs = s.jobs)
    ∧ (s.kst.programming = false ∨ s.pcr.frozen = true → ∀ ok, exec (.journalProgramDone ok) s = .next s)
    ∧ (s.kst.programming = true → s.pcr.frozen = false → ∃ t, exec (.journalProgramDone false) s = .next t ∧ lost t)
    ∧ (s.kst.erase.contains n = true → s.pcr.frozen = false →
        (∃ t, exec (.objectBlockErase n true) s = .next t ∧ t.kst.erase = s.kst.erase.erase n ∧ t.kst.objs = s.kst.objs ∧ t.jobs = s.jobs ∧ t.fls.spare = s.fls.spare)
        ∧ (∃ t, exec (.objectBlockErase n false) s = .next t ∧ lost t))

-- Admin commands.

/-- The admin commands of a function about itself (R132, R137 to R146, R275, R276), when MGC executes their entry: IDENTIFY answers 256 bytes with the fitted engines, the period and the lifecycle; SET_VERSION takes a mailbox version or says why not, and waits for an
exchange; QUEUE_CREATE answers the lowest free index or the first reason; QUEUE_DESTROY and QUEUE_CANCEL stop the queue, answer CANCELLED to what has not started, and end once nothing is left, a cancel with the next EPOCH; a pattern is loaded once, under an ID of
its own, and unloaded when no run is left; LOG_READ answers the records of a log the function may read. -/
def Obligations.AdminCommands : Prop :=
  ∀ (s : State) (id : Nat) (j : Job),
    let f := s.getFn j.fn
    let q := p16 j.par 0
    let at_ (op : Nat) : Prop := s.adminJob op id = some j ∧ j.result = none
    let bad (n : Nat) : Result := { status := 0x0014, detail := BitVec.ofNat 64 n }
    let ends (c : Instr) (u : State) (r : Result) : Prop := s.adminEnds c id j u r
    let d := j.input
    let opened (op : Nat) : Prop := s.adminOpen op id = some j
    let done (u : State) (r : Result) : State := u.setJob id { j with phase := .admitted, started := true, admitted := s.trd.edge, relEdge := s.trd.edge + 1, result := some r }
    let v := min (p8 j.par 1) 2
    (at_ 0x0001 → ∃ out, ends (.identify id) s { output := out, outLen := 256 } ∧ out.length = 256 ∧ field out 36 1 = s.pvus ∧ field out 37 1 = s.bnes ∧ field out 38 1 = s.cores
        ∧ field out 39 1 = s.portCount ∧ field out 44 2 = s.trd.period % 65536 ∧ field out 47 1 = s.held.life % 256 ∧ field out 48 2 = j.fn % 65536 ∧ field out 56 4 = f.keyLimit % 2 ^ 32
        ∧ field out 70 1 = f.mbxVer % 256)
    ∧ (at_ 0x0002 →
        (p8 j.par 0 ≠ 2 → ends (.setVersion id) s (bad 0x07)) ∧ (p8 j.par 0 = 2 → p8 j.par 1 = 0 → ends (.setVersion id) s (bad 0x05))
        ∧ (p8 j.par 0 = 2 → 1 ≤ v → f.up.full = false → f.dn.full = false → ends (.setVersion id) (s.setFn j.fn { f with mbxVer := v }) { detail := BitVec.ofNat 64 v })
        ∧ (p8 j.par 0 = 2 → 1 ≤ v → f.up.full = true ∨ f.dn.full = true → ∃ t, exec (.setVersion id) s = .next t ∧ t.getFn j.fn = { f with mbxNext := some (v, id) } ∧ t.adminHeld id))
    ∧ (∀ fn w, (s.getFn fn).mbxNext = some (w, id) → KV.get? s.jobs id = some j → s.running = true → (s.getFn fn).up.full = false → (s.getFn fn).dn.full = false →
        exec (.setVersionApply fn) s = .next (done (s.setFn fn { s.getFn fn with mbxVer := w, mbxNext := none }) { detail := BitVec.ofNat 64 w }))
    ∧ (at_ 0x0010 →
        (field d 0 8 % 4096 ≠ 0 ∨ field d 8 8 % 8 ≠ 0 → ends (.queueCreate id) s (bad 0x04))
        ∧ (∀ r, s.queueReason j.fn d = r → r ≠ 0 → ends (.queueCreate id) s (bad r))
        ∧ (s.queueReason j.fn d = 0 → f.ioqLimit ≤ 64 → ∃ k, k < 64 ∧ s.getQueue j.fn k = none ∧ (∀ m, m < k → (s.getQueue j.fn m).isSome = true)
            ∧ ends (.queueCreate id) s { detail := BitVec.ofNat 64 k }))
    ∧ (at_ 0x0011 → s.tablesInv → j.dupOf = none →
        (64 ≤ q ∨ s.getQueue j.fn q = none → ends (.queueDestroy id) s (bad 0x06))
        ∧ (∀ x, q < 64 → s.getQueue j.fn q = some x → ∃ t y, exec (.queueDestroy id) s = .next t ∧ t.getQueue j.fn q = some y ∧ y.stopped = true ∧ t.adminHeld id
            ∧ ∀ k, s.waitsIn j.fn q k → t.answered k 0x0060))
    ∧ (∀ x, opened 0x0011 → q < 64 → s.getQueue j.fn q = some x →
        (s.queueJobs j.fn q = [] → s.posts (.queueDestroyDone id) (done (s.dropQueue j.fn q) {})) ∧ (s.queueJobs j.fn q ≠ [] → exec (.queueDestroyDone id) s = .next s))
    ∧ (at_ 0x0014 → s.tablesInv → j.dupOf = none →
        (64 ≤ q ∨ s.getQueue j.fn q = none → ∀ rs, ends (.queueCancel id rs) s (bad 0x06))
        ∧ (∀ x, q < 64 → s.getQueue j.fn q = some x → ∃ t y, exec (.queueCancel id []) s = .next t ∧ t.getQueue j.fn q = some y ∧ y.stopped = true ∧ y.cache = [] ∧ y.sp = x.sp ∧ t.adminHeld id
            ∧ ∀ k, s.waitsIn j.fn q k → s.cancellable (s.getJob k) = true → t.answered k 0x0060))
    ∧ (∀ x, opened 0x0014 → s.getQueue j.fn q = some x → j.cancelRest = none → s.queueJobs j.fn q = [] →
        s.posts (.queueCancelDone id) (done (s.setQueue j.fn q { x with epoch := x.epoch + 1 }) { detail := BitVec.ofNat 64 j.cancelled }))
    ∧ (at_ 0x0020 →
        (containerOk d = false → ends (.patternLoad id) s { status := 0x0030, detail := 0x0D })
        ∧ (∀ p, containerOk d = true → (s.fnPatterns j.fn).find? (fun p => decide (p.digest = slice d 32 32)) = some p → ends (.patternLoad id) s { detail := BitVec.ofNat 64 p.id })
        ∧ (containerOk d = true → (∀ p ∈ s.fnPatterns j.fn, p.digest ≠ slice d 32 32) → 16 ≤ (s.fnPatterns j.fn).length → ends (.patternLoad id) s (bad 0x09))
        ∧ (containerOk d = true → (∀ p ∈ s.fnPatterns j.fn, p.digest ≠ slice d 32 32) → (s.fnPatterns j.fn).length < 16 → s.patternWords + cNcode d ≤ 32768 →
            ∃ n, n < 65536 ∧ (∀ p ∈ s.fnPatterns j.fn, p.id ≠ n) ∧ ends (.patternLoad id) { s with
              nextPattern := s.nextPattern + 1, patterns := KV.set s.patterns s.nextPattern { fn := j.fn, id := n, container := d, digest := slice d 32 32, unloading := none } } { detail := BitVec.ofNat 64 n }))
    ∧ (at_ 0x0021 →
        (s.patKey j.fn q = none → ends (.patternUnload id) s (bad 0x0A))
        ∧ (∀ k p, s.patKey j.fn q = some (k, p) → ∃ t, exec (.patternUnload id) s = .next t ∧ t.adminHeld id ∧ t.patterns = KV.set s.patterns k { p with unloading := some id } ∧ t.queues = s.queues))
    ∧ (∀ k p, opened 0x0021 → s.patKey j.fn q = some (k, p) → p.unloading = some id →
        (∀ x ∈ s.jobs, x.2.fn ≠ j.fn ∨ x.2.opcode ≠ 0x0900 ∨ x.2.phase ≠ .admitted ∨ p16 x.2.par 0 ≠ p.id ∨ x.2.cluster ≠ none) →
        exec (.patternUnloadDone id) s = .next (done { s with patterns := KV.erase s.patterns k } {}))
    ∧ (at_ 0x0030 →
        (∀ recs, s.logRecords j.fn (p8 j.par 0) = some recs → ends (.logRead id) s (logAnswer recs (field j.par 4 8) j.e.outCap))
        ∧ (j.fn ≠ 0 → p8 j.par 0 ≠ 1 → ends (.logRead id) s (bad 0x0B)) ∧ (4 < p8 j.par 0 → ends (.logRead id) s (bad 0x0B)))

/-- Observation, patches and dirty-page logs (R147, R509 to R519, R552 to R554, R670, R675): a counter is assigned with value 0 to its owner, and released; sampling and a dirty log are accepted or refused with their reason, and stopped; a dirty log's pages are answered and
cleared; an image is staged when no check refuses it; activation never lowers the anti-rollback counter; MGC writes a drained engine in its turn and no other, and reloads a sequencer from the image in force. A word of patch RAM at a command's dispatch entry runs in its place (R495, R500 to R502): a DISPATCH ends it after its CLEN clocks, a PARK leaves
the sequencer idle, and a RET on an empty micro-stack is a computation fault. -/
def Obligations.ObservationAndPatches : Prop :=
  ∀ (s : State) (id : Nat) (j : Job),
    let f := s.getFn j.fn
    let at_ (op : Nat) : Prop := s.adminJob op id = some j ∧ j.result = none
    let pmu (n : Nat) : Prop := at_ 0x0040 ∧ p8 j.par 0 = n
    let r (st n : Nat) : Result := { status := st, detail := BitVec.ofNat 64 n }
    let ends (c : Instr) (u : State) (x : Result) : Prop := s.adminEnds c id j u x
    let q := counterReq j.par
    let base := field j.input 0 8
    let len := field j.input 8 8
    let others := (s.funcs.filter (fun p => p.2.dirty.isSome && decide (p.1 ≠ j.inst))).length
    (pmu 1 → (j.fn ≠ 0 → ends (.pmuAssign id) s (r 0x0024 0x08)) ∧ (j.fn = 0 → s.counterOk q = false → ends (.pmuAssign id) s (r 0x0014 0x18))
        ∧ (j.fn = 0 → s.counterOk q = true → q.chain = true → ∃ t x, exec (.pmuAssign id) s = .next t ∧ KV.get? t.pmu.ctr q.c = some x ∧ x.value = 0 ∧ x.owner = q.owner ∧ x.chain = true
            ∧ (t.getJob id).result = some {} ∧ t.funcs = s.funcs ∧ t.pvu = s.pvu)
        ∧ (∀ u, j.fn = 0 → s.assignCounter q = some u → q.chain = false → ∃ t x, exec (.pmuAssign id) s = .next t ∧ KV.get? t.pmu.ctr q.c = some x ∧ x.value = 0 ∧ x.owner = q.owner ∧ x.chain = false
            ∧ x.blk = q.id / 65536 ∧ vget (t.getBlk x.blk).evtSel x.sel 0 = 0x80000000 ||| BitVec.ofNat 32 (q.id % 65536) ∧ (t.getBlk x.blk).evtEn = true ∧ (t.getJob id).result = some {}))
    ∧ (pmu 2 → (j.fn ≠ 0 → ends (.pmuRelease id) s (r 0x0024 0x08)) ∧ (j.fn = 0 → s.counterExists (p16 j.par 2) = false → ends (.pmuRelease id) s (r 0x0014 0x18))
        ∧ (j.fn = 0 → s.counterExists (p16 j.par 2) = true → ∃ t, exec (.pmuRelease id) s = .next t ∧ KV.get? t.pmu.ctr (p16 j.par 2) = none
            ∧ (∀ c, c ≠ p16 j.par 2 → KV.get? t.pmu.ctr c = KV.get? s.pmu.ctr c) ∧ (t.getJob id).result = some {}))
    ∧ (pmu 3 → (j.fn ≠ 0 → f.perm / 2 % 2 = 0 → ends (.sampleStart id) s (r 0x0024 0x08))
        ∧ (j.fn = 0 ∨ f.perm / 2 % 2 = 1 →
            (ringOk (field j.input 0 8) (field j.input 8 4) = false → ends (.sampleStart id) s (r 0x0014 0x04))
            ∧ (ringOk (field j.input 0 8) (field j.input 8 4) = true → sampleInterval j.par ≤ 16777216 → field j.input 12 4 = 0 → ends (.sampleStart id) s {})))
    ∧ (pmu 4 → (∀ m, f.sampling = some m → ends (.sampleStop id) (s.setFn j.fn { f with sampling := some { m with stopping := true } }) {})
        ∧ (f.sampling = none → ends (.sampleStop id) s {}))
    ∧ (at_ 0x0090 → (s.instIn j.inst [2] = false → ends (.dirtyLogStart id) s (r 0x0014 0x12))
        ∧ (s.instIn j.inst [2] = true → base % 4096 = 0 → len % 4096 = 0 → 4096 ≤ len → len ≤ 68719476736 → others < 16 → ends (.dirtyLogStart id) s {})
        ∧ (s.instIn j.inst [2] = true → base % 4096 ≠ 0 ∨ len % 4096 ≠ 0 → ends (.dirtyLogStart id) s (r 0x0014 0x04)))
    ∧ (at_ 0x0091 → (s.instIn j.inst [] = false ∨ (s.getFn j.inst).dirty = none → ends (.dirtyLogRead id) s (r 0x0014 0x12))
        ∧ (∀ d, s.instIn j.inst [] = true → (s.getFn j.inst).dirty = some d → d.pages.length < 2 ^ 63 →
            (let n := min j.e.outCap (ceilDiv (d.length / 4096 - p32 j.par 4) 8)
             let first := p32 j.par 4
             ∃ out e x, ends (.dirtyLogRead id) (s.setFn j.inst { s.getFn j.inst with dirty := some e }) x ∧ x.status = 0 ∧ x.output = out ∧ out.length = n
               ∧ (∀ p, first ≤ p → p < first + 8 * n → (out.getD ((p - first) / 8) 0).getLsbD ((p - first) % 8) = d.pages.contains p ∧ e.pages.contains p = false)
               ∧ (∀ p, p < first ∨ first + 8 * n ≤ p → e.pages.contains p = d.pages.contains p) ∧ e.outside = false
               ∧ x.detail.getLsbD 63 = d.outside)))
    ∧ (at_ 0x0092 → (∀ d, s.instIn j.inst [] = true → (s.getFn j.inst).dirty = some d → ends (.dirtyLogStop id) (s.setFn j.inst { s.getFn j.inst with dirty := none }) {})
        ∧ ((s.getFn j.inst).dirty = none → ends (.dirtyLogStop id) s (r 0x0014 0x12)))
    ∧ (at_ 0x0098 → (∀ st n, s.imageFault j.input = some (st, n) → ends (.patchLoad id) s (r st n))
        ∧ (s.imageFault j.input = none → s.held.patchCnt ≤ field j.input 8 4
            ∧ ends (.patchLoad id) { s with patches := { s.patches with images := KV.set s.patches.images 2 (imageOf j.input) } } {}))
    ∧ (at_ 0x0099 → (KV.get? s.patches.images 2 = none → ends (.patchActivate id) s (r 0x0014 0x11))
        ∧ (∀ im, KV.get? s.patches.images 2 = some im → ∃ t k, exec (.patchActivate id) s = .next t ∧ t.patches.active = some k ∧ KV.get? t.patches.images k = some im ∧ s.patches.active ≠ some k
            ∧ t.held.patchCnt = max s.held.patchCnt im.seq ∧ t.pvu = s.pvu ∧ t.bne = s.bne))
    ∧ (∀ x im code, s.patches.turn = some x → s.bootImage = some im → 
        ((turnHeads x.left).contains code = false ∨ s.engineDrained code = false → ∀ b, exec (.patchEngineTurn code b) s = .next s)
        ∧ ((turnHeads x.left).contains code = true → s.engineDrained code = true → s.pcr.frozen = false → 0x10 ≤ code → code < 0x20 → targeted im.targets code = true →
            ∃ t, exec (.patchEngineTurn code true) s = .next t ∧ (t.getPvu (code - 0x10)).bob.patchId = im.id ∧ (t.getPvu (code - 0x10)).bob.seq = im.seq
              ∧ (∀ m, m ≠ code - 0x10 → t.getPvu m = s.getPvu m) ∧ (∀ y, t.patches.turn = some y → y.left = x.left.filter (· ≠ code))))
    ∧ (∀ im code, s.engineCodes.contains code = true → (s.getBob code).reloading = true → s.bootImage = some im → targeted im.targets code = true →
        ∃ t, exec (.patchRamReloadDone code) s = .next t ∧ (t.getBob code).reloading = false ∧ (t.getBob code).patchId = im.id ∧ t.jobs = s.jobs)
    ∧ (at_ 0x009A → ∃ out, ends (.patchStatus id) s { output := out, outLen := 64 } ∧ out.length = 64 ∧ field out 0 4 = s.held.patchCnt % 2 ^ 32)
    ∧ (at_ 0x009B → ∀ im, p8 j.par 0 = 1 → KV.get? s.patches.images 2 = some im →
        (im.bytes.length ≤ j.e.outCap → ends (.patchRead id) s { output := im.bytes, outLen := im.bytes.length })
        ∧ (j.e.outCap < im.bytes.length → ends (.patchRead id) s { status := 0x0011, outLen := im.bytes.length }))
    ∧ (∀ c o i, bneRow c = some (o, i) → (s.present (0x20 + i.bne) = true ∧ i.bne < 8 ∧ s.running = true ∧ o.valid i = true ∧ i.upset = .none ∧ s.mem.injected = [] ∧ s.mem.injArmed = false) →
        (let b := s.getBne i.bne
         (∀ k, vget b.scorch k 0 = 0) → b.keyScorched = false → b.phase = .running → b.pathDone = false → b.bob.parked = false → 2 ≤ b.w →
         ∀ m w, b.bob.matches_.find? (fun m => decide (m.2.1 = bneEntry o.op)) = some m → KV.getD b.bob.patchRam m.2.2 0 = w →
           (uBits w 188 186 = 5 → s.bneGives c i.bne (fun q => q.realCyc = b.realCyc + [1, 2, 3, 4, 6, 8, 12, 16].getD (uBits w 191 189) 0 ∧ q.bob.parked = false))
           ∧ (uBits w 188 186 = 7 → s.bneGives c i.bne (fun q => q.bob.parked = true))
           ∧ (uBits w 188 186 = 4 → b.bob.micro.stack = [] → ∃ (u : State) (x : Event), exec c s = .next (u.raise x) ∧ x.src = (0x20 + i.bne) * 256
               ∧ (u.getBne i.bne).pathDone = true ∧ (u.getBne i.bne).excLast.toNat / 2 ^ 24 = 1)))

-- The Digest Service, the entropy unit, the Leakage Assessor and the stored-data units.

/-- The Digest Service (R405 to R420): a command outside its states, or one that a rule refuses, sets the view's error and changes nothing else; OPEN takes the lowest free context; START begins with the chaining value of the algorithm or of the keyed slot; data words
are buffered in order and a full block goes to the core, an overrun or an excess is marked; FINAL decides its error first, the result is that of the bytes given, and ABORT, CLOSE and the result register follow R409 and R415; SAVE and RESTORE carry a view in a sealed
blob; keyed slots are loaded from KST and unloaded while no view uses them. -/
def Obligations.DigestService : Prop :=
  ∀ (s : State) (fn v : Nat),
    let f := s.getFn fn
    let x := s.getView fn v
    let err (c : Instr) (e : Nat) : Prop := exec c s = .next (s.viewError fn v e)
    let alg := bits x.cfg 3 0
    let out := bits x.cfg 23 16
    let keyed := bit x.cfg 12
    let slot := bits x.cfg 11 8
    let blk := dgsBlock x.alg
    let kres (c : Instr) (u : State) (w : W32) : Prop := exec c s = .next (u.setWindow fn (fun d => { d with kresult := w }))
    (s.dgsOpen fn v = true →
      (x.state ≠ 0 → err (.dgsOpen fn v) 1) ∧ (x.state ≠ 1 → x.state ≠ 4 → err (.dgsStart fn v) 1) ∧ (x.state ≠ 2 → err (.dgsFinal fn v) 1 ∧ err (.dgsSave fn v) 1)
      ∧ (x.state < 2 ∨ 4 < x.state → err (.dgsAbort fn v) 1) ∧ (x.state = 0 ∨ 4 < x.state → err (.dgsClose fn v) 1) ∧ (x.state ≠ 1 → err (.dgsRestore fn v) 1)
      ∧ (x.state = 0 → f.dgsCtx ≤ s.ctxHeld fn ∨ (∀ c, c < 8 → (KV.get? s.dgs.ctx c).isSome = true) → err (.dgsOpen fn v) 2)
      ∧ (∀ c, x.state = 0 → s.ctxHeld fn < f.dgsCtx → c < 8 → KV.get? s.dgs.ctx c = none → (∀ k, k < c → (KV.get? s.dgs.ctx k).isSome = true) →
          exec (.dgsOpen fn v) s = .next (({ s with dgs := { s.dgs with ctx := KV.set s.dgs.ctx c (fn, v) } } : State).setView fn v { x with state := 1, ctx := c, err := 0 }))
      ∧ (x.state = 1 ∨ x.state = 4 →
          (alg = 0 ∨ 8 < alg ∨ (keyed = true ∧ 7 ≤ alg) ∨ (alg < 7 ∧ out ≠ 0) ∨ (7 ≤ alg ∧ (out = 0 ∨ 64 < out)) ∨ 2 ^ 61 - 1 < x.len → err (.dgsStart fn v) 3)
          ∧ (1 ≤ alg → alg ≤ 6 ∨ (alg ≤ 8 ∧ keyed = false) → (alg < 7 → out = 0) → (7 ≤ alg → 1 ≤ out ∧ out ≤ 64) → x.len < 2 ^ 61 →
              (keyed = true → s.keyedSlot fn slot alg = none → err (.dgsStart fn v) 6)
              ∧ (∀ h o, (keyed = false → h = dgsInit alg ∧ o = []) → (keyed = true → ∃ d, s.keyedSlot fn slot alg = some d ∧ h = d.inner ∧ o = d.outer) →
                  exec (.dgsStart fn v) s = .next (s.setView fn v { dropView x 2 with
                    alg := alg, keyed := keyed, kslot := slot, outLen := out, total := x.len, early := false, err := 0, chain := h, outer := o }))))
      ∧ (∀ w : W64, exec (.dgsVdata fn v 2 w) s = .next (s.raise { src := 0x0100 })
          ∧ (x.state ≠ 2 → exec (.dgsVdata fn v 4 w) s = .next s)
          ∧ (x.state = 2 → x.busy = true → s.makes (.dgsVdata fn v 4 w) (s.setView fn v { x with overrun := true }))
          ∧ (x.state = 2 → x.busy = false → x.total ≤ x.count → exec (.dgsVdata fn v 4 w) s = .next (s.setView fn v { x with excess := true }))
          ∧ (x.state = 2 → x.busy = false → x.count < x.total →
              (let bs := (le 4 w.toNat).take (x.total - x.count)
               ∃ y : View, exec (.dgsVdata fn v 4 w) s = .next (s.setView fn v { x with count := x.count + bs.length, work := y.work, buf := y.buf, busy := y.busy })
                 ∧ y.work ++ y.buf = x.work ++ x.buf ++ bs ∧ (y.busy = true ↔ blk ≤ x.buf.length + bs.length ∧ x.work ≠ [])
                 ∧ y.work.length = if x.work = [] ∧ blk ≤ x.buf.length + bs.length then blk else x.work.length))
          ∧ ∃ t, exec (.dgsVdata fn v 4 w) s = .next t ∧ exec (.dgsVdata fn v 8 w) s = exec (.dgsVdata fn v 4 (BitVec.ofNat 64 (w.toNat / 2 ^ 32))) t)
      ∧ (x.state = 2 → exec (.dgsFinal fn v) s = .next (s.setView fn v { x with
          state := 3
          finErr := if x.overrun = true then 4 else if x.excess = true ∨ x.count < x.total then 5
            else if x.keyed = true ∧ s.keyedSlot fn x.kslot x.alg = none then 6 else 0 }))
      ∧ (2 ≤ x.state → x.state ≤ 4 → exec (.dgsAbort fn v) s = .next (s.setView fn v { dropView x 1 with early := false }))
      ∧ (1 ≤ x.state → x.state ≤ 4 → exec (.dgsClose fn v) s = .next (({ s with dgs := { s.dgs with ctx := KV.erase s.dgs.ctx x.ctx } } : State).setView fn v { dropView x 0 with ctx := 0 }))
      ∧ (x.state = 2 → x.count % blk ≠ 0 ∨ x.total ≤ x.count → err (.dgsSave fn v) 1)
      ∧ (x.state = 2 → x.count % blk = 0 → x.count < x.total → ∃ b, exec (.dgsSave fn v) s = .next (s.setWindow fn (fun d => { d with blob := b })) ∧ b.length = 256
          ∧ field b 0 1 = 0xD5 ∧ field b 1 1 = x.alg % 256 ∧ field b 8 8 = x.count % 2 ^ 64)
      ∧ (let b := f.dgs.blob
         x.state = 1 →
          (kwpOpen (s.blobKey fn) (slice b 16 240) = none → err (.dgsRestore fn v) 7)
          ∧ (∀ p, kwpOpen (s.blobKey fn) (slice b 16 240) = some p →
              (field b 0 1 ≠ 0xD5 ∨ slice p 0 16 ≠ slice b 0 16 ∨ field b 1 1 = 0 ∨ 8 < field b 1 1 → err (.dgsRestore fn v) 7)
              ∧ (field b 0 1 = 0xD5 → slice p 0 16 = slice b 0 16 → 1 ≤ field b 1 1 → field b 1 1 ≤ 8 →
                  (field b 2 1 = 1 → (∀ d, s.keyedSlot fn (field b 3 1) (field b 1 1) = some d → d.handle.toNat ≠ field p 24 4) → err (.dgsRestore fn v) 8)
                  ∧ (field b 2 1 ≠ 1 ∨ (∃ d, s.keyedSlot fn (field b 3 1) (field b 1 1) = some d ∧ d.handle.toNat = field p 24 4) →
                      ∃ y, exec (.dgsRestore fn v) s = .next (s.setView fn v y) ∧ y.state = 2 ∧ y.alg = field b 1 1 ∧ y.count = field b 8 8 ∧ y.total = field p 16 8 ∧ y.buf = [] ∧ y.err = 0)))))
    ∧ (s.running = true → s.fnExists fn = true → v < 8 →
        (∀ n, x.work ≠ [] →
          (let u := ({ s with dgs := { s.dgs with blocks := (s.dgs.blocks + 1) % 2 ^ 64 } } : State).setView fn v { x with
              chain := dgsAbsorb x.alg x.chain x.work, work := if blk ≤ x.buf.length then x.buf.take blk else [], buf := if blk ≤ x.buf.length then x.buf.drop blk else x.buf, busy := false
              fault := x.fault || decide (2 ≤ n) }
           if n = 0 then s.makes (.dgsBlockCompressed fn v n) u else s.fires (.dgsBlockCompressed fn v n) u { src := 0x3000 }))
        ∧ (x.state = 3 → x.finErr ≠ 0 ∨ x.fault = true →
            exec (.dgsFinalDone fn v) s = .next ((s.setView fn v (dropView x 1)).viewError fn v (if x.finErr ≠ 0 then x.finErr else 9)))
        ∧ (x.state = 3 → x.finErr = 0 → x.fault = false →
            s.makes (.dgsFinalDone fn v) (({ s with dgs := { s.dgs with blocks := (s.dgs.blocks + finalBlocks x) % 2 ^ 64 } } : State).setView fn v
              { dropView x 4 with result := viewResult x, count := x.count, total := x.total })))
    ∧ (s.fnExists fn = true → v < 8 → ∀ w,
        (x.state = 4 → exec (.dgsResultRead fn v w) s = .next (s.answer (BitVec.ofNat 32 (field x.result (4 * w) 4))))
        ∧ (x.state ≠ 4 → exec (.dgsResultRead fn v w) s = .next ((s.setView fn v { x with early := true }).answer 0)))
    ∧ (s.hostOpen = true → s.fnExists fn = true →
        (∀ h, f.dgs.loading = none → exec (.dgsKload fn h) s = .next (s.setWindow fn (fun d => { d with kresult := 0, loading := some h })))
        ∧ (∀ h, f.dgs.loading ≠ none → exec (.dgsKload fn h) s = .next s)
        ∧ (∀ w : W32,
            (let n := bits w 3 0
             let used := ∃ y ∈ f.dgs.views.toList, y.keyed = true ∧ y.kslot = n ∧ (y.state = 2 ∨ y.state = 3)
             ((∀ d, KV.get? s.dgs.slots n = some d → d.fn ≠ fn) → kres (.dgsKunload fn w) s (kresult 8 0))
             ∧ (∀ d, KV.get? s.dgs.slots n = some d → d.fn = fn → used → kres (.dgsKunload fn w) s (kresult 7 0))
             ∧ (∀ d, KV.get? s.dgs.slots n = some d → d.fn = fn → ¬used → kres (.dgsKunload fn w) { s with dgs := { s.dgs with slots := KV.erase s.dgs.slots n } } (kresult 0 0)))))
    ∧ (∀ h, s.fnExists fn = true → f.dgs.loading = some h →
        (let u := s.setWindow fn (fun d => { d with loading := none })
         (s.loadReason fn h ≠ 0 → kres (.keyLoadDone fn) u (kresult (s.loadReason fn h) 0))
         ∧ (∀ k n, s.intAmple → s.loadReason fn h = 0 → s.getKey h = some k → n < 16 → KV.get? s.dgs.slots n = none → (∀ m, m < n → (KV.get? s.dgs.slots m).isSome = true) →
            ∃ i o c, kres (.keyLoadDone fn) { u with
                ent := if k.order = 0 then s.ent else
                  { s.ent with int := { s.ent.int with pos := s.ent.int.pos + k.order * k.priv.length, left := s.ent.int.left - 1 } }
                kst := { s.kst with cnt := c }, dgs := { u.dgs with slots := KV.set u.dgs.slots n { fn := fn, alg := k.pset, handle := h, inner := i, outer := o } } } (kresult 0 n)
              ∧ i = hmacState k.pset 0x36 k.priv ∧ o = hmacState k.pset 0x5C k.priv)))

/-- Entropy, the DRBGs and the RNG windows (R422 to R437), the Leakage Assessor (R482 to R491) and block self-tests (R234, R235): a read takes four bytes of the window's FIFO once, or answers zero with its flags; a reseed takes three blocks and gives the DRBG its full limit
again; raw read-out is entered only where R436 allows it; each trace of a slot is fixed or random by a bit drawn for it, and a campaign is judged by its largest t value, and a level is relaxed only in MAINTENANCE; a test starts in MAINTENANCE on an idle block and its result stands in TEST_STAT. -/
def Obligations.EntropyAndAssessment : Prop :=
  ∀ (s : State),
    (∀ fn, s.fnExists fn = true →
      (let f := s.getFn fn
       let w := f.rng
       (4 ≤ w.fifo.length → s.ent.hostEn = true → s.reads (.rngDataRead fn) (s.setFn fn { f with rng := { w with fifo := w.fifo.drop 4 } }) (BitVec.ofNat 32 (unLe (w.fifo.take 4))))
       ∧ (w.fifo.length < 4 ∨ s.ent.hostEn = false →
          s.reads (.rngDataRead fn) (s.setFn fn { f with rng := { w with err := true, notSeeded := w.notSeeded || !s.hostSeeded, empty := satAdd w.empty 1 0xFFFFFFFF } }) 0)
       ∧ (s.hostSeeded = true → w.fifo.length ≤ 48 → 1 < s.ent.host.left →
          exec (.rngFifoRefill fn) s = .next (({ s with ent := { s.ent with host := { s.ent.host with pos := s.ent.host.pos + 16, left := s.ent.host.left - 1 } } } : State).setFn fn
            { f with rng := { w with fifo := w.fifo ++ (List.range 16).map (fun i => Config.hostDrbg (s.ent.host.pos + i)) } }))
       ∧ (s.hostSeeded = false ∨ 48 < w.fifo.length → exec (.rngFifoRefill fn) s = .next s)))
    ∧ (∀ n, n < 8 → s.pcr.powered = true →
        (let x := vget s.ent.sources n {}
         let put (y : EntSource) : State := { s with ent := { s.ent with sources := vset s.ent.sources n y } }
         (x.state = .retired ∨ x.state = .raw → ∀ h, exec (.conditionedBlock n h) s = .next s)
         ∧ (x.state = .inService ∨ x.state = .startup →
            s.makes (.conditionedBlock n .pass) ({ put { x with state := .inService, fresh := x.fresh + 1, blocks := x.blocks + 1, startFails := 0 } with
              ent := { (put { x with state := .inService, fresh := x.fresh + 1, blocks := x.blocks + 1, startFails := 0 }).ent with made := s.ent.made + 1 } })
            ∧ (∃ t, exec (.conditionedBlock n .repetition) s = .next t ∧ (vget t.ent.sources n {}).rctFails = satAdd x.rctFails 1 255 ∧ t.ent.made = s.ent.made)
            ∧ (∃ t, exec (.conditionedBlock n .proportion) s = .next t ∧ (vget t.ent.sources n {}).aptFails = satAdd x.aptFails 1 255 ∧ t.ent.made = s.ent.made))))
    ∧ (∀ ds : List Int, ∃ u : State, u = { s with ent := { s.ent with sources := u.ent.sources } }
        ∧ (∀ n, n < 8 → vget u.ent.sources n ({} : EntSource) = { vget s.ent.sources n ({} : EntSource) with
            fresh := 0
            blocks := (vget s.ent.sources n {}).blocks - if 20 < (ds.getD n 0).natAbs then (vget s.ent.sources n {}).fresh else 0 })
        ∧ exec (.oscCalibration ds) s = .next (u.raiseAll (((List.range 8).filter (fun n => decide (20 < (ds.getD n 0).natAbs))).map (fun n => { src := 0x3109, detail := n }))))
    ∧ (∀ host : Bool, let d := if host then s.ent.host else s.ent.int
        let sum (e : Ent) : Nat := (e.sources.toList.map (·.blocks)).sum
        (s.ent.canReseed = false ∨ d.state = .uninstantiated → exec (.drbgReseed host) s = .next s)
        ∧ (s.ent.canReseed = true → d.state ≠ .uninstantiated → ∃ t, exec (.drbgReseed host) s = .next t ∧ sum t.ent + 3 = sum s.ent
            ∧ (let e := if host then t.ent.host else t.ent.int
               e.state = .seeded ∧ e.left = 2 ^ 24 ∧ e.reseeds = min 0xFFFFFFFF (d.reseeds + 1) ∧ e.pos = d.pos)
            ∧ (if host then t.ent.int = s.ent.int else t.ent.host = s.ent.host)))
    ∧ (∀ w : W32, s.pageWritable 0x31 = true → (s.getBlk 0x31).lock = false →
        (let n := bits w 2 0
         (bit w 31 = true → s.held.life = 4 → 3 ≤ s.ent.inService → s.ent.rawEn = false → (vget s.ent.sources n {}).state = .inService → ∀ b, ∃ t, exec (.entRawCtrl w b) s = .next t
            ∧ t.ent.rawEn = true ∧ t.ent.rawSrc = n ∧ (vget t.ent.sources n {}).state = .raw ∧ ∀ m, m < 8 → m ≠ n → vget t.ent.sources m {} = vget s.ent.sources m {})
         ∧ (bit w 31 = true → s.held.life ≠ 4 ∨ s.ent.inService < 3 → ∀ b, exec (.entRawCtrl w b) s = .next s)
         ∧ (bit w 31 = false → s.ent.rawEn = true → s.ent.rawSrc < 8 → ∃ t, exec (.entRawCtrl w true) s = .next t ∧ t.ent.rawEn = false ∧ (vget t.ent.sources s.ent.rawSrc {}).state = .inService)))
    ∧ (∀ w : W32, (s.ent.rawEn = true → exec (.entRawData w) s = .next (({ s with ent := { s.ent with rawBits := w } } : State).answer w))
        ∧ (s.ent.rawEn = false → exec (.entRawData w) s = .next (s.answer 0)))
    ∧ (∀ w : W32, s.pageWritable 0x72 = true →
        (let code := bits w 7 0
         let x := s.getLka (engIndex code)
         let y := x.next.getD (x.cm, x.order)
         let ok := 0x10 ≤ code ∧ code < 0x28 ∧ s.present code = true ∧ s.retired code = false ∧ s.held.life = 4 ∧ (1 ≤ y.1 ∨ 2 ≤ y.2)
         (¬ok → exec (.lkaRelax w) s = .next (s.raise { src := 0x7205, detail := code }))
         ∧ (ok → exec (.lkaRelax w) s = .next (s.setLka (engIndex code) { x with
              provisional := true, previous := if x.provisional then x.previous else (x.cm, x.order), next := some (if 2 ≤ y.2 then (y.1, y.2 - 1) else (y.1 - 1, y.2)) }))))
    ∧ (∀ (code : Nat) (m : AssessMeasure),
        let e := engIndex code
        let x := s.getLka e
        let runs := 0x10 ≤ code ∧ code < 0x28 ∧ s.assessable e = true ∧ s.pcr.frozen = false ∧ s.pcr.warn = false ∧ s.pcr.stage < 3 ∧ s.lka.en = true
        let n := s.slotTraces e
        let fixed := (((s.intBytes (ceilDiv n 8)).flatMap (fun b => bitsOf 8 b.toNat)).take n).countP (fun b => b)
        let full := 50000 ≤ x.fixed + fixed ∧ 50000 ≤ x.random + (n - fixed)
        let good := m.noiseFail = false ∧ m.computeFault = false
        let after (P : State → Prop) : Prop := ∃ u t : State, exec (.assessmentSlotEnd code m) s = .next t ∧ (t = u ∨ ∃ y, t = u.raise y) ∧ P u
        (¬runs → exec (.assessmentSlotEnd code m) s = .next s)
        ∧ (runs → m.noiseFail = true → after (fun u => (u.getLka e).sensorFail = true ∧ (u.getLka e).verdict = 5 ∧ (u.getLka e).running = false ∧ (u.getLka e).next = some (3, (x.next.map (·.2)).getD x.order)))
        ∧ (runs → m.noiseFail = false → m.computeFault = true → after (fun u => (u.getLka e).running = false ∧ (u.getLka e).verdict = x.verdict))
        ∧ (runs → good → ¬full → ∃ t, exec (.assessmentSlotEnd code m) s = .next t ∧ t.getLka e = { x with running := true, slots := x.slots + 1, fixed := x.fixed + fixed, random := x.random + (n - fixed) })
        ∧ (runs → good → full → after (fun u => (u.getLka e).running = false ∧ (u.getLka e).fixed = 0 ∧ (u.getLka e).random = 0
            ∧ (m.maxT ≤ 1152 → (u.getLka e).verdict = 1 ∧ (u.getLka e).confirm = false ∧ (u.getLka e).provisional = false)
            ∧ (1152 < m.maxT → x.confirm = false → x.provisional = false → (u.getLka e).verdict = 2 ∧ (u.getLka e).confirm = true)
            ∧ (1152 < m.maxT → x.confirm = false → x.provisional = true → (u.getLka e).verdict = 2 ∧ (u.getLka e).next = some x.previous)
            ∧ (1152 < m.maxT → x.confirm = true → x.cm < 3 → (u.getLka e).verdict = 3 ∧ (u.getLka e).next = some (x.cm + 1, x.order))
            ∧ (1152 < m.maxT → x.confirm = true → 3 ≤ x.cm → e < 16 → x.order < 3 → (u.getLka e).verdict = 3 ∧ (u.getLka e).next = some (x.cm, x.order + 1))
            ∧ (1152 < m.maxT → x.confirm = true → 3 ≤ x.cm → 16 ≤ e ∨ 3 ≤ x.order → (u.getLka e).verdict = 4 ∧ (u.getLka e).exhaust = true))))
    ∧ (∀ k i (w : W32), testInfo k = some i → s.pageWritable k = true → (s.getBlk k).lock = false →
        (let n := bits w 3 0
         (i.tests.contains n = false → exec (.selftestStart k w) s = .next s)
         ∧ (i.tests.contains n = true → bit w 31 = true → s.held.life = 4 → s.testIdle k = true → ∃ t, exec (.selftestStart k w) s = .next t ∧ t.getTest k = { s.getTest k with sel := n, busy := true, test := n })
         ∧ (i.tests.contains n = true → bit w 31 = false ∨ s.held.life ≠ 4 ∨ s.testIdle k = false → exec (.selftestStart k w) s = .next (s.setTest k { s.getTest k with sel := n }))))
    ∧ (∀ k, s.pcr.frozen = false → ∀ cs,
        ((s.getTest k).busy = true → ∃ t, exec (.selftestDone k true cs) s = .next t ∧ t.getTest k = { s.getTest k with busy := false, done := true, pass := true } ∧ t.hrt = s.hrt)
        ∧ ((s.getTest k).busy = true → ∀ i src, testInfo k = some i → i.src = some src → k ≠ 0x28 → ∃ u : State, u.getTest k = { s.getTest k with busy := false, done := true, pass := false }
            ∧ exec (.selftestDone k false cs) s = .next (u.raise { src := src }))
        ∧ ((s.getTest k).busy = false → ∀ b, exec (.selftestDone k b cs) s = .next s))

/-- Stored data (R469, R559, R566, R567, R569, R572): a Darning pass notes its time, and one that is late fires its source; a retired row takes a spare of its region and an entry of the retirement log, or fires that no spare is left; an injection is armed in MAINTENANCE alone;
a flash sector is left, rewritten above half of the correction limit, or lost above it, with its counters. -/
def Obligations.StoredData : Prop :=
  ∀ (s : State),
    let cnt (t : State) (i : Nat) : Nat := vget t.mem.cnt i 0
    let fcnt (t : State) (i : Nat) : Nat := vget t.fls.cnt i 0
    (∀ k ms es, s.mem.darnEn = false ∨ s.pcr.frozen = true ∨ s.pcr.powered = false → exec (.darningPass k ms es) s = .next s)
    ∧ (s.mem.darnEn = true → s.pcr.frozen = false → s.pcr.powered = true → ∀ ms,
        (let passed (i : Nat) (p : Nat × Nat × Nat) : State := { s with mem := { s.mem with passMs := p, cnt := vmod s.mem.cnt i 0 (· + 1) } }
         (ms ≤ passBound .sram → exec (.darningPass .sram ms []) s = .next (passed 12 (ms, s.mem.passMs.2)))
         ∧ (ms ≤ passBound .dram → exec (.darningPass .dram ms []) s = .next (passed 14 (s.mem.passMs.1, s.mem.passMs.2.1, ms)))
         ∧ (ms ≤ passBound .nand → exec (.darningPass .nand ms []) s = .next s)
         ∧ (ms ≤ passBound .controlStore → exec (.darningPass .controlStore ms []) s = .next (passed 13 (s.mem.passMs.1, ms, s.mem.passMs.2.2)).bobPass)
         ∧ (passBound .sram < ms → s.fires (.darningPass .sram ms []) (({ passed 12 (ms, s.mem.passMs.2) with
              mem := { (passed 12 (ms, s.mem.passMs.2)).mem with late := true } } : State).latched 0x40 3) { src := 0x4009 })))
    ∧ (∀ r row ue, spareFitted r ≠ 0 → s.regionPresent r = true →
        (0 < s.spares r → ∃ u : State, exec (.rowRetirement r row ue) s = .next (u.raise { src := 0x4007, detail := memDetail row (if r = 51 then 2 else 0) r })
            ∧ u.spares r = s.spares r - 1 ∧ (∀ q, q ≠ r → u.spares q = s.spares q) ∧ u.mem.ptr = (s.mem.ptr + 1) % 16
            ∧ KV.get? u.mem.retire s.mem.ptr = some (BitVec.ofNat 32 (2 ^ 31 + b2n ue * 2 ^ 30 + r % 64 * 2 ^ 24 + row % 2 ^ 24)) ∧ cnt u (if r = 51 then 11 else 10) = cnt s (if r = 51 then 11 else 10) + 1)
        ∧ (s.spares r = 0 → ∃ u : State, exec (.rowRetirement r row ue) s = .next (u.raise { src := 0x4008, detail := memDetail row (if r = 51 then 2 else 0) r })
            ∧ u.mem.retire = s.mem.retire ∧ (r = 24 ∨ r = 25 ∨ r = 51 → (r, row) ∈ u.mem.removed)))
    ∧ (∀ w : W32, s.pageWritable 0x40 = true →
        (bit w 31 = true → s.held.life = 4 → ∃ t, exec (.injectionArm w) s = .next t ∧ t.mem.injArmed = true ∧ cnt t 15 = cnt s 15 + 1
            ∧ ((s.getBlk 0x40).lock = false → bits w 5 0 < 52 → t.mem.injKind = bits w 9 8 ∧ t.mem.injRegion = bits w 5 0))
        ∧ (bit w 31 = false ∨ s.held.life ≠ 4 → ∃ t, exec (.injectionArm w) s = .next t ∧ t.mem.injArmed = s.mem.injArmed ∧ t.mem.cnt = s.mem.cnt))
    ∧ (∀ b n pause,
        (s.pcr.frozen = true ∨ s.fls.state = 0 → exec (.flashRefresh b n pause) s = .next s)
        ∧ (s.pcr.frozen = false → s.fls.state ≠ 0 → pause = true ∨ s.pcr.warn = true → exec (.flashRefresh b n pause) s = .next (s.flsCount 15 1))
        ∧ (s.pcr.frozen = false → s.fls.state ≠ 0 → pause = false → s.pcr.warn = false →
            (n ≤ 36 → ∃ t, exec (.flashRefresh b n pause) s = .next t ∧ fcnt t 3 = fcnt s 3 + n ∧ fcnt t 0 = fcnt s 0 + 1 ∧ fcnt t 12 = fcnt s 12 ∧ t.kst.objs = s.kst.objs)
            ∧ (36 < n → n ≤ 72 → ∃ u : State, exec (.flashRefresh b n pause) s = .next (u.raise { src := 0x4100, detail := b }) ∧ fcnt u 12 = fcnt s 12 + 1 ∧ u.kst.written = s.kst.written + 1)
            ∧ (72 < n → ∃ u : State, exec (.flashRefresh b n pause) s = .next (u.raise { src := 0x4101, detail := b }) ∧ u.fls.lastFail = some (3, b % 4096) ∧ fcnt u 5 = fcnt s 5 + 1
                ∧ ∀ h k, KV.get? s.kst.objs h = some k → k.inFlash = true → Config.flashBlock k.serial % 4096 = b % 4096 → ∃ y, KV.get? u.kst.objs h = some y ∧ y.flashBad = true)))

-- Instances.

/-- Instances (R64, R523 to R545, R543, R546 to R551): each command checks the instance and its state first and answers BAD_PARAMETER with the reason; otherwise creation, enabling, quiescing, freezing and aborting change the state as R523 says, with its interrupt
cause. Every reset cause leads to RESETTING; at its end no job and no queue of the function is left, it has a new generation, and a destroyed one is gone with its keys deleted. An offer's keys come from the internal DRBG; a save carries the body in its chunks in
order, and a chunk that fails returns the restoring instance to CREATED. -/
def Obligations.Instances : Prop :=
  ∀ (s : State) (id fn : Nat) (j : Job),
    let n := j.inst
    let f := s.getFn n
    let g := s.getFn fn
    let at_ (op : Nat) : Prop := s.adminJob op id = some j ∧ j.result = none
    let bad (k : Nat) : Result := { status := 0x0014, detail := BitVec.ofNat 64 k }
    let ends (c : Instr) (k : Nat) : Prop := s.adminEnds c id j s (bad k)
    let d := j.input
    let gen := (KV.getD s.held.gens n 0 + 1) % 2 ^ 32
    let enters (c : Instr) (u : State) (j1 : Job) : Prop := s.makes c ((u.latched (instPage n) 3).setJob id j1)
    let resets (c : Instr) (m : Nat) (P : State → Func → Prop) : Prop := ∃ t, exec c s = .next t ∧ s.otherFns t m ∧ (t.getFn m).state = 7 ∧ P t (t.getFn m)
      ∧ ((s.getFn m).state ≠ 7 → (t.getFn m).resetEdge = some (s.trd.edge + 1) ∧ (t.getFn m).offer = none ∧ (t.getFn m).saving = none)
    let by_ (t : State) (x : Func) : Prop := x.drainJob = some id ∧ (t.getJob id).phase = .admitted
    (at_ 0x0080 →
        (n = 0 ∨ 255 < n ∨ s.pcr.numVfs < n ∨ s.fnExists n = true → ends (.instanceCreate id) 0x12)
        ∧ (1 ≤ n → n ≤ 255 → n ≤ s.pcr.numVfs → s.fnExists n = false →
            (descOk n d = false → ends (.instanceCreate id) 0x0C) ∧ (descOk n d = true → s.poolOk n d = false → ends (.instanceCreate id) 0x13)
            ∧ (descOk n d = true → s.poolOk n d = true → ∃ t, exec (.instanceCreate id) s = .next t ∧ s.otherFns t n ∧ t.fnExists n = true ∧ (t.getJob id).result = some {}
                ∧ KV.getD t.held.gens n 0 = gen
                ∧ (let x := t.getFn n
                   x.state = 1 ∧ x.vectors = field d 0 1 ∧ x.tableSize = field d 0 1 ∧ x.ioqLimit = field d 1 1 ∧ x.keyLimit = field d 4 4 ∧ x.perm = field d 13 1 ∧ x.gen = gen
                    ∧ x.pvuSlots = field d 8 2 ∧ x.bneTicks = field d 10 2 ∧ x.reserved.length = field d 8 2 + field d 10 2))))
    ∧ (at_ 0x0081 →
        (255 < n ∨ s.fnExists n = false ∨ (n ≠ 0 ∧ s.pcr.numVfs < n) → ends (.instanceModify id) 0x12)
        ∧ (n ≤ 255 → s.fnExists n = true → n = 0 ∨ n ≤ s.pcr.numVfs →
            (descOk n d = false → ends (.instanceModify id) 0x0C) ∧ (descOk n d = true → s.poolOk n d = false → ends (.instanceModify id) 0x13)
            ∧ (descOk n d = true → s.poolOk n d = true → s.fits n d = false → ends (.instanceModify id) 0x14)
            ∧ (descOk n d = true → s.poolOk n d = true → s.fits n d = true → s.inWindow n d = false → ends (.instanceModify id) 0x15)
            ∧ (descOk n d = true → s.poolOk n d = true → s.fits n d = true → s.inWindow n d = true → s.adminEnds (.instanceModify id) id j s {})))
    ∧ (at_ 0x0082 → (s.instIn n [1, 4] = false → ends (.instanceEnable id) 0x12)
        ∧ (s.instIn n [1] = true → enters (.instanceEnable id) (s.setFn n { f with state := 2 }) (j.closed s {}))
        ∧ (s.instIn n [4] = true → ∃ t, exec (.instanceEnable id) s = .next t ∧ (t.getFn n).state = 2 ∧ (t.getJob id).result = some {}
            ∧ ∀ q x, q < 64 → t.getQueue n q = some x → x.rescan = true))
    ∧ (at_ 0x0083 → (s.instIn n [2] = false → ends (.instanceQuiesce id) 0x12)
        ∧ (s.instIn n [2] = true → s.tablesInv → j.dupOf = none → ∃ t, exec (.instanceQuiesce id) s = .next t ∧ (t.getFn n).state = 3 ∧ (t.getFn n).drainJob = some id ∧ t.adminHeld id
            ∧ ∀ q k, q ≤ 64 → k ≠ id → s.waitsIn n q k → q = 64 ∨ (s.getQueue n q).isSome = true → t.answered k 0x0060))
    ∧ (g.state = 3 → (s.jobs.all (fun p => decide (p.2.fn ≠ fn) || p.2.finished || p.2.cluster.isSome) = true →
          ∃ t, exec (.instanceQuiesced fn) s = .next t ∧ (t.getFn fn).state = 4 ∧ (t.getFn fn).evSeq = g.evSeq + 1 ∧ ∀ k, g.drainJob = some k → (KV.get? s.jobs k).isSome = true → (t.getJob k).result = some {})
        ∧ ((∃ p ∈ s.jobs, p.2.fn = fn ∧ p.2.finished = false ∧ p.2.cluster = none) → exec (.instanceQuiesced fn) s = .next s))
    ∧ (at_ 0x0084 → (s.instIn n [] = false → ends (.instanceReset id) 0x12)
        ∧ (s.instIn n [] = true → resets (.instanceReset id) n (fun t x => by_ t x ∧ (f.state ≠ 7 → x.resetDestroy = false ∧ x.resetTo = if f.state = 1 ∨ f.state = 8 then 1 else 2))))
    ∧ (at_ 0x0085 → (s.instIn n [] = false → ends (.instanceDestroy id) 0x12)
        ∧ (s.instIn n [] = true → resets (.instanceDestroy id) n (fun t x => by_ t x ∧ x.resetDestroy = true)))
    ∧ (fn ≠ 0 → s.fnExists fn = true → resets (.busMasterEnableClear fn) fn (fun _ x => x.busMaster = false)
        ∧ (s.pcr.powered = true → s.pcr.frozen = false → resets (.flr fn) fn (fun _ x => x.resetFlr = true)))
    ∧ (∃ t, exec .vfEnableClear s = .next t ∧ t.pcr.vfEnable = false ∧ ∀ m, m ≠ 0 → s.fnExists m = true → (t.getFn m).state = 7 ∧ (t.getFn m).resetTo = 1)
    ∧ (∀ e1, g.resetEdge = some e1 →
        (g.state ≠ 7 ∨ s.trd.edge < e1 → exec (.instanceResetDone fn) s = .next s)
        ∧ (g.state = 7 → e1 ≤ s.trd.edge → fn < 256 → ∃ t, exec (.instanceResetDone fn) s = .next t
            ∧ (∀ k x, KV.get? t.jobs k = some x → x.fn ≠ fn ∨ x.cluster ≠ none) ∧ (∀ q, q ≤ 64 → t.getQueue fn q = none)
            ∧ (g.resetDestroy = false → (t.getFn fn).state = g.resetTo ∧ (t.getFn fn).gen = (KV.getD s.held.gens fn 0 + 1) % 2 ^ 32 ∧ (t.getFn fn).aqEnabled = false)
            ∧ (g.resetDestroy = true → t.fnExists fn = false ∧ ∀ h k, KV.get? t.kst.objs h = some k → h / 16777216 = fn → k.deleted = true)
            ∧ (g.resetFlr = true → Output.flrDone fn ∈ t.out)))
    ∧ (at_ 0x0088 → (s.instIn n [1] = false → ends (.migrateOffer id) 0x12) ∧ (s.instIn n [1] = true → s.intSeeded = false → exec (.migrateOffer id) s = .next s)
        ∧ (s.instIn n [1] = true → s.intAmple → ∃ t o, exec (.migrateOffer id) s = .next t ∧ (t.getFn n).offer = some o ∧ (t.getJob id).result = some (okOut (offerRecord n o))
            ∧ o.kemSeed ++ o.ecSeed ++ o.nonce = s.intBytes 152 ∧ o.kemSeed.length = 64 ∧ o.nonce.length = 32))
    ∧ (s.fnExists fn = true → exec (.migrateOfferExpiry fn) s = .next (s.setFn fn { g with offer := none }))
    ∧ (at_ 0x0089 → (s.instIn n [2] = false → ends (.migrateFreeze id) 0x12)
        ∧ (s.instIn n [2] = true → enters (.migrateFreeze id) (s.setFn n { f with state := 5, quiesceEdge := s.drainBound n, drainJob := some id }) (j.opened s)))
    ∧ (g.state = 5 → s.jobs.all (fun p => decide (p.2.fn ≠ fn) || decide (p.2.phase ≠ .admitted) || p.2.cluster.isSome) = true →
        ∃ t, exec (.instanceFrozen fn) s = .next t ∧ (t.getFn fn).state = 6 ∧ (t.getFn fn).saving = none
          ∧ ∀ k, g.drainJob = some k → (KV.get? s.jobs k).isSome = true → (t.getJob k).result = some { detail := BitVec.ofNat 64 (s.inflight fn).2 })
    ∧ (at_ 0x008C → (s.instIn n [6] = false → ends (.migrateAbort id) 0x12)
        ∧ (s.instIn n [6] = true → ∃ t, exec (.migrateAbort id) s = .next t ∧ (t.getFn n).state = 2 ∧ (t.getFn n).saving = none ∧ (t.getJob id).result = some {} ∧ t.kst = s.kst))
    ∧ (at_ 0x008A →
        (let v := p8 j.par 2
         let i := p16 j.par 4
         let fits := s.instIn n [if v = 2 then 6 else 4] = true
         (v < 1 ∨ 2 < v → (∀ rd outs, s.checks j rd ≠ .inl outs) ∧ s.paramFail j = some (bad 0x05))
         ∧ (1 ≤ v → v ≤ 2 →
            (s.instIn n [if v = 2 then 6 else 4] = false → ends (.migrateSave id) 0x12)
            ∧ (fits → i = 0 → f.saving = none → offerOk d n v = false → s.adminEnds (.migrateSave id) id j s { status := 0x0024, detail := 0x16 })
            ∧ (fits → i = 0 → f.saving = none → offerOk d n v = true → s.intAmple → ∃ t m, exec (.migrateSave id) s = .next t
                ∧ (t.getFn n).saving = some m ∧ (t.getFn n).chunk = 1 ∧ m.version = v ∧ m.body = s.migBody n ∧ m.chunks = max 1 (ceilDiv m.body.length 4190208) ∧ m.offerId = field d 8 4
                ∧ (∃ r, (t.getJob id).result = some r ∧ r.status = 0 ∧ r.output.length = chunkLength m.body.length 0 ∧ r.output.take 64 = chunkHeader m 0))
            ∧ (∀ m, fits → f.saving = some m → i = f.chunk → i < m.chunks → m.version = v →
                s.adminEnds (.migrateSave id) id j (s.setFn n { f with chunk := i + 1 }) (okOut (chunkBytes m i []))))))
    ∧ (at_ 0x008B →
        (s.instIn n [1, 8] = false → ∀ rs, ends (.migrateRestore id rs) 0x12)
        ∧ (s.instIn n [1] = true → f.offer = none → ∀ rs, s.adminEnds (.migrateRestore id rs) id j s { status := 0x0030, detail := 0x17 })
        ∧ (∀ m rs, s.instIn n [8] = true → f.restoring = some m →
            (chunkOk d f.chunk m.offerId = false ∨ openChunk m.key d f.chunk = none →
              ∃ t, exec (.migrateRestore id rs) s = .next t ∧ (t.getFn n).state = 1 ∧ (t.getFn n).restoring = none ∧ (t.getJob id).result = some { status := 0x0030, detail := 0x17 })
            ∧ (∀ b, chunkOk d f.chunk m.offerId = true → openChunk m.key d f.chunk = some b → f.chunk + 1 ≠ m.chunks →
                s.adminEnds (.migrateRestore id rs) id j (s.setFn n { f with restoring := some { m with body := m.body ++ b }, chunk := f.chunk + 1 }) {})))
    ∧ exec .recoveryWindowClose s = .next { s with pcr := { s.pcr with recovery := false, recoveryTicks := 0 } }

/-- Mailboxes (R534 to R537): a SEND is refused with the first of its errors and the cause of its side, without a change of the box; an accepted one makes the box FULL, and in version 2 carries the next sequence number, which the module writes for the down box;
an acknowledgement frees a full box and latches the sender's cause; the module sends its oldest message into an empty down box. -/
def Obligations.Mailboxes : Prop :=
  ∀ (s : State) (fn : Nat),
    let f := s.getFn fn
    let up := f.up
    let dn := f.dn
    let next (m : Mailbox) : Nat := if f.mbxVer = 2 then (m.seq + 1) % 2 ^ 32 else m.seq
    let sent (d : List Byte) : List Byte := if f.mbxVer = 2 then patchBytes d 4 (le 4 (next dn)) else d
    fn ≠ 0 → s.fnExists fn = true → s.hostOpen = true →
      (∀ e, (up.full = true → e = 1)
          → (up.full = false → field up.data 0 1 ≠ f.mbxVer → e = 2)
          → (up.full = false → field up.data 0 1 = f.mbxVer → 248 < field up.data 2 2 → e = 3)
          → (up.full = false → field up.data 0 1 = f.mbxVer → field up.data 2 2 ≤ 248 → e = 4)
          → up.full = true ∨ field up.data 0 1 ≠ f.mbxVer ∨ 248 < field up.data 2 2 ∨ (f.mbxVer = 2 ∧ field up.data 4 4 ≠ next up) →
          s.makes (.mbxUpSend fn) ((s.setFn fn { f with up := { up with err := e } }).latched (instPage fn) 2))
      ∧ (up.full = false → field up.data 0 1 = f.mbxVer → field up.data 2 2 ≤ 248 → f.mbxVer ≠ 2 ∨ field up.data 4 4 = next up →
          s.makes (.mbxUpSend fn) (s.setFn fn { f with up := { up with full := true, err := 0, seq := next up } }))
      ∧ (∀ e, (dn.full = true → e = 1)
          → (dn.full = false → field dn.data 0 1 ≠ f.mbxVer → e = 2)
          → (dn.full = false → field dn.data 0 1 = f.mbxVer → 248 < field dn.data 2 2 → e = 3)
          → (dn.full = false → field dn.data 0 1 = f.mbxVer → field dn.data 2 2 ≤ 248 → e = 5)
          → dn.full = true ∨ field dn.data 0 1 ≠ f.mbxVer ∨ 248 < field dn.data 2 2 ∨ 0x7F < field dn.data 1 1 →
          s.makes (.mbxDnSend fn) ((s.setFn fn { f with dn := { dn with err := e } }).latched (instPage 0) 2))
      ∧ (dn.full = false → field dn.data 0 1 = f.mbxVer → field dn.data 2 2 ≤ 248 → field dn.data 1 1 ≤ 0x7F →
          s.makes (.mbxDnSend fn) (s.setFn fn { f with dn := { data := sent dn.data, full := true, err := 0, seq := next dn }, lastModule := false }))
      ∧ (up.full = true → s.makes (.mbxUpAck fn) ((s.setFn fn { f with up := { up with full := false } }).latched (instPage fn) 1))
      ∧ (up.full = false → exec (.mbxUpAck fn) s = .next s)
      ∧ (dn.full = true →
          s.makes (.mbxDnAck fn) (if f.lastModule then s.setFn fn { f with dn := { dn with full := false } }
            else (s.setFn fn { f with dn := { dn with full := false } }).latched (instPage 0) 1))
      ∧ (dn.full = false → exec (.mbxDnAck fn) s = .next s)
      ∧ (∀ m rest, s.running = true → dn.full = false → f.messages = m :: rest →
          s.makes (.moduleMessage fn) (s.setFn fn { f with
            messages := rest, lastModule := true
            dn := { data := sent (fit 256 (le 1 f.mbxVer ++ m.take 1 ++ le 2 (m.length - 1) ++ zeros 4 ++ m.drop 1)), full := true, err := 0, seq := next dn } }))

-- Management.

/-- Counters, telemetry and management (R150, R673, R678, R679, R685, R698, R699): PMU_CTRL freezes and clears every counter; MGC keeps at most 36,000 telemetry records, one for each measurement while enabled, and nothing answers while MGC does not run; the endpoint answers
control and PLDM commands with their codes and, for a sensor it has, its reading; the power stage answers while it is powered, and an unknown command sets CML alone; SPDM lists 1.2 and 1.3, and the first request selects one; the console takes input in MANUFACTURE and
MAINTENANCE alone. -/
def Obligations.Management : Prop :=
  ∀ (s : State),
    let answers (c : Instr) (bs : List Byte) : Prop := exec c s = .next (s.emit (.mctp bs))
    let pldm (c : Instr) (typ cmd code : Byte) (d : List Byte) : Prop := answers c ([0x01, 0x00, typ, cmd, code] ++ d)
    let power (c : Instr) (cmd : Nat) : Prop := (s.pcr.powered = true → ∃ v, exec c s = .next (({ s with free := s.free + 1 } : State).emit (.pmbus (le 2 v)))
        ∧ v = (Config.pmbusRead cmd s.free).toNat) ∧ (s.pcr.powered = false → exec c s = .next s)
    (∀ (c : W32 → Instr) (v : W32), c = .pmuClear ∨ c = .pmuFreeze →
        (s.pageWritable 0x70 = true → ∃ t, exec (c v) s = .next t ∧ t.pmu.freeze = bit v 0 ∧ (∀ k, (KV.get? t.pmu.ctr k).isSome = (KV.get? s.pmu.ctr k).isSome)
            ∧ (∀ k x, KV.get? t.pmu.ctr k = some x → bit v 31 = true → x.value = 0) ∧ (bit v 31 = false → t.pmu.ctr = s.pmu.ctr)
            ∧ t = { s with pmu := { s.pmu with freeze := t.pmu.freeze, ctr := t.pmu.ctr } })
        ∧ (s.pageWritable 0x70 = false → exec (c v) s = .next s))
    ∧ (∀ m, (s.mgcUp = false → exec (.telemetryRecord m) s = .next s)
        ∧ (s.mgcUp = true → s.pmu.teleEn = false → ∃ k, exec (.telemetryRecord m) s = .next { s with pmu := { s.pmu with sensors := k } })
        ∧ (s.mgcUp = true → s.pmu.teleEn = true → ∃ t r, exec (.telemetryRecord m) s = .next t ∧ t.pmu.tele = (r :: s.pmu.tele).take 36000 ∧ r.seq = s.pmu.teleSeq
            ∧ t.pmu.teleSeq = s.pmu.teleSeq + 1 ∧ t.pmu.teleCnt = min 0xFFFFFFFF (s.pmu.teleCnt + 1) ∧ field r.bytes 0 8 = s.pmu.teleSeq % 2 ^ 64 ∧ field r.bytes 8 8 = s.trd.edge % 2 ^ 64
            ∧ r.bytes.length = 64 ∧ t.pmu.ctr = s.pmu.ctr))
    ∧ (s.mgcUp = true →
        (∀ e : Byte, (e = 0x00 ∨ e = 0xFF → answers (.setEndpointId e) [0x00, 0x00, 0x01, 0x02])
          ∧ (e ≠ 0x00 → e ≠ 0xFF → exec (.setEndpointId e) s = .next (({ s with pcr := { s.pcr with eid := e.toNat } } : State).emit (.mctp [0x00, 0x00, 0x01, 0x00, 0x00, e, 0x00]))))
        ∧ answers .getEndpointId [0x00, 0x00, 0x02, 0x00, BitVec.ofNat 8 s.pcr.eid, 0x00, 0x00]
        ∧ (∀ m : Byte, (m ≠ 0xFF → m ≠ 0x00 → m ≠ 0x01 → answers (.getMctpVersionSupport m) [0x00, 0x00, 0x04, 0x80])
          ∧ (m = 0xFF ∨ m = 0x00 ∨ m = 0x01 → answers (.getMctpVersionSupport m) ([0x00, 0x00, 0x04, 0x00] ++ Config.mctpVersion m.toNat)))
        ∧ answers .getMessageTypeSupport [0x00, 0x00, 0x05, 0x00, 0x01, 0x01]
        ∧ pldm .getTid 0x00 0x02 0x00 [0x00]
        ∧ (∀ p : Byte, (p ≠ 0x00 → p ≠ 0x02 → pldm (.getPldmVersion p) 0x00 0x03 0x83 [] ∧ pldm (.getPldmCommands p) 0x00 0x05 0x83 [])
          ∧ (p = 0x00 ∨ p = 0x02 → ∃ v, pldm (.getPldmVersion p) 0x00 0x03 0x00 ([0, 0, 0, 0, 0x05] ++ v))
          ∧ (p = 0x00 → pldm (.getPldmCommands p) 0x00 0x05 0x00 (0x3C :: List.replicate 31 0))
          ∧ (p = 0x02 → pldm (.getPldmCommands p) 0x00 0x05 0x00 ([0, 0, 0x02, 0, 0x02, 0, 0, 0, 0, 0, 0x03] ++ List.replicate 21 0)))
        ∧ pldm .getPldmTypes 0x00 0x04 0x00 [0x05, 0, 0, 0, 0, 0, 0, 0]
        ∧ pldm .getPdrRepositoryInfo 0x02 0x50 0x00 Config.pdrInfo
        ∧ (∀ n, (Config.pdr n = none → pldm (.getPdr n) 0x02 0x51 0x82 []) ∧ (∀ b, Config.pdr n = some b → pldm (.getPdr n) 0x02 0x51 0x00 b))
        ∧ (∀ n, (n = 0 ∨ 28 < n → pldm (.getSensorReading n) 0x02 0x11 0x80 [])
          ∧ (∀ v, 1 ≤ n → n ≤ 28 → KV.get? s.pmu.sensors (n - 1) = some v → pldm (.getSensorReading n) 0x02 0x11 0x00 ([0x03, 0, 0, 0, 0, 0] ++ le 2 (BitVec.ofInt 16 v).toNat))
          ∧ (1 ≤ n → n ≤ 28 → KV.get? s.pmu.sensors (n - 1) = none → pldm (.getSensorReading n) 0x02 0x11 0x00 [0x03, 0x02, 0, 0, 0, 0, 0, 0]))
        ∧ (∀ n, (n < 29 ∨ 31 < n → pldm (.getStateSensorReadings n) 0x02 0x21 0x80 [])
          ∧ (∀ v, (n = 29 ∧ v = s.held.life) ∨ (n = 30 ∧ v = s.hearthState) ∨ (n = 31 ∧ v = s.trd.stage) → pldm (.getStateSensorReadings n) 0x02 0x21 0x00 ([0x01, 0x00] ++ le 1 v ++ [0x00] ++ le 1 v)))
        ∧ (∀ p c : Byte, ((p = 0x00 ∧ 2 ≤ c.toNat ∧ c.toNat ≤ 5) ∨ (p = 0x02 ∧ (c = 0x11 ∨ c = 0x21 ∨ c = 0x50 ∨ c = 0x51)) → exec (.unsupportedPldmCmd p c) s = .next s)
          ∧ (¬((p = 0x00 ∧ 2 ≤ c.toNat ∧ c.toNat ≤ 5) ∨ (p = 0x02 ∧ (c = 0x11 ∨ c = 0x21 ∨ c = 0x50 ∨ c = 0x51))) → pldm (.unsupportedPldmCmd p c) p c 0x05 [])))
    ∧ (s.mgcUp = false → ∀ c, c ∈ [Instr.getEndpointId, .getMessageTypeSupport, .getTid, .getPldmTypes, .getPdrRepositoryInfo, .spdmGetVersion] → exec c s = .next s)
    ∧ power .readVin 0x88 ∧ power .readIin 0x89 ∧ power .readVout 0x8B ∧ power .readIout 0x8C ∧ power .readTemperature1 0x8D ∧ power .readPout 0x96
    ∧ (s.pcr.powered = true →
        (∃ v, exec .statusWord s = .next (({ s with free := s.free + 1 } : State).emit (.pmbus (le 2 (v + s.pcr.pmbStatus)))) ∧ v < 65536 ∧ v / 2 % 2 = 0)
        ∧ exec .clearFaults s = .next { s with pcr := { s.pcr with pmbStatus := 0 } }
        ∧ exec .pmbusRevision s = .next (s.emit (.pmbus (Config.pmbusId 0x98))) ∧ exec .mfrId s = .next (s.emit (.pmbus (Config.pmbusId 0x99)))
        ∧ (∀ (c : Byte) (w : Bool), (w = true → c ≠ 0x03) → (w = false → c.toNat ∉ [0x79, 0x88, 0x89, 0x8B, 0x8C, 0x8D, 0x96, 0x98, 0x99]) →
            exec (.pmbusOtherCommand c w) s = .next { s with pcr := { s.pcr with pmbStatus := 2 } }))
    ∧ (s.spdmUp = true →
        exec .spdmGetVersion s = .next (({ s with pcr := { s.pcr with spdmVer := 1 } } : State).emit (.spdm [0x10, 0x04, 0, 0, 0, 0x02, 0x00, 0x12, 0x00, 0x13]))
        ∧ (∀ (k : Byte) (r : List Byte),
            (s.pcr.spdmVer = 0 → exec (.spdmRequest k r) s = .next (s.emit (.spdm [0x10, 0x7F, 0x04, 0x00])))
            ∧ (s.pcr.spdmVer = 1 → p8 r 0 = 0x12 ∨ p8 r 0 = 0x13 → ∃ t a, exec (.spdmRequest k r) s = .next t ∧ t.pcr.spdmVer = p8 r 0 ∧ t.out = .spdm a :: s.out)
            ∧ (s.pcr.spdmVer = 1 → p8 r 0 ≠ 0x12 → p8 r 0 ≠ 0x13 → exec (.spdmRequest k r) s = .next (s.emit (.spdm [0x10, 0x7F, 0x41, 0x00])))
            ∧ (2 ≤ s.pcr.spdmVer → p8 r 0 ≠ s.pcr.spdmVer → exec (.spdmRequest k r) s = .next (s.emit (.spdm [BitVec.ofNat 8 s.pcr.spdmVer, 0x7F, 0x41, 0x00])))))
    ∧ (∀ c : Byte, (s.mgcUp = true → s.held.life = 1 ∨ s.held.life = 4 → exec (.uartConsoleInput c) s = .next { s with pcr := { s.pcr with console := s.pcr.console ++ [c] } })
        ∧ (s.held.life ≠ 1 → s.held.life ≠ 4 → exec (.uartConsoleInput c) s = .next s))

-- The Peer Link.

/-- The Peer Link (R652 to R665): a port that is not up takes no frame, a bad or out-of-order frame is counted and leaves the sequence, a good one advances it and is acted on, passed on by a relay, or dropped; each frame type has the effect of R656 to R663 on the
cluster context of a worker or on the keys and forwards of the head; a NAK sends the frame again up to 8 times; training brings the port up or refuses it with the lowest reason of R654; the loss of the last link takes a worker's replicas and jobs and makes the head's
nodes LOST. -/
def Obligations.PeerLink : Prop :=
  ∀ (s : State) (n : Nat) (h : PlkHeader),
    let p := s.getPort n
    let live := s.running = true ∧ n < s.portCount ∧ n < 8 ∧ p.state = 2
    let good := live ∧ h.lengthOk = true ∧ h.tagOk = true ∧ h.seq = p.rxSeq
    let mine := good ∧ h.dst = s.plkNode
    let b := s.takeFrame n h
    (∀ (tn fid st a z : Nat) (ph : Int) (f : ForwardFrame) (rec out : List Byte) (fids : List Nat) (k : KeyFrame) (hd : W32) (c : Instr),
      c ∈ [.plkKeepalive n h, .plkTick n h tn ph, .plkJob n h f, .plkResult n h fid rec out, .plkRefuse n h fid st, .plkSquash n h fids, .plkKeyPut n h k, .plkKeyDel n h hd,
        .plkKeyAck n h hd, .plkGrantReq n h hd, .plkGrant n h hd a z, .plkRevoke n h hd] →
      (s.running = false ∨ s.portCount ≤ n ∨ p.state ≠ 2 → exec c s = .next s)
      ∧ (live → ¬good → ∃ t, exec c s = .next t ∧ (t.getPort n).naks = satAdd p.naks 1 0xFFFF ∧ (t.getPort n).rxSeq = p.rxSeq ∧ (h.tagOk = false → (t.getPort n).auth = satAdd p.auth 1 0xFF))
      ∧ (good → h.dst ≠ s.plkNode → s.plkRelay = false → exec c s = .next b)
      ∧ (good → ∃ t, exec c s = .next t ∧ (t.getPort n).rxSeq = h.seq + 1 + h.more))
    ∧ (good → ∀ x, KV.get? s.plk.nodes h.dst = some x → h.dst ≠ s.plkNode → h.dst ≠ 0 → s.plkRelay = true → exec (.plkKeepalive n h) s = .next (b.sendFrame x.port 2 h.dst []))
    ∧ (mine → exec (.plkKeepalive n h) s = .next b ∧ vget b.plk.cnt 1 0 = vget s.plk.cnt 1 0 + (1 + h.more) ∧ b.jobs = s.jobs ∧ b.kst = s.kst
        ∧ ∀ x, KV.get? s.plk.nodes h.src = some x → ∃ l, KV.get? b.plk.nodes h.src = some { x with locked := l } ∧ (l = true ↔ h.tick = s.trd.edge % 2 ^ 32 ∨ (h.tick + 1) % 2 ^ 32 = s.trd.edge % 2 ^ 32))
    ∧ (mine → ∀ (tn : Nat) (ph : Int),
        (p.uplink = false ∨ s.plkRole ≠ 2 → exec (.plkTick n h tn ph) s = .next b)
        ∧ (p.uplink = true → s.plkRole = 2 → ∃ t, exec (.plkTick n h tn ph) s = .next t ∧ t = { b with plk := t.plk } ∧ t.plk.offset = (tn : Int) - s.trd.edge
            ∧ (bit s.plk.cfg 30 = true → s.trd.source ≠ 1 →
                (let corr : Int := if 8 ≤ s.plk.goodFrames then (if 0 < s.plk.phase then 1 else if s.plk.phase < 0 then -1 else 0) else 0
                 t.plk.goodFrames = (if s.plk.tickDue = true ∧ (ph - s.plk.phase + corr).natAbs ≤ 1 then s.plk.goodFrames + 1 else 0))
                ∧ t.plk.phase = ph ∧ t.plk.tickDue = true
                ∧ (t.plk.locked = true ↔ s.plk.locked = true ∨ (8 ≤ t.plk.goodFrames ∧ ph.natAbs ≤ 1)))))
    ∧ (mine → ∀ f : ForwardFrame,
        (s.plkRole ≠ 2 → exec (.plkJob n h f) s = .next b)
        ∧ (∀ st, s.plkRole = 2 → s.refusesJobs = some st → exec (.plkJob n h f) s = .next (b.sendFrame n 6 0 (le 4 f.fid ++ le 2 st)))
        ∧ (s.plkRole = 2 → s.refusesJobs = none → ∃ j, exec (.plkJob n h f) s = .next { b.setJob s.nextJob j with nextJob := s.nextJob + 1 }
            ∧ j.cluster = some (f.fid, n) ∧ j.fn = 256 ∧ j.input = f.input ∧ j.phase = .staged ∧ j.result = none))
    ∧ (mine → ∀ (fid : Nat) (x : Forward),
        (KV.get? s.plk.forwards fid = none → (∀ r o, exec (.plkResult n h fid r o) s = .next b) ∧ (∀ st, exec (.plkRefuse n h fid st) s = .next b))
        ∧ (KV.get? s.plk.forwards fid = some x → x.node ≠ h.src → (∀ r o, exec (.plkResult n h fid r o) s = .next b) ∧ (∀ st, exec (.plkRefuse n h fid st) s = .next b))
        ∧ (∀ j, KV.get? s.plk.forwards fid = some x → x.node = h.src → KV.get? s.jobs x.job = some j →
            (∀ r o, ∃ t y, exec (.plkResult n h fid r o) s = .next t ∧ KV.get? t.plk.forwards fid = none ∧ KV.get? t.jobs x.job = some y ∧ y.forward = none
              ∧ ((field r 16 2 < 0x00A0 ∨ 0x00A3 < field r 16 2 ∨ statefulSign j.opcode = true) → ∃ q, y.result = some q ∧ q.status = field r 16 2 ∧ q.output = o ∧ y.relEdge = s.trd.edge + 1)
              ∧ (0x00A0 ≤ field r 16 2 → field r 16 2 ≤ 0x00A3 → statefulSign j.opcode = false → y.rebook = true ∧ y.result = none))
            ∧ (∀ st, 0x00A0 ≤ st → st ≤ 0x00A3 → ∃ t y, exec (.plkRefuse n h fid st) s = .next t ∧ KV.get? t.plk.forwards fid = none ∧ KV.get? t.jobs x.job = some y ∧ y.rebook = true ∧ y.forward = none)
            ∧ (∀ st, st < 0x00A0 ∨ 0x00A3 < st → s.tablesInv → j.finished = false → j.cluster = none →
                ∃ t, exec (.plkRefuse n h fid st) s = .next t ∧ KV.get? t.plk.forwards fid = none ∧ t.answered x.job 0x0040)))
    ∧ (mine → ∀ fids : List Nat, ∃ t, exec (.plkSquash n h fids) s = .next t ∧ ∀ k j fid, KV.get? t.jobs k = some j → j.cluster = some (fid, n) → fid ∉ fids)
    ∧ (mine → ∀ k : KeyFrame, (s.plkRole ≠ 2 → exec (.plkKeyPut n h k) s = .next b)
        ∧ (s.plkRole = 2 → ∃ t o, exec (.plkKeyPut n h k) s = .next t ∧ KV.get? t.plk.keys k.handle.toNat = some o ∧ o.typ = k.typ ∧ o.pset = k.pset ∧ o.usage = k.usage ∧ o.priv = k.priv ∧ o.pub = k.pub
            ∧ o.order = k.order
            ∧ (∃ w, Output.plkFrame n 10 0 (le 4 k.handle.toNat) w ∈ t.out) ∧ t.kst = s.kst))
    ∧ (mine → ∀ hd : W32,
        (s.tablesInv → ∃ t, exec (.plkKeyDel n h hd) s = .next t ∧ ∀ o, KV.get? t.plk.keys hd.toNat = some o → o.deleted = true)
        ∧ (s.getKey hd = none → exec (.plkKeyAck n h hd) s = .next b)
        ∧ (∀ k, s.getKey hd = some k → exec (.plkKeyAck n h hd) s = .next (if h.src ∈ k.replicas then b else b.setKey hd { k with replicas := k.replicas ++ [h.src] }))
        ∧ (s.plkRole ≠ 1 → exec (.plkGrantReq n h hd) s = .next b)
        ∧ (∀ k st, s.plkRole = 1 → s.getKey hd = some k → k.st = some st → st.stopped = false → k.deleted = false → k.exported = false →
            (let m := min st.reserve (st.keyEnd - st.next)
             ∃ t y z, exec (.plkGrantReq n h hd) s = .next t ∧ t.getKey hd = some y ∧ y.st = some z ∧ z.durable = st.durable
               ∧ (m = 0 ∨ st.durable < st.next + m → z.next = st.next ∧ (h.src, 0, 0) ∈ z.grants)
               ∧ (0 < m → st.next + m ≤ st.durable → z.next = st.next + m ∧ (h.src, st.next, st.next + m) ∈ z.grants
                   ∧ ∃ r ∈ t.kst.waiting, r.typ = 5 ∧ r.handle = hd ∧ r.a = st.next ∧ r.b = st.next + m)))
        ∧ (∀ k a z, KV.get? s.plk.keys hd.toNat = some k →
            exec (.plkGrant n h hd a z) s = .next { b with plk := { b.plk with keys := KV.set s.plk.keys hd.toNat { k with st := k.st.map (fun st => takeGrant st a z) } } }
            ∧ exec (.plkRevoke n h hd) s = .next { b with plk := { b.plk with keys := KV.set s.plk.keys hd.toNat { k with st := k.st.map (fun st => { st with next := st.durable, more := [] }) } } }
            ∧ ∀ st, st.more = [] → st.next = st.durable → st.durable ≤ a → a < z → takeGrant st a z = { st with next := a, durable := z, issued := z, reserve := z - a, asked := false }))
    ∧ (∀ q, (s.running = false ∨ s.portCount ≤ n ∨ p.state ≠ 2 → exec (.plkNak n h q) s = .next s)
        ∧ (live → h.lengthOk = true → h.tagOk = true → ∃ t, exec (.plkNak n h q) s = .next t ∧ (t.getPort n).naks = satAdd p.naks 1 0xFFFF
            ∧ ∀ i typ dst pl k, p.sent.find? (fun f => decide (f.1 = q)) = some (i, typ, dst, pl, k) →
                (k < 8 → s.pcr.warn = false ∨ s.plkRole ≠ 1 → ∃ w, Output.plkFrame n typ dst pl w ∈ t.out) ∧ (8 ≤ k → (t.getPort n).state = 1 ∨ (t.getPort n).state = 4)))
    ∧ (live → (s.pcr.warn = true → s.plkRole = 1 → exec (.plkKeepaliveSend n) s = .next s)
        ∧ (∀ r w, s.pcr.warn = false ∨ s.plkRole ≠ 1 → p.peer = some (r, w) → exec (.plkKeepaliveSend n) s = .next (s.sendFrame n 2 w [])))
    ∧ (∀ f : TrainFrame,
        (s.running = false ∨ s.portCount ≤ n ∨ f.lanes = 0 → exec (.plkTrain n f) s = .next s)
        ∧ (s.running = true → n < s.portCount → n < 8 → f.lanes ≠ 0 → p.state = 1 →
            (s.trainReason n f = 0 → s.intAmple → ∃ t, exec (.plkTrain n f) s = .next t ∧ t.ent.int.pos = s.ent.int.pos + 80 ∧ (t.getPort n).state = 2 ∧ (t.getPort n).peer = some (f.role, f.node) ∧ (t.getPort n).rxSeq = 0
                ∧ (t.getPort n).lanes = min p.lanes f.lanes
                ∧ (t.getPort n).width = (if 4 ≤ min p.lanes f.lanes then 4 else if 2 ≤ min p.lanes f.lanes then 2 else min p.lanes f.lanes))
            ∧ (s.trainReason n f ≠ 0 → ∃ t, exec (.plkTrain n f) s = .next t ∧ ((t.getPort n).state = 3 ∨ (t.getPort n).state = 4) ∧ (t.getPort n).reason = s.trainReason n f)))
    ∧ (s.pageWritable 0x60 = true →
        (s.portCount ≤ n → ∀ e, exec (.portEnable n e) s = .next s)
        ∧ (n < s.portCount → n < 8 →
            (∃ t, exec (.portEnable n true) s = .next t ∧ (t.getPort n).en = true ∧ (t.getPort n).state = if p.state = 0 ∧ s.plkOn = true then 1 else p.state)
            ∧ (∃ t, exec (.portEnable n false) s = .next t ∧ (t.getPort n).en = false ∧ ((t.getPort n).state = 0 ∨ (t.getPort n).state = 4)))
        ∧ (∀ v : W32, s.held.life = 2 ∨ s.held.life = 4 →
            (bit v 0 = true → exec (.peerFprWrite v) s = .next { s with held := { s.held with allow := KV.set s.held.allow s.plk.peerSel s.fprBytes } })
            ∧ (bit v 1 = true → exec (.peerFprClear v) s = .next { s with held := { s.held with allow := KV.erase s.held.allow s.plk.peerSel } }))
        ∧ (∀ v : W32, s.held.life ≠ 2 → s.held.life ≠ 4 → exec (.peerFprWrite v) s = .next s ∧ exec (.peerFprClear v) s = .next s))
    ∧ (s.portCount ≤ n ∨ p.version = 0 ∨ s.pcr.frozen = true → exec (.linkDownTimeout n) s = .next s)
    ∧ (n < s.portCount → n < 8 → p.version ≠ 0 → s.pcr.frozen = false → (∀ m, m ≠ n → m < s.portCount → (s.getPort m).state ≠ 2) →
        ∃ t, exec (.linkDownTimeout n) s = .next t ∧ (t.getPort n).version = 0 ∧ (t.getPort n).uplink = false
          ∧ (p.uplink = true → t.plk.keys = [] ∧ ∀ k j, KV.get? t.jobs k = some j → j.cluster = none)
          ∧ (s.plkRole = 1 → ∀ w x, KV.get? s.plk.nodes w = some x → x.port = n → x.state = 2 → ∃ y, KV.get? t.plk.nodes w = some y ∧ y.state = 3))
    ∧ (n < s.portCount → s.pcr.frozen = false → (p.state = 3 →
        (let u := s.setPort n { p with state := 1, reason := 0 }
         ∃ w, exec (.portRetrainRetry n) s = .next (if s.pcr.warn = true ∧ s.plkRole = 1 then u else u.emit (.plkFrame n 1 0 s.trainPayload w)))) ∧ (p.state ≠ 3 → exec (.portRetrainRetry n) s = .next s))

-- Power, lifecycle, BANK and the test port.

/-- Power, resets, the PCIe link, lifecycle, BANK and the test port (R680 to R684, R715 to R733): a power-up reaches READY or SAFE_HALT; a reset leaves no job, no queue and no instance and keeps what the Fireguard holds; a link reset resets every instance to CREATED; a
power warning sheds and discards campaigns; only the transitions of R727 are accepted, a master secret is drawn only in CUSTODY without one, and an erasure ends in CUSTODY or in DECOMMISSIONED; BANK freezes the module where its request is enabled, after a commit that
has started; the test port gives its identity, its boundary, and in BANK the read-out. -/
def Obligations.PowerLifecycleAndBank : Prop :=
  ∀ (s : State),
    let p := s.pcr
    let put (q : Pcr) : State := { s with pcr := q }
    let works := p.powered = true ∧ p.frozen = false
    let pcrPage := s.pageWritable 0x71 = true
    let bank (c : Instr) (u : State) (n : Nat) : Prop :=
      (p.frozen = true ∨ p.powered = false → exec c s = .next u)
      ∧ (works → s.kst.commitDue = true → exec c s = .next { u with pcr := { u.pcr with bankPending := if p.bankPending = 0 then n else p.bankPending } })
      ∧ (works → s.kst.commitDue = false → ∃ t, exec c s = .next t ∧ t.pcr.frozen = true ∧ t.pcr.bankSource = n ∧ t.pcr.bankTick = s.trd.edge % 65536 ∧ t.pmu.frozen = true ∧ t.jobs = s.jobs ∧ t.pvu = s.pvu
          ∧ t.bne = s.bne ∧ t.kst = s.kst ∧ t.held = s.held ∧ ∀ e, e < 24 → (t.getLka e).running = false)
    (∀ r, (p.powered = true → exec (.powerUp r) s = .next s)
        ∧ (p.powered = false → ∃ t, exec (.powerUp r) s = .next t ∧ t.pcr.powered = true ∧ (t.pcr.ready = true ∨ t.hrt.halt ≠ none)))
    ∧ (∀ c : ResetCause, (c = .pcrReset → p.resetDue = false → exec (.coldReset c) s = .next s)
        ∧ (c ≠ .pcrReset ∨ p.resetDue = true → ∃ t, exec (.coldReset c) s = .next t ∧ t.jobs = [] ∧ t.queues = [] ∧ t.patterns = [] ∧ t.trd.plan = [] ∧ t.dgs = {} ∧ t.pcr.powered = false ∧ t.pcr.ready = false
            ∧ t.pcr.frozen = false ∧ t.held.life = s.held.life ∧ t.held.decommissioned = s.held.decommissioned ∧ t.held.custodians = s.held.custodians ∧ t.pending = s.pending
            ∧ (∀ m, m ≠ 0 → t.fnExists m = false) ∧ (s.held.vbatLow = false → t.held.ms = s.held.ms ∧ t.held.stickyLock = s.held.stickyLock)
            ∧ (∀ h k, KV.get? t.kst.objs h = some k → k.inFlash = true ∧ k.deleted = false ∧ k.inCache = false ∧ k.holders = [])))
    ∧ (pcrPage → ∀ v : W32, exec (.pcrReset v) s = .next (if v.toNat / 65536 = 0xC01D ∧ v.getLsbD 0 = true then put { p with resetDue := true } else s))
    ∧ (¬works → exec .linkReset s = .next s)
    ∧ (∀ c, c = Instr.linkReset ∨ c = .flr 0 → works → s.fnExists 0 = true → ∃ t, exec c s = .next t ∧ t.pcr.linkUp = false ∧ t.pcr.vfEnable = false ∧ t.pcr.numVfs = 0 ∧ t.pcr.linkResets = satAdd p.linkResets 1 0xFFFF
        ∧ (t.getFn 0).resetEdge = some (s.trd.edge + 1) ∧ (∀ q x, q ≤ 64 → t.getQueue 0 q = some x → x.stopped = true) ∧ ∀ m, m ≠ 0 → s.fnExists m = true → (t.getFn m).state = 7 ∧ (t.getFn m).resetTo = 1)
    ∧ exec .pcieLinkUp s = .next (if p.powered = true then put { p with linkUp := true } else s)
    ∧ (∀ (fn reg : Nat) (v : W32) (w : Bool),
        (p.powered = false ∨ p.linkUp = false → exec (.pcieConfigRequest fn w reg v) s = .next s)
        ∧ (p.powered = true → p.linkUp = true → p.ready = false → s.hrt.halt = none → exec (.pcieConfigRequest fn w reg v) s = .next (s.emit (.config none)))
        ∧ (p.powered = true → p.linkUp = true → p.ready = true ∨ s.hrt.halt ≠ none →
            (∃ x, exec (.pcieConfigRequest fn false reg v) s = .next (s.emit (.config (some x))) ∧ (reg = 4 → x.getLsbD 2 = (s.getFn fn).busMaster))
            ∧ (p.frozen = true → exec (.pcieConfigRequest fn true reg v) s = .next s)
            ∧ (p.frozen = false → s.fnExists fn = true → v.getLsbD 2 = true → (s.getFn fn).pendingVec = [] → exec (.pcieConfigRequest fn true 4 v) s = .next (s.setFn fn { s.getFn fn with busMaster := true }))
            ∧ (p.frozen = false → fn ≠ 0 → s.fnExists fn = true → (s.getFn fn).busMaster = true → v.getLsbD 2 = false →
                ∃ t, exec (.pcieConfigRequest fn true 4 v) s = .next t ∧ (t.getFn fn).busMaster = false ∧ (t.getFn fn).state = 7)))
    ∧ (¬works → exec .powerWarning s = .next s)
    ∧ (works → p.warn = true → exec .powerWarning s = .next (put { p with clearing := false }))
    ∧ (works → p.warn = false → ∃ t, exec .powerWarning s = .next t ∧ t.pcr.warn = true ∧ t.pcr.shed = true ∧ t.pcr.warnings = satAdd p.warnings 1 0xFFFF ∧ ∀ e, e < 24 → (t.getLka e).running = false)
    ∧ exec .warnClear s = .next (if p.powered = true ∧ p.frozen = false ∧ p.warn = true then put { p with clearing := true } else s)
    ∧ (∀ n, s.lifeAllowed n = true ↔ (s.held.life = 1 ∧ n = 2) ∨ (s.held.life = 2 ∧ n = 3 ∧ s.held.ms ≠ none ∧ s.held.committed = true) ∨ (s.held.life = 3 ∧ n = 4) ∨ (s.held.life = 4 ∧ n = 3)
        ∨ (s.held.life = 4 ∧ n = 7 ∧ p.decomArmed = true ∧ ∀ f ∈ s.funcs, f.1 = 0) ∨ (s.held.life = 6 ∧ n = 2 ∧ s.held.zeroized = true ∧ p.erasing = 0))
    ∧ (pcrPage →
        (∀ v : W32, v.toNat < 16 →
          (v = 0 → exec (.lifecycleTarget v) s = .next s)
          ∧ (s.lifeAllowed v.toNat = true → exec (.lifecycleTarget v) s = .next (put { p with target := some v.toNat }))
          ∧ (v ≠ 0 → s.lifeAllowed v.toNat = false → exec (.lifecycleTarget v) s = .next (s.raise { src := 0x7105 })))
        ∧ (s.held.life = 2 → s.held.ms = none → s.intAmple → ∃ t, exec .generateMs s = .next t ∧ t.held.ms = some (s.intBytes 32) ∧ t.held.valid = true ∧ t.kst.objs = [] ∧ t.kst.durable = [] ∧ t.held.life = 2)
        ∧ (s.held.life ≠ 2 ∨ s.held.ms ≠ none ∨ s.ent.int.state ≠ .seeded → exec .generateMs s = .next (s.raise { src := 0x7105 }))
        ∧ exec .decomArm s = .next (if s.held.life = 4 then put { p with decomArmed := true } else s))
    ∧ exec .decomArmExpiry s = .next (put { p with decomArmed := false })
    ∧ (p.erasing = 1 → ∃ t, exec .areaEraseDone s = .next t ∧ t.held.life = 2 ∧ t.held.ms = none ∧ t.held.zeroized = false ∧ t.pcr.erasing = 0 ∧ t.kst.objs = [] ∧ t.kst.durable = [] ∧ t.tmp.response = 0)
    ∧ (p.erasing = 2 → ∃ t, exec .areaEraseDone s = .next t ∧ t.held.life = 7 ∧ t.held.decommissioned = true ∧ t.held.custodians = [] ∧ t.held.allow = [] ∧ t.pcr.erasing = 0 ∧ t.kst.objs = [])
    ∧ (p.erasing ≠ 1 → p.erasing ≠ 2 → exec .areaEraseDone s = .next s)
    ∧ (∀ us, (10 ≤ us → p.bankPinEn = true → bank (.bankN us) s 1) ∧ (us < 10 ∨ p.bankPinEn = false → exec (.bankN us) s = .next s))
    ∧ (pcrPage → p.powered = true → bank .bankCtrlEnter s 2)
    ∧ (p.powered = true → p.bankTapEn = true → bank .bankEnter (put { p with tapIr := 8 }) 3) ∧ (p.powered = true → p.bankTapEn = false → exec .bankEnter s = .next (put { p with tapIr := 8 }))
    ∧ (p.powered = true →
        exec .idcode s = .next ((put { p with tapIr := 2 }).emit (.tdo (bitsOf 32 0x14804A3D)))
        ∧ (∀ a, exec (.bankAddr a) s = .next (put { p with tapIr := 9, bankAddr := a }))
        ∧ (∀ l, ∃ o, exec (.bypass l) s = .next ((put { p with tapIr := 0xFF }).emit (.tdo o)) ∧ o = (false :: l).take l.length)
        ∧ (∀ l, ∃ o t, exec (.extest l) s = .next t ∧ t.pcr = { p with tapIr := 0, tapShift := l } ∧ t.out = .tdo o :: s.out ∧ o.length = l.length)
        ∧ (∀ l, ∃ o t, exec (.samplePreload l) s = .next t ∧ t.pcr = { p with tapIr := 1, tapShift := l } ∧ t.out = .tdo o :: s.out ∧ o.length = l.length)
        ∧ (p.frozen = false → exec .bankData s = .next ((put { p with tapIr := 10, bankAddr := p.bankAddr + 8 }).emit (.tdo (List.replicate 64 false))))
        ∧ (p.frozen = true → (∃ t, exec .bankData s = .next t ∧ t.pcr.bankAddr = p.bankAddr + 8)
            ∧ ∀ n, n < s.pvus → n < 16 → bits64 p.bankAddr 63 48 = 0x10 + n →
              (s.held.life ≠ 1 → exec .bankData s = .next ((put { p with tapIr := 10, bankAddr := p.bankAddr + 8 }).emit (.tdo (List.replicate 64 false))))
              ∧ (s.held.life = 1 → bits64 p.bankAddr 47 0 + 8 ≤ 1048576 → exec .bankData s = .next ((put { p with tapIr := 10, bankAddr := p.bankAddr + 8 }).emit
                  (.tdo (bitsOf 64 (unLe ((List.range 8).map (fun i => KV.getD (s.getPvu n).ls (bits64 p.bankAddr 47 0 + i) 0)))))))))
    ∧ (p.powered = false → ∀ l a, ∀ c ∈ [Instr.idcode, .bankAddr a, .bypass l, .extest l, .samplePreload l, .bankData, .bankEnter], exec c s = .next s)

-- The tamper envelope and the cards.

/-- The tamper envelope (R602 to R625): an alarm of an enabled input is recorded with its evidence, and its response is taken when it is stronger than what is in force: LOCK and ZEROIZE change the lifecycle, ZEROIZE erases the master secret; a disabled input, a check that
passes and a switch off its polarity raise nothing; the configuration takes only what R604 allows; HALT ends when no HALT input is in alarm. -/
def Obligations.TamperEnvelope : Prop :=
  ∀ (s : State),
    let r0 := s.inForce
    let quiet (c : Instr) : Prop := ∃ t, exec c s = .next t ∧ t.held = s.held ∧ t.tmp.active = s.tmp.active ∧ t.tmp.response = s.tmp.response
    let alarms (c : Instr) (n : Nat) : Prop := ∀ r, s.alarmResponse n = some r → ∃ t e l, exec c s = .next t
      ∧ t.tmp.active = s.tmp.active ||| BitVec.ofNat 64 (2 ^ n) ∧ t.held.sticky = s.held.sticky ||| BitVec.ofNat 64 (2 ^ n)
      ∧ t.held.evidence = e :: l ∧ e.input = n ∧ e.seq = s.held.evidCnt ∧ e.response = (if r0 < r then r else 0)
      ∧ (r ≤ r0 → t.tmp.response = s.tmp.response ∧ t.held.life = s.held.life ∧ t.held.ms = s.held.ms)
      ∧ (r0 < r → t.tmp.response = r ∧ (r = 1 → t.held.life = s.held.life ∧ t.held.ms = s.held.ms)
          ∧ (r = 2 → t.held.life = 5 ∧ t.held.stickyLock = true ∧ t.held.prevLife = s.held.life ∧ t.held.ms = s.held.ms) ∧ (r = 3 → t.held.life = 6 ∧ t.held.ms = none ∧ t.held.zeroized = true))
    let checks (n : Nat) : Prop := (s.pcr.input = true ∧ n < 63) ∨ (s.pcr.input = false ∧ n < 64 ∧ n ∉ [57, 58, 61, 62])
    (∀ n m, (checks n → s.alarmResponse n ≠ none → alarms (.tamperAlarm n m) n)
        ∧ (checks n → 57 ≤ n → n ≤ 60 → ∃ t, exec (.tamperAlarm n m) s = .next t ∧ ∀ i, i < 8 → t.tmp.envStat.getLsbD i = (s.tmp.envStat.getLsbD i || decide (i / 2 = n - 57)))
        ∧ (checks n → s.alarmResponse n = none → ∃ t, exec (.tamperAlarm n m) s = .next t ∧ t = { s with tmp := { s.tmp with envStat := t.tmp.envStat } })
        ∧ (¬checks n → exec (.tamperAlarm n m) s = .next s))
    ∧ (∀ w, (w ≠ 0 → alarms (.selvedgeCheck w) 56) ∧ (w = 0 → quiet (.selvedgeCheck w)) ∧ ∃ t, exec (.selvedgeCheck w) s = .next t ∧ t.tmp.selvTrace = w)
    ∧ (∀ n m ok, n < 48 →
        (let w := vget s.held.loopCfg n 0
         let mode := bits w 31 30
         let fails := (mode = 2 ∧ s.pcr.input = true ∧ ok = false) ∨ ((mode = 1 ∨ mode = 3 ∨ (mode = 2 ∧ s.pcr.input = false)) ∧ (m < bits w 15 8 ∨ bits w 23 16 < m))
         (fails → alarms (.loopCheck n m ok) n) ∧ (¬fails → quiet (.loopCheck n m ok))))
    ∧ (∀ n lv, n < 8 → (lv = bit s.held.caseCfg (4 * n + 2) → alarms (.caseSwitch n lv) (48 + n)) ∧ (lv ≠ bit s.held.caseCfg (4 * n + 2) → quiet (.caseSwitch n lv))
        ∧ ∃ t, exec (.caseSwitch n lv) s = .next t ∧ t.tmp.caseLevel.getLsbD n = lv)
    ∧ (∀ m b, (m < 4 → alarms (.monitorDisagree m b) (57 + m) ∧ ∃ t, exec (.monitorDisagree m b) s = .next t ∧ t.tmp.disagree.getLsbD m = true) ∧ (4 ≤ m → exec (.monitorDisagree m b) s = .next s))
    ∧ (∀ mv, (2450 ≤ mv → s.makes (.vbatLow mv) { s with held := { s.held with vbatMv := mv, vbatLow := false } })
        ∧ (mv < 2450 → s.pcr.input = true → ∃ t, exec (.vbatLow mv) s = .next t ∧ t.held.vbatLow = true ∧ t.tmp.response = s.tmp.response ∧ t.held.life = s.held.life)
        ∧ (mv < 2450 → s.pcr.input = false → alarms (.vbatLow mv) 63))
    ∧ (s.pageWritable 0x51 = true → ∀ off (v : W32),
        (let known := off = 0x110 ∨ off = 0x114 ∨ off = 0x13C ∨ (0x140 ≤ off ∧ off < 0x200 ∧ off % 4 = 0)
         let w := v &&& configMask off
         let free := s.held.life = 1 ∨ s.held.life = 2 ∨ s.cfgSession = true
         (¬known → exec (.tamperConfigWrite off v) s = .next s)
         ∧ (known → configAllowed off w = true → free ∨ relaxes off (s.tamperConfig off) w = false → exec (.tamperConfigWrite off v) s = .next (s.setTamperConfig off v))
         ∧ (known → configAllowed off w = false ∨ (¬free ∧ relaxes off (s.tamperConfig off) w = true) → exec (.tamperConfigWrite off v) s = .next (s.raise { src := 0x5104 }))))
    ∧ (s.pageWritable 0x51 = true → ∀ v : W32,
        (let blocked := ∃ n, n < 64 ∧ s.tmp.active.getLsbD n = true ∧ s.inputResponse n = some 1
         (bit v 0 = false → exec (.tmpRelease v) s = .next s)
         ∧ (bit v 0 = true → s.tmp.response = 1 → ¬blocked → s.makes (.tmpRelease v) { s with tmp := { s.tmp with response := 0, resuming := true } })
         ∧ (bit v 0 = true → s.tmp.response ≠ 1 ∨ blocked → exec (.tmpRelease v) s = .next (s.raise { src := 0x5104 }))))
    ∧ (∀ n, s.makes (.alarmCleared n) { s with tmp := { s.tmp with
        active := s.tmp.active &&& ~~~(BitVec.ofNat 64 (2 ^ n))
        envStat := if 57 ≤ n ∧ n ≤ 60 then s.tmp.envStat &&& ~~~(BitVec.ofNat 8 (3 * 4 ^ (n - 57))) else s.tmp.envStat } })
    ∧ exec .evidenceCopy s = .next (if s.pcr.powered = true then { s with held := { s.held with evidRing := (s.held.evidWait.reverse ++ s.held.evidRing).take 4096, evidWait := [] } } else s)

/-- Card slots and custodian quorums (R629 to R646): a card that goes ends its exchange with the status of R634; activation starts in class C or the class set, an ATR that does not parse and one that does not come end in their error, a PPS echo is adopted; a pass-through takes one
well-formed command for a free, active slot and keeps its response; a session opens only for a purpose and a state that R643 allows, counts each custodian once, and at its threshold its action becomes due, the secret is restored when the shares agree with the commitment,
or writing begins. -/
def Obligations.CardsAndQuorums : Prop :=
  ∀ (s : State) (n : Nat),
    let x := s.getSlot n
    let T := s.thm
    let page := s.pageWritable 0x58 = true
    let idle := T.exch ≠ some n
    let after (c : Instr) (P : State → CardSlot → Prop) : Prop := ∃ t, exec c s = .next t ∧ P t (t.getSlot n)
    (n < 6 →
      (s.pcr.powered = true → after (.cardInserted n) (fun t y => y.present = true ∧ t.jobs = s.jobs ∧ (x.claimed = false → y = { x with present := true })
          ∧ (x.claimed = true → bit x.cfg 7 = true → x.disabled = false → y.waitAtr = true ∧ y.cls = if bits x.cfg 5 4 = 0 then 3 else bits x.cfg 5 4)))
      ∧ (x.present = true → after (.cardRemoved n) (fun t y => y.present = false ∧ y.active = false ∧ y.cls = 0 ∧ (T.exch = some n → t.thm.exch = none ∧ t.thm.apduDone = true ∧ t.thm.apduStatus = 0x00C0 ∧ t.thm.resp = [])))
      ∧ (x.present = false → exec (.cardRemoved n) s = .next s)
      ∧ (page → (x.claimed = true → exec (.cardActivate n) s = .next s)
          ∧ (x.claimed = false → x.usable = true → idle → after (.cardActivate n) (fun t y => y.cls = (if bits x.cfg 5 4 = 0 then 3 else bits x.cfg 5 4) ∧ y.waitAtr = true ∧ y.active = false ∧ y.clk = 1 ∧ y.err = 0
              ∧ Output.cardPower n y.cls ∈ t.out))
          ∧ (x.claimed = false → x.usable = false → after (.cardActivate n) (fun _ y => y.cls = 0 ∧ y.active = false))
          ∧ after (.cardDeactivate n) (fun t y => y.cls = 0 ∧ y.active = false ∧ y.clk = 0 ∧ (T.exch = some n → t.thm.apduStatus = 0x00C0))
          ∧ (x.cls = 0 → exec (.cardWarmReset n) s = .next s) ∧ (x.cls ≠ 0 → after (.cardWarmReset n) (fun _ y => y.waitAtr = true ∧ y.active = false ∧ y.cls = x.cls)))
      ∧ (∀ b, (x.waitAtr = false → exec (.atrReceived n b) s = .next s)
          ∧ (x.waitAtr = true → parseAtr b = none → after (.atrReceived n b) (fun _ y => y.err = 2 ∧ y.active = false ∧ y.cls = 0))
          ∧ (∀ a, x.waitAtr = true → parseAtr b = some a → (∀ c, a.classes = some c → c / 2 ^ (x.cls - 1) % 2 = 1) →
              (∀ v, a.ta2 = some v → after (.atrReceived n b) (fun _ y => y.active = true ∧ y.waitAtr = false ∧ (y.t1 = true ↔ v % 16 = 1) ∧ y.atrLen = b.length))
              ∧ (a.ta2 = none → bit x.cfg 1 = true → x.noPps = false → after (.atrReceived n b) (fun t y => y.active = x.active ∧ ∃ q, y.waitPps = some q ∧ t.out.head? = some (.card n q) ∧ q.length = 4 ∧ q.headD 0 = 0xFF))
              ∧ (a.ta2 = none → bit x.cfg 1 = false ∨ x.noPps = true → after (.atrReceived n b) (fun _ y => y.active = true ∧ y.fi = 1 ∧ y.di = 1 ∧ (y.t1 = true ↔ a.protos.headD 0 = 1)))))
      ∧ (x.waitAtr = false → exec (.atrTimeout n) s = .next s)
      ∧ (x.waitAtr = true → after (.atrTimeout n) (fun _ y => y.cls = 0 ∧ y.active = false ∧ (bits x.cfg 5 4 ≠ 0 ∨ classUp x.trial = none → y.err = 1 ∧ y.trial = 0) ∧ (bits x.cfg 5 4 = 0 → classUp x.trial ≠ none → y.trial = x.trial)))
      ∧ (∀ c, x.cls = 0 → x.usable = true → classUp x.trial = some c → after (.nextClassAttempt n) (fun t y => y.cls = c ∧ y.trial = c ∧ y.waitAtr = true ∧ t.out = .cardPower n c :: s.out))
      ∧ (x.cls ≠ 0 ∨ x.usable = false ∨ classUp x.trial = none → exec (.nextClassAttempt n) s = .next s)
      ∧ (∀ r, (x.waitPps = none → exec (.ppsResponse n r) s = .next s)
          ∧ (x.waitPps = some r → after (.ppsResponse n r) (fun _ y => y.active = true ∧ y.fi = (r.getD 2 0).toNat / 16 ∧ y.di = (r.getD 2 0).toNat % 16 ∧ y.waitPps = none))
          ∧ (∀ q, x.waitPps = some q → r ≠ q → r ≠ [0xFF, q.getD 1 0 &&& 0x0F, 0xFF ^^^ (q.getD 1 0 &&& 0x0F)] → after (.ppsResponse n r) (fun _ y => y.err = 4 ∧ y.active = false)))
      ∧ (x.cls = 0 → exec (.vccOvercurrent n) s = .next s) ∧ (x.cls ≠ 0 → after (.vccOvercurrent n) (fun _ y => y.err = 5 ∧ y.cls = 0 ∧ y.active = false))
      ∧ (∀ r, (T.exch ≠ some n → exec (.apduResponse n r) s = .next s)
          ∧ (T.exch = some n → after (.apduResponse n r) (fun t y => t.thm.exch = none ∧ t.thm.apduDone = true ∧ t.thm.resp = r.take 2050 ∧ t.thm.readPos = 0 ∧ y.busy = false
              ∧ (∀ d, (r.take 2050 = d ++ [0x90, 0x00] ∨ ∃ z, r.take 2050 = d ++ [0x61, z]) → t.thm.apduStatus = 0) ∧ (r.length < 2 → t.thm.apduStatus = 0x00C2)))))
    ∧ (page → ∀ v : W32, exec (.apduDataWrite v) s = .next { s with thm := { T with cmd := (T.cmd ++ le 4 v.toNat).take 2048 } })
    ∧ exec .apduDataRead s = .next (({ s with thm := { T with readPos := T.readPos + 4 } } : State).answer (BitVec.ofNat 32 (field T.resp T.readPos 4)))
    ∧ (page → ∀ v : W32,
        (let k := bits v 18 16
         let len := bits v 11 0
         let y := s.getSlot k
         let c := fit len T.cmd
         let fits := 4 ≤ len ∧ len ≤ 2048 ∧ k < 6
         let ends (st : Nat) : Prop := ∃ t, exec (.apduStart v) s = .next t ∧ t.thm.apduDone = true ∧ t.thm.apduStatus = st ∧ t.thm.exch = none ∧ t.thm.cmd = [] ∧ t.out = s.out
         (bit v 31 = false ∨ T.passEn = false → exec (.apduStart v) s = .next s)
         ∧ (bit v 31 = true → T.passEn = true → T.exch = none →
            (¬fits → ends 0x0014)
            ∧ (fits → y.claimed = true ∨ y.active = false ∨ y.present = false → ends 0x00C1)
            ∧ (fits → y.claimed = false → y.active = true → y.present = true →
                (apduForm c = none ∨ (apduForm c = some true ∧ y.t1 = false) → ends 0x0010)
                ∧ (∀ e, apduForm c = some e → e = false ∨ y.t1 = true → ∃ t, exec (.apduStart v) s = .next t ∧ t.thm.exch = some k ∧ t.thm.apduDone = false ∧ t.thm.cmd = [] ∧ (t.getSlot k).busy = true ∧ t.out.head? = some (.card k c))))
         ∧ (bit v 31 = true → T.passEn = true → T.exch ≠ none → fits → ∃ t, exec (.apduStart v) s = .next t ∧ t.thm.apduStatus = 0x0014 ∧ t.thm.exch = T.exch ∧ t.thm.cmd = T.cmd)))
    ∧ (page → ∀ v : W32,
        (let p := bits v 2 0
         let m := bits v 11 8
         let refused (st : Nat) : Prop := exec (.quorumOpen v) s = .next { s with thm := { T with resultDone := true, resultStatus := st } }
         let bad := p = 0 ∨ p = 7 ∨ T.session ≠ none ∨ (p = 4 ∧ (m = 0 ∨ 10 < m))
         (bit v 31 = false → exec (.quorumOpen v) s = .next s) ∧ (bit v 31 = true → bad → refused 0x0014)
         ∧ (bit v 31 = true → ¬bad → s.purposeAllowed p = false → refused 0x0024)
         ∧ (bit v 31 = true → ¬bad → s.purposeAllowed p = true → p = 5 → s.held.zeroized = true → refused 0x00A2)
         ∧ (bit v 31 = true → ¬bad → s.purposeAllowed p = true → p ≠ 5 ∨ s.held.zeroized = false → p ≠ 6 ∨ s.held.committed = true → ∃ t y, exec (.quorumOpen v) s = .next t ∧ t.thm.session = some y
            ∧ y.purpose = p ∧ y.qstate = 1 ∧ y.counted = [] ∧ y.opened = s.us ∧ y.needed = threshold s.held.quorumDef p ∧ t.thm.resultDone = false
            ∧ ∀ k, k < 6 → (t.getSlot k).claimed = (bit (s.getSlot k).cfg 7 && bit (s.getSlot k).cfg 0 && !(s.getSlot k).disabled))))
    ∧ (∀ c, (c = .quorumTimeout ∨ (page ∧ ∃ v : W32, bit v 30 = true ∧ c = .quorumClose v)) →
        (T.session = none → exec c s = .next s)
        ∧ (∀ y, T.session = some y → ∃ t, exec c s = .next t ∧ t.thm.session = none ∧ (∀ k, k < 6 → (t.getSlot k).claimed = false) ∧ t.thm.action = T.action
            ∧ (y.qstate = 2 → t.thm.resultStatus = T.resultStatus) ∧ (y.qstate ≠ 2 → t.thm.resultDone = true ∧ t.thm.resultStatus = 0x0060)))
    ∧ (∀ c : CardPresented, T.session = none → exec (.quorumCard n c) s = .next s)
    ∧ (∀ (c : CardPresented) (y : Session), T.session = some y →
        (6 ≤ n ∨ x.claimed = false ∨ x.present = false ∨ y.qstate = 2 → exec (.quorumCard n c) s = .next s)
        ∧ (n < 6 → x.claimed = true → x.present = true → y.qstate ≠ 2 →
            (c.answered = false → exec (.quorumCard n c) s = .next (s.cardFailed n c.sw))
            ∧ (let fpr := sha256 c.pubKey
               let good := custodianSigned c (s.intBytes 32) = true
               let reaches (P : State → Prop) : Prop := ∃ t, exec (.quorumCard n c) s = .next t ∧ P t
               c.answered = true → s.intAmple →
                (¬good ∨ (fpr ∉ s.held.custodians ∧ y.qstate ≠ 3) → reaches (fun t => t.thm.session = some y ∧ t.thm.detailSw = c.sw.toNat ∧ t.thm.detailSlot = n))
                ∧ (good → fpr ∈ s.held.custodians → y.qstate ≠ 3 → fpr ∈ y.counted → reaches (fun t => t.thm.session = some y ∧ t.thm.action = T.action))
                ∧ (good → fpr ∈ s.held.custodians → y.qstate ≠ 3 → fpr ∉ y.counted → y.purpose ≠ 5 →
                    (y.counted.length + 1 < y.needed → reaches (fun t => t.thm.session = some { y with counted := y.counted ++ [fpr] } ∧ t.thm.action = T.action))
                    ∧ (y.needed ≤ y.counted.length + 1 →
                        (y.purpose < 3 → reaches (fun t => t.thm.session = none ∧ t.thm.action = some y.purpose ∧ t.thm.resultDone = true ∧ t.thm.resultStatus = 0))
                        ∧ (y.purpose = 3 ∨ y.purpose = 4 → reaches (fun t => t.thm.action = some y.purpose ∧ t.thm.resultStatus = 0 ∧ ∃ z, t.thm.session = some z ∧ z.qstate = 2))
                        ∧ (y.purpose = 6 → definitionOk s.quorumDefinition = false → reaches (fun t => t.thm.session = none ∧ t.thm.resultStatus = 0x0014))
                        ∧ (y.purpose = 6 → definitionOk s.quorumDefinition = true → reaches (fun t => ∃ z, t.thm.session = some z ∧ z.qstate = 3 ∧ z.defn = s.quorumDefinition ∧ z.writtenTo = [] ∧ z.table = []))))
                ∧ (let h := (holding c.recordA c.recordB s.held.setId.toNat).1
                   let r := if h = 1 then c.recordA else c.recordB
                   let shares := y.shares ++ [((r.getD 34 0).toNat, slice r 36 32)]
                   good → fpr ∈ s.held.custodians → y.qstate ≠ 3 → fpr ∉ y.counted → y.purpose = 5 →
                    (h = 0 → reaches (fun t => t.thm.session = some y ∧ t.held.ms = s.held.ms))
                    ∧ (h ≠ 0 → y.counted.length + 1 < y.needed → reaches (fun t => t.thm.session = some { y with counted := y.counted ++ [fpr], shares := shares }))
                    ∧ (h ≠ 0 → y.needed ≤ y.counted.length + 1 →
                        (sha256 (combineShares shares ++ le 8 s.held.setId.toNat) = slice r 68 32 → reaches (fun t => t.held.ms = some (combineShares shares) ∧ t.thm.action = some 5 ∧ t.thm.session = none ∧ t.thm.resultStatus = 0))
                        ∧ (sha256 (combineShares shares ++ le 8 s.held.setId.toNat) ≠ slice r 68 32 → reaches (fun t => t.held.ms = s.held.ms ∧ t.thm.session = none ∧ t.thm.resultStatus = 0x00C2))))
                ∧ (good → y.qstate = 3 → fpr ∉ y.table → y.table.length + 1 ≤ qdN y.defn → (∀ w ∈ y.writtenTo, w.1 ≠ y.table.length + 1) → c.removedAt = 0 →
                    (y.writtenTo.length + 1 ≠ qdN y.defn → reaches (fun t => t.thm.session = some { y with table := y.table ++ [fpr], writtenTo := y.writtenTo ++ [(y.table.length + 1, fpr)] } ∧ t.held.custodians = s.held.custodians))
                    ∧ (y.writtenTo.length + 1 = qdN y.defn → reaches (fun t => t.thm.session = none ∧ t.thm.resultStatus = 0 ∧ t.held.committed = true ∧ t.held.custodians = y.table ++ [fpr] ∧ t.held.setId = y.setId ∧ t.held.quorumDef = y.defn))))))
end

