-- ==== Sys2Proof/Laws/Frame.lean ====
section
/-! SUPPORT. The frame of the model: the queue, the part and the lifecycle, which all but a few named rows leave alone. Each
operation and each row has one lemma here and in the Frame files beside this one: what it leaves unchanged of the frame. -/

namespace Sys2Proof.Machine

/-- What only the lifecycle rows, TICK_EDGE, PERIOD_APPLIED, the resets and `step` itself change: the queue, the part, the lifecycle with what it
rests on, the time, the number of the last edge and the period. -/
def State.frame (s : State) : List Instr × Nat × Nat × Nat × Bool × Bool × Bool × Nat × Nat × Nat × Nat :=
  (s.pending, s.part, s.held.life, s.held.prevLife, s.held.stickyLock, s.held.zeroized, s.held.decommissioned, s.pcr.erasing,
    s.us, s.trd.edge, s.trd.period)

theorem State.frame_mk (a b c d e f g h) (tr : Treadle) (j k l m n o p q r u v w x y z a1) (hd : Held) (c1 d1 e1 f1 g1)
    (pc : Pcr) (i1) :
    (State.mk a b c d e f g h tr j k l m n o p q r u v w x y z a1 hd c1 d1 e1 f1 g1 pc i1).frame
      = (a, c, hd.life, hd.prevLife, hd.stickyLock, hd.zeroized, hd.decommissioned, pc.erasing, d, tr.edge, tr.period) := rfl
theorem State.frame_fold (s : State) :
    (s.pending, s.part, s.held.life, s.held.prevLife, s.held.stickyLock, s.held.zeroized, s.held.decommissioned, s.pcr.erasing,
      s.us, s.trd.edge, s.trd.period) = s.frame := rfl
theorem foldl_frame {α : Type} (f : State → α → State) (l : List α) (s : State)
    (h : ∀ t x, (f t x).frame = t.frame) : (l.foldl f s).frame = s.frame := by
  induction l generalizing s with
  | nil => rfl
  | cons x l ih => rw [List.foldl_cons, ih, h]
theorem foldl_frame1 {α β : Type} (f : State × β → α → State × β) (l : List α) (s : State × β)
    (h : ∀ t x, (f t x).1.frame = t.1.frame) : (l.foldl f s).1.frame = s.1.frame := by
  induction l generalizing s with
  | nil => rfl
  | cons x l ih => rw [List.foldl_cons, ih, h]
theorem ite_frame {c : Prop} [Decidable c] {a b s : State} (ha : a.frame = s.frame) (hb : b.frame = s.frame) :
    (if c then a else b).frame = s.frame := by
  split
  · exact ha
  · exact hb

end Sys2Proof.Machine
end

