-- ==== Sys2Proof/Laws/FrameOps.lean ====
section
/-! SUPPORT. Frame lemmas: shared operations, and the rows of the block header, tamper, entropy, leakage, memory and queues. -/

set_option maxRecDepth 2000
set_option linter.unusedSimpArgs false

namespace Sys2Proof.Machine

theorem State.setPvu_frame (s : State) (n : Nat) (p : Pvu) : (State.setPvu s n p).frame = s.frame := by
  rfl
theorem State.setBne_frame (s : State) (n : Nat) (p : Bne) : (State.setBne s n p).frame = s.frame := by
  rfl
theorem State.setBlk_frame (s : State) (k : Nat) (b : Blk) : (State.setBlk s k b).frame = s.frame := by
  rfl
theorem State.setFn_frame (s : State) (f : Nat) (x : Func) : (State.setFn s f x).frame = s.frame := by
  rfl
theorem State.setQueue_frame (s : State) (fn : Nat) (q : Nat) (x : Queue) : (State.setQueue s fn q x).frame = s.frame := by
  rfl
theorem State.setJob_frame (s : State) (j : Nat) (x : Job) : (State.setJob s j x).frame = s.frame := by
  rfl
theorem State.modJob_frame (s : State) (j : Nat) (f : Job → Job) : (State.modJob s j f).frame = s.frame := by
  unfold State.modJob
  split <;> simp only [State.setJob_frame]
theorem State.setKey_frame (s : State) (h : W32) (k : KeyObj) : (State.setKey s h k).frame = s.frame := by
  rfl
theorem State.emit_frame (s : State) (o : Output) : (State.emit s o).frame = s.frame := by
  rfl
theorem State.answer_frame (s : State) (v : W32) : (State.answer s v).frame = s.frame := by
  rfl
theorem State.markDirty_frame (s : State) (fn : Nat) (addr : Nat) (n : Nat) :
    (State.markDirty s fn addr n).frame = s.frame := by
  unfold State.markDirty
  split <;> simp only [State.setFn_frame]
theorem State.hostWrite_frame (s : State) (fn : Nat) (addr : Nat) (bytes : List Byte) :
    (State.hostWrite s fn addr bytes).frame = s.frame := by
  unfold State.hostWrite
  split <;> simp only [State.emit_frame, State.markDirty_frame]
theorem State.count_frame (s : State) (k : Nat) (ev : Nat) (fn : Option Nat) (n : Nat) :
    (State.count s k ev fn n).frame = s.frame := by
  unfold State.count
  split <;> simp only [↓State.frame_mk, State.frame_fold]
theorem State.sendMsix_frame (s : State) (fn : Nat) (vec : Nat) : (State.sendMsix s fn vec).frame = s.frame := by
  unfold State.sendMsix
  repeat' first | with_reducible rfl | simp only [State.count_frame, State.emit_frame, State.setFn_frame, ↓State.frame_mk, State.frame_fold] | split
theorem State.requestMessage_frame (s : State) (k : Nat) : (State.requestMessage s k).frame = s.frame := by
  unfold State.requestMessage
  repeat' first | with_reducible rfl | simp only [State.sendMsix_frame] | split
theorem State.irqSync_frame (s : State) (k : Nat) : (State.irqSync s k).frame = s.frame := by
  unfold State.irqSync
  repeat' first | with_reducible rfl | simp only [State.requestMessage_frame, State.setBlk_frame] | split
theorem State.irqReeval_frame (s : State) (k : Nat) : (State.irqReeval s k).frame = s.frame := by
  unfold State.irqReeval
  repeat' first | with_reducible rfl | simp only [State.requestMessage_frame, State.setBlk_frame] | split
theorem State.cause_frame (s : State) (k : Nat) (n : Nat) : (State.cause s k n).frame = s.frame := by
  simp only [State.cause, State.irqSync_frame, State.setBlk_frame]
theorem State.irqSyncAll_frame (s : State) (ks : List Nat) : (State.irqSyncAll s ks).frame = s.frame := by
  unfold State.irqSyncAll
  repeat' first | with_reducible rfl | simp only [State.irqSync_frame] | split | refine (foldl_frame _ _ _ ?_).trans ?_ | intro _
theorem State.event_frame (s : State) (k : Nat) (ev : Nat) (fn : Option Nat) (n : Nat) :
    (State.event s k ev fn n).frame = s.frame := by
  simp only [State.event, State.count_frame, State.irqSync_frame]
theorem State.kstCount_frame (s : State) (i : Nat) (n : Nat) : (State.kstCount s i n).frame = s.frame := by
  rfl
theorem State.flsCount_frame (s : State) (i : Nat) (n : Nat) : (State.flsCount s i n).frame = s.frame := by
  rfl
theorem State.flsBusy_frame (s : State) : (State.flsBusy s).frame = s.frame := by
  rfl
theorem State.programPages_frame (s : State) (n : Nat) : (State.programPages s n).frame = s.frame := by
  unfold State.programPages
  split <;> simp only [↓State.frame_mk, State.frame_fold, State.event_frame, State.flsBusy_frame, State.flsCount_frame, State.kstCount_frame]
theorem State.eraseOnce_frame (s : State) (b : Nat) : (State.eraseOnce s b).frame = s.frame := by
  simp only [State.eraseOnce, ↓State.frame_mk, State.frame_fold, State.event_frame, State.flsBusy_frame, State.flsCount_frame, State.kstCount_frame]
theorem State.wearMove_frame (s : State) : (State.wearMove s).frame = s.frame := by
  unfold State.wearMove
  split <;> simp only [↓State.frame_mk, State.frame_fold, State.eraseOnce_frame, State.flsCount_frame, State.kstCount_frame, State.programPages_frame]
theorem State.eraseBlock_frame (s : State) (b : Nat) : (State.eraseBlock s b).frame = s.frame := by
  simp only [State.eraseBlock, State.eraseOnce_frame, State.wearMove_frame]
theorem State.clearKeyCache_frame (s : State) : (State.clearKeyCache s).frame = s.frame := by
  rfl
theorem State.kstClose_frame (s : State) : (State.kstClose s).frame = s.frame := by
  unfold State.kstClose
  repeat' first | with_reducible rfl | simp only [↓State.frame_mk, State.frame_fold, State.cause_frame, State.clearKeyCache_frame] | split
theorem State.kstCommit_frame (s : State) : (State.kstCommit s).frame = s.frame := by
  simp only [State.kstCommit, ↓State.frame_mk, State.frame_fold, State.kstCount_frame, State.programPages_frame]
theorem State.journal_frame (s : State) (r : JrnRec) : (State.journal s r).frame = s.frame := by
  rfl
theorem State.reserveLeaves_frame (s : State) (h : W32) : (State.reserveLeaves s h).frame = s.frame := by
  unfold State.reserveLeaves
  repeat' first | with_reducible rfl | simp only [State.journal_frame, State.kstCount_frame, State.setKey_frame, ↓State.frame_mk, State.frame_fold] | split
theorem State.kstOpen_frame (s : State) : (State.kstOpen s).frame = s.frame := by
  unfold State.kstOpen
  repeat' first | with_reducible rfl | simp only [↓State.frame_mk, State.frame_fold] | split
theorem State.kstReplay_frame (s : State) : (State.kstReplay s).frame = s.frame := by
  rfl
theorem State.scatter_frame (s : State) (fn : Nat) (a0 : List (Nat × Nat)) (a1 : List Byte) :
    (State.scatter s fn a0 a1).frame = s.frame := by
  induction a0 generalizing s a1 with
  | nil => cases a1 <;> rfl
  | cons p ps ih => unfold State.scatter; rw [ih, State.hostWrite_frame]
theorem State.writeOutput_frame (s : State) (j : Job) (r : Result) : (State.writeOutput s j r).frame = s.frame := by
  unfold State.writeOutput
  repeat' first | with_reducible rfl | simp only [State.hostWrite_frame, State.scatter_frame] | split
theorem State.writeHead_frame (s : State) (fn : Nat) (q : Queue) : (State.writeHead s fn q).frame = s.frame := by
  simp only [State.writeHead, State.event_frame, State.hostWrite_frame]
theorem State.writeRecord_frame (s : State) (id : Nat) (j : Job) (q : Queue) :
    (State.writeRecord s id j q).frame = s.frame := by
  simp only [State.writeRecord, State.event_frame, State.hostWrite_frame, State.setJob_frame, State.setQueue_frame]
theorem State.writeStatus_frame (s : State) (j : Job) : (State.writeStatus s j).frame = s.frame := by
  unfold State.writeStatus
  repeat' first | with_reducible rfl | simp only [State.hostWrite_frame] | split
theorem State.advanceHead_frame (a0 : Nat) (a1 : State) (a2 : Nat) (a3 : Nat) :
    (State.advanceHead a0 a1 a2 a3).1.frame = a1.frame := by
  induction a0 generalizing a1 with
  | zero => rfl
  | succ n ih =>
    unfold State.advanceHead
    repeat' first
      | with_reducible rfl
      | simp only [ih, ↓State.frame_mk, State.frame_fold, State.setQueue_frame, State.event_frame, State.writeStatus_frame]
      | split
theorem State.moveHead_frame (s : State) (fn : Nat) (q : Nat) : (State.moveHead s fn q).frame = s.frame := by
  unfold State.moveHead
  repeat' first | with_reducible rfl | simp only [State.advanceHead_frame, State.writeHead_frame] | split
theorem State.flushOne_frame (s : State) (fn : Nat) (q : Nat) (id : Nat) : (State.flushOne s fn q id).frame = s.frame := by
  unfold State.flushOne
  repeat' first | with_reducible rfl | simp only [State.moveHead_frame, State.writeRecord_frame] | split
theorem State.flushQueue_frame (s : State) (fn : Nat) (q : Nat) : (State.flushQueue s fn q).frame = s.frame := by
  unfold State.flushQueue
  repeat' first | with_reducible rfl | simp only [State.flushOne_frame] | split | refine (foldl_frame _ _ _ ?_).trans ?_ | intro _
theorem State.releaseKey_frame (s : State) (id : Nat) (j : Job) : (State.releaseKey s id j).frame = s.frame := by
  unfold State.releaseKey
  repeat' first | with_reducible rfl | simp only [↓State.frame_mk, State.frame_fold, State.setKey_frame] | split
theorem State.putFrame_frame (s : State) (port : Nat) (code : Nat) (dst : Nat) (seq : Nat) (payload : List Byte) : (State.putFrame s port code dst seq payload).frame = s.frame := by
  unfold State.putFrame
  repeat' first | with_reducible rfl | simp only [↓State.frame_mk, State.frame_fold, State.emit_frame] | split | refine (foldl_frame _ _ _ ?_).trans ?_ | refine (foldl_frame1 _ _ _ ?_).trans ?_ | intro _ | (dsimp only [])
theorem State.sendPiece_frame (s : State) (port : Nat) (code : Nat) (dst : Nat) (payload : List Byte) : (State.sendPiece s port code dst payload).frame = s.frame := by
  unfold State.sendPiece
  repeat' first | with_reducible rfl | simp only [↓State.frame_mk, State.frame_fold, State.event_frame, State.putFrame_frame] | split | refine (foldl_frame _ _ _ ?_).trans ?_ | refine (foldl_frame1 _ _ _ ?_).trans ?_ | intro _ | (dsimp only [])
theorem State.sendFrame_frame (s : State) (port : Nat) (typ : Nat) (dst : Nat) (payload : List Byte) : (State.sendFrame s port typ dst payload).frame = s.frame := by
  unfold State.sendFrame
  repeat' first | with_reducible rfl | simp only [↓State.frame_mk, State.frame_fold, State.sendPiece_frame] | split | refine (foldl_frame _ _ _ ?_).trans ?_ | refine (foldl_frame1 _ _ _ ?_).trans ?_ | intro _ | (dsimp only [])
theorem State.sendResult_frame (s : State) (id : Nat) (fid : Nat) (port : Nat) (j : Job) (r : Result) :
    (State.sendResult s id fid port j r).frame = s.frame := by
  simp only [State.sendResult, ↓State.frame_mk, State.frame_fold, State.sendFrame_frame]
theorem State.dropCreated_frame (s : State) (j : Job) (r : Result) : (State.dropCreated s j r).frame = s.frame := by
  unfold State.dropCreated
  repeat' first | with_reducible rfl | simp only [↓State.frame_mk, State.frame_fold] | split
theorem State.consumeKey_frame (s : State) (j : Job) : (State.consumeKey s j).frame = s.frame := by
  unfold State.consumeKey
  repeat' first | with_reducible rfl | simp only [State.setKey_frame] | split
theorem State.record_frame (s : State) (id : Nat) (j : Job) (r : Result) : (State.record s id j r).frame = s.frame := by
  unfold State.record
  repeat' first | with_reducible rfl | simp only [↓State.frame_mk, State.frame_fold, State.consumeKey_frame, State.dropCreated_frame, State.releaseKey_frame, State.setJob_frame, State.setQueue_frame] | split
theorem State.finishDuplicates_frame (s : State) (id : Nat) (j : Job) (r : Result) :
    (State.finishDuplicates s id j r).frame = s.frame := by
  unfold State.finishDuplicates
  repeat' first | with_reducible rfl | simp only [State.flushQueue_frame, State.record_frame, State.writeOutput_frame] | split | refine (foldl_frame _ _ _ ?_).trans ?_ | intro _
theorem State.countBite_frame (s : State) (j : Job) (st : Nat) : (State.countBite s j st).frame = s.frame := by
  unfold State.countBite
  split <;> simp only [↓State.frame_mk, State.frame_fold, State.event_frame]
theorem State.finish_frame (s : State) (id : Nat) (r0 : Result) : (State.finish s id r0).frame = s.frame := by
  unfold State.finish
  repeat' first | with_reducible rfl | simp only [State.countBite_frame, State.finishDuplicates_frame, State.flushQueue_frame, State.record_frame, State.releaseKey_frame, State.sendResult_frame, State.writeOutput_frame] | split
theorem State.finishWith_frame (s : State) (id : Nat) (status : Nat) : (State.finishWith s id status).frame = s.frame := by
  simp only [State.finishWith, State.finish_frame]
theorem State.aqClose_frame (s : State) (fn : Nat) : (State.aqClose s fn).frame = s.frame := by
  unfold State.aqClose
  repeat' first | with_reducible rfl | simp only [↓State.frame_mk, State.frame_fold, State.setFn_frame] | split
theorem State.aqCloseAll_frame (s : State) : (State.aqCloseAll s).frame = s.frame := by
  unfold State.aqCloseAll
  repeat' first | with_reducible rfl | simp only [↓State.frame_mk, State.frame_fold, State.aqClose_frame] | split | refine (foldl_frame _ _ _ ?_).trans ?_ | refine (foldl_frame1 _ _ _ ?_).trans ?_ | intro _ | (dsimp only [])
theorem State.completeTaken_frame (s : State) (status : Nat) : (State.completeTaken s status).frame = s.frame := by
  unfold State.completeTaken
  repeat' first | with_reducible rfl | simp only [State.finish_frame, ↓State.frame_mk, State.frame_fold, State.aqCloseAll_frame] | split | refine (foldl_frame _ _ _ ?_).trans ?_ | intro _
theorem State.setSrc_frame (s : State) (id : Nat) (r : SrcRec) : (State.setSrc s id r).frame = s.frame := by
  rfl
theorem State.setCountTimes_frame (s : State) (e : Event) (ts : List Nat) : (State.setCountTimes s e ts).frame = s.frame := by
  unfold State.setCountTimes
  repeat' first | with_reducible rfl | simp only [↓State.frame_mk, State.frame_fold, State.setSrc_frame] | split
theorem State.logFault_frame (s : State) (r : FltRec) : (State.logFault s r).frame = s.frame := by
  unfold State.logFault
  repeat' first | with_reducible rfl | simp only [↓State.frame_mk, State.frame_fold] | split
theorem State.latchFirst_frame (s : State) (e : Event) (cls : Nat) : (State.latchFirst s e cls).frame = s.frame := by
  unfold State.latchFirst
  repeat' first | with_reducible rfl | simp only [↓State.frame_mk, State.frame_fold, State.cause_frame] | split
theorem State.noteEvent_frame (s : State) (e : Event) (ecls : Nat) (promoted escalated counted room : Bool) (retires : Bool) :
    (State.noteEvent s e ecls promoted escalated counted room retires).frame = s.frame := by
  unfold State.noteEvent
  extract_lets ts s1 r s2 c1 c2 s3 k b s4 c3 s5 isFirst s6 logs flags rec_ c4 c5 s7 s8 s9
  have h1 : s1.frame = s.frame := by simp only [s1]; split <;> simp only [State.setCountTimes_frame]
  have h2 : s2.frame = s1.frame := State.setSrc_frame ..
  have h3 : s3.frame = s2.frame := by
    simp only [s3]; split
    · rfl
    · split <;> rfl
  have h4 : s4.frame = s3.frame := State.setBlk_frame ..
  have h5 : s5.frame = s4.frame := rfl
  have h6 : s6.frame = s5.frame := State.latchFirst_frame ..
  have h7 : s7.frame = s6.frame := by
    simp only [s7]; split
    · rfl
    · split
      · simp only [c4]; split <;> simp only [State.emit_frame, State.logFault_frame]
      · rfl
  have h8 : s8.frame = s7.frame := by simp only [s8]; split <;> simp only [State.cause_frame]
  have h9 : s9.frame = s8.frame := by simp only [s9]; split <;> simp only [State.cause_frame]
  rw [State.irqSync_frame, State.event_frame, State.event_frame, h9, h8, h7, h6, h5, h4, h3, h2, h1]
theorem State.markRetiring_frame (s : State) (code : Nat) : (State.markRetiring s code).frame = s.frame := by
  unfold State.markRetiring
  split <;> simp only [↓State.frame_mk, State.frame_fold, State.cause_frame, State.event_frame]
theorem State.retireChannel_frame (s : State) (e : Event) : (State.retireChannel s e).frame = s.frame := by
  unfold State.retireChannel
  repeat' first | with_reducible rfl | simp only [↓State.frame_mk, State.frame_fold, State.cause_frame, State.event_frame, State.markRetiring_frame] | split
theorem State.resumeDomains_frame (s : State) : (State.resumeDomains s).frame = s.frame := by
  rfl
theorem State.ackSource_frame (s : State) (id : Nat) : (State.ackSource s id).frame = s.frame := by
  unfold State.ackSource
  repeat' first | with_reducible rfl | simp only [State.irqSync_frame, State.setSrc_frame] | split
theorem State.ackBits_frame (s : State) (k : Nat) (v : W32) : (State.ackBits s k v).frame = s.frame := by
  unfold State.ackBits
  repeat' first | with_reducible rfl | simp only [State.ackSource_frame] | split | refine (foldl_frame _ _ _ ?_).trans ?_ | intro _
theorem State.writeHeader_frame (s : State) (k : Nat) (off : Nat) (v : W32) :
    (State.writeHeader s k off v).frame = s.frame := by
  unfold State.writeHeader
  repeat' first | with_reducible rfl | simp only [State.irqSync_frame, State.setBlk_frame] | split
theorem State.onPage_frame (s : State) (k : Nat) (f : State → State) (h_f : (f s).frame = s.frame) :
    (State.onPage s k f).frame = s.frame := by
  unfold State.onPage
  split <;> simp only [h_f]
theorem State.irqClear_frame (s : State) (k : Nat) (v : W32) : (State.irqClear s k v).frame = s.frame := by
  simp only [State.irqClear, State.irqReeval_frame, State.setBlk_frame]
theorem State.irqMask_frame (s : State) (k : Nat) (v : W32) : (State.irqMask s k v).frame = s.frame := by
  simp only [State.irqMask, State.irqReeval_frame, State.setBlk_frame]
theorem execIrqClear_frame (blk : Nat) (val : W32) (s : State) : ∀ t, execIrqClear blk val s = .next t → t.frame = s.frame := by
  intro t ht
  rw [← Host.Outcome.next.inj ht]
  simp only [State.irqClear_frame, State.onPage_frame]
theorem execIrqMask_frame (blk : Nat) (val : W32) (s : State) : ∀ t, execIrqMask blk val s = .next t → t.frame = s.frame := by
  intro t ht
  rw [← Host.Outcome.next.inj ht]
  simp only [State.irqMask_frame, State.onPage_frame]
theorem State.msixUnmask_frame (s : State) (fn : Nat) (vec : Nat) : (State.msixUnmask s fn vec).frame = s.frame := by
  unfold State.msixUnmask
  repeat' first | with_reducible rfl | simp only [State.sendMsix_frame, State.setFn_frame] | split
theorem State.msixMask_frame (s : State) (fn : Nat) (vec : Nat) : (State.msixMask s fn vec).frame = s.frame := by
  unfold State.msixMask
  repeat' first | with_reducible rfl | simp only [State.setFn_frame] | split
theorem execMsixUnmask_frame (fn : Nat) (vec : Nat) (s : State) :
    ∀ t, execMsixUnmask fn vec s = .next t → t.frame = s.frame := by
  intro t ht
  rw [← Host.Outcome.next.inj ht]
  repeat' first | with_reducible rfl | simp only [State.msixUnmask_frame] | split
theorem execBlkCtrlLock_frame (blk : Nat) (s : State) : ∀ t, execBlkCtrlLock blk s = .next t → t.frame = s.frame := by
  intro t ht
  rw [← Host.Outcome.next.inj ht]
  simp only [State.onPage_frame, State.setBlk_frame]
theorem execFltStatus_frame (blk : Nat) (val : W32) (s : State) :
    ∀ t, execFltStatus blk val s = .next t → t.frame = s.frame := by
  intro t ht
  rw [← Host.Outcome.next.inj ht]
  repeat' first | with_reducible rfl | simp only [State.ackBits_frame, State.irqSync_frame] | split
theorem execHrtAck_frame (val : W32) (s : State) : ∀ t, execHrtAck val s = .next t → t.frame = s.frame := by
  intro t ht
  unfold execHrtAck at ht
  repeat' first
    | (with_reducible have ht := Host.Outcome.next.inj ht; subst ht)
    | split at ht
    | (dsimp only [] at ht)
    | (obtain ⟨_, _, rfl⟩ := Option.map_eq_some_iff.mp ht)
    | contradiction
    | with_reducible (cases ht; done)
    | with_reducible rfl
    | simp only [↓State.frame_mk, State.frame_fold, foldl_frame, State.ackSource_frame, State.irqSync_frame, State.onPage_frame]
    | refine (State.onPage_frame _ _ _ ?_).trans ?_
    | intro _
    | split
    | refine (foldl_frame _ _ _ ?_).trans ?_
    | refine (foldl_frame1 _ _ _ ?_).trans ?_
    | simp only [id_eq]
    | (dsimp only [])
theorem execHrtFirst_frame (val : W32) (s : State) : ∀ t, execHrtFirst val s = .next t → t.frame = s.frame := by
  intro t ht
  rw [← Host.Outcome.next.inj ht]
  refine State.onPage_frame _ _ _ ?_
  repeat' first | with_reducible rfl | simp only [↓State.frame_mk, State.frame_fold] | split
theorem execHrtBeat_frame (fromMgc : Bool) (s : State) : ∀ t, execHrtBeat fromMgc s = .next t → t.frame = s.frame := by
  intro t ht
  rw [← Host.Outcome.next.inj ht]
  repeat' first | with_reducible rfl | simp only [↓State.frame_mk, State.frame_fold] | split
theorem State.returnEngine_frame (s : State) (code : Nat) : (State.returnEngine s code).frame = s.frame := by
  rfl
theorem State.srcCfgWrite_frame (s : State) (val : W32) : (State.srcCfgWrite s val).frame = s.frame := by
  unfold State.srcCfgWrite
  repeat' first | with_reducible rfl | simp only [State.setSrc_frame] | split
theorem execSrcCfgWrite_frame (val : W32) (s : State) : ∀ t, execSrcCfgWrite val s = .next t → t.frame = s.frame := by
  intro t ht
  rw [← Host.Outcome.next.inj ht]
  refine State.onPage_frame _ _ _ ?_
  repeat' first | with_reducible rfl | simp only [State.srcCfgWrite_frame] | split
theorem execGlowToggle_frame (s : State) : ∀ t, execGlowToggle s = .next t → t.frame = s.frame := by
  intro t ht
  rw [← Host.Outcome.next.inj ht]
  simp only [↓State.frame_mk, State.frame_fold]
theorem execDrillExpiry_frame (s : State) : ∀ t, execDrillExpiry s = .next t → t.frame = s.frame := by
  intro t ht
  rw [← Host.Outcome.next.inj ht]
  simp only [↓State.frame_mk, State.frame_fold]
theorem State.writeHrt_frame (s : State) (off : Nat) (v : W32) : (State.writeHrt s off v).frame = s.frame := by
  unfold State.writeHrt
  repeat' first | with_reducible rfl | simp only [↓State.frame_mk, State.frame_fold] | split
theorem State.evidence_frame (s : State) (input : Nat) (response : Nat) (eflags : Nat) (meas : Nat) :
    (State.evidence s input response eflags meas).frame = s.frame := by
  simp only [State.evidence, ↓State.frame_mk, State.frame_fold, State.cause_frame, State.event_frame]
theorem State.clearDgs_frame (s : State) : (State.clearDgs s).frame = s.frame := by
  rfl
theorem State.cancelSession_frame (s : State) : (State.cancelSession s).frame = s.frame := by
  unfold State.cancelSession
  split <;> simp only [↓State.frame_mk, State.frame_fold]
theorem State.setTamperConfig_frame (s : State) (off : Nat) (v : W32) : (State.setTamperConfig s off v).frame = s.frame := by
  unfold State.setTamperConfig
  repeat' first | with_reducible rfl | simp only [↓State.frame_mk, State.frame_fold] | split
theorem State.detectors_frame (s : State) (n : Nat) (on : Bool) : (State.detectors s n on).frame = s.frame := by
  unfold State.detectors
  repeat' first | with_reducible rfl | simp only [↓State.frame_mk, State.frame_fold] | split | refine (foldl_frame _ _ _ ?_).trans ?_ | refine (foldl_frame1 _ _ _ ?_).trans ?_ | intro _ | (dsimp only [])
theorem execAlarmCleared_frame (input : Nat) (s0 : State) :
    ∀ t, execAlarmCleared input s0 = .next t → t.frame = s0.frame := by
  intro t ht
  unfold execAlarmCleared at ht
  repeat' first | (with_reducible have ht := Host.Outcome.next.inj ht; subst ht) | split at ht | (dsimp only [] at ht) | contradiction | with_reducible (cases ht; done) | with_reducible rfl | simp only [↓State.frame_mk, State.frame_fold, State.detectors_frame, State.irqSync_frame] | split | refine (foldl_frame _ _ _ ?_).trans ?_ | refine (foldl_frame1 _ _ _ ?_).trans ?_ | intro _ | (dsimp only [])
theorem execEvidenceCopy_frame (s : State) : ∀ t, execEvidenceCopy s = .next t → t.frame = s.frame := by
  intro t ht
  rw [← Host.Outcome.next.inj ht]
  repeat' first | with_reducible rfl | simp only [↓State.frame_mk, State.frame_fold] | split
theorem State.writeTmp_frame (s : State) (off : Nat) (v : W32) : (State.writeTmp s off v).frame = s.frame := by
  unfold State.writeTmp
  split <;> simp only [↓State.frame_mk, State.frame_fold]
theorem State.setSource_frame (s : State) (n : Nat) (x : EntSource) : (State.setSource s n x).frame = s.frame := by
  rfl
theorem State.endRaw_frame (s : State) : (State.endRaw s).frame = s.frame := by
  unfold State.endRaw
  split <;> simp only [↓State.frame_mk, State.frame_fold, State.setSource_frame]
theorem State.checkRaw_frame (s : State) : (State.checkRaw s).frame = s.frame := by
  unfold State.checkRaw
  split <;> simp only [State.endRaw_frame]
theorem State.seededCause_frame (s : State) : (State.seededCause s).frame = s.frame := by
  unfold State.seededCause
  split <;> simp only [↓State.frame_mk, State.frame_fold, State.cause_frame]
theorem execDrbgReseed_frame (host : Bool) (s : State) : ∀ t, execDrbgReseed host s = .next t → t.frame = s.frame := by
  intro t ht
  unfold execDrbgReseed at ht
  repeat' first
    | (with_reducible have ht := Host.Outcome.next.inj ht; subst ht)
    | split at ht
    | (dsimp only [] at ht)
    | (obtain ⟨_, _, rfl⟩ := Option.map_eq_some_iff.mp ht)
    | contradiction
    | with_reducible (cases ht; done)
    | with_reducible rfl
    | simp only [↓State.frame_mk, State.frame_fold, foldl_frame, State.event_frame, State.irqSync_frame, State.seededCause_frame]
    | intro _
    | split
    | refine (foldl_frame _ _ _ ?_).trans ?_
    | refine (foldl_frame1 _ _ _ ?_).trans ?_
    | simp only [id_eq]
    | (dsimp only [])
theorem execEntRawData_frame (raw : W32) (s : State) : ∀ t, execEntRawData raw s = .next t → t.frame = s.frame := by
  intro t ht
  rw [← Host.Outcome.next.inj ht]
  repeat' first | with_reducible rfl | simp only [↓State.frame_mk, State.frame_fold, State.answer_frame] | split
theorem execRngDataRead_frame (fn : Nat) (s : State) : ∀ t, execRngDataRead fn s = .next t → t.frame = s.frame := by
  intro t ht
  unfold execRngDataRead at ht
  repeat' first
    | (with_reducible have ht := Host.Outcome.next.inj ht; subst ht)
    | split at ht
    | (dsimp only [] at ht)
    | (obtain ⟨_, _, rfl⟩ := Option.map_eq_some_iff.mp ht)
    | contradiction
    | with_reducible (cases ht; done)
    | with_reducible rfl
    | simp only [↓State.frame_mk, State.frame_fold, foldl_frame, State.answer_frame, State.event_frame, State.setFn_frame]
    | intro _
    | split
    | refine (foldl_frame _ _ _ ?_).trans ?_
    | refine (foldl_frame1 _ _ _ ?_).trans ?_
    | simp only [id_eq]
    | (dsimp only [])
theorem State.writeEnt_frame (s : State) (off : Nat) (v : W32) : (State.writeEnt s off v).frame = s.frame := by
  unfold State.writeEnt
  split <;> simp only [↓State.frame_mk, State.frame_fold]
theorem State.writeRng_frame (s : State) (fn : Nat) (off : Nat) (v : W32) : (State.writeRng s fn off v).frame = s.frame := by
  unfold State.writeRng
  split <;> simp only [State.setFn_frame]
theorem State.setLka_frame (s : State) (e : Nat) (x : LkaEngine) : (State.setLka s e x).frame = s.frame := by
  rfl
theorem State.lkaCount_frame (s : State) (i : Nat) (n : Nat) : (State.lkaCount s i n).frame = s.frame := by
  rfl
theorem State.discard_frame (s : State) (e : Nat) : (State.discard s e).frame = s.frame := by
  unfold State.discard
  repeat' first | with_reducible rfl | simp only [State.lkaCount_frame, State.setLka_frame] | split
theorem State.discardAll_frame (s : State) : (State.discardAll s).frame = s.frame := by
  unfold State.discardAll
  repeat' first | with_reducible rfl | simp only [State.discard_frame] | split | refine (foldl_frame _ _ _ ?_).trans ?_ | intro _
theorem State.setAssessed_frame (s : State) (e : Nat) (cm : Nat) (order : Nat) :
    (State.setAssessed s e cm order).frame = s.frame := by
  rfl
theorem State.memCount_frame (s : State) (i : Nat) (n : Nat) : (State.memCount s i n).frame = s.frame := by
  rfl
theorem State.trackRow_frame (s : State) (region : Nat) (row : Nat) : (State.trackRow s region row).1.frame = s.frame := by
  rfl
theorem State.dueRow_frame (s : State) (region : Nat) (row : Nat) (ue : Bool) :
    (State.dueRow s region row ue).frame = s.frame := by
  unfold State.dueRow
  repeat' first | with_reducible rfl | simp only [↓State.frame_mk, State.frame_fold] | split
theorem State.scorchStaged_frame (s : State) (addr : Nat) : (State.scorchStaged s addr).frame = s.frame := by
  unfold State.scorchStaged
  repeat' first | with_reducible rfl | simp only [↓State.frame_mk, State.frame_fold] | split | refine (foldl_frame _ _ _ ?_).trans ?_ | refine (foldl_frame1 _ _ _ ?_).trans ?_ | intro _ | (dsimp only [])
theorem State.darnWord_frame (s : State) (e : MemError) : (State.darnWord s e).frame = s.frame := by
  unfold State.darnWord
  repeat' first | with_reducible rfl | simp only [State.setBne_frame, State.setKey_frame, State.setPvu_frame, ↓State.frame_mk, State.frame_fold, State.scorchStaged_frame] | split
theorem State.bobPass_frame (s : State) : (State.bobPass s).frame = s.frame := by
  rfl
theorem State.correctedRow_frame (s : State) (region : Nat) (row : Nat) :
    (State.correctedRow s region row).frame = s.frame := by
  unfold State.correctedRow
  repeat' first | with_reducible rfl | simp only [State.dueRow_frame, State.trackRow_frame] | split
theorem State.injFields_frame (s : State) (v : W32) : (State.injFields s v).frame = s.frame := by
  unfold State.injFields
  split <;> simp only [↓State.frame_mk, State.frame_fold]
theorem execInjectionArm_frame (val : W32) (s : State) : ∀ t, execInjectionArm val s = .next t → t.frame = s.frame := by
  intro t ht
  rw [← Host.Outcome.next.inj ht]
  refine State.onPage_frame _ _ _ ?_
  repeat' first | with_reducible rfl | simp only [↓State.frame_mk, State.frame_fold, State.injFields_frame, State.memCount_frame] | split
theorem State.flashLost_frame (s : State) (block : Nat) : (State.flashLost s block).frame = s.frame := by
  rfl
theorem State.writeMem_frame (s : State) (off : Nat) (v : W32) : (State.writeMem s off v).frame = s.frame := by
  unfold State.writeMem
  repeat' first | with_reducible rfl | simp only [↓State.frame_mk, State.frame_fold, State.injFields_frame] | split
theorem State.takeEntry_frame (s : State) (fn : Nat) (q : Nat) (x : Queue) (e : Entry) :
    (State.takeEntry s fn q x e).frame = s.frame := by
  unfold State.takeEntry
  repeat' first | with_reducible rfl | simp only [↓State.frame_mk, State.frame_fold, State.event_frame, State.finishWith_frame, State.hostWrite_frame, State.setJob_frame, State.setQueue_frame] | split
theorem State.stopScan_frame (s : State) (fn : Nat) (q : Nat) (x : Queue) (paused : Bool) (left : List Fetched) : (State.stopScan s fn q x paused left).frame = s.frame := by
  unfold State.stopScan
  repeat' first | with_reducible rfl | simp only [↓State.frame_mk, State.frame_fold, State.event_frame, State.setQueue_frame] | split | refine (foldl_frame _ _ _ ?_).trans ?_ | refine (foldl_frame1 _ _ _ ?_).trans ?_ | intro _ | (dsimp only [])
theorem execInstEcinv_frame (fn : Nat) (val : W32) (s : State) : ∀ t, execInstEcinv fn val s = .next t → t.frame = s.frame := by
  intro t ht
  unfold execInstEcinv at ht
  repeat' first
    | (with_reducible have ht := Host.Outcome.next.inj ht; subst ht)
    | split at ht
    | (dsimp only [↓State.frame_mk, State.frame_fold, State.setQueue_frame] at ht)
    | (obtain ⟨_, _, rfl⟩ := Option.map_eq_some_iff.mp ht)
    | contradiction
    | with_reducible (cases ht; done)
    | with_reducible rfl
    | simp only [↓State.frame_mk, State.frame_fold, State.setQueue_frame]
    | intro _
    | split
    | refine (foldl_frame _ _ _ ?_).trans ?_
    | refine (foldl_frame1 _ _ _ ?_).trans ?_
    | simp only [id_eq, ↓State.frame_mk, State.frame_fold, State.setQueue_frame]
    | (dsimp only [↓State.frame_mk, State.frame_fold, State.setQueue_frame])
theorem State.aqEnable_frame (s : State) (fn : Nat) (v : W32) : (State.aqEnable s fn v).frame = s.frame := by
  simp only [State.aqEnable, State.setFn_frame, State.setQueue_frame, State.writeHead_frame]
theorem execAdminQueueEnable_frame (fn : Nat) (val : W32) (s : State) :
    ∀ t, execAdminQueueEnable fn val s = .next t → t.frame = s.frame := by
  intro t ht
  unfold execAdminQueueEnable at ht
  repeat' first
    | (with_reducible have ht := Host.Outcome.next.inj ht; subst ht)
    | split at ht
    | (dsimp only [↓State.frame_mk, State.frame_fold, State.aqEnable_frame, State.setFn_frame] at ht)
    | (obtain ⟨_, _, rfl⟩ := Option.map_eq_some_iff.mp ht)
    | contradiction
    | with_reducible (cases ht; done)
    | with_reducible rfl
    | simp only [↓State.frame_mk, State.frame_fold, State.aqEnable_frame, State.setFn_frame]
    | intro _
    | split
    | refine (foldl_frame _ _ _ ?_).trans ?_
    | refine (foldl_frame1 _ _ _ ?_).trans ?_
    | simp only [id_eq, ↓State.frame_mk, State.frame_fold, State.aqEnable_frame, State.setFn_frame]
    | (dsimp only [↓State.frame_mk, State.frame_fold, State.aqEnable_frame, State.setFn_frame])
theorem State.cancelWaiting_frame (s : State) (fn : Nat) (q : Nat) : (State.cancelWaiting s fn q).frame = s.frame := by
  unfold State.cancelWaiting
  repeat' first | with_reducible rfl | simp only [State.finishWith_frame] | split | refine (foldl_frame _ _ _ ?_).trans ?_ | intro _
theorem State.aqDisable_frame (s : State) (fn : Nat) : (State.aqDisable s fn).frame = s.frame := by
  unfold State.aqDisable
  repeat' first | with_reducible rfl | simp only [State.aqClose_frame, State.cancelWaiting_frame, State.setFn_frame, State.setQueue_frame] | split
theorem execAdminQueueDisable_frame (fn : Nat) (val : W32) (s : State) :
    ∀ t, execAdminQueueDisable fn val s = .next t → t.frame = s.frame := by
  intro t ht
  unfold execAdminQueueDisable at ht
  repeat' first
    | (with_reducible have ht := Host.Outcome.next.inj ht; subst ht)
    | split at ht
    | (dsimp only [↓State.frame_mk, State.frame_fold, State.aqDisable_frame, State.setFn_frame] at ht)
    | (obtain ⟨_, _, rfl⟩ := Option.map_eq_some_iff.mp ht)
    | contradiction
    | with_reducible (cases ht; done)
    | with_reducible rfl
    | simp only [↓State.frame_mk, State.frame_fold, State.aqDisable_frame, State.setFn_frame]
    | intro _
    | split
    | refine (foldl_frame _ _ _ ?_).trans ?_
    | refine (foldl_frame1 _ _ _ ?_).trans ?_
    | simp only [id_eq, ↓State.frame_mk, State.frame_fold, State.aqDisable_frame, State.setFn_frame]
    | (dsimp only [↓State.frame_mk, State.frame_fold, State.aqDisable_frame, State.setFn_frame])
theorem State.tagCheck_frame (s : State) (id : Nat) (j : Job) : (State.tagCheck s id j).frame = s.frame := by
  unfold State.tagCheck
  repeat' first | with_reducible rfl | simp only [State.finishWith_frame, State.setJob_frame, State.setQueue_frame] | split
theorem State.withPlan_frame (s : State) (bs : List Booking) : (State.withPlan s bs).frame = s.frame := by
  rfl
theorem State.commit_frame (s : State) (id : Nat) (b : Booked) : (State.commit s id b).frame = s.frame := by
  rfl
theorem State.countStatus_frame (s : State) (st : Nat) : (State.countStatus s st).frame = s.frame := by
  unfold State.countStatus
  split <;> simp only [State.kstCount_frame]
theorem State.makeRoom_frame (a0 : Nat) (a1 : State) (a2 : Nat) :
    ∀ t, State.makeRoom a0 a1 a2 = some t → t.frame = a1.frame := by
  induction a0 generalizing a1 with
  | zero => intro t ht; exact absurd ht (by simp [State.makeRoom])
  | succ n ih =>
    intro t ht
    unfold State.makeRoom at ht
    split at ht
    · cases ht; rfl
    · dsimp only [] at ht
      split at ht
      · contradiction
      · rw [ih _ _ ht]
        simp only [↓State.frame_mk, State.frame_fold, State.event_frame, State.kstCount_frame]
theorem State.makeDram_frame (a0 : Nat) (a1 : State) (a2 : Nat) :
    ∀ t, State.makeDram a0 a1 a2 = some t → t.frame = a1.frame := by
  induction a0 generalizing a1 with
  | zero => intro t ht; exact absurd ht (by simp [State.makeDram])
  | succ n ih =>
    intro t ht
    unfold State.makeDram at ht
    split at ht
    · cases ht; rfl
    · split at ht
      · contradiction
      · rw [ih _ _ ht]
        simp only [↓State.frame_mk, State.frame_fold]
theorem State.recordLost_frame (s : State) (id : Nat) : (State.recordLost s id).frame = s.frame := by
  simp only [State.recordLost, State.kstCount_frame, State.modJob_frame]
theorem State.assignIndex_frame (s : State) (id : Nat) (j : Job) :
    ∀ t, State.assignIndex s id j = some t → t.frame = s.frame := by
  intro t ht
  unfold State.assignIndex at ht
  repeat' first
    | (with_reducible have ht := Option.some.inj ht; subst ht)
    | split at ht
    | (dsimp only [] at ht)
    | (obtain ⟨_, _, rfl⟩ := Option.map_eq_some_iff.mp ht)
    | contradiction
    | with_reducible (cases ht; done)
    | with_reducible rfl
    | simp only [↓State.frame_mk, State.frame_fold, foldl_frame, State.setJob_frame]
    | intro _
    | split
    | refine (foldl_frame _ _ _ ?_).trans ?_
    | refine (foldl_frame1 _ _ _ ?_).trans ?_
    | simp only [id_eq]
    | (dsimp only [])
theorem State.addBuild_frame (acc : State × Bool) (b : TreeBuild) : (State.addBuild acc b).1.frame = acc.1.frame := by
  unfold State.addBuild
  dsimp only []
  split
  · rfl
  · split <;> rfl
theorem State.addBuilds_frame (s : State) (h : W32) (k : KeyObj) (st : Stateful) : (State.addBuilds s h k st).1.frame = s.frame := by
  unfold State.addBuilds
  repeat' first | with_reducible rfl | simp only [↓State.frame_mk, State.frame_fold, State.addBuild_frame] | split | refine (foldl_frame _ _ _ ?_).trans ?_ | refine (foldl_frame1 _ _ _ ?_).trans ?_ | intro _ | (dsimp only [])
theorem State.startBuilds_frame (s : State) (h : W32) (k : KeyObj) (st : Stateful) : (State.startBuilds s h k st).frame = s.frame := by
  unfold State.startBuilds
  repeat' first | with_reducible rfl | simp only [↓State.frame_mk, State.frame_fold, State.addBuilds_frame, State.cause_frame, State.countStatus_frame] | split | refine (foldl_frame _ _ _ ?_).trans ?_ | refine (foldl_frame1 _ _ _ ?_).trans ?_ | intro _ | (dsimp only [])
theorem State.assignLeaf_frame (s : State) (id : Nat) (h : W32) (k : KeyObj) (st : Stateful) : (State.assignLeaf s id h k st).frame = s.frame := by
  unfold State.assignLeaf
  repeat' first | with_reducible rfl | simp only [↓State.frame_mk, State.frame_fold, State.event_frame, State.kstCount_frame, State.modJob_frame, State.reserveLeaves_frame, State.setKey_frame, State.startBuilds_frame] | split | refine (foldl_frame _ _ _ ?_).trans ?_ | refine (foldl_frame1 _ _ _ ?_).trans ?_ | intro _ | (dsimp only [])
theorem State.dropScorched_frame (s : State) (j : Job) : (State.dropScorched s j).frame = s.frame := by
  unfold State.dropScorched
  repeat' first | with_reducible rfl | simp only [State.setKey_frame] | split
theorem State.poisonEvent_frame (s : State) (n : Nat) : (State.poisonEvent s n).frame = s.frame := by
  unfold State.poisonEvent
  repeat' first | with_reducible rfl | simp only [↓State.frame_mk, State.frame_fold, State.cause_frame, State.setPvu_frame] | split | refine (foldl_frame _ _ _ ?_).trans ?_ | refine (foldl_frame1 _ _ _ ?_).trans ?_ | intro _ | (dsimp only [])
theorem State.poisonJob_frame (s : State) (id : Nat) : (State.poisonJob s id).frame = s.frame := by
  unfold State.poisonJob
  repeat' first | with_reducible rfl | simp only [↓State.frame_mk, State.frame_fold, State.poisonEvent_frame] | split | refine (foldl_frame _ _ _ ?_).trans ?_ | refine (foldl_frame1 _ _ _ ?_).trans ?_ | intro _ | (dsimp only [])
theorem State.runKernel_frame (s : State) (id : Nat) (j : Job) (k : Kernel) (h_k : ∀ u a b, (k u a b).1.frame = u.frame) :
    (State.runKernel s id j k).1.frame = s.frame := by
  unfold State.runKernel
  repeat' first | with_reducible rfl | simp only [State.dropScorched_frame, h_k, ↓State.frame_mk, State.frame_fold, State.poisonJob_frame] | split
theorem State.computeAfter_frame (s : State) (lag : Nat) (id : Nat) (k : Kernel) (h_k : ∀ u a b, (k u a b).1.frame = u.frame) :
    (State.computeAfter s lag id k).frame = s.frame := by
  unfold State.computeAfter
  repeat' first
    | with_reducible rfl
    | simp only [↓State.frame_mk, State.frame_fold, State.modJob_frame, State.runKernel_frame, h_k]
    | refine (State.runKernel_frame _ _ _ _ ?_).trans ?_
    | intro _
    | split
    | refine (foldl_frame _ _ _ ?_).trans ?_
    | refine (foldl_frame1 _ _ _ ?_).trans ?_
    | simp only [id_eq, ↓State.frame_mk, State.frame_fold, State.modJob_frame, State.runKernel_frame]
    | (dsimp only [↓State.frame_mk, State.frame_fold, State.modJob_frame, State.runKernel_frame])
theorem State.compute_frame (s : State) (id : Nat) (k : Kernel) (h_k : ∀ u a b, (k u a b).1.frame = u.frame) :
    (State.compute s id k).frame = s.frame := by
  unfold State.compute
  repeat' first
    | with_reducible rfl
    | simp only [↓State.frame_mk, State.frame_fold, foldl_frame, State.computeAfter_frame, h_k]
    | refine (State.computeAfter_frame _ _ _ _ ?_).trans ?_
    | intro _
    | split
    | refine (foldl_frame _ _ _ ?_).trans ?_
    | refine (foldl_frame1 _ _ _ ?_).trans ?_
    | simp only [id_eq]
    | (dsimp only [])
theorem State.runJob_frame (s : State) (op : Nat) (id : Nat) (k : Kernel) (h_k : ∀ u a b, (k u a b).1.frame = u.frame) :
    ∀ t, State.runJob s op id k = .next t → t.frame = s.frame := by
  intro t ht
  unfold State.runJob at ht
  repeat' first
    | (with_reducible have ht := Host.Outcome.next.inj ht; subst ht)
    | split at ht
    | (dsimp only [] at ht)
    | (obtain ⟨_, _, rfl⟩ := Option.map_eq_some_iff.mp ht)
    | contradiction
    | with_reducible (cases ht; done)
    | with_reducible rfl
    | simp only [↓State.frame_mk, State.frame_fold, foldl_frame, State.compute_frame, h_k]
    | refine (State.compute_frame _ _ _ ?_).trans ?_
    | intro _
    | split
    | refine (foldl_frame _ _ _ ?_).trans ?_
    | refine (foldl_frame1 _ _ _ ?_).trans ?_
    | simp only [id_eq]
    | (dsimp only [])
theorem State.hide_frame (s : State) (h : W32) (k : KeyObj) : (State.hide s h k).frame = s.frame := by
  rfl
theorem State.holdPages_frame (s : State) (id : Nat) (rel : Nat) : (State.holdPages s id rel).frame = s.frame := by
  unfold State.holdPages
  repeat' first | with_reducible rfl | simp only [↓State.frame_mk, State.frame_fold] | split | refine (foldl_frame _ _ _ ?_).trans ?_ | refine (foldl_frame1 _ _ _ ?_).trans ?_ | intro _ | (dsimp only [])
theorem State.injectAt_frame (s : State) (region : Nat) (hit : Nat → Bool) : (State.injectAt s region hit).2.frame = s.frame := by
  unfold State.injectAt
  dsimp only []
  split <;> rfl
theorem State.keepInjected_frame (s : State) (region : Nat) (word : Nat) (dbl : Bool) : (State.keepInjected s region word dbl).frame = s.frame := by
  unfold State.keepInjected
  repeat' first | with_reducible rfl | simp only [↓State.frame_mk, State.frame_fold] | split | refine (foldl_frame _ _ _ ?_).trans ?_ | refine (foldl_frame1 _ _ _ ?_).trans ?_ | intro _ | (dsimp only [])
theorem State.dropInjected_frame (s : State) (f : Nat × Nat × Bool → Bool) : (State.dropInjected s f).frame = s.frame := by
  unfold State.dropInjected
  repeat' first | with_reducible rfl | simp only [↓State.frame_mk, State.frame_fold] | split | refine (foldl_frame _ _ _ ?_).trans ?_ | refine (foldl_frame1 _ _ _ ?_).trans ?_ | intro _ | (dsimp only [])
theorem State.injectKey_frame (s : State) (region : Nat) (h : W32) : (State.injectKey s region h).frame = s.frame := by
  unfold State.injectKey
  split <;> rename_i q
  · exact (congrArg (fun r => r.2.frame) q).symm.trans (State.injectAt_frame _ _ _)
  · have e := (congrArg (fun r => r.2.frame) q).symm.trans (State.injectAt_frame _ _ _)
    repeat' first | exact e | refine Eq.trans ?_ e | simp only [State.keepInjected_frame, State.setKey_frame] | split
theorem State.keyRoom_frame (s : State) (k : KeyObj) : (State.keyRoom s k).1.frame = s.frame := by
  have e : (match State.makeDram (s.kst.objs.length + 1) s (recordSize k) with
      | some u => u
      | none => s).frame = s.frame := by
    split
    · exact State.makeDram_frame _ _ _ _ (by assumption)
    · rfl
  unfold State.keyRoom
  dsimp only []
  split
  · exact (State.makeRoom_frame _ _ _ _ (by assumption)).trans e
  · exact e
theorem State.linkPassed_frame (s : State) (key : Nat) : (State.linkPassed s key).frame = s.frame := by
  unfold State.linkPassed
  repeat' first | with_reducible rfl | simp only [↓State.frame_mk, State.frame_fold] | split | refine (foldl_frame _ _ _ ?_).trans ?_ | refine (foldl_frame1 _ _ _ ?_).trans ?_ | intro _ | (dsimp only [])
theorem State.seamNote_frame (s : State) (blk : Nat) (sender : Nat) : (State.seamNote s blk sender).frame = s.frame := by
  unfold State.seamNote
  repeat' first | with_reducible rfl | simp only [↓State.frame_mk, State.frame_fold, State.irqSync_frame, State.setBlk_frame] | split | refine (foldl_frame _ _ _ ?_).trans ?_ | refine (foldl_frame1 _ _ _ ?_).trans ?_ | intro _ | (dsimp only [])
theorem State.fabricNote_frame (s : State) (blk : Nat) (sender : Nat) : (State.fabricNote s blk sender).frame = s.frame := by
  unfold State.fabricNote
  repeat' first | with_reducible rfl | simp only [↓State.frame_mk, State.frame_fold, State.event_frame, State.seamNote_frame] | split | refine (foldl_frame _ _ _ ?_).trans ?_ | refine (foldl_frame1 _ _ _ ?_).trans ?_ | intro _ | (dsimp only [])
theorem State.keyFailure_frame (s : State) (blk : Nat) (sender : Nat) : (State.keyFailure s blk sender).frame = s.frame := by
  unfold State.keyFailure
  repeat' first | with_reducible rfl | simp only [↓State.frame_mk, State.frame_fold, State.event_frame, State.seamNote_frame] | split | refine (foldl_frame _ _ _ ?_).trans ?_ | refine (foldl_frame1 _ _ _ ?_).trans ?_ | intro _ | (dsimp only [])
theorem State.injectAtPair_frame {s t : State} {region : Nat} {hit : Nat → Bool} {a : Option (Nat × Nat)}
    (h : State.injectAt s region hit = (a, t)) : t.frame = s.frame :=
  (congrArg (fun r => r.2.frame) h).symm.trans (State.injectAt_frame s region hit)

end Sys2Proof.Machine
end

