-- ==== Sys2Proof/Laws/FrameJobs.lean ====
section
/-! SUPPORT. Frame lemmas: the cryptographic kernels and their rows, card slots and quorums, and admission. -/

set_option maxRecDepth 2000
set_option linter.unusedSimpArgs false

namespace Sys2Proof.Machine

theorem kMldsaVerify_frame  : ∀ u a b, (kMldsaVerify u a b).1.frame = u.frame := by
  intro u a b
  unfold kMldsaVerify
  repeat' first | with_reducible rfl | simp only [↓State.frame_mk, State.frame_fold] | split
theorem kFndsaVerify_frame  : ∀ u a b, (kFndsaVerify u a b).1.frame = u.frame := by
  intro u a b
  unfold kFndsaVerify
  repeat' first | with_reducible rfl | simp only [↓State.frame_mk, State.frame_fold] | split
theorem kMatrixPreload_frame  : ∀ u a b, (kMatrixPreload u a b).1.frame = u.frame := by
  intro u a b
  unfold kMatrixPreload
  repeat' first | with_reducible rfl | simp only [] | split
theorem execMldsaVerify_frame (job : Nat) (s : State) : ∀ t, execMldsaVerify job s = .next t → t.frame = s.frame :=
  State.runJob_frame s _ _ _ (kMldsaVerify_frame)
theorem execHashmldsaVerify_frame (job : Nat) (s : State) : ∀ t, execHashmldsaVerify job s = .next t → t.frame = s.frame :=
  State.runJob_frame s _ _ _ (kMldsaVerify_frame)
theorem execFndsaVerify_frame (job : Nat) (s : State) : ∀ t, execFndsaVerify job s = .next t → t.frame = s.frame :=
  State.runJob_frame s _ _ _ (kFndsaVerify_frame)
theorem execMatrixPreload_frame (job : Nat) (s : State) : ∀ t, execMatrixPreload job s = .next t → t.frame = s.frame := by
  intro t ht
  unfold execMatrixPreload at ht
  repeat' first
    | refine State.runJob_frame _ _ _ _ ?_ _ ht
    | (with_reducible have ht := Host.Outcome.next.inj ht; subst ht)
    | split at ht
    | (dsimp only [] at ht)
    | (obtain ⟨_, _, rfl⟩ := Option.map_eq_some_iff.mp ht)
    | contradiction
    | with_reducible (cases ht; done)
    | with_reducible rfl
    | simp only [↓State.frame_mk, State.frame_fold, foldl_frame, kMatrixPreload_frame]
    | refine Eq.trans (State.runJob_frame _ _ _ _ ?_ _ (by assumption)) ?_
    | intro _
    | split
    | refine (foldl_frame _ _ _ ?_).trans ?_
    | refine (foldl_frame1 _ _ _ ?_).trans ?_
    | simp only [id_eq]
    | (dsimp only [])
theorem kSlhVerify_frame  : ∀ u a b, (kSlhVerify u a b).1.frame = u.frame := by
  intro u a b
  unfold kSlhVerify
  repeat' first | with_reducible rfl | simp only [↓State.frame_mk, State.frame_fold] | split
theorem kStatefulSign_frame  : ∀ u a b, (kStatefulSign u a b).1.frame = u.frame := by
  intro u a b
  unfold kStatefulSign
  repeat' first | with_reducible rfl | simp only [↓State.frame_mk, State.frame_fold] | split
theorem kLmsVerify_frame  : ∀ u a b, (kLmsVerify u a b).1.frame = u.frame := by
  intro u a b
  unfold kLmsVerify
  repeat' first | with_reducible rfl | simp only [↓State.frame_mk, State.frame_fold] | split
theorem kXmssVerify_frame  : ∀ u a b, (kXmssVerify u a b).1.frame = u.frame := by
  intro u a b
  unfold kXmssVerify
  repeat' first | with_reducible rfl | simp only [↓State.frame_mk, State.frame_fold] | split
theorem kStatefulStatus_frame  : ∀ u a b, (kStatefulStatus u a b).1.frame = u.frame := by
  intro u a b
  unfold kStatefulStatus
  repeat' first | with_reducible rfl | simp only [↓State.frame_mk, State.frame_fold, foldl_frame] | split
theorem State.startAdvance_frame (s : State) (id : Nat) (j : Job) : (State.startAdvance s id j).frame = s.frame := by
  unfold State.startAdvance
  repeat' first | with_reducible rfl | simp only [State.journal_frame, State.modJob_frame, State.reserveLeaves_frame, State.setKey_frame, State.startBuilds_frame] | split
theorem kStatefulAdvance_frame  : ∀ u a b, (kStatefulAdvance u a b).1.frame = u.frame := by
  intro u a b
  unfold kStatefulAdvance
  repeat' first | with_reducible rfl | simp only [↓State.frame_mk, State.frame_fold, foldl_frame] | split
theorem kMcePin_frame  : ∀ u a b, (kMcePin u a b).1.frame = u.frame := by
  intro u a b
  unfold kMcePin
  repeat' first | with_reducible rfl | simp only [↓State.frame_mk, State.frame_fold, foldl_frame] | split
theorem kMceUnpin_frame  : ∀ u a b, (kMceUnpin u a b).1.frame = u.frame := by
  intro u a b
  unfold kMceUnpin
  repeat' first | with_reducible rfl | simp only [↓State.frame_mk, State.frame_fold, foldl_frame] | split
theorem execSlhdsaVerify_frame (job : Nat) (s : State) : ∀ t, execSlhdsaVerify job s = .next t → t.frame = s.frame :=
  State.runJob_frame s _ _ _ (kSlhVerify_frame)
theorem execHashslhdsaVerify_frame (job : Nat) (s : State) : ∀ t, execHashslhdsaVerify job s = .next t → t.frame = s.frame :=
  State.runJob_frame s _ _ _ (kSlhVerify_frame)
theorem execLmsSign_frame (job : Nat) (s : State) : ∀ t, execLmsSign job s = .next t → t.frame = s.frame :=
  State.runJob_frame s _ _ _ (kStatefulSign_frame)
theorem execLmsVerify_frame (job : Nat) (s : State) : ∀ t, execLmsVerify job s = .next t → t.frame = s.frame :=
  State.runJob_frame s _ _ _ (kLmsVerify_frame)
theorem execXmssSign_frame (job : Nat) (s : State) : ∀ t, execXmssSign job s = .next t → t.frame = s.frame :=
  State.runJob_frame s _ _ _ (kStatefulSign_frame)
theorem execXmssVerify_frame (job : Nat) (s : State) : ∀ t, execXmssVerify job s = .next t → t.frame = s.frame :=
  State.runJob_frame s _ _ _ (kXmssVerify_frame)
theorem execStatefulStatus_frame (job : Nat) (s : State) : ∀ t, execStatefulStatus job s = .next t → t.frame = s.frame :=
  State.runJob_frame s _ _ _ (kStatefulStatus_frame)
theorem execStatefulAdvance_frame (job : Nat) (s : State) : ∀ t, execStatefulAdvance job s = .next t → t.frame = s.frame :=
  State.runJob_frame s _ _ _ (kStatefulAdvance_frame)
theorem execMcePin_frame (job : Nat) (s : State) : ∀ t, execMcePin job s = .next t → t.frame = s.frame := by
  intro t ht
  unfold execMcePin at ht
  repeat' first
    | refine State.runJob_frame _ _ _ _ ?_ _ ht
    | (with_reducible have ht := Host.Outcome.next.inj ht; subst ht)
    | split at ht
    | (dsimp only [] at ht)
    | (obtain ⟨_, _, rfl⟩ := Option.map_eq_some_iff.mp ht)
    | contradiction
    | with_reducible (cases ht; done)
    | with_reducible rfl
    | simp only [↓State.frame_mk, State.frame_fold, foldl_frame, kMcePin_frame]
    | refine Eq.trans (State.runJob_frame _ _ _ _ ?_ _ (by assumption)) ?_
    | intro _
    | split
    | refine (foldl_frame _ _ _ ?_).trans ?_
    | refine (foldl_frame1 _ _ _ ?_).trans ?_
    | simp only [id_eq]
    | (dsimp only [])
theorem execMceUnpin_frame (job : Nat) (s : State) : ∀ t, execMceUnpin job s = .next t → t.frame = s.frame := by
  intro t ht
  unfold execMceUnpin at ht
  repeat' first
    | refine State.runJob_frame _ _ _ _ ?_ _ ht
    | (with_reducible have ht := Host.Outcome.next.inj ht; subst ht)
    | split at ht
    | (dsimp only [] at ht)
    | (obtain ⟨_, _, rfl⟩ := Option.map_eq_some_iff.mp ht)
    | contradiction
    | with_reducible (cases ht; done)
    | with_reducible rfl
    | simp only [↓State.frame_mk, State.frame_fold, foldl_frame, kMceUnpin_frame]
    | refine Eq.trans (State.runJob_frame _ _ _ _ ?_ _ (by assumption)) ?_
    | intro _
    | split
    | refine (foldl_frame _ _ _ ?_).trans ?_
    | refine (foldl_frame1 _ _ _ ?_).trans ?_
    | simp only [id_eq]
    | (dsimp only [])
theorem execPinLoad_frame (pvu : Nat) (s : State) : ∀ t, execPinLoad pvu s = .next t → t.frame = s.frame := by
  intro t ht
  unfold execPinLoad at ht
  repeat' first
    | (with_reducible have ht := Host.Outcome.next.inj ht; subst ht)
    | split at ht
    | (dsimp only [↓State.frame_mk, State.frame_fold, State.cause_frame, State.setPvu_frame] at ht)
    | (obtain ⟨_, _, rfl⟩ := Option.map_eq_some_iff.mp ht)
    | contradiction
    | with_reducible (cases ht; done)
    | with_reducible rfl
    | simp only [↓State.frame_mk, State.frame_fold, State.cause_frame, State.setPvu_frame]
    | intro _
    | split
    | refine (foldl_frame _ _ _ ?_).trans ?_
    | refine (foldl_frame1 _ _ _ ?_).trans ?_
    | simp only [id_eq, ↓State.frame_mk, State.frame_fold, State.cause_frame, State.setPvu_frame]
    | (dsimp only [↓State.frame_mk, State.frame_fold, State.cause_frame, State.setPvu_frame])
theorem execUnpinDone_frame (pvu : Nat) (s : State) : ∀ t, execUnpinDone pvu s = .next t → t.frame = s.frame := by
  intro t ht
  unfold execUnpinDone at ht
  repeat' first
    | (with_reducible have ht := Host.Outcome.next.inj ht; subst ht)
    | split at ht
    | (dsimp only [↓State.frame_mk, State.frame_fold, State.cause_frame, State.setPvu_frame] at ht)
    | (obtain ⟨_, _, rfl⟩ := Option.map_eq_some_iff.mp ht)
    | contradiction
    | with_reducible (cases ht; done)
    | with_reducible rfl
    | simp only [↓State.frame_mk, State.frame_fold, State.cause_frame, State.setPvu_frame]
    | intro _
    | split
    | refine (foldl_frame _ _ _ ?_).trans ?_
    | refine (foldl_frame1 _ _ _ ?_).trans ?_
    | simp only [id_eq, ↓State.frame_mk, State.frame_fold, State.cause_frame, State.setPvu_frame]
    | (dsimp only [↓State.frame_mk, State.frame_fold, State.cause_frame, State.setPvu_frame])
theorem rawKernel_frame (count : Nat) (odd : Bool) (f : Job → Nat → Nat → Nat → Nat ⊕ Nat) :
    ∀ u a b, (rawKernel count odd f u a b).1.frame = u.frame := by
  intro u a b
  unfold rawKernel
  repeat' first | with_reducible rfl | simp only [] | split
theorem kModAdd_frame  : ∀ u a b, (kModAdd u a b).1.frame = u.frame := by
  intro u a b
  unfold kModAdd
  repeat' first | with_reducible rfl | simp only [rawKernel_frame] | split
theorem kModSub_frame  : ∀ u a b, (kModSub u a b).1.frame = u.frame := by
  intro u a b
  unfold kModSub
  repeat' first | with_reducible rfl | simp only [rawKernel_frame] | split
theorem kModMul_frame  : ∀ u a b, (kModMul u a b).1.frame = u.frame := by
  intro u a b
  unfold kModMul
  repeat' first | with_reducible rfl | simp only [rawKernel_frame] | split
theorem kModSqr_frame  : ∀ u a b, (kModSqr u a b).1.frame = u.frame := by
  intro u a b
  unfold kModSqr
  repeat' first | with_reducible rfl | simp only [rawKernel_frame] | split
theorem kModInv_frame  : ∀ u a b, (kModInv u a b).1.frame = u.frame := by
  intro u a b
  unfold kModInv
  repeat' first | with_reducible rfl | simp only [rawKernel_frame] | split
theorem kModExp_frame  : ∀ u a b, (kModExp u a b).1.frame = u.frame := by
  intro u a b
  unfold kModExp
  repeat' first | with_reducible rfl | simp only [rawKernel_frame] | split
theorem kRsaVerify_frame  : ∀ u a b, (kRsaVerify u a b).1.frame = u.frame := by
  intro u a b
  unfold kRsaVerify
  repeat' first | with_reducible rfl | simp only [↓State.frame_mk, State.frame_fold] | split
theorem kRsaDecrypt_frame  : ∀ u a b, (kRsaDecrypt u a b).1.frame = u.frame := by
  intro u a b
  unfold kRsaDecrypt
  repeat' first | with_reducible rfl | simp only [↓State.frame_mk, State.frame_fold] | split
theorem kEcdsaVerify_frame  : ∀ u a b, (kEcdsaVerify u a b).1.frame = u.frame := by
  intro u a b
  unfold kEcdsaVerify
  repeat' first | with_reducible rfl | simp only [↓State.frame_mk, State.frame_fold] | split
theorem kEddsaSign_frame  : ∀ u a b, (kEddsaSign u a b).1.frame = u.frame := by
  intro u a b
  unfold kEddsaSign
  repeat' first | with_reducible rfl | simp only [↓State.frame_mk, State.frame_fold] | split
theorem kEddsaVerify_frame  : ∀ u a b, (kEddsaVerify u a b).1.frame = u.frame := by
  intro u a b
  unfold kEddsaVerify
  repeat' first | with_reducible rfl | simp only [↓State.frame_mk, State.frame_fold] | split
theorem kCompVerify_frame  : ∀ u a b, (kCompVerify u a b).1.frame = u.frame := by
  intro u a b
  unfold kCompVerify
  repeat' first | with_reducible rfl | simp only [↓State.frame_mk, State.frame_fold] | split
theorem kHash_frame  : ∀ u a b, (kHash u a b).1.frame = u.frame := by
  intro u a b
  unfold kHash
  repeat' first | with_reducible rfl | simp only [↓State.frame_mk, State.frame_fold, foldl_frame] | split
theorem kHmac_frame  : ∀ u a b, (kHmac u a b).1.frame = u.frame := by
  intro u a b
  unfold kHmac
  repeat' first | with_reducible rfl | simp only [↓State.frame_mk, State.frame_fold, foldl_frame] | split
theorem execModAdd_frame (job : Nat) (s : State) : ∀ t, execModAdd job s = .next t → t.frame = s.frame :=
  State.runJob_frame s _ _ _ (kModAdd_frame)
theorem execModSub_frame (job : Nat) (s : State) : ∀ t, execModSub job s = .next t → t.frame = s.frame :=
  State.runJob_frame s _ _ _ (kModSub_frame)
theorem execModMul_frame (job : Nat) (s : State) : ∀ t, execModMul job s = .next t → t.frame = s.frame :=
  State.runJob_frame s _ _ _ (kModMul_frame)
theorem execModSqr_frame (job : Nat) (s : State) : ∀ t, execModSqr job s = .next t → t.frame = s.frame :=
  State.runJob_frame s _ _ _ (kModSqr_frame)
theorem execModInv_frame (job : Nat) (s : State) : ∀ t, execModInv job s = .next t → t.frame = s.frame :=
  State.runJob_frame s _ _ _ (kModInv_frame)
theorem execModExp_frame (job : Nat) (s : State) : ∀ t, execModExp job s = .next t → t.frame = s.frame :=
  State.runJob_frame s _ _ _ (kModExp_frame)
theorem execRsaVerify_frame (job : Nat) (s : State) : ∀ t, execRsaVerify job s = .next t → t.frame = s.frame :=
  State.runJob_frame s _ _ _ (kRsaVerify_frame)
theorem execRsaDecrypt_frame (job : Nat) (s : State) : ∀ t, execRsaDecrypt job s = .next t → t.frame = s.frame :=
  State.runJob_frame s _ _ _ (kRsaDecrypt_frame)
theorem execEcdsaVerify_frame (job : Nat) (s : State) : ∀ t, execEcdsaVerify job s = .next t → t.frame = s.frame :=
  State.runJob_frame s _ _ _ (kEcdsaVerify_frame)
theorem execEddsaSign_frame (job : Nat) (s : State) : ∀ t, execEddsaSign job s = .next t → t.frame = s.frame :=
  State.runJob_frame s _ _ _ (kEddsaSign_frame)
theorem execEddsaVerify_frame (job : Nat) (s : State) : ∀ t, execEddsaVerify job s = .next t → t.frame = s.frame :=
  State.runJob_frame s _ _ _ (kEddsaVerify_frame)
theorem execCompVerify_frame (job : Nat) (s : State) : ∀ t, execCompVerify job s = .next t → t.frame = s.frame :=
  State.runJob_frame s _ _ _ (kCompVerify_frame)
theorem execHmac_frame (job : Nat) (s : State) : ∀ t, execHmac job s = .next t → t.frame = s.frame :=
  State.runJob_frame s _ _ _ (kHmac_frame)
theorem execHash_frame (job : Nat) (s : State) : ∀ t, execHash job s = .next t → t.frame = s.frame :=
  State.runJob_frame s _ _ _ (kHash_frame)
theorem State.setSlot_frame (s : State) (n : Nat) (x : CardSlot) : (State.setSlot s n x).frame = s.frame := by
  rfl
theorem State.thmCount_frame (s : State) (i : Nat) : (State.thmCount s i).frame = s.frame := by
  rfl
theorem State.tryClass_frame (s : State) (n : Nat) (cls : Nat) (noPps : Bool) :
    (State.tryClass s n cls noPps).frame = s.frame := by
  rfl
theorem State.activate_frame (s : State) (n : Nat) (noPps : Bool) : (State.activate s n noPps).frame = s.frame := by
  unfold State.activate
  repeat' first | with_reducible rfl | simp only [State.setSlot_frame, State.tryClass_frame] | split
theorem State.adopt_frame (s : State) (n : Nat) (t1 : Bool) (fi : Nat) (di : Nat) :
    (State.adopt s n t1 fi di).frame = s.frame := by
  rfl
theorem execCardInserted_frame (slot : Nat) (s : State) : ∀ t, execCardInserted slot s = .next t → t.frame = s.frame := by
  intro t ht
  rw [← Host.Outcome.next.inj ht]
  repeat' first | with_reducible rfl | simp only [State.activate_frame, State.cause_frame, State.event_frame, State.setSlot_frame] | split
theorem execNextClassAttempt_frame (slot : Nat) (s : State) :
    ∀ t, execNextClassAttempt slot s = .next t → t.frame = s.frame := by
  intro t ht
  rw [← Host.Outcome.next.inj ht]
  repeat' first | with_reducible rfl | simp only [State.tryClass_frame] | split
theorem execApduDataWrite_frame (val : W32) (s : State) : ∀ t, execApduDataWrite val s = .next t → t.frame = s.frame := by
  intro t ht
  rw [← Host.Outcome.next.inj ht]
  refine State.onPage_frame _ _ _ ?_
  repeat' first | with_reducible rfl | simp only [↓State.frame_mk, State.frame_fold] | split
theorem State.apduEnd_frame (s : State) (st : Nat) : (State.apduEnd s st).frame = s.frame := by
  unfold State.apduEnd
  split <;> simp only [↓State.frame_mk, State.frame_fold, State.thmCount_frame]
theorem execApduStart_frame (val : W32) (s : State) : ∀ t, execApduStart val s = .next t → t.frame = s.frame := by
  intro t ht
  rw [← Host.Outcome.next.inj ht]
  refine State.onPage_frame _ _ _ ?_
  repeat' first | with_reducible rfl | simp only [↓State.frame_mk, State.frame_fold, State.apduEnd_frame, State.emit_frame, State.event_frame, State.setSlot_frame, State.thmCount_frame] | split
theorem execApduResponse_frame (slot : Nat) (resp : List Byte) (s : State) :
    ∀ t, execApduResponse slot resp s = .next t → t.frame = s.frame := by
  intro t ht
  rw [← Host.Outcome.next.inj ht]
  repeat' first | with_reducible rfl | simp only [↓State.frame_mk, State.frame_fold, State.setSlot_frame, State.thmCount_frame] | split
theorem execApduDataRead_frame (s : State) : ∀ t, execApduDataRead s = .next t → t.frame = s.frame := by
  intro t ht
  rw [← Host.Outcome.next.inj ht]
  simp only [↓State.frame_mk, State.frame_fold, State.answer_frame]
theorem State.quorumResult_frame (s : State) (st : Nat) : (State.quorumResult s st).frame = s.frame := by
  rfl
theorem State.closeSession_frame (s : State) : (State.closeSession s).frame = s.frame := by
  simp only [State.closeSession, ↓State.frame_mk, State.frame_fold, State.irqSync_frame]
theorem State.failSession_frame (s : State) (st : Nat) : (State.failSession s st).frame = s.frame := by
  simp only [State.failSession, State.closeSession_frame, State.quorumResult_frame]
theorem State.cancelOpen_frame (s : State) : (State.cancelOpen s).frame = s.frame := by
  unfold State.cancelOpen
  repeat' first | with_reducible rfl | simp only [State.closeSession_frame, State.failSession_frame] | split
theorem State.activateClaimed_frame (s : State) : (State.activateClaimed s).frame = s.frame := by
  unfold State.activateClaimed
  repeat' first | with_reducible rfl | simp only [State.activate_frame] | split | refine (foldl_frame _ _ _ ?_).trans ?_ | intro _
theorem State.openSession_frame (s : State) (x : Session) : (State.openSession s x).frame = s.frame := by
  simp only [State.openSession, ↓State.frame_mk, State.frame_fold, State.activateClaimed_frame, State.irqSync_frame, State.thmCount_frame]
theorem execQuorumClose_frame (val : W32) (s : State) : ∀ t, execQuorumClose val s = .next t → t.frame = s.frame := by
  intro t ht
  rw [← Host.Outcome.next.inj ht]
  repeat' first | with_reducible rfl | simp only [State.cancelOpen_frame, State.onPage_frame] | split
theorem execQuorumTimeout_frame (s : State) : ∀ t, execQuorumTimeout s = .next t → t.frame = s.frame := by
  intro t ht
  rw [← Host.Outcome.next.inj ht]
  simp only [State.cancelOpen_frame]
theorem State.commitBackup_frame (s : State) (x : Session) : (State.commitBackup s x).frame = s.frame := by
  simp only [State.commitBackup, ↓State.frame_mk, State.frame_fold, State.cause_frame, State.closeSession_frame, State.quorumResult_frame]
theorem State.afterUnlock_frame (s : State) : (State.afterUnlock s).frame = s.frame := by
  unfold State.afterUnlock
  repeat' first | with_reducible rfl | simp only [State.cause_frame, State.evidence_frame, State.irqSync_frame, State.kstOpen_frame, State.kstReplay_frame] | split
theorem State.afterRestore_frame (s : State) : (State.afterRestore s).frame = s.frame := by
  unfold State.afterRestore
  repeat' first | with_reducible rfl | simp only [State.cause_frame, State.irqSync_frame, State.kstOpen_frame, State.kstReplay_frame] | split
theorem State.writeThm_frame (s : State) (off : Nat) (v : W32) : (State.writeThm s off v).frame = s.frame := by
  unfold State.writeThm
  repeat' first | with_reducible rfl | simp only [↓State.frame_mk, State.frame_fold, State.setSlot_frame] | split
theorem State.idle_frame (s : State) : (State.idle s).frame = s.frame := by
  rfl
theorem State.admitJob_frame (s : State) (id : Nat) (rel : Nat) : (State.admitJob s id rel).frame = s.frame := by
  simp only [State.admitJob, ↓State.frame_mk, State.frame_fold, State.event_frame, State.modJob_frame]
theorem State.refuse_frame (s : State) (id : Nat) : (State.refuse s id).frame = s.frame := by
  unfold State.refuse
  repeat' first | with_reducible rfl | simp only [↓State.frame_mk, State.frame_fold, State.cause_frame, State.event_frame, State.finish_frame, State.sendFrame_frame] | split
theorem State.keyFail_frame (s : State) (id : Nat) (st : Nat) (detail : Nat) :
    (State.keyFail s id st detail).frame = s.frame := by
  simp only [State.keyFail, State.countStatus_frame, State.finish_frame]
theorem State.setJobKey_frame (s : State) (j : Job) (k : KeyObj) : (State.setJobKey s j k).frame = s.frame := by
  unfold State.setJobKey
  split <;> simp only [↓State.frame_mk, State.frame_fold, State.setKey_frame]
theorem State.assignWorkerLeaf_frame (s : State) (id : Nat) (port : Nat) (j : Job) (k : KeyObj) (st : Stateful) :
    (State.assignWorkerLeaf s id port j k st).frame = s.frame := by
  unfold State.assignWorkerLeaf
  repeat' first | with_reducible rfl | simp only [State.event_frame, State.modJob_frame, State.sendFrame_frame, State.setJobKey_frame, ↓State.frame_mk, State.frame_fold] | split
theorem State.takeLeaf_frame (s0 : State) (id : Nat) (j : Job) : (State.takeLeaf s0 id j).frame = s0.frame := by
  unfold State.takeLeaf
  repeat' first | with_reducible rfl | simp only [↓State.frame_mk, State.frame_fold, State.assignLeaf_frame, State.assignWorkerLeaf_frame] | split | refine (foldl_frame _ _ _ ?_).trans ?_ | refine (foldl_frame1 _ _ _ ?_).trans ?_ | intro _ | (dsimp only [])
theorem State.takeEphemeral_frame (s : State) (id : Nat) (j : Job) : (State.takeEphemeral s id j).frame = s.frame := by
  unfold State.takeEphemeral
  repeat' first | with_reducible rfl | simp only [State.modJob_frame, State.setJobKey_frame, ↓State.frame_mk, State.frame_fold] | split
theorem State.admitBooked_frame (s : State) (id : Nat) (b : Booked) : (State.admitBooked s id b).frame = s.frame := by
  simp only [State.admitBooked, State.admitJob_frame, State.commit_frame, State.modJob_frame]
theorem State.admitRng_frame (s : State) (id : Nat) (j : Job) : (State.admitRng s id j).1.frame = s.frame := by
  unfold State.admitRng
  repeat' first | with_reducible rfl | simp only [State.admitJob_frame, State.finishWith_frame, State.modJob_frame] | split
theorem State.admitPreload_frame (s : State) (id : Nat) (j : Job) (lent : Option (List Nat)) : (State.admitPreload s id j lent).1.frame = s.frame := by
  unfold State.admitPreload
  repeat' first | with_reducible rfl | simp only [↓State.frame_mk, State.frame_fold, State.admitJob_frame, State.commit_frame, State.keyFail_frame] | split | refine (foldl_frame _ _ _ ?_).trans ?_ | refine (foldl_frame1 _ _ _ ?_).trans ?_ | intro _ | (dsimp only [])
theorem State.admitPin_frame (s : State) (id : Nat) (j : Job) : (State.admitPin s id j).1.frame = s.frame := by
  unfold State.admitPin
  repeat' first | with_reducible rfl | simp only [State.admitJob_frame, State.keyFail_frame, State.setPvu_frame, ↓State.frame_mk, State.frame_fold] | split | refine (foldl_frame _ _ _ ?_).trans ?_ | intro _
theorem State.unpin_frame (s : State) (h : W32) : (State.unpin s h).frame = s.frame := by
  rfl
theorem State.toReplicas_frame (s : State) (k : KeyObj) (typ : Nat) (payload : List Byte) (i : Nat) :
    (State.toReplicas s k typ payload i).frame = s.frame := by
  unfold State.toReplicas
  repeat' first | with_reducible rfl | simp only [↓State.frame_mk, State.frame_fold, State.sendFrame_frame] | split | refine (foldl_frame _ _ _ ?_).trans ?_ | intro _
theorem State.admitDelete_frame (s : State) (id : Nat) (j : Job) : (State.admitDelete s id j).frame = s.frame := by
  unfold State.admitDelete
  repeat' first | with_reducible rfl | simp only [State.modJob_frame, State.setKey_frame, State.toReplicas_frame, State.unpin_frame] | split
theorem State.sendJob_frame (s : State) (id : Nat) (j : Job) (node : Nat) : (State.sendJob s id j node).frame = s.frame := by
  simp only [State.sendJob, ↓State.frame_mk, State.frame_fold, State.event_frame, State.modJob_frame, State.sendFrame_frame]
theorem State.forwardJob_frame (s : State) (id : Nat) (j : Job) (node : Nat) :
    (State.forwardJob s id j node).frame = s.frame := by
  simp only [State.forwardJob, State.admitJob_frame, State.sendJob_frame]
theorem State.tryForward_frame (s : State) (id : Nat) (j : Job) (modes : List Nat) :
    ∀ t, State.tryForward s id j modes = some t → t.frame = s.frame := by
  intro t ht
  unfold State.tryForward at ht
  repeat' first
    | (with_reducible have ht := Option.some.inj ht; subst ht)
    | split at ht
    | (dsimp only [] at ht)
    | (obtain ⟨_, _, rfl⟩ := Option.map_eq_some_iff.mp ht)
    | contradiction
    | with_reducible (cases ht; done)
    | with_reducible rfl
    | simp only [↓State.frame_mk, State.frame_fold, foldl_frame, State.forwardJob_frame]
    | intro _
    | split
    | refine (foldl_frame _ _ _ ?_).trans ?_
    | refine (foldl_frame1 _ _ _ ?_).trans ?_
    | simp only [id_eq]
    | (dsimp only [])
theorem State.leafTest_frame (s : State) (id : Nat) (j : Job) (n : Need) :
    ∀ t, State.leafTest s id j n = some t → t.1.frame = s.frame := by
  intro t ht
  unfold State.leafTest at ht
  repeat' first
    | (with_reducible have ht := Option.some.inj ht; subst ht)
    | split at ht
    | (dsimp only [↓State.frame_mk, State.frame_fold, State.finishWith_frame, State.refuse_frame] at ht)
    | (obtain ⟨_, _, rfl⟩ := Option.map_eq_some_iff.mp ht)
    | contradiction
    | with_reducible (cases ht; done)
    | with_reducible rfl
    | simp only [↓State.frame_mk, State.frame_fold, State.finishWith_frame, State.refuse_frame]
    | intro _
    | split
    | refine (foldl_frame _ _ _ ?_).trans ?_
    | refine (foldl_frame1 _ _ _ ?_).trans ?_
    | simp only [id_eq, ↓State.frame_mk, State.frame_fold, State.finishWith_frame, State.refuse_frame]
    | (dsimp only [↓State.frame_mk, State.frame_fold, State.finishWith_frame, State.refuse_frame])
theorem State.dryTest_frame (s : State) (id : Nat) (j : Job) (n : Need) :
    ∀ t, State.dryTest s id j n = some t → t.1.frame = s.frame := by
  intro t ht
  unfold State.dryTest at ht
  repeat' first
    | (with_reducible have ht := Option.some.inj ht; subst ht)
    | split at ht
    | (dsimp only [] at ht)
    | (obtain ⟨_, _, rfl⟩ := Option.map_eq_some_iff.mp ht)
    | contradiction
    | with_reducible (cases ht; done)
    | with_reducible rfl
    | simp only [↓State.frame_mk, State.frame_fold, foldl_frame, State.finishWith_frame, State.modJob_frame]
    | intro _
    | split
    | refine (foldl_frame _ _ _ ?_).trans ?_
    | refine (foldl_frame1 _ _ _ ?_).trans ?_
    | simp only [id_eq]
    | (dsimp only [])
theorem State.giveUp_frame (s : State) (id : Nat) : (State.giveUp s id).frame = s.frame := by
  unfold State.giveUp
  repeat' first
    | with_reducible rfl
    | simp only [↓State.frame_mk, State.frame_fold, foldl_frame, State.refuse_frame]
    | refine Eq.trans (State.tryForward_frame _ _ _ _ _ (by assumption)) ?_
    | intro _
    | split
    | refine (foldl_frame _ _ _ ?_).trans ?_
    | refine (foldl_frame1 _ _ _ ?_).trans ?_
    | simp only [id_eq]
    | (dsimp only [])
theorem State.reforward_frame (s : State) (id : Nat) (j : Job) (modes : List Nat) :
    ∀ t, State.reforward s id j modes = some t → t.frame = s.frame := by
  intro t ht
  unfold State.reforward at ht
  repeat' first
    | (with_reducible have ht := Option.some.inj ht; subst ht)
    | split at ht
    | (dsimp only [] at ht)
    | (obtain ⟨_, _, rfl⟩ := Option.map_eq_some_iff.mp ht)
    | contradiction
    | with_reducible (cases ht; done)
    | with_reducible rfl
    | simp only [↓State.frame_mk, State.frame_fold, foldl_frame, State.sendJob_frame]
    | intro _
    | split
    | refine (foldl_frame _ _ _ ?_).trans ?_
    | refine (foldl_frame1 _ _ _ ?_).trans ?_
    | simp only [id_eq]
    | (dsimp only [])
theorem State.missTest_frame (s : State) (id : Nat) (j : Job) (n : Need) (d : Nat) :
    (State.missTest s id j n d).frame = s.frame := by
  unfold State.missTest
  repeat' first | with_reducible rfl | simp only [State.finishWith_frame] | split
theorem State.stoppedOne_frame (s : State) (id : Nat) : (State.stoppedOne s id).frame = s.frame := by
  unfold State.stoppedOne
  repeat' first | with_reducible rfl | simp only [State.missTest_frame] | split
theorem State.rebookOne_frame (s : State) (lent : Option (List Nat)) (id : Nat) :
    ∀ t, State.rebookOne s lent id = some t → t.frame = s.frame := by
  intro t ht
  unfold State.rebookOne at ht
  obtain ⟨_, _, rfl⟩ := Option.map_eq_some_iff.mp ht
  repeat' first | with_reducible rfl | simp only [↓State.frame_mk, State.frame_fold, State.commit_frame, State.event_frame, State.holdPages_frame, State.modJob_frame] | split | (dsimp only [])
theorem State.continueOne_frame (s : State) (lent : Option (List Nat)) (id : Nat) (q : SignQueue) :
    ∀ t, State.continueOne s lent id q = some t → t.frame = s.frame := by
  intro t ht
  unfold State.continueOne firstPlace at ht
  dsimp only [] at ht
  split at ht
  · exact absurd ht (by simp)
  · obtain ⟨pl, _, hu⟩ := List.exists_of_findSome?_eq_some ht
    split at hu
    · rw [← Option.some.inj hu]; exact State.withPlan_frame _ _
    · exact absurd hu (by simp)
theorem State.trimQueue_frame (s : State) (q : SignQueue) : (State.trimQueue s q).frame = s.frame := by
  rfl
theorem State.trim_frame (s : State) : (State.trim s).frame = s.frame := by
  unfold State.trim
  repeat' first | with_reducible rfl | simp only [↓State.frame_mk, State.frame_fold, State.trimQueue_frame] | split | refine (foldl_frame _ _ _ ?_).trans ?_ | intro _
theorem State.bookCacheFill_frame (lent : List Nat) (s : State) (x : W32 × Nat) : (State.bookCacheFill lent s x).frame = s.frame := by
  unfold State.bookCacheFill
  repeat' first | with_reducible rfl | simp only [↓State.frame_mk, State.frame_fold, State.withPlan_frame] | split | refine (foldl_frame _ _ _ ?_).trans ?_ | refine (foldl_frame1 _ _ _ ?_).trans ?_ | intro _ | (dsimp only [])
theorem State.present__frame (s : State) : (State.present_ s).frame = s.frame := by
  rfl
theorem State.missOne_frame (s : State) (id : Nat) : (State.missOne s id).frame = s.frame := by
  unfold State.missOne
  repeat' first
    | with_reducible rfl
    | exact State.reforward_frame _ _ _ _ _ (by assumption)
    | simp only [State.finishWith_frame, State.missTest_frame]
    | split
theorem State.missContinue_frame (s : State) (id : Nat) (q : SignQueue) : (State.missContinue s id q).frame = s.frame := by
  unfold State.missContinue
  repeat' first | with_reducible rfl | simp only [↓State.frame_mk, State.frame_fold, State.finishWith_frame] | split | refine (foldl_frame _ _ _ ?_).trans ?_ | refine (foldl_frame1 _ _ _ ?_).trans ?_ | intro _ | (dsimp only [])
theorem State.rebookAll_frame (s : State) (lent : Option (List Nat)) (ids : List Nat) : (State.rebookAll s lent ids).1.frame = s.frame := by
  unfold State.rebookAll
  repeat' first
    | with_reducible rfl
    | exact State.rebookOne_frame _ _ _ _ (by assumption)
    | refine (foldl_frame1 _ _ _ ?_).trans ?_
    | intro _
    | split
theorem State.continueAll_frame (s : State) (lent : Option (List Nat)) (xs : List (Nat × SignQueue)) :
    (State.continueAll s lent xs).1.frame = s.frame := by
  unfold State.continueAll
  repeat' first
    | with_reducible rfl
    | exact State.continueOne_frame _ _ _ _ _ (by assumption)
    | refine (foldl_frame1 _ _ _ ?_).trans ?_
    | intro _
    | split
theorem State.sendCard_frame (s : State) (slot : Nat) (cmds : List (List Byte)) : (State.sendCard s slot cmds).frame = s.frame := by
  unfold State.sendCard
  repeat' first | with_reducible rfl | simp only [↓State.frame_mk, State.frame_fold, State.emit_frame] | split | refine (foldl_frame _ _ _ ?_).trans ?_ | refine (foldl_frame1 _ _ _ ?_).trans ?_ | intro _ | (dsimp only [])
theorem State.agreed_frame (s : State) (z : Option (List Byte)) (f : List Byte → State × Result)
    (h : ∀ z, (f z).1.frame = s.frame) : (State.agreed s z f).1.frame = s.frame := by
  cases z with
  | none => rfl
  | some z => exact h z

end Sys2Proof.Machine
end

