-- ==== Sys2Proof/Laws/FrameEngines.lean ====
section
/-! SUPPORT. Frame lemmas: the PVU and BNE instruction rows. -/

set_option maxRecDepth 2000
set_option linter.unusedSimpArgs false

namespace Sys2Proof.Machine

theorem State.bneAbort_frame (s : State) (n : Nat) (c : BneCause) : (State.bneAbort s n c).frame = s.frame := by
  simp only [State.bneAbort, State.cause_frame, State.event_frame, State.setBne_frame, ↓State.frame_mk, State.frame_fold]
theorem State.abortRuns_frame (s : State) (ns : List Nat) (c : BneCause) : (State.abortRuns s ns c).frame = s.frame := by
  unfold State.abortRuns
  repeat' first | with_reducible rfl | simp only [↓State.frame_mk, State.frame_fold, State.bneAbort_frame] | split | refine (foldl_frame _ _ _ ?_).trans ?_ | refine (foldl_frame1 _ _ _ ?_).trans ?_ | intro _ | (dsimp only [])
theorem State.stopEngines_frame (s : State) : (State.stopEngines s).frame = s.frame := by
  unfold State.stopEngines
  repeat' first | with_reducible rfl | simp only [↓State.frame_mk, State.frame_fold, State.abortRuns_frame] | split | refine (foldl_frame _ _ _ ?_).trans ?_ | refine (foldl_frame1 _ _ _ ?_).trans ?_ | intro _ | (dsimp only [])
theorem State.safeHalt_frame (s : State) (src : Nat) (detail : Nat) : (State.safeHalt s src detail).frame = s.frame := by
  unfold State.safeHalt
  repeat' first | with_reducible rfl | simp only [↓State.frame_mk, State.frame_fold, State.completeTaken_frame, State.kstClose_frame, State.kstCommit_frame, State.stopEngines_frame] | split
theorem State.haltModule_frame (s : State) (r : Nat) : (State.haltModule s r).frame = s.frame := by
  unfold State.haltModule
  repeat' first | with_reducible rfl | simp only [↓State.frame_mk, State.frame_fold, State.cancelSession_frame, State.cause_frame, State.clearDgs_frame, State.clearKeyCache_frame, State.completeTaken_frame, State.irqSync_frame, State.kstClose_frame, State.kstCommit_frame, State.stopEngines_frame] | split
theorem State.stopDomain_frame (s : State) (e : Event) : (State.stopDomain s e).frame = s.frame := by
  unfold State.stopDomain
  repeat' first | with_reducible rfl | simp only [↓State.frame_mk, State.frame_fold, State.irqSync_frame, State.kstClose_frame, State.abortRuns_frame] | split
theorem State.respond_frame (s : State) (e : Event) (ecls : Nat) (escalated : Bool) :
    (State.respond s e ecls escalated).frame = s.frame := by
  unfold State.respond
  repeat' first | with_reducible rfl | simp only [State.retireChannel_frame, State.safeHalt_frame, State.stopDomain_frame] | split
theorem State.raise1_frame (s : State) (e : Event) (room : Bool) : (State.raise1 s e room).frame = s.frame := by
  unfold State.raise1
  repeat' first | with_reducible rfl | simp only [State.noteEvent_frame, State.respond_frame, ↓State.frame_mk, State.frame_fold] | split
theorem State.raise_frame (s : State) (e : Event) : (State.raise s e).frame = s.frame := by
  unfold State.raise
  repeat' first | with_reducible rfl | simp only [State.raise1_frame] | split
theorem State.raiseAll_frame (s : State) (a0 : List Event) : (State.raiseAll s a0).frame = s.frame := by
  unfold State.raiseAll
  repeat' first | with_reducible rfl | simp only [State.raise_frame, State.raise1_frame] | split | refine (foldl_frame _ _ _ ?_).trans ?_ | intro _
theorem State.force_frame (s : State) (src : Nat) : (State.force s src).frame = s.frame := by
  simp only [State.force, State.raise_frame]
theorem execTickStall_frame (s : State) : ∀ t, execTickStall s = .next t → t.frame = s.frame := by
  intro t ht
  rw [← Host.Outcome.next.inj ht]
  repeat' first | with_reducible rfl | simp only [↓State.frame_mk, State.frame_fold, State.raise_frame] | split
theorem execMgcStall_frame (s : State) : ∀ t, execMgcStall s = .next t → t.frame = s.frame := by
  intro t ht
  rw [← Host.Outcome.next.inj ht]
  repeat' first | with_reducible rfl | simp only [↓State.frame_mk, State.frame_fold, State.raise_frame] | split
theorem execLogLost_frame (s : State) : ∀ t, execLogLost s = .next t → t.frame = s.frame := by
  intro t ht
  rw [← Host.Outcome.next.inj ht]
  repeat' first | with_reducible rfl | simp only [↓State.frame_mk, State.frame_fold, State.raise_frame] | split
theorem State.alarmRecord_frame (s : State) (n : Nat) (r : Nat) (applied : Nat) (eflags : Nat) (meas : Nat) (forced : Bool) (drill : Bool) :
    (State.alarmRecord s n r applied eflags meas forced drill).frame = s.frame := by
  simp only [State.alarmRecord, ↓State.frame_mk, State.frame_fold, State.cause_frame, State.event_frame, State.evidence_frame, State.raise_frame]
theorem execTamperConfigWrite_frame (off : Nat) (val : W32) (s : State) :
    ∀ t, execTamperConfigWrite off val s = .next t → t.frame = s.frame := by
  intro t ht
  rw [← Host.Outcome.next.inj ht]
  refine State.onPage_frame _ _ _ ?_
  repeat' first | with_reducible rfl | simp only [State.raise_frame, State.setTamperConfig_frame] | split
theorem execTmpRelease_frame (val : W32) (s : State) : ∀ t, execTmpRelease val s = .next t → t.frame = s.frame := by
  intro t ht
  rw [← Host.Outcome.next.inj ht]
  refine State.onPage_frame _ _ _ ?_
  repeat' first | with_reducible rfl | simp only [↓State.frame_mk, State.frame_fold, State.irqSync_frame, State.raise_frame] | split
theorem State.drawInt_frame (s : State) (n : Nat) : (State.drawInt s n).2.frame = s.frame := by
  unfold State.drawInt
  repeat' first | with_reducible rfl | simp only [↓State.frame_mk, State.frame_fold, State.irqSync_frame, State.raise_frame] | split
theorem State.drawHost_frame (s : State) (n : Nat) : (State.drawHost s n).2.frame = s.frame := by
  unfold State.drawHost
  repeat' first | with_reducible rfl | simp only [↓State.frame_mk, State.frame_fold, State.irqSync_frame, State.raise_frame] | split
theorem State.healthFail_frame (s : State) (n : Nat) (x : EntSource) : (State.healthFail s n x).frame = s.frame := by
  unfold State.healthFail
  repeat' first | with_reducible rfl | simp only [↓State.frame_mk, State.frame_fold, State.cause_frame, State.event_frame, State.raise_frame, State.setSource_frame] | split | refine (foldl_frame _ _ _ ?_).trans ?_ | refine (foldl_frame1 _ _ _ ?_).trans ?_ | intro _ | (dsimp only [])
theorem execConditionedBlock_frame (src : Nat) (health : HealthResult) (s : State) :
    ∀ t, execConditionedBlock src health s = .next t → t.frame = s.frame := by
  intro t ht
  unfold execConditionedBlock at ht
  repeat' first
    | (with_reducible have ht := Host.Outcome.next.inj ht; subst ht)
    | split at ht
    | (dsimp only [↓State.frame_mk, State.frame_fold, State.checkRaw_frame, State.event_frame, State.healthFail_frame, State.irqSync_frame, State.setSource_frame] at ht)
    | (obtain ⟨_, _, rfl⟩ := Option.map_eq_some_iff.mp ht)
    | contradiction
    | with_reducible (cases ht; done)
    | with_reducible rfl
    | simp only [↓State.frame_mk, State.frame_fold, State.checkRaw_frame, State.event_frame, State.irqSync_frame, State.raise_frame, State.setSource_frame, State.healthFail_frame]
    | intro _
    | split
    | refine (foldl_frame _ _ _ ?_).trans ?_
    | refine (foldl_frame1 _ _ _ ?_).trans ?_
    | simp only [id_eq, ↓State.frame_mk, State.frame_fold, State.checkRaw_frame, State.event_frame, State.healthFail_frame, State.irqSync_frame, State.setSource_frame]
    | (dsimp only [↓State.frame_mk, State.frame_fold, State.checkRaw_frame, State.event_frame, State.healthFail_frame, State.irqSync_frame, State.setSource_frame])
theorem execOscCalibration_frame (deviation : List Int) (s : State) :
    ∀ t, execOscCalibration deviation s = .next t → t.frame = s.frame := by
  intro t ht
  rw [← Host.Outcome.next.inj ht]
  simp only [↓State.frame_mk, State.frame_fold, State.raiseAll_frame]
theorem execEntRawCtrl_frame (val : W32) (startupPass : Bool) (s : State) :
    ∀ t, execEntRawCtrl val startupPass s = .next t → t.frame = s.frame := by
  intro t ht
  rw [← Host.Outcome.next.inj ht]
  refine State.onPage_frame _ _ _ ?_
  repeat' first | with_reducible rfl | simp only [↓State.frame_mk, State.frame_fold, State.cause_frame, State.endRaw_frame, State.irqSync_frame, State.raise_frame, State.setSource_frame] | split
theorem execRngFifoRefill_frame (fn : Nat) (s : State) : ∀ t, execRngFifoRefill fn s = .next t → t.frame = s.frame := by
  intro t ht
  unfold execRngFifoRefill at ht
  repeat' first
    | contradiction
    | (cases ht; done)
    | (with_reducible have ht := Host.Outcome.next.inj ht; subst ht)
    | (dsimp only [] at ht)
    | split at ht
    | (obtain ⟨_, _, rfl⟩ := Option.map_eq_some_iff.mp ht)
    | with_reducible rfl
    | simp only [↓State.frame_mk, State.frame_fold, foldl_frame, State.drawHost_frame, State.setFn_frame]
    | intro _
    | split
    | refine (foldl_frame _ _ _ ?_).trans ?_
    | refine (foldl_frame1 _ _ _ ?_).trans ?_
    | simp only [id_eq]
    | (dsimp only [])
theorem State.applyLka_frame (s : State) : (State.applyLka s).frame = s.frame := by
  unfold State.applyLka
  repeat' first | with_reducible rfl | simp only [State.discard_frame, State.raise_frame, State.setAssessed_frame, State.setLka_frame] | split | refine (foldl_frame _ _ _ ?_).trans ?_ | intro _
theorem State.lkaFail_frame (s : State) (e : Nat) : (State.lkaFail s e).frame = s.frame := by
  unfold State.lkaFail
  repeat' first | with_reducible rfl | simp only [State.lkaCount_frame, State.raise_frame, State.setLka_frame] | split
theorem State.lkaVerdict_frame (s : State) (e : Nat) (m : AssessMeasure) : (State.lkaVerdict s e m).frame = s.frame := by
  unfold State.lkaVerdict
  repeat' first | with_reducible rfl | simp only [State.cause_frame, State.event_frame, State.lkaCount_frame, State.lkaFail_frame, State.raise_frame, State.setLka_frame] | split
theorem State.drawTraces_frame (s : State) (e : Nat) : (State.drawTraces s e).2.frame = s.frame := by
  unfold State.drawTraces
  repeat' first | with_reducible rfl | simp only [↓State.frame_mk, State.frame_fold, State.drawInt_frame] | split | refine (foldl_frame _ _ _ ?_).trans ?_ | refine (foldl_frame1 _ _ _ ?_).trans ?_ | intro _ | (dsimp only [])
theorem execAssessmentSlotEnd_frame (code : Nat) (m : AssessMeasure) (s : State) :
    ∀ t, execAssessmentSlotEnd code m s = .next t → t.frame = s.frame := by
  intro t ht
  unfold execAssessmentSlotEnd at ht
  repeat' first
    | (with_reducible have ht := Host.Outcome.next.inj ht; subst ht)
    | split at ht
    | (dsimp only [↓State.frame_mk, State.frame_fold, State.cause_frame, State.discard_frame, State.drawTraces_frame, State.event_frame, State.lkaCount_frame, State.lkaVerdict_frame, State.raise_frame, State.setLka_frame] at ht)
    | (obtain ⟨_, _, rfl⟩ := Option.map_eq_some_iff.mp ht)
    | contradiction
    | with_reducible (cases ht; done)
    | with_reducible rfl
    | simp only [↓State.frame_mk, State.frame_fold, State.cause_frame, State.discard_frame, State.event_frame, State.lkaCount_frame, State.lkaVerdict_frame, State.raise_frame, State.setLka_frame, State.drawTraces_frame]
    | intro _
    | split
    | refine (foldl_frame _ _ _ ?_).trans ?_
    | refine (foldl_frame1 _ _ _ ?_).trans ?_
    | simp only [id_eq, ↓State.frame_mk, State.frame_fold, State.cause_frame, State.discard_frame, State.drawTraces_frame, State.event_frame, State.lkaCount_frame, State.lkaVerdict_frame, State.raise_frame, State.setLka_frame]
    | (dsimp only [↓State.frame_mk, State.frame_fold, State.cause_frame, State.discard_frame, State.drawTraces_frame, State.event_frame, State.lkaCount_frame, State.lkaVerdict_frame, State.raise_frame, State.setLka_frame])
theorem execLkaRelax_frame (val : W32) (s : State) : ∀ t, execLkaRelax val s = .next t → t.frame = s.frame := by
  intro t ht
  rw [← Host.Outcome.next.inj ht]
  refine State.onPage_frame _ _ _ ?_
  repeat' first | with_reducible rfl | simp only [State.raise_frame, State.setLka_frame, ↓State.frame_mk, State.frame_fold, State.onPage_frame] | split
theorem State.writeLka_frame (s : State) (off : Nat) (v : W32) : (State.writeLka s off v).frame = s.frame := by
  unfold State.writeLka
  repeat' first | with_reducible rfl | simp only [↓State.frame_mk, State.frame_fold, State.discard_frame, State.raise_frame] | split | refine (foldl_frame _ _ _ ?_).trans ?_ | intro _
theorem State.memUe_frame (s : State) (e : Event) (region : Nat) (kind : Nat) (addr : Nat) :
    (State.memUe s e region kind addr).frame = s.frame := by
  simp only [State.memUe, ↓State.frame_mk, State.frame_fold, State.cause_frame, State.event_frame, State.memCount_frame, State.raise_frame]
theorem State.memCe_frame (s : State) (e : Event) (region : Nat) (kind : Nat) (addr : Nat) (syndrome : Nat) :
    (State.memCe s e region kind addr syndrome).frame = s.frame := by
  simp only [State.memCe, ↓State.frame_mk, State.frame_fold, State.event_frame, State.memCount_frame, State.raise_frame]
theorem State.darnError_frame (s : State) (e : MemError) : (State.darnError s e).frame = s.frame := by
  unfold State.darnError
  repeat' first | with_reducible rfl | simp only [State.correctedRow_frame, State.darnWord_frame, State.dueRow_frame, State.event_frame, State.memCe_frame, State.memCount_frame, State.memUe_frame, State.raise_frame, State.setBne_frame, State.setPvu_frame, ↓State.frame_mk, State.frame_fold, State.dropInjected_frame] | split
theorem execDarningPass_frame (kind : MemKind) (durationMs : Nat) (found : List MemError) (s : State) :
    ∀ t, execDarningPass kind durationMs found s = .next t → t.frame = s.frame := by
  intro t ht
  unfold execDarningPass at ht
  repeat' first
    | (with_reducible have ht := Host.Outcome.next.inj ht; subst ht)
    | split at ht
    | (dsimp only [] at ht)
    | (obtain ⟨_, _, rfl⟩ := Option.map_eq_some_iff.mp ht)
    | contradiction
    | with_reducible (cases ht; done)
    | with_reducible rfl
    | simp only [↓State.frame_mk, State.frame_fold, foldl_frame, State.bobPass_frame, State.cause_frame, State.darnError_frame, State.memCount_frame, State.raise_frame]
    | intro _
    | split
    | refine (foldl_frame _ _ _ ?_).trans ?_
    | refine (foldl_frame1 _ _ _ ?_).trans ?_
    | simp only [id_eq]
    | (dsimp only [])
theorem execRowRetirement_frame (region : Nat) (row : Nat) (ue : Bool) (s : State) :
    ∀ t, execRowRetirement region row ue s = .next t → t.frame = s.frame := by
  intro t ht
  unfold execRowRetirement at ht
  repeat' first
    | (with_reducible have ht := Host.Outcome.next.inj ht; subst ht)
    | split at ht
    | (dsimp only [] at ht)
    | (obtain ⟨_, _, rfl⟩ := Option.map_eq_some_iff.mp ht)
    | contradiction
    | with_reducible (cases ht; done)
    | with_reducible rfl
    | simp only [↓State.frame_mk, State.frame_fold, foldl_frame, State.cause_frame, State.memCount_frame, State.raise_frame]
    | intro _
    | split
    | refine (foldl_frame _ _ _ ?_).trans ?_
    | refine (foldl_frame1 _ _ _ ?_).trans ?_
    | simp only [id_eq]
    | (dsimp only [])
theorem execFlashRefresh_frame (block : Nat) (correctedBits : Nat) (warnPause : Bool) (s : State) :
    ∀ t, execFlashRefresh block correctedBits warnPause s = .next t → t.frame = s.frame := by
  intro t ht
  unfold execFlashRefresh at ht
  repeat' first
    | (with_reducible have ht := Host.Outcome.next.inj ht; subst ht)
    | split at ht
    | (dsimp only [] at ht)
    | (obtain ⟨_, _, rfl⟩ := Option.map_eq_some_iff.mp ht)
    | contradiction
    | with_reducible (cases ht; done)
    | with_reducible rfl
    | simp only [↓State.frame_mk, State.frame_fold, foldl_frame, State.event_frame, State.flashLost_frame, State.flsBusy_frame, State.flsCount_frame, State.kstCount_frame, State.programPages_frame, State.raise_frame]
    | intro _
    | split
    | refine (foldl_frame _ _ _ ?_).trans ?_
    | refine (foldl_frame1 _ _ _ ?_).trans ?_
    | simp only [id_eq]
    | (dsimp only [])
theorem State.takeFailed_frame (s : State) (fn : Nat) (q : Nat) (x : Queue) : (State.takeFailed s fn q x).frame = s.frame := by
  unfold State.takeFailed
  repeat' first | with_reducible rfl | simp only [↓State.frame_mk, State.frame_fold, State.event_frame, State.finishWith_frame, State.hostWrite_frame, State.raise_frame, State.setJob_frame, State.setQueue_frame] | split
theorem State.failedAtSp_frame (s : State) (fn : Nat) (q : Nat) (x : Queue) (left : List Fetched) : (State.failedAtSp s fn q x left).1.frame = s.frame := by
  unfold State.failedAtSp
  repeat' first | with_reducible rfl | simp only [↓State.frame_mk, State.frame_fold, State.setQueue_frame, State.stopScan_frame, State.takeFailed_frame] | split | refine (foldl_frame _ _ _ ?_).trans ?_ | refine (foldl_frame1 _ _ _ ?_).trans ?_ | intro _ | (dsimp only [])
theorem State.scanLoop_frame (a0 : Nat) (a1 : State) (a2 : Nat) (a3 : Nat) (a4 : List Fetched) :
    (State.scanLoop a0 a1 a2 a3 a4).frame = a1.frame := by
  induction a0 generalizing a1 a4 with
  | zero => rfl
  | succ n ih =>
    unfold State.scanLoop
    repeat' first
      | with_reducible rfl
      | simp only [ih, State.setQueue_frame, State.stopScan_frame, State.takeEntry_frame, State.takeFailed_frame, ↓State.frame_mk, State.frame_fold, State.failedAtSp_frame]
      | split
theorem State.runScan_frame (s : State) (fn : Nat) (q : Nat) (reads : List Fetched) :
    (State.runScan s fn q reads).frame = s.frame := by
  unfold State.runScan
  split <;> simp only [State.scanLoop_frame, ↓State.frame_mk, State.frame_fold]
theorem State.doorbell_frame (s : State) (fn : Nat) (idx : Nat) : (State.doorbell s fn idx).frame = s.frame := by
  unfold State.doorbell
  repeat' first | with_reducible rfl | simp only [State.raise_frame, State.setQueue_frame] | split
theorem execDoorbell_frame (fn : Nat) (idx : Nat) (size : Nat) (s : State) :
    ∀ t, execDoorbell fn idx size s = .next t → t.frame = s.frame := by
  intro t ht
  unfold execDoorbell at ht
  repeat' first
    | (with_reducible have ht := Host.Outcome.next.inj ht; subst ht)
    | split at ht
    | (dsimp only [] at ht)
    | (obtain ⟨_, _, rfl⟩ := Option.map_eq_some_iff.mp ht)
    | contradiction
    | with_reducible (cases ht; done)
    | with_reducible rfl
    | simp only [↓State.frame_mk, State.frame_fold, foldl_frame, State.doorbell_frame, State.raise_frame]
    | intro _
    | split
    | refine (foldl_frame _ _ _ ?_).trans ?_
    | refine (foldl_frame1 _ _ _ ?_).trans ?_
    | simp only [id_eq]
    | (dsimp only [])
theorem execInstAdb_frame (fn : Nat) (size : Nat) (s : State) : ∀ t, execInstAdb fn size s = .next t → t.frame = s.frame := by
  intro t ht
  unfold execInstAdb at ht
  repeat' first
    | (with_reducible have ht := Host.Outcome.next.inj ht; subst ht)
    | split at ht
    | (dsimp only [] at ht)
    | (obtain ⟨_, _, rfl⟩ := Option.map_eq_some_iff.mp ht)
    | contradiction
    | with_reducible (cases ht; done)
    | with_reducible rfl
    | simp only [↓State.frame_mk, State.frame_fold, foldl_frame, State.raise_frame, State.setQueue_frame]
    | intro _
    | split
    | refine (foldl_frame _ _ _ ?_).trans ?_
    | refine (foldl_frame1 _ _ _ ?_).trans ?_
    | simp only [id_eq]
    | (dsimp only [])
theorem execScan_frame (fn : Nat) (q : Nat) (reads : List Fetched) (s : State) :
    ∀ t, execScan fn q reads s = .next t → t.frame = s.frame := by
  intro t ht
  unfold execScan at ht
  repeat' first
    | (with_reducible have ht := Host.Outcome.next.inj ht; subst ht)
    | split at ht
    | (dsimp only [] at ht)
    | (obtain ⟨_, _, rfl⟩ := Option.map_eq_some_iff.mp ht)
    | contradiction
    | with_reducible (cases ht; done)
    | with_reducible rfl
    | simp only [↓State.frame_mk, State.frame_fold, foldl_frame, State.runScan_frame, State.setQueue_frame]
    | intro _
    | split
    | refine (foldl_frame _ _ _ ?_).trans ?_
    | refine (foldl_frame1 _ _ _ ?_).trans ?_
    | simp only [id_eq]
    | (dsimp only [])
theorem execScanResume_frame (fn : Nat) (q : Nat) (reads : List Fetched) (s : State) :
    ∀ t, execScanResume fn q reads s = .next t → t.frame = s.frame := by
  intro t ht
  unfold execScanResume at ht
  repeat' first
    | (with_reducible have ht := Host.Outcome.next.inj ht; subst ht)
    | split at ht
    | (dsimp only [] at ht)
    | (obtain ⟨_, _, rfl⟩ := Option.map_eq_some_iff.mp ht)
    | contradiction
    | with_reducible (cases ht; done)
    | with_reducible rfl
    | simp only [↓State.frame_mk, State.frame_fold, foldl_frame, State.runScan_frame]
    | intro _
    | split
    | refine (foldl_frame _ _ _ ?_).trans ?_
    | refine (foldl_frame1 _ _ _ ?_).trans ?_
    | simp only [id_eq]
    | (dsimp only [])
theorem execEntryFetch_frame (fn : Nat) (q : Nat) (read : Fetched) (s : State) :
    ∀ t, execEntryFetch fn q read s = .next t → t.frame = s.frame := by
  intro t ht
  unfold execEntryFetch at ht
  repeat' first
    | (with_reducible have ht := Host.Outcome.next.inj ht; subst ht)
    | split at ht
    | (dsimp only [] at ht)
    | (obtain ⟨_, _, rfl⟩ := Option.map_eq_some_iff.mp ht)
    | contradiction
    | with_reducible (cases ht; done)
    | with_reducible rfl
    | simp only [↓State.frame_mk, State.frame_fold, foldl_frame, State.runScan_frame]
    | intro _
    | split
    | refine (foldl_frame _ _ _ ?_).trans ?_
    | refine (foldl_frame1 _ _ _ ?_).trans ?_
    | simp only [id_eq]
    | (dsimp only [])
theorem State.injectInput_frame (s : State) (id : Nat) (input : List Byte) : (State.injectInput s id input).2.frame = s.frame := by
  unfold State.injectInput
  repeat' first | with_reducible rfl | refine Eq.trans (State.injectAt_frame _ _ _ _ (by assumption)) ?_ | refine Eq.trans (State.injectAtPair_frame (by assumption)) ?_ | simp only [↓State.frame_mk, State.frame_fold, State.correctedRow_frame, State.dueRow_frame, State.injectAt_frame, State.memCe_frame, State.memUe_frame] | split | refine (foldl_frame _ _ _ ?_).trans ?_ | refine (foldl_frame1 _ _ _ ?_).trans ?_ | intro _ | (dsimp only [])
theorem State.spoilInput_frame (s : State) (id : Nat) (input : List Byte) : (State.spoilInput s id input).2.frame = s.frame := by
  unfold State.spoilInput
  repeat' first | with_reducible rfl | simp only [↓State.frame_mk, State.frame_fold, State.dueRow_frame, State.memUe_frame] | split | refine (foldl_frame _ _ _ ?_).trans ?_ | refine (foldl_frame1 _ _ _ ?_).trans ?_ | intro _ | (dsimp only [])
theorem State.stageInput_frame (s : State) (id : Nat) (j : Job) (outs : List (Nat × Nat)) (input : List Byte) (scorched : Bool) : (State.stageInput s id j outs input scorched).frame = s.frame := by
  unfold State.stageInput
  repeat' first | with_reducible rfl | simp only [↓State.frame_mk, State.frame_fold, State.injectInput_frame, State.spoilInput_frame, State.tagCheck_frame] | split | refine (foldl_frame _ _ _ ?_).trans ?_ | refine (foldl_frame1 _ _ _ ?_).trans ?_ | intro _ | (dsimp only [])
theorem State.inputLost_frame (s : State) (id : Nat) (j : Job) : (State.inputLost s id j).frame = s.frame := by
  unfold State.inputLost
  repeat' first | with_reducible rfl | simp only [↓State.frame_mk, State.frame_fold, State.finish_frame, State.modJob_frame, State.raise_frame] | split | refine (foldl_frame _ _ _ ?_).trans ?_ | refine (foldl_frame1 _ _ _ ?_).trans ?_ | intro _ | (dsimp only [])
theorem State.inputRead_frame (s : State) (job : Nat) (j : Job) (rd : InputReads) : (State.inputRead s job j rd).frame = s.frame := by
  unfold State.inputRead
  repeat' first | with_reducible rfl | simp only [↓State.frame_mk, State.frame_fold, State.finish_frame, State.finishWith_frame, State.raise_frame, State.stageInput_frame] | split | refine (foldl_frame _ _ _ ?_).trans ?_ | refine (foldl_frame1 _ _ _ ?_).trans ?_ | intro _ | (dsimp only [])
theorem State.fabricFailure_frame (s : State) (blk : Nat) (sender : Nat) : (State.fabricFailure s blk sender).frame = s.frame := by
  unfold State.fabricFailure
  repeat' first | with_reducible rfl | simp only [↓State.frame_mk, State.frame_fold, State.fabricNote_frame, State.raise_frame] | split | refine (foldl_frame _ _ _ ?_).trans ?_ | refine (foldl_frame1 _ _ _ ?_).trans ?_ | intro _ | (dsimp only [])
theorem State.beatArrives_frame (s : State) (b : FabricBeat) (r : FabricBeat) : (State.beatArrives s b r).1.frame = s.frame := by
  unfold State.beatArrives
  repeat' first | with_reducible rfl | simp only [↓State.frame_mk, State.frame_fold, State.fabricFailure_frame, State.fabricNote_frame, State.linkPassed_frame] | split | refine (foldl_frame _ _ _ ?_).trans ?_ | refine (foldl_frame1 _ _ _ ?_).trans ?_ | intro _ | (dsimp only [])
theorem State.beatsArrive_frame (s : State) (l : List (FabricBeat × FabricBeat)) : (State.beatsArrive s l).1.frame = s.frame := by
  unfold State.beatsArrive
  repeat' first | with_reducible rfl | simp only [↓State.frame_mk, State.frame_fold, State.beatArrives_frame] | split | refine (foldl_frame _ _ _ ?_).trans ?_ | refine (foldl_frame1 _ _ _ ?_).trans ?_ | intro _ | (dsimp only [])
theorem execInputFetch_frame (job : Nat) (rd : InputReads) (s : State) :
    ∀ t, execInputFetch job rd s = .next t → t.frame = s.frame := by
  intro t ht
  unfold execInputFetch at ht
  repeat' first
    | (with_reducible have ht := Host.Outcome.next.inj ht; subst ht)
    | split at ht
    | (dsimp only [↓State.frame_mk, State.frame_fold, State.beatsArrive_frame, State.inputLost_frame, State.inputRead_frame, State.raise_frame] at ht)
    | (obtain ⟨_, _, rfl⟩ := Option.map_eq_some_iff.mp ht)
    | contradiction
    | with_reducible (cases ht; done)
    | with_reducible rfl
    | simp only [↓State.frame_mk, State.frame_fold, State.finish_frame, State.finishWith_frame, State.raise_frame, State.stageInput_frame, State.beatsArrive_frame, State.inputLost_frame, State.inputRead_frame]
    | intro _
    | split
    | refine (foldl_frame _ _ _ ?_).trans ?_
    | refine (foldl_frame1 _ _ _ ?_).trans ?_
    | simp only [id_eq, ↓State.frame_mk, State.frame_fold, State.beatsArrive_frame, State.inputLost_frame, State.inputRead_frame, State.raise_frame]
    | (dsimp only [↓State.frame_mk, State.frame_fold, State.beatsArrive_frame, State.inputLost_frame, State.inputRead_frame, State.raise_frame])
theorem State.recordAuth_frame (s : State) (id : Nat) : (State.recordAuth s id).frame = s.frame := by
  simp only [State.recordAuth, State.raise_frame]
theorem State.flashFetch_frame (s : State) (id : Nat) (k : KeyObj) : (State.flashFetch s id k).frame = s.frame := by
  unfold State.flashFetch
  split <;> simp only [State.event_frame, State.flsBusy_frame, State.flsCount_frame, State.kstCount_frame, State.recordAuth_frame, State.recordLost_frame]
theorem State.dramNonce_frame (s : State) : (State.dramNonce s).frame = s.frame := by
  unfold State.dramNonce
  repeat' first | with_reducible rfl | simp only [↓State.frame_mk, State.frame_fold, State.drawInt_frame] | split | refine (foldl_frame _ _ _ ?_).trans ?_ | refine (foldl_frame1 _ _ _ ?_).trans ?_ | intro _ | (dsimp only [])
theorem State.readInjected_frame (s : State) (region : Nat) (hit : Nat → Bool) : (State.readInjected s region hit).frame = s.frame := by
  unfold State.readInjected
  repeat' first | with_reducible rfl | simp only [↓State.frame_mk, State.frame_fold, State.correctedRow_frame, State.dropInjected_frame, State.dueRow_frame, State.memCe_frame, State.memUe_frame] | split | refine (foldl_frame _ _ _ ?_).trans ?_ | refine (foldl_frame1 _ _ _ ?_).trans ?_ | intro _ | (dsimp only [])
theorem State.meetCacheError_frame (s : State) (h : W32) : (State.meetCacheError s h).frame = s.frame := by
  unfold State.meetCacheError
  repeat' first | with_reducible rfl | simp only [↓State.frame_mk, State.frame_fold, State.readInjected_frame, State.setKey_frame] | split | refine (foldl_frame _ _ _ ?_).trans ?_ | refine (foldl_frame1 _ _ _ ?_).trans ?_ | intro _ | (dsimp only [])
theorem State.meetDramError_frame (s : State) (h : W32) : (State.meetDramError s h).frame = s.frame := by
  unfold State.meetDramError
  repeat' first | with_reducible rfl | simp only [↓State.frame_mk, State.frame_fold, State.correctedRow_frame, State.dropInjected_frame, State.dueRow_frame, State.memCe_frame, State.memCount_frame, State.memUe_frame, State.raise_frame, State.setKey_frame] | split | refine (foldl_frame _ _ _ ?_).trans ?_ | refine (foldl_frame1 _ _ _ ?_).trans ?_ | intro _ | (dsimp only [])
theorem State.meetKeyError_frame (s : State) (h : W32) : (State.meetKeyError s h).frame = s.frame := by
  unfold State.meetKeyError
  repeat' first | with_reducible rfl | simp only [↓State.frame_mk, State.frame_fold, State.meetCacheError_frame, State.meetDramError_frame] | split | refine (foldl_frame _ _ _ ?_).trans ?_ | refine (foldl_frame1 _ _ _ ?_).trans ?_ | intro _ | (dsimp only [])
theorem State.holdKey_frame (s : State) (id : Nat) (h : W32) : ∀ t, State.holdKey s id h = some t → t.frame = s.frame := by
  intro t ht
  unfold State.holdKey at ht
  repeat' first
    | refine (State.makeRoom_frame _ _ _ _ ht).trans ?_
    | refine (State.makeDram_frame _ _ _ _ ht).trans ?_
    | (with_reducible have ht := Option.some.inj ht; subst ht)
    | split at ht
    | (dsimp only [] at ht)
    | (obtain ⟨_, _, rfl⟩ := Option.map_eq_some_iff.mp ht)
    | contradiction
    | with_reducible (cases ht; done)
    | with_reducible rfl
    | simp only [↓State.frame_mk, State.frame_fold, State.event_frame, State.flashFetch_frame, State.injectKey_frame, State.kstCount_frame, State.meetKeyError_frame, State.modJob_frame, State.recordAuth_frame, State.recordLost_frame, State.setKey_frame, State.dramNonce_frame]
    | refine Eq.trans (State.makeDram_frame _ _ _ _ (by assumption)) ?_
    | refine Eq.trans (State.makeRoom_frame _ _ _ _ (by assumption)) ?_
    | split
theorem State.createKey_frame (s : State) (id : Nat) (h : W32) (k : KeyObj) : (State.createKey s id h k).frame = s.frame := by
  unfold State.createKey
  repeat' first | with_reducible rfl | simp only [↓State.frame_mk, State.frame_fold, State.dramNonce_frame, State.injectKey_frame, State.journal_frame, State.keyRoom_frame, State.kstCount_frame, State.setKey_frame] | split | refine (foldl_frame _ _ _ ?_).trans ?_ | refine (foldl_frame1 _ _ _ ?_).trans ?_ | intro _ | (dsimp only [])
theorem State.store_frame (s : State) (id : Nat) (j : Job) (k : KeyObj) (out : List Byte) :
    (State.store s id j k out).1.frame = s.frame := by
  unfold State.store
  split <;> simp only [State.createKey_frame]
theorem State.reveal_frame (s : State) (id : Nat) (j : Job) : (State.reveal s id j).frame = s.frame := by
  unfold State.reveal
  repeat' first | with_reducible rfl | simp only [State.createKey_frame] | split
theorem genKernel_frame (typ : Nat) (seedLen : Nat) : ∀ u a b, (genKernel typ seedLen u a b).1.frame = u.frame := by
  intro u a b
  unfold genKernel
  repeat' first | with_reducible rfl | simp only [State.drawInt_frame, State.store_frame] | split
theorem State.secret_frame (s : State) (id : Nat) (j : Job) (c : List Byte) (k : List Byte) :
    (State.secret s id j c k).1.frame = s.frame := by
  unfold State.secret
  repeat' first | with_reducible rfl | simp only [State.store_frame] | split
theorem kMlkemKeygen_frame  : ∀ u a b, (kMlkemKeygen u a b).1.frame = u.frame := by
  intro u a b
  unfold kMlkemKeygen
  repeat' first | with_reducible rfl | simp only [genKernel_frame] | split
theorem kMlkemEncaps_frame  : ∀ u a b, (kMlkemEncaps u a b).1.frame = u.frame := by
  intro u a b
  unfold kMlkemEncaps
  repeat' first | with_reducible rfl | simp only [State.drawInt_frame, State.secret_frame] | split
theorem kMlkemDecaps_frame  : ∀ u a b, (kMlkemDecaps u a b).1.frame = u.frame := by
  intro u a b
  unfold kMlkemDecaps
  repeat' first | with_reducible rfl | simp only [State.secret_frame, ↓State.frame_mk, State.frame_fold] | split
theorem kMldsaKeygen_frame  : ∀ u a b, (kMldsaKeygen u a b).1.frame = u.frame := by
  intro u a b
  unfold kMldsaKeygen
  repeat' first | with_reducible rfl | simp only [genKernel_frame] | split
theorem State.signRandom_frame (s : State) (j : Job) : (State.signRandom s j).2.frame = s.frame := by
  unfold State.signRandom
  split <;> simp only [State.drawInt_frame]
theorem kMldsaSign_frame  : ∀ u a b, (kMldsaSign u a b).1.frame = u.frame := by
  intro u a b
  unfold kMldsaSign
  repeat' first | with_reducible rfl | simp only [State.signRandom_frame] | split
theorem execMlkemKeygen_frame (job : Nat) (s : State) : ∀ t, execMlkemKeygen job s = .next t → t.frame = s.frame :=
  State.runJob_frame s _ _ _ (kMlkemKeygen_frame)
theorem execMlkemEncaps_frame (job : Nat) (s : State) : ∀ t, execMlkemEncaps job s = .next t → t.frame = s.frame :=
  State.runJob_frame s _ _ _ (kMlkemEncaps_frame)
theorem execMlkemDecaps_frame (job : Nat) (s : State) : ∀ t, execMlkemDecaps job s = .next t → t.frame = s.frame :=
  State.runJob_frame s _ _ _ (kMlkemDecaps_frame)
theorem execMldsaKeygen_frame (job : Nat) (s : State) : ∀ t, execMldsaKeygen job s = .next t → t.frame = s.frame :=
  State.runJob_frame s _ _ _ (kMldsaKeygen_frame)
theorem execMldsaSign_frame (job : Nat) (s : State) : ∀ t, execMldsaSign job s = .next t → t.frame = s.frame :=
  State.runJob_frame s _ _ _ (kMldsaSign_frame)
theorem execHashmldsaSign_frame (job : Nat) (s : State) : ∀ t, execHashmldsaSign job s = .next t → t.frame = s.frame :=
  State.runJob_frame s _ _ _ (kMldsaSign_frame)
theorem kSlhKeygen_frame  : ∀ u a b, (kSlhKeygen u a b).1.frame = u.frame := by
  intro u a b
  unfold kSlhKeygen
  repeat' first | with_reducible rfl | simp only [genKernel_frame] | split
theorem kSlhSign_frame  : ∀ u a b, (kSlhSign u a b).1.frame = u.frame := by
  intro u a b
  unfold kSlhSign
  repeat' first | with_reducible rfl | simp only [State.drawInt_frame, ↓State.frame_mk, State.frame_fold] | split
theorem State.startStateful_frame (s : State) (j : Job) (h : W32) : (State.startStateful s j h).frame = s.frame := by
  unfold State.startStateful
  repeat' first | with_reducible rfl | simp only [↓State.frame_mk, State.frame_fold, State.drawInt_frame, State.hide_frame] | split | refine (foldl_frame _ _ _ ?_).trans ?_ | refine (foldl_frame1 _ _ _ ?_).trans ?_ | intro _ | (dsimp only [])
theorem kStatefulKeygen_frame  : ∀ u a b, (kStatefulKeygen u a b).1.frame = u.frame := by
  intro u a b
  unfold kStatefulKeygen
  repeat' first | with_reducible rfl | simp only [State.reserveLeaves_frame, State.reveal_frame, State.startBuilds_frame] | split
theorem kHqcKeygen_frame  : ∀ u a b, (kHqcKeygen u a b).1.frame = u.frame := by
  intro u a b
  unfold kHqcKeygen
  repeat' first | with_reducible rfl | simp only [genKernel_frame, ↓State.frame_mk, State.frame_fold] | split
theorem kHqcEncaps_frame  : ∀ u a b, (kHqcEncaps u a b).1.frame = u.frame := by
  intro u a b
  unfold kHqcEncaps
  repeat' first | with_reducible rfl | simp only [State.drawInt_frame, State.secret_frame, ↓State.frame_mk, State.frame_fold] | split
theorem kHqcDecaps_frame  : ∀ u a b, (kHqcDecaps u a b).1.frame = u.frame := by
  intro u a b
  unfold kHqcDecaps
  repeat' first | with_reducible rfl | simp only [State.secret_frame, ↓State.frame_mk, State.frame_fold] | split
theorem kMceKeygen_frame  : ∀ u a b, (kMceKeygen u a b).1.frame = u.frame := by
  intro u a b
  unfold kMceKeygen
  repeat' first | with_reducible rfl | simp only [State.drawInt_frame, State.hide_frame, ↓State.frame_mk, State.frame_fold] | split
theorem State.drawErrors_frame (ps fuel : Nat) (s : State) : (State.drawErrors ps fuel s).2.frame = s.frame := by
  induction fuel generalizing s with
  | zero => rfl
  | succ n ih =>
    unfold State.drawErrors
    repeat' first | with_reducible rfl | simp only [ih, State.drawInt_frame] | split
theorem kMceEncaps_frame : ∀ u a b, (kMceEncaps u a b).1.frame = u.frame := by
  intro u a b
  unfold kMceEncaps
  simp only [State.secret_frame, State.drawErrors_frame]
theorem kMceDecaps_frame  : ∀ u a b, (kMceDecaps u a b).1.frame = u.frame := by
  intro u a b
  unfold kMceDecaps
  repeat' first | with_reducible rfl | simp only [State.secret_frame, ↓State.frame_mk, State.frame_fold] | split
theorem execSlhdsaKeygen_frame (job : Nat) (s : State) : ∀ t, execSlhdsaKeygen job s = .next t → t.frame = s.frame :=
  State.runJob_frame s _ _ _ (kSlhKeygen_frame)
theorem execSlhdsaSign_frame (job : Nat) (s : State) : ∀ t, execSlhdsaSign job s = .next t → t.frame = s.frame :=
  State.runJob_frame s _ _ _ (kSlhSign_frame)
theorem execHashslhdsaSign_frame (job : Nat) (s : State) : ∀ t, execHashslhdsaSign job s = .next t → t.frame = s.frame :=
  State.runJob_frame s _ _ _ (kSlhSign_frame)
theorem execLmsKeygen_frame (job : Nat) (s : State) : ∀ t, execLmsKeygen job s = .next t → t.frame = s.frame :=
  State.runJob_frame s _ _ _ (kStatefulKeygen_frame)
theorem execXmssKeygen_frame (job : Nat) (s : State) : ∀ t, execXmssKeygen job s = .next t → t.frame = s.frame :=
  State.runJob_frame s _ _ _ (kStatefulKeygen_frame)
theorem execHqcKeygen_frame (job : Nat) (s : State) : ∀ t, execHqcKeygen job s = .next t → t.frame = s.frame :=
  State.runJob_frame s _ _ _ (kHqcKeygen_frame)
theorem execHqcEncaps_frame (job : Nat) (s : State) : ∀ t, execHqcEncaps job s = .next t → t.frame = s.frame :=
  State.runJob_frame s _ _ _ (kHqcEncaps_frame)
theorem execHqcDecaps_frame (job : Nat) (s : State) : ∀ t, execHqcDecaps job s = .next t → t.frame = s.frame :=
  State.runJob_frame s _ _ _ (kHqcDecaps_frame)
theorem execMceKeygen_frame (job : Nat) (s : State) : ∀ t, execMceKeygen job s = .next t → t.frame = s.frame :=
  State.runJob_frame s _ _ _ (kMceKeygen_frame)
theorem execMceEncaps_frame (job : Nat) (s : State) : ∀ t, execMceEncaps job s = .next t → t.frame = s.frame :=
  State.runJob_frame s _ _ _ (kMceEncaps_frame)
theorem execMceDecaps_frame (job : Nat) (s : State) : ∀ t, execMceDecaps job s = .next t → t.frame = s.frame :=
  State.runJob_frame s _ _ _ (kMceDecaps_frame)
theorem kModRand_frame  : ∀ u a b, (kModRand u a b).1.frame = u.frame := by
  intro u a b
  unfold kModRand
  repeat' first | with_reducible rfl | simp only [State.drawInt_frame] | split
theorem kRsaKeygen_frame  : ∀ u a b, (kRsaKeygen u a b).1.frame = u.frame := by
  intro u a b
  unfold kRsaKeygen
  repeat' first | with_reducible rfl | simp only [State.drawInt_frame, State.hide_frame, ↓State.frame_mk, State.frame_fold] | split
theorem kRsaSign_frame  : ∀ u a b, (kRsaSign u a b).1.frame = u.frame := by
  intro u a b
  unfold kRsaSign
  repeat' first | with_reducible rfl | simp only [State.drawInt_frame, ↓State.frame_mk, State.frame_fold] | split
theorem kRsaEncrypt_frame  : ∀ u a b, (kRsaEncrypt u a b).1.frame = u.frame := by
  intro u a b
  unfold kRsaEncrypt
  repeat' first | with_reducible rfl | simp only [State.drawInt_frame, ↓State.frame_mk, State.frame_fold] | split
theorem kEcKeygen_frame  : ∀ u a b, (kEcKeygen u a b).1.frame = u.frame := by
  intro u a b
  unfold kEcKeygen
  repeat' first | with_reducible rfl | simp only [genKernel_frame, ↓State.frame_mk, State.frame_fold] | split
theorem kEddsaKeygen_frame  : ∀ u a b, (kEddsaKeygen u a b).1.frame = u.frame := by
  intro u a b
  unfold kEddsaKeygen
  repeat' first | with_reducible rfl | simp only [genKernel_frame, ↓State.frame_mk, State.frame_fold] | split
theorem kXdhKeygen_frame  : ∀ u a b, (kXdhKeygen u a b).1.frame = u.frame := by
  intro u a b
  unfold kXdhKeygen
  repeat' first | with_reducible rfl | simp only [genKernel_frame, ↓State.frame_mk, State.frame_fold] | split
theorem State.ecRandom_frame (s : State) (j : Job) (curve : Nat) : (State.ecRandom s j curve).2.frame = s.frame := by
  unfold State.ecRandom
  repeat' first | with_reducible rfl | simp only [↓State.frame_mk, State.frame_fold, State.drawInt_frame] | split | refine (foldl_frame _ _ _ ?_).trans ?_ | refine (foldl_frame1 _ _ _ ?_).trans ?_ | intro _ | (dsimp only [])
theorem kEcdsaSign_frame  : ∀ u a b, (kEcdsaSign u a b).1.frame = u.frame := by
  intro u a b
  unfold kEcdsaSign
  repeat' first | with_reducible rfl | simp only [State.ecRandom_frame, ↓State.frame_mk, State.frame_fold] | split
theorem kEcdh_frame  : ∀ u a b, (kEcdh u a b).1.frame = u.frame := by
  intro u a b
  unfold kEcdh
  repeat' first | with_reducible rfl | simp only [State.secret_frame, ↓State.frame_mk, State.frame_fold] | split
theorem kXdh_frame  : ∀ u a b, (kXdh u a b).1.frame = u.frame := by
  intro u a b
  unfold kXdh
  repeat' first | with_reducible rfl | simp only [State.secret_frame, ↓State.frame_mk, State.frame_fold] | split
theorem kHybKeygen_frame  : ∀ u a b, (kHybKeygen u a b).1.frame = u.frame := by
  intro u a b
  unfold kHybKeygen
  repeat' first | with_reducible rfl | simp only [State.drawInt_frame, State.store_frame, ↓State.frame_mk, State.frame_fold] | split
theorem kHybEncaps_frame : ∀ u a b, (kHybEncaps u a b).1.frame = u.frame := by
  intro u a b
  unfold kHybEncaps
  dsimp only []
  split
  · simp only [State.drawInt_frame]
  · exact (State.agreed_frame _ _ _ (fun _ => State.secret_frame _ _ _ _ _)).trans (by simp only [State.drawInt_frame])
theorem kHybDecaps_frame : ∀ u a b, (kHybDecaps u a b).1.frame = u.frame := by
  intro u a b
  unfold kHybDecaps
  exact State.agreed_frame _ _ _ (fun _ => State.secret_frame _ _ _ _ _)
theorem kCompKeygen_frame  : ∀ u a b, (kCompKeygen u a b).1.frame = u.frame := by
  intro u a b
  unfold kCompKeygen
  repeat' first | with_reducible rfl | simp only [State.drawInt_frame, State.store_frame] | split
theorem kCompSign_frame  : ∀ u a b, (kCompSign u a b).1.frame = u.frame := by
  intro u a b
  unfold kCompSign
  repeat' first | with_reducible rfl | simp only [State.ecRandom_frame, State.signRandom_frame, ↓State.frame_mk, State.frame_fold] | split
theorem State.storeDerived_frame (s : State) (id : Nat) (j : Job) (base : KeyObj) (bytes : List Byte) :
    (State.storeDerived s id j base bytes).1.frame = s.frame := by
  simp only [State.storeDerived, State.store_frame]
theorem kHkdf_frame  : ∀ u a b, (kHkdf u a b).1.frame = u.frame := by
  intro u a b
  unfold kHkdf
  repeat' first | with_reducible rfl | simp only [State.storeDerived_frame] | split
theorem kKbkdf_frame  : ∀ u a b, (kKbkdf u a b).1.frame = u.frame := by
  intro u a b
  unfold kKbkdf
  repeat' first | with_reducible rfl | simp only [State.storeDerived_frame] | split
theorem execModRand_frame (job : Nat) (s : State) : ∀ t, execModRand job s = .next t → t.frame = s.frame :=
  State.runJob_frame s _ _ _ (kModRand_frame)
theorem execRsaKeygen_frame (job : Nat) (s : State) : ∀ t, execRsaKeygen job s = .next t → t.frame = s.frame :=
  State.runJob_frame s _ _ _ (kRsaKeygen_frame)
theorem execRsaSign_frame (job : Nat) (s : State) : ∀ t, execRsaSign job s = .next t → t.frame = s.frame :=
  State.runJob_frame s _ _ _ (kRsaSign_frame)
theorem execRsaEncrypt_frame (job : Nat) (s : State) : ∀ t, execRsaEncrypt job s = .next t → t.frame = s.frame :=
  State.runJob_frame s _ _ _ (kRsaEncrypt_frame)
theorem execEcKeygen_frame (job : Nat) (s : State) : ∀ t, execEcKeygen job s = .next t → t.frame = s.frame :=
  State.runJob_frame s _ _ _ (kEcKeygen_frame)
theorem execEcdsaSign_frame (job : Nat) (s : State) : ∀ t, execEcdsaSign job s = .next t → t.frame = s.frame :=
  State.runJob_frame s _ _ _ (kEcdsaSign_frame)
theorem execEcdh_frame (job : Nat) (s : State) : ∀ t, execEcdh job s = .next t → t.frame = s.frame :=
  State.runJob_frame s _ _ _ (kEcdh_frame)
theorem execEddsaKeygen_frame (job : Nat) (s : State) : ∀ t, execEddsaKeygen job s = .next t → t.frame = s.frame :=
  State.runJob_frame s _ _ _ (kEddsaKeygen_frame)
theorem execXdhKeygen_frame (job : Nat) (s : State) : ∀ t, execXdhKeygen job s = .next t → t.frame = s.frame :=
  State.runJob_frame s _ _ _ (kXdhKeygen_frame)
theorem execXdh_frame (job : Nat) (s : State) : ∀ t, execXdh job s = .next t → t.frame = s.frame :=
  State.runJob_frame s _ _ _ (kXdh_frame)
theorem execHybKeygen_frame (job : Nat) (s : State) : ∀ t, execHybKeygen job s = .next t → t.frame = s.frame :=
  State.runJob_frame s _ _ _ (kHybKeygen_frame)
theorem execHybEncaps_frame (job : Nat) (s : State) : ∀ t, execHybEncaps job s = .next t → t.frame = s.frame :=
  State.runJob_frame s _ _ _ (kHybEncaps_frame)
theorem execHybDecaps_frame (job : Nat) (s : State) : ∀ t, execHybDecaps job s = .next t → t.frame = s.frame :=
  State.runJob_frame s _ _ _ (kHybDecaps_frame)
theorem execCompKeygen_frame (job : Nat) (s : State) : ∀ t, execCompKeygen job s = .next t → t.frame = s.frame :=
  State.runJob_frame s _ _ _ (kCompKeygen_frame)
theorem execCompSign_frame (job : Nat) (s : State) : ∀ t, execCompSign job s = .next t → t.frame = s.frame :=
  State.runJob_frame s _ _ _ (kCompSign_frame)
theorem execHkdf_frame (job : Nat) (s : State) : ∀ t, execHkdf job s = .next t → t.frame = s.frame :=
  State.runJob_frame s _ _ _ (kHkdf_frame)
theorem execKbkdf_frame (job : Nat) (s : State) : ∀ t, execKbkdf job s = .next t → t.frame = s.frame :=
  State.runJob_frame s _ _ _ (kKbkdf_frame)
theorem State.endExchange_frame (s : State) (n : Nat) : (State.endExchange s n).frame = s.frame := by
  unfold State.endExchange
  split <;> simp only [↓State.frame_mk, State.frame_fold, State.raise_frame, State.setSlot_frame, State.thmCount_frame]
theorem State.deactivate_frame (s : State) (n : Nat) : (State.deactivate s n).frame = s.frame := by
  unfold State.deactivate
  repeat' first | with_reducible rfl | simp only [State.emit_frame, State.endExchange_frame, State.setSlot_frame] | split
theorem State.cardFailed_frame (s : State) (slot : Nat) (sw : W16) : (State.cardFailed s slot sw).frame = s.frame := by
  simp only [State.cardFailed, ↓State.frame_mk, State.frame_fold, State.raise_frame, State.thmCount_frame]
theorem State.activationFails_frame (s : State) (n : Nat) (err : Nat) : (State.activationFails s n err).frame = s.frame := by
  unfold State.activationFails
  repeat' first | with_reducible rfl | simp only [↓State.frame_mk, State.frame_fold, State.cardFailed_frame, State.setSlot_frame] | split | refine (foldl_frame _ _ _ ?_).trans ?_ | refine (foldl_frame1 _ _ _ ?_).trans ?_ | intro _ | (dsimp only [])
theorem State.failClass_frame (s : State) (n : Nat) (err : Nat) : (State.failClass s n err).frame = s.frame := by
  unfold State.failClass
  repeat' first | with_reducible rfl | simp only [State.emit_frame, State.setSlot_frame, State.thmCount_frame, ↓State.frame_mk, State.frame_fold, State.activationFails_frame] | split
theorem execCardRemoved_frame (slot : Nat) (s : State) : ∀ t, execCardRemoved slot s = .next t → t.frame = s.frame := by
  intro t ht
  rw [← Host.Outcome.next.inj ht]
  repeat' first | with_reducible rfl | simp only [State.cause_frame, State.deactivate_frame, State.event_frame, State.setSlot_frame, State.thmCount_frame] | split
theorem execCardActivate_frame (slot : Nat) (s : State) : ∀ t, execCardActivate slot s = .next t → t.frame = s.frame := by
  intro t ht
  rw [← Host.Outcome.next.inj ht]
  refine State.onPage_frame _ _ _ ?_
  repeat' first | with_reducible rfl | simp only [State.activate_frame, State.deactivate_frame] | split
theorem execCardDeactivate_frame (slot : Nat) (s : State) : ∀ t, execCardDeactivate slot s = .next t → t.frame = s.frame := by
  intro t ht
  rw [← Host.Outcome.next.inj ht]
  repeat' first | with_reducible rfl | simp only [State.deactivate_frame, State.onPage_frame] | split
theorem execCardWarmReset_frame (slot : Nat) (s : State) : ∀ t, execCardWarmReset slot s = .next t → t.frame = s.frame := by
  intro t ht
  rw [← Host.Outcome.next.inj ht]
  refine State.onPage_frame _ _ _ ?_
  repeat' first | with_reducible rfl | simp only [State.emit_frame, State.endExchange_frame, State.setSlot_frame] | split
theorem execAtrReceived_frame (slot : Nat) (atr : List Byte) (s : State) :
    ∀ t, execAtrReceived slot atr s = .next t → t.frame = s.frame := by
  intro t ht
  rw [← Host.Outcome.next.inj ht]
  repeat' first | with_reducible rfl | simp only [State.adopt_frame, State.deactivate_frame, State.emit_frame, State.failClass_frame, State.setSlot_frame, State.thmCount_frame, ↓State.frame_mk, State.frame_fold, State.activationFails_frame] | split
theorem execAtrTimeout_frame (slot : Nat) (s : State) : ∀ t, execAtrTimeout slot s = .next t → t.frame = s.frame := by
  intro t ht
  rw [← Host.Outcome.next.inj ht]
  repeat' first | with_reducible rfl | simp only [State.failClass_frame] | split
theorem execPpsResponse_frame (slot : Nat) (resp : List Byte) (s : State) :
    ∀ t, execPpsResponse slot resp s = .next t → t.frame = s.frame := by
  intro t ht
  rw [← Host.Outcome.next.inj ht]
  repeat' first | with_reducible rfl | simp only [State.activate_frame, State.adopt_frame, State.deactivate_frame, State.setSlot_frame, State.thmCount_frame] | split
theorem execVccOvercurrent_frame (slot : Nat) (s : State) : ∀ t, execVccOvercurrent slot s = .next t → t.frame = s.frame := by
  intro t ht
  rw [← Host.Outcome.next.inj ht]
  repeat' first | with_reducible rfl | simp only [State.deactivate_frame, State.raise_frame, State.setSlot_frame, ↓State.frame_mk, State.frame_fold, State.activationFails_frame] | split
theorem State.startWriting_frame (s : State) (x : Session) : (State.startWriting s x).frame = s.frame := by
  unfold State.startWriting
  repeat' first | with_reducible rfl | simp only [↓State.frame_mk, State.frame_fold, State.drawInt_frame, State.failSession_frame, State.irqSync_frame] | split
theorem State.quorumOpen_frame (s : State) (val : W32) : (State.quorumOpen s val).frame = s.frame := by
  unfold State.quorumOpen
  repeat' first | with_reducible rfl | simp only [State.openSession_frame, State.quorumResult_frame, State.startWriting_frame] | split
theorem execQuorumOpen_frame (val : W32) (s : State) : ∀ t, execQuorumOpen val s = .next t → t.frame = s.frame := by
  intro t ht
  rw [← Host.Outcome.next.inj ht]
  simp only [State.onPage_frame, State.quorumOpen_frame]
theorem State.countInvalid_frame (s : State) (slot : Nat) (c : CardPresented) (tie : Bool) :
    (State.countInvalid s slot c tie).frame = s.frame := by
  unfold State.countInvalid
  repeat' first | with_reducible rfl | simp only [State.raise_frame] | split | refine (foldl_frame _ _ _ ?_).trans ?_ | intro _
theorem State.reachThreshold_frame (s : State) (x : Session) : (State.reachThreshold s x).frame = s.frame := by
  unfold State.reachThreshold
  repeat' first | with_reducible rfl | simp only [↓State.frame_mk, State.frame_fold, State.cause_frame, State.closeSession_frame, State.irqSync_frame, State.quorumResult_frame, State.startWriting_frame] | split
theorem State.tryRestore_frame (s : State) (x : Session) (commit : List Byte) :
    (State.tryRestore s x commit).frame = s.frame := by
  unfold State.tryRestore
  repeat' first | with_reducible rfl | simp only [↓State.frame_mk, State.frame_fold, State.failSession_frame, State.reachThreshold_frame] | split
theorem State.acceptCard_frame (s : State) (slot : Nat) (x : Session) (fpr : List Byte) (c : CardPresented) :
    (State.acceptCard s slot x fpr c).frame = s.frame := by
  unfold State.acceptCard
  repeat' first | with_reducible rfl | simp only [↓State.frame_mk, State.frame_fold, State.cardFailed_frame, State.countInvalid_frame, State.reachThreshold_frame, State.thmCount_frame, State.tryRestore_frame] | split
theorem State.writeCard_frame (s : State) (slot : Nat) (x : Session) (fpr : List Byte) (c : CardPresented) :
    (State.writeCard s slot x fpr c).frame = s.frame := by
  unfold State.writeCard
  repeat' first
    | with_reducible rfl
    | simp only [↓State.frame_mk, State.frame_fold, State.commitBackup_frame, State.countInvalid_frame, State.emit_frame, State.raise_frame, State.thmCount_frame, State.sendCard_frame]
    | intro _
    | split
    | refine (foldl_frame _ _ _ ?_).trans ?_
    | refine (foldl_frame1 _ _ _ ?_).trans ?_
    | simp only [id_eq, ↓State.frame_mk, State.frame_fold, State.commitBackup_frame, State.countInvalid_frame, State.raise_frame, State.sendCard_frame, State.thmCount_frame]
    | (dsimp only [↓State.frame_mk, State.frame_fold, State.commitBackup_frame, State.countInvalid_frame, State.raise_frame, State.sendCard_frame, State.thmCount_frame])
theorem execQuorumCard_frame (slot : Nat) (c : CardPresented) (s : State) :
    ∀ t, execQuorumCard slot c s = .next t → t.frame = s.frame := by
  intro t ht
  rw [← Host.Outcome.next.inj ht]
  repeat' first | with_reducible rfl | simp only [State.acceptCard_frame, State.cardFailed_frame, State.drawInt_frame, State.emit_frame, State.writeCard_frame, ↓State.frame_mk, State.frame_fold, State.sendCard_frame] | split
theorem State.bringKey_frame (s : State) (id : Nat) (j : Job) : ∀ t, State.bringKey s id j = some t → t.1.frame = s.frame := by
  intro t ht
  unfold State.bringKey at ht
  repeat' first
    | refine State.holdKey_frame _ _ _ _ ht
    | (with_reducible have ht := Option.some.inj ht; subst ht)
    | split at ht
    | (dsimp only [] at ht)
    | (obtain ⟨_, _, rfl⟩ := Option.map_eq_some_iff.mp ht)
    | contradiction
    | with_reducible (cases ht; done)
    | with_reducible rfl
    | simp only [↓State.frame_mk, State.frame_fold, foldl_frame]
    | refine Eq.trans (State.holdKey_frame _ _ _ _ (by assumption)) ?_
    | intro _
    | split
    | refine (foldl_frame _ _ _ ?_).trans ?_
    | refine (foldl_frame1 _ _ _ ?_).trans ?_
    | simp only [id_eq]
    | (dsimp only [])
theorem State.admitReplay_frame (s : State) (id : Nat) (j : Job) (r : WinRec) (lent : Option (List Nat)) : (State.admitReplay s id j r lent).1.frame = s.frame := by
  unfold State.admitReplay
  repeat' first | with_reducible rfl | refine Eq.trans (State.bringKey_frame _ _ _ _ (by assumption)) ?_ | simp only [↓State.frame_mk, State.frame_fold, State.admitBooked_frame, State.admitJob_frame, State.bringKey_frame, State.modJob_frame] | split | refine (foldl_frame _ _ _ ?_).trans ?_ | refine (foldl_frame1 _ _ _ ?_).trans ?_ | intro _ | (dsimp only [])
theorem State.admitKst_frame (s : State) (id : Nat) (j : Job) (k : Nat × Bool) :
    (State.admitKst s id j k).1.frame = s.frame := by
  unfold State.admitKst
  repeat' first
    | with_reducible rfl
    | simp only [↓State.frame_mk, State.frame_fold, foldl_frame, State.admitDelete_frame, State.admitJob_frame, State.modJob_frame, State.startAdvance_frame]
    | refine Eq.trans (State.bringKey_frame _ _ _ _ (by assumption)) ?_
    | intro _
    | split
    | refine (foldl_frame _ _ _ ?_).trans ?_
    | refine (foldl_frame1 _ _ _ ?_).trans ?_
    | simp only [id_eq]
    | (dsimp only [])
theorem State.startCreate_frame (s : State) (id : Nat) : ∀ t, State.startCreate s id = some t → t.frame = s.frame := by
  intro t ht
  unfold State.startCreate at ht
  repeat' first
    | refine State.assignIndex_frame _ _ _ _ ht
    | (with_reducible have ht := Option.some.inj ht; subst ht)
    | split at ht
    | (dsimp only [] at ht)
    | (obtain ⟨_, _, rfl⟩ := Option.map_eq_some_iff.mp ht)
    | contradiction
    | with_reducible (cases ht; done)
    | with_reducible rfl
    | simp only [↓State.frame_mk, State.frame_fold, foldl_frame, State.startStateful_frame]
    | refine Eq.trans (State.assignIndex_frame _ _ _ _ (by assumption)) ?_
    | intro _
    | split
    | refine (foldl_frame _ _ _ ?_).trans ?_
    | refine (foldl_frame1 _ _ _ ?_).trans ?_
    | simp only [id_eq]
    | (dsimp only [])
theorem State.admitNew_frame (s : State) (id : Nat) (j : Job) (n : Need) (lent : Option (List Nat)) : (State.admitNew s id j n lent).1.frame = s.frame := by
  unfold State.admitNew
  repeat' first | with_reducible rfl | refine Eq.trans (State.bringKey_frame _ _ _ _ (by assumption)) ?_ | refine Eq.trans (State.startCreate_frame _ _ _ (by assumption)) ?_ | simp only [↓State.frame_mk, State.frame_fold, State.admitBooked_frame, State.admitJob_frame, State.admitKst_frame, State.bringKey_frame, State.keyFail_frame, State.startCreate_frame, State.takeEphemeral_frame, State.takeLeaf_frame] | split | refine (foldl_frame _ _ _ ?_).trans ?_ | refine (foldl_frame1 _ _ _ ?_).trans ?_ | intro _ | (dsimp only [])
theorem State.consider_frame (s : State) (id : Nat) (lent : Option (List Nat)) : (State.consider s id lent).1.frame = s.frame := by
  unfold State.consider
  repeat' first | with_reducible rfl | refine Eq.trans (State.dryTest_frame _ _ _ _ _ (by assumption)) ?_ | refine Eq.trans (State.leafTest_frame _ _ _ _ _ (by assumption)) ?_ | refine Eq.trans (State.tryForward_frame _ _ _ _ _ (by assumption)) ?_ | simp only [↓State.frame_mk, State.frame_fold, State.admitJob_frame, State.admitNew_frame, State.admitPin_frame, State.admitPreload_frame, State.admitReplay_frame, State.admitRng_frame, State.cause_frame, State.dryTest_frame, State.finish_frame, State.keyFail_frame, State.leafTest_frame, State.refuse_frame, State.tryForward_frame, State.unpin_frame] | split | refine (foldl_frame _ _ _ ?_).trans ?_ | refine (foldl_frame1 _ _ _ ?_).trans ?_ | intro _ | (dsimp only [])
theorem State.considerAll_frame (s : State) (ids : List Nat) (lent : Option (List Nat)) : (State.considerAll s ids lent).1.frame = s.frame := by
  unfold State.considerAll
  repeat' first | with_reducible rfl | simp only [↓State.frame_mk, State.frame_fold, State.consider_frame] | split | refine (foldl_frame _ _ _ ?_).trans ?_ | refine (foldl_frame1 _ _ _ ?_).trans ?_ | intro _ | (dsimp only [])
theorem State.pass_frame (s : State) (lent : Option (List Nat)) (x : Leftover) : (State.pass s lent x).1.frame = s.frame := by
  unfold State.pass
  repeat' first | with_reducible rfl | simp only [↓State.frame_mk, State.frame_fold, State.considerAll_frame, State.continueAll_frame, State.rebookAll_frame] | split | refine (foldl_frame _ _ _ ?_).trans ?_ | refine (foldl_frame1 _ _ _ ?_).trans ?_ | intro _ | (dsimp only [])
theorem State.lendPass_frame (s : State) (es : List Nat) (x : Leftover) : (State.lendPass s es x).1.frame = s.frame := by
  unfold State.lendPass
  repeat' first | with_reducible rfl | simp only [↓State.frame_mk, State.frame_fold, State.event_frame, State.pass_frame] | split | refine (foldl_frame _ _ _ ?_).trans ?_ | refine (foldl_frame1 _ _ _ ?_).trans ?_ | intro _ | (dsimp only [])
theorem State.admission_frame (s : State) : (State.admission s).frame = s.frame := by
  unfold State.admission
  repeat' first | with_reducible rfl | simp only [↓State.frame_mk, State.frame_fold, State.bookCacheFill_frame, State.considerAll_frame, State.continueOne_frame, State.event_frame, State.giveUp_frame, State.present__frame, State.rebookOne_frame, State.lendPass_frame, State.missContinue_frame, State.missOne_frame, State.pass_frame] | split | refine (foldl_frame _ _ _ ?_).trans ?_ | intro _
theorem State.clearJobPages_frame (s : State) (n : Nat) : (State.clearJobPages s n).frame = s.frame := by
  rfl
theorem State.computeFault_frame (s : State) (src : Nat) (eng : Nat) (job : Option Nat) :
    (State.computeFault s src eng job).frame = s.frame := by
  unfold State.computeFault
  split <;> simp only [State.modJob_frame, State.raise_frame, ↓State.frame_mk, State.frame_fold]
theorem State.dropSet_frame (s : State) (n : Nat) : (State.dropSet s n).frame = s.frame := by
  unfold State.dropSet
  repeat' first | with_reducible rfl | simp only [↓State.frame_mk, State.frame_fold] | split | refine (foldl_frame _ _ _ ?_).trans ?_ | refine (foldl_frame1 _ _ _ ?_).trans ?_ | intro _ | (dsimp only [])
theorem State.segmentFails_frame (s : State) (n : Nat) (e : Exc) (epc : Nat) :
    (State.segmentFails s n e epc).frame = s.frame := by
  unfold State.segmentFails
  repeat' first | with_reducible rfl | simp only [State.cause_frame, State.clearJobPages_frame, State.computeFault_frame, State.modJob_frame, State.raise_frame, State.setPvu_frame, ↓State.frame_mk, State.frame_fold, State.dropSet_frame, State.poisonEvent_frame] | split
theorem State.pvuTrap_frame (s : State) (n : Nat) (start : Nat) (p : Pvu) (e0 : Exc) :
    (State.pvuTrap s n start p e0).frame = s.frame := by
  unfold State.pvuTrap
  repeat' first | with_reducible rfl | simp only [State.event_frame, State.segmentFails_frame, State.setPvu_frame, ↓State.frame_mk, State.frame_fold, State.cause_frame] | split
theorem State.pvuOverrun_frame (s : State) (n : Nat) : (State.pvuOverrun s n).frame = s.frame := by
  unfold State.pvuOverrun
  repeat' first | with_reducible rfl | simp only [↓State.frame_mk, State.frame_fold, State.event_frame, State.segmentFails_frame, State.setPvu_frame] | split
theorem State.sampleFor_frame (s : State) (n : Nat) (p : Pvu) (op : PvuOp) (lat : Nat) (elem : Nat) (exc : Bool) (f : Nat) (x : Func) :
    (State.sampleFor s n p op lat elem exc f x).frame = s.frame := by
  unfold State.sampleFor
  repeat' first | with_reducible rfl | simp only [↓State.frame_mk, State.frame_fold, State.cause_frame, State.raise_frame, State.setFn_frame, State.setPvu_frame] | split
theorem State.sampleAll_frame (s : State) (n : Nat) (p : Pvu) (op : PvuOp) (lat : Nat) (elem : Nat) (exc : Bool) :
    (State.sampleAll s n p op lat elem exc).frame = s.frame := by
  unfold State.sampleAll
  repeat' first | with_reducible rfl | simp only [State.sampleFor_frame] | split | refine (foldl_frame _ _ _ ?_).trans ?_ | intro _
theorem State.injectStores_frame (s : State) (n : Nat) (ws : List Nat) : (State.injectStores s n ws).frame = s.frame := by
  unfold State.injectStores
  repeat' first | with_reducible rfl | refine Eq.trans (State.injectAt_frame _ _ _ _ (by assumption)) ?_ | refine Eq.trans (State.injectAtPair_frame (by assumption)) ?_ | simp only [↓State.frame_mk, State.frame_fold, State.dropInjected_frame, State.injectAt_frame, State.keepInjected_frame, State.setPvu_frame] | split | refine (foldl_frame _ _ _ ?_).trans ?_ | refine (foldl_frame1 _ _ _ ?_).trans ?_ | intro _ | (dsimp only [])
theorem State.workEvents_frame (s : State) (n : Nat) (fn : Nat) (r : PvuRes) : (State.workEvents s n fn r).frame = s.frame := by
  unfold State.workEvents
  repeat' first | with_reducible rfl | simp only [↓State.frame_mk, State.frame_fold, State.event_frame] | split | refine (foldl_frame _ _ _ ?_).trans ?_ | refine (foldl_frame1 _ _ _ ?_).trans ?_ | intro _ | (dsimp only [])
theorem State.pvuCommit_frame (s : State) (n : Nat) (start : Nat) (op : PvuOp) (i : PvuWord) (p : Pvu) (r : PvuRes) (m : Option MicroRun) (pc : Nat) : (State.pvuCommit s n start op i p r m pc).frame = s.frame := by
  unfold State.pvuCommit
  repeat' first | with_reducible rfl | simp only [↓State.frame_mk, State.frame_fold, State.event_frame, State.injectStores_frame, State.modJob_frame, State.setPvu_frame, State.workEvents_frame] | split | refine (foldl_frame _ _ _ ?_).trans ?_ | refine (foldl_frame1 _ _ _ ?_).trans ?_ | intro _ | (dsimp only [])
theorem State.pvuRun_frame (s : State) (op : PvuOp) (i : PvuWord) : (State.pvuRun s op i).frame = s.frame := by
  unfold State.pvuRun
  repeat' first | with_reducible rfl | simp only [State.pvuCommit_frame, State.pvuOverrun_frame, State.pvuTrap_frame, State.readInjected_frame, State.sampleAll_frame, ↓State.frame_mk, State.frame_fold, State.workEvents_frame] | split
theorem pvuExec_frame (op : PvuOp) (i : PvuWord) (s : State) : ∀ t, pvuExec op i s = .next t → t.frame = s.frame := by
  intro t ht
  unfold pvuExec at ht
  repeat' first | (with_reducible have ht := Host.Outcome.next.inj ht; subst ht) | split at ht | contradiction | with_reducible rfl | exact State.pvuRun_frame _ _ _
theorem execPvuNop_frame (i : PvuWord) (s : State) : ∀ t, execPvuNop i s = .next t → t.frame = s.frame :=
  pvuExec_frame _ _ _
theorem execPvuEnd_frame (i : PvuWord) (s : State) : ∀ t, execPvuEnd i s = .next t → t.frame = s.frame :=
  pvuExec_frame _ _ _
theorem execBrB_frame (i : PvuWord) (s : State) : ∀ t, execBrB i s = .next t → t.frame = s.frame :=
  pvuExec_frame _ _ _
theorem execBrC_frame (i : PvuWord) (s : State) : ∀ t, execBrC i s = .next t → t.frame = s.frame :=
  pvuExec_frame _ _ _
theorem execLoop_frame (i : PvuWord) (s : State) : ∀ t, execLoop i s = .next t → t.frame = s.frame :=
  pvuExec_frame _ _ _
theorem execCall_frame (i : PvuWord) (s : State) : ∀ t, execCall i s = .next t → t.frame = s.frame :=
  pvuExec_frame _ _ _
theorem execRet_frame (i : PvuWord) (s : State) : ∀ t, execRet i s = .next t → t.frame = s.frame :=
  pvuExec_frame _ _ _
theorem execModset_frame (i : PvuWord) (s : State) : ∀ t, execModset i s = .next t → t.frame = s.frame :=
  pvuExec_frame _ _ _
theorem execKload_frame (i : PvuWord) (s : State) : ∀ t, execKload i s = .next t → t.frame = s.frame :=
  pvuExec_frame _ _ _
theorem execSysrd_frame (i : PvuWord) (s : State) : ∀ t, execSysrd i s = .next t → t.frame = s.frame :=
  pvuExec_frame _ _ _
theorem execRdstat_frame (i : PvuWord) (s : State) : ∀ t, execRdstat i s = .next t → t.frame = s.frame :=
  pvuExec_frame _ _ _
theorem execResume_frame (i : PvuWord) (s : State) : ∀ t, execResume i s = .next t → t.frame = s.frame :=
  pvuExec_frame _ _ _
theorem execSkipH_frame (i : PvuWord) (s : State) : ∀ t, execSkipH i s = .next t → t.frame = s.frame :=
  pvuExec_frame _ _ _
theorem execFailH_frame (i : PvuWord) (s : State) : ∀ t, execFailH i s = .next t → t.frame = s.frame :=
  pvuExec_frame _ _ _
theorem execAccept_frame (i : PvuWord) (s : State) : ∀ t, execAccept i s = .next t → t.frame = s.frame :=
  pvuExec_frame _ _ _
theorem execReject_frame (i : PvuWord) (s : State) : ∀ t, execReject i s = .next t → t.frame = s.frame :=
  pvuExec_frame _ _ _
theorem execAddX_frame (i : PvuWord) (s : State) : ∀ t, execAddX i s = .next t → t.frame = s.frame :=
  pvuExec_frame _ _ _
theorem execSubX_frame (i : PvuWord) (s : State) : ∀ t, execSubX i s = .next t → t.frame = s.frame :=
  pvuExec_frame _ _ _
theorem execAndX_frame (i : PvuWord) (s : State) : ∀ t, execAndX i s = .next t → t.frame = s.frame :=
  pvuExec_frame _ _ _
theorem execOrX_frame (i : PvuWord) (s : State) : ∀ t, execOrX i s = .next t → t.frame = s.frame :=
  pvuExec_frame _ _ _
theorem execXorX_frame (i : PvuWord) (s : State) : ∀ t, execXorX i s = .next t → t.frame = s.frame :=
  pvuExec_frame _ _ _
theorem execShlX_frame (i : PvuWord) (s : State) : ∀ t, execShlX i s = .next t → t.frame = s.frame :=
  pvuExec_frame _ _ _
theorem execShrX_frame (i : PvuWord) (s : State) : ∀ t, execShrX i s = .next t → t.frame = s.frame :=
  pvuExec_frame _ _ _
theorem execSarX_frame (i : PvuWord) (s : State) : ∀ t, execSarX i s = .next t → t.frame = s.frame :=
  pvuExec_frame _ _ _
theorem execMulX_frame (i : PvuWord) (s : State) : ∀ t, execMulX i s = .next t → t.frame = s.frame :=
  pvuExec_frame _ _ _
theorem execMulhuX_frame (i : PvuWord) (s : State) : ∀ t, execMulhuX i s = .next t → t.frame = s.frame :=
  pvuExec_frame _ _ _
theorem execAddiX_frame (i : PvuWord) (s : State) : ∀ t, execAddiX i s = .next t → t.frame = s.frame :=
  pvuExec_frame _ _ _
theorem execLiX_frame (i : PvuWord) (s : State) : ∀ t, execLiX i s = .next t → t.frame = s.frame :=
  pvuExec_frame _ _ _
theorem execLisX_frame (i : PvuWord) (s : State) : ∀ t, execLisX i s = .next t → t.frame = s.frame :=
  pvuExec_frame _ _ _
theorem execScmp_frame (i : PvuWord) (s : State) : ∀ t, execScmp i s = .next t → t.frame = s.frame :=
  pvuExec_frame _ _ _
theorem execScmpi_frame (i : PvuWord) (s : State) : ∀ t, execScmpi i s = .next t → t.frame = s.frame :=
  pvuExec_frame _ _ _
theorem execXmmul_frame (i : PvuWord) (s : State) : ∀ t, execXmmul i s = .next t → t.frame = s.frame :=
  pvuExec_frame _ _ _
theorem execXmadd_frame (i : PvuWord) (s : State) : ∀ t, execXmadd i s = .next t → t.frame = s.frame :=
  pvuExec_frame _ _ _
theorem execSmov_frame (i : PvuWord) (s : State) : ∀ t, execSmov i s = .next t → t.frame = s.frame :=
  pvuExec_frame _ _ _
theorem execSxor_frame (i : PvuWord) (s : State) : ∀ t, execSxor i s = .next t → t.frame = s.frame :=
  pvuExec_frame _ _ _
theorem execSand_frame (i : PvuWord) (s : State) : ∀ t, execSand i s = .next t → t.frame = s.frame :=
  pvuExec_frame _ _ _
theorem execSor_frame (i : PvuWord) (s : State) : ∀ t, execSor i s = .next t → t.frame = s.frame :=
  pvuExec_frame _ _ _
theorem execSadd_frame (i : PvuWord) (s : State) : ∀ t, execSadd i s = .next t → t.frame = s.frame :=
  pvuExec_frame _ _ _
theorem execSins_frame (i : PvuWord) (s : State) : ∀ t, execSins i s = .next t → t.frame = s.frame :=
  pvuExec_frame _ _ _
theorem execSext_frame (i : PvuWord) (s : State) : ∀ t, execSext i s = .next t → t.frame = s.frame :=
  pvuExec_frame _ _ _
theorem execSbcast_frame (i : PvuWord) (s : State) : ∀ t, execSbcast i s = .next t → t.frame = s.frame :=
  pvuExec_frame _ _ _
theorem execVmov_frame (i : PvuWord) (s : State) : ∀ t, execVmov i s = .next t → t.frame = s.frame :=
  pvuExec_frame _ _ _
theorem execVadd_frame (i : PvuWord) (s : State) : ∀ t, execVadd i s = .next t → t.frame = s.frame :=
  pvuExec_frame _ _ _
theorem execVsub_frame (i : PvuWord) (s : State) : ∀ t, execVsub i s = .next t → t.frame = s.frame :=
  pvuExec_frame _ _ _
theorem execVand_frame (i : PvuWord) (s : State) : ∀ t, execVand i s = .next t → t.frame = s.frame :=
  pvuExec_frame _ _ _
theorem execVor_frame (i : PvuWord) (s : State) : ∀ t, execVor i s = .next t → t.frame = s.frame :=
  pvuExec_frame _ _ _
theorem execVxor_frame (i : PvuWord) (s : State) : ∀ t, execVxor i s = .next t → t.frame = s.frame :=
  pvuExec_frame _ _ _
theorem execVnot_frame (i : PvuWord) (s : State) : ∀ t, execVnot i s = .next t → t.frame = s.frame :=
  pvuExec_frame _ _ _
theorem execVshli_frame (i : PvuWord) (s : State) : ∀ t, execVshli i s = .next t → t.frame = s.frame :=
  pvuExec_frame _ _ _
theorem execVsrli_frame (i : PvuWord) (s : State) : ∀ t, execVsrli i s = .next t → t.frame = s.frame :=
  pvuExec_frame _ _ _
theorem execVbcast_frame (i : PvuWord) (s : State) : ∀ t, execVbcast i s = .next t → t.frame = s.frame :=
  pvuExec_frame _ _ _
theorem execVmadd_frame (i : PvuWord) (s : State) : ∀ t, execVmadd i s = .next t → t.frame = s.frame :=
  pvuExec_frame _ _ _
theorem execVmsub_frame (i : PvuWord) (s : State) : ∀ t, execVmsub i s = .next t → t.frame = s.frame :=
  pvuExec_frame _ _ _
theorem execVmneg_frame (i : PvuWord) (s : State) : ∀ t, execVmneg i s = .next t → t.frame = s.frame :=
  pvuExec_frame _ _ _
theorem execVmmul_frame (i : PvuWord) (s : State) : ∀ t, execVmmul i s = .next t → t.frame = s.frame :=
  pvuExec_frame _ _ _
theorem execVmmulx_frame (i : PvuWord) (s : State) : ∀ t, execVmmulx i s = .next t → t.frame = s.frame :=
  pvuExec_frame _ _ _
theorem execVcmpeq_frame (i : PvuWord) (s : State) : ∀ t, execVcmpeq i s = .next t → t.frame = s.frame :=
  pvuExec_frame _ _ _
theorem execVcmpltu_frame (i : PvuWord) (s : State) : ∀ t, execVcmpltu i s = .next t → t.frame = s.frame :=
  pvuExec_frame _ _ _
theorem execVsel_frame (i : PvuWord) (s : State) : ∀ t, execVsel i s = .next t → t.frame = s.frame :=
  pvuExec_frame _ _ _
theorem execVperm_frame (i : PvuWord) (s : State) : ∀ t, execVperm i s = .next t → t.frame = s.frame :=
  pvuExec_frame _ _ _
theorem execVext_frame (i : PvuWord) (s : State) : ∀ t, execVext i s = .next t → t.frame = s.frame :=
  pvuExec_frame _ _ _
theorem execVins_frame (i : PvuWord) (s : State) : ∀ t, execVins i s = .next t → t.frame = s.frame :=
  pvuExec_frame _ _ _
theorem execVred_frame (i : PvuWord) (s : State) : ∀ t, execVred i s = .next t → t.frame = s.frame :=
  pvuExec_frame _ _ _
theorem execPand_frame (i : PvuWord) (s : State) : ∀ t, execPand i s = .next t → t.frame = s.frame :=
  pvuExec_frame _ _ _
theorem execPor_frame (i : PvuWord) (s : State) : ∀ t, execPor i s = .next t → t.frame = s.frame :=
  pvuExec_frame _ _ _
theorem execPxor_frame (i : PvuWord) (s : State) : ∀ t, execPxor i s = .next t → t.frame = s.frame :=
  pvuExec_frame _ _ _
theorem execPnot_frame (i : PvuWord) (s : State) : ∀ t, execPnot i s = .next t → t.frame = s.frame :=
  pvuExec_frame _ _ _
theorem execPfirst_frame (i : PvuWord) (s : State) : ∀ t, execPfirst i s = .next t → t.frame = s.frame :=
  pvuExec_frame _ _ _
theorem execPcnt_frame (i : PvuWord) (s : State) : ∀ t, execPcnt i s = .next t → t.frame = s.frame :=
  pvuExec_frame _ _ _
theorem execVld_frame (i : PvuWord) (s : State) : ∀ t, execVld i s = .next t → t.frame = s.frame :=
  pvuExec_frame _ _ _
theorem execVst_frame (i : PvuWord) (s : State) : ∀ t, execVst i s = .next t → t.frame = s.frame :=
  pvuExec_frame _ _ _
theorem execVlds_frame (i : PvuWord) (s : State) : ∀ t, execVlds i s = .next t → t.frame = s.frame :=
  pvuExec_frame _ _ _
theorem execVsts_frame (i : PvuWord) (s : State) : ∀ t, execVsts i s = .next t → t.frame = s.frame :=
  pvuExec_frame _ _ _
theorem execVgather_frame (i : PvuWord) (s : State) : ∀ t, execVgather i s = .next t → t.frame = s.frame :=
  pvuExec_frame _ _ _
theorem execVscatter_frame (i : PvuWord) (s : State) : ∀ t, execVscatter i s = .next t → t.frame = s.frame :=
  pvuExec_frame _ _ _
theorem execVldff_frame (i : PvuWord) (s : State) : ∀ t, execVldff i s = .next t → t.frame = s.frame :=
  pvuExec_frame _ _ _
theorem execVgatherff_frame (i : PvuWord) (s : State) : ∀ t, execVgatherff i s = .next t → t.frame = s.frame :=
  pvuExec_frame _ _ _
theorem execSld_frame (i : PvuWord) (s : State) : ∀ t, execSld i s = .next t → t.frame = s.frame :=
  pvuExec_frame _ _ _
theorem execSst_frame (i : PvuWord) (s : State) : ∀ t, execSst i s = .next t → t.frame = s.frame :=
  pvuExec_frame _ _ _
theorem execXld_frame (i : PvuWord) (s : State) : ∀ t, execXld i s = .next t → t.frame = s.frame :=
  pvuExec_frame _ _ _
theorem execXst_frame (i : PvuWord) (s : State) : ∀ t, execXst i s = .next t → t.frame = s.frame :=
  pvuExec_frame _ _ _
theorem execKinit_frame (i : PvuWord) (s : State) : ∀ t, execKinit i s = .next t → t.frame = s.frame :=
  pvuExec_frame _ _ _
theorem execKabss_frame (i : PvuWord) (s : State) : ∀ t, execKabss i s = .next t → t.frame = s.frame :=
  pvuExec_frame _ _ _
theorem execKabsl_frame (i : PvuWord) (s : State) : ∀ t, execKabsl i s = .next t → t.frame = s.frame :=
  pvuExec_frame _ _ _
theorem execKabsx_frame (i : PvuWord) (s : State) : ∀ t, execKabsx i s = .next t → t.frame = s.frame :=
  pvuExec_frame _ _ _
theorem execKfinal_frame (i : PvuWord) (s : State) : ∀ t, execKfinal i s = .next t → t.frame = s.frame :=
  pvuExec_frame _ _ _
theorem execVldk_frame (i : PvuWord) (s : State) : ∀ t, execVldk i s = .next t → t.frame = s.frame :=
  pvuExec_frame _ _ _
theorem execVldkff_frame (i : PvuWord) (s : State) : ∀ t, execVldkff i s = .next t → t.frame = s.frame :=
  pvuExec_frame _ _ _
theorem execSldk_frame (i : PvuWord) (s : State) : ∀ t, execSldk i s = .next t → t.frame = s.frame :=
  pvuExec_frame _ _ _
theorem execSamplentt_frame (i : PvuWord) (s : State) : ∀ t, execSamplentt i s = .next t → t.frame = s.frame :=
  pvuExec_frame _ _ _
theorem execSamplerej_frame (i : PvuWord) (s : State) : ∀ t, execSamplerej i s = .next t → t.frame = s.frame :=
  pvuExec_frame _ _ _
theorem execSampleeta_frame (i : PvuWord) (s : State) : ∀ t, execSampleeta i s = .next t → t.frame = s.frame :=
  pvuExec_frame _ _ _
theorem execSamplecbd_frame (i : PvuWord) (s : State) : ∀ t, execSamplecbd i s = .next t → t.frame = s.frame :=
  pvuExec_frame _ _ _
theorem execSampleball_frame (i : PvuWord) (s : State) : ∀ t, execSampleball i s = .next t → t.frame = s.frame :=
  pvuExec_frame _ _ _
theorem execNtt_frame (i : PvuWord) (s : State) : ∀ t, execNtt i s = .next t → t.frame = s.frame :=
  pvuExec_frame _ _ _
theorem execIntt_frame (i : PvuWord) (s : State) : ∀ t, execIntt i s = .next t → t.frame = s.frame :=
  pvuExec_frame _ _ _
theorem execPwmul_frame (i : PvuWord) (s : State) : ∀ t, execPwmul i s = .next t → t.frame = s.frame :=
  pvuExec_frame _ _ _
theorem execPwmac_frame (i : PvuWord) (s : State) : ∀ t, execPwmac i s = .next t → t.frame = s.frame :=
  pvuExec_frame _ _ _
theorem execVcompress_frame (i : PvuWord) (s : State) : ∀ t, execVcompress i s = .next t → t.frame = s.frame :=
  pvuExec_frame _ _ _
theorem execVdecompress_frame (i : PvuWord) (s : State) : ∀ t, execVdecompress i s = .next t → t.frame = s.frame :=
  pvuExec_frame _ _ _
theorem execVpack_frame (i : PvuWord) (s : State) : ∀ t, execVpack i s = .next t → t.frame = s.frame :=
  pvuExec_frame _ _ _
theorem execVunpack_frame (i : PvuWord) (s : State) : ∀ t, execVunpack i s = .next t → t.frame = s.frame :=
  pvuExec_frame _ _ _
theorem execVp2r_frame (i : PvuWord) (s : State) : ∀ t, execVp2r i s = .next t → t.frame = s.frame :=
  pvuExec_frame _ _ _
theorem execVdecomp_frame (i : PvuWord) (s : State) : ∀ t, execVdecomp i s = .next t → t.frame = s.frame :=
  pvuExec_frame _ _ _
theorem execVmkhint_frame (i : PvuWord) (s : State) : ∀ t, execVmkhint i s = .next t → t.frame = s.frame :=
  pvuExec_frame _ _ _
theorem execVusehint_frame (i : PvuWord) (s : State) : ∀ t, execVusehint i s = .next t → t.frame = s.frame :=
  pvuExec_frame _ _ _
theorem execVinf_frame (i : PvuWord) (s : State) : ∀ t, execVinf i s = .next t → t.frame = s.frame :=
  pvuExec_frame _ _ _
theorem execVcenter_frame (i : PvuWord) (s : State) : ∀ t, execVcenter i s = .next t → t.frame = s.frame :=
  pvuExec_frame _ _ _
theorem execMshare_frame (i : PvuWord) (s : State) : ∀ t, execMshare i s = .next t → t.frame = s.frame :=
  pvuExec_frame _ _ _
theorem execMrefresh_frame (i : PvuWord) (s : State) : ∀ t, execMrefresh i s = .next t → t.frame = s.frame :=
  pvuExec_frame _ _ _
theorem execMa2b_frame (i : PvuWord) (s : State) : ∀ t, execMa2b i s = .next t → t.frame = s.frame :=
  pvuExec_frame _ _ _
theorem execMb2a_frame (i : PvuWord) (s : State) : ∀ t, execMb2a i s = .next t → t.frame = s.frame :=
  pvuExec_frame _ _ _
theorem execMand_frame (i : PvuWord) (s : State) : ∀ t, execMand i s = .next t → t.frame = s.frame :=
  pvuExec_frame _ _ _
theorem execMcomp_frame (i : PvuWord) (s : State) : ∀ t, execMcomp i s = .next t → t.frame = s.frame :=
  pvuExec_frame _ _ _
theorem execMdecomp_frame (i : PvuWord) (s : State) : ∀ t, execMdecomp i s = .next t → t.frame = s.frame :=
  pvuExec_frame _ _ _
theorem execMnorm_frame (i : PvuWord) (s : State) : ∀ t, execMnorm i s = .next t → t.frame = s.frame :=
  pvuExec_frame _ _ _
theorem execMeq_frame (i : PvuWord) (s : State) : ∀ t, execMeq i s = .next t → t.frame = s.frame :=
  pvuExec_frame _ _ _
theorem execMsel_frame (i : PvuWord) (s : State) : ∀ t, execMsel i s = .next t → t.frame = s.frame :=
  pvuExec_frame _ _ _
theorem execUnmask_frame (i : PvuWord) (s : State) : ∀ t, execUnmask i s = .next t → t.frame = s.frame :=
  pvuExec_frame _ _ _
theorem State.bnePoison_frame (s : State) (n : Nat) : (State.bnePoison s n).frame = s.frame := by
  unfold State.bnePoison
  split <;> simp only [State.bneAbort_frame, State.modJob_frame]
theorem State.bneFault_frame (s : State) (n : Nat) (c : BneCause) : (State.bneFault s n c).frame = s.frame := by
  unfold State.bneFault
  repeat' first | with_reducible rfl | simp only [↓State.frame_mk, State.frame_fold, State.bneAbort_frame, State.computeFault_frame] | split | refine (foldl_frame _ _ _ ?_).trans ?_ | refine (foldl_frame1 _ _ _ ?_).trans ?_ | intro _ | (dsimp only [])
theorem State.bneInvariant_frame (s : State) (n : Nat) : (State.bneInvariant s n).frame = s.frame := by
  unfold State.bneInvariant
  repeat' first | with_reducible rfl | simp only [↓State.frame_mk, State.frame_fold, State.bneAbort_frame, State.modJob_frame, State.raise_frame] | split | refine (foldl_frame _ _ _ ?_).trans ?_ | refine (foldl_frame1 _ _ _ ?_).trans ?_ | intro _ | (dsimp only [])
theorem State.bneRead_frame (s : State) (o : BneOp) (i : BneWord) : (State.bneRead s o i).frame = s.frame := by
  unfold State.bneRead
  repeat' first | with_reducible rfl | simp only [↓State.frame_mk, State.frame_fold, State.readInjected_frame, State.setBne_frame] | split | refine (foldl_frame _ _ _ ?_).trans ?_ | refine (foldl_frame1 _ _ _ ?_).trans ?_ | intro _ | (dsimp only [])
theorem State.bneInject_frame (s : State) (n : Nat) (old : Bne) (o : BneOp) (i : BneWord) : (State.bneInject s n old o i).frame = s.frame := by
  unfold State.bneInject
  repeat' first | with_reducible rfl | refine Eq.trans (State.injectAt_frame _ _ _ _ (by assumption)) ?_ | refine Eq.trans (State.injectAtPair_frame (by assumption)) ?_ | simp only [↓State.frame_mk, State.frame_fold, State.dropInjected_frame, State.injectAt_frame, State.keepInjected_frame, State.setBne_frame] | split | refine (foldl_frame _ _ _ ?_).trans ?_ | refine (foldl_frame1 _ _ _ ?_).trans ?_ | intro _ | (dsimp only [])
theorem State.bneRun_frame (s0 : State) (o : BneOp) (i : BneWord) : (State.bneRun s0 o i).frame = s0.frame := by
  unfold State.bneRun
  repeat' first | with_reducible rfl | simp only [↓State.frame_mk, State.frame_fold, State.bneFault_frame, State.bneInject_frame, State.bneInvariant_frame, State.bnePoison_frame, State.bneRead_frame, State.compute_frame, State.event_frame, State.setBne_frame] | split | refine (foldl_frame _ _ _ ?_).trans ?_ | refine (foldl_frame1 _ _ _ ?_).trans ?_ | intro _ | (dsimp only [])
theorem State.endClear_frame (s : State) (n : Nat) (ok : Bool) : (State.endClear s n ok).frame = s.frame := by
  unfold State.endClear
  repeat' first | with_reducible rfl | simp only [↓State.frame_mk, State.frame_fold, State.raise_frame, State.setBne_frame] | split | refine (foldl_frame _ _ _ ?_).trans ?_ | refine (foldl_frame1 _ _ _ ?_).trans ?_ | intro _ | (dsimp only [])
theorem bneExec_frame (o : BneOp) (i : BneWord) (s : State) :
    ∀ t, bneExec o i s = .next t → t.frame = s.frame := by
  intro t ht
  unfold bneExec at ht
  repeat' first | (with_reducible have ht := Host.Outcome.next.inj ht; subst ht) | split at ht | (dsimp only [] at ht) | contradiction | with_reducible (cases ht; done) | with_reducible rfl | simp only [↓State.frame_mk, State.frame_fold, State.bneRun_frame, State.endClear_frame] | split | refine (foldl_frame _ _ _ ?_).trans ?_ | refine (foldl_frame1 _ _ _ ?_).trans ?_ | intro _ | (dsimp only [])
theorem State.sendKey_frame (s : State) (d : Nat) (priv : List Byte) : (State.sendKey s d priv).2.frame = s.frame := by
  unfold State.sendKey
  repeat' first | with_reducible rfl | simp only [↓State.frame_mk, State.frame_fold, State.drawInt_frame, State.kstCount_frame] | split | refine (foldl_frame _ _ _ ?_).trans ?_ | refine (foldl_frame1 _ _ _ ?_).trans ?_ | intro _ | (dsimp only [])
theorem State.startRun_frame (s : State) (n : Nat) (bk : Booking) (id : Nat) (j : Job) :
    (State.startRun s n bk id j).frame = s.frame := by
  unfold State.startRun
  repeat' first | with_reducible rfl | simp only [State.drawInt_frame, State.event_frame, State.modJob_frame, State.setBne_frame, ↓State.frame_mk, State.frame_fold, State.sendKey_frame] | split
theorem State.dryRun_frame (s : State) (n : Nat) (bk : Booking) (id : Nat) : (State.dryRun s n bk id).frame = s.frame := by
  simp only [State.dryRun, State.modJob_frame, State.setBne_frame]
theorem State.endRun_frame (s : State) (bne : Nat) : (State.endRun s bne).frame = s.frame := by
  unfold State.endRun
  repeat' first | with_reducible rfl | simp only [State.cause_frame, State.event_frame, State.setBne_frame] | split
theorem execBneRunEnd_frame (bne : Nat) (s : State) : ∀ t, execBneRunEnd bne s = .next t → t.frame = s.frame := by
  intro t ht
  unfold execBneRunEnd at ht
  repeat' first
    | (with_reducible have ht := Host.Outcome.next.inj ht; subst ht)
    | split at ht
    | (dsimp only [] at ht)
    | (obtain ⟨_, _, rfl⟩ := Option.map_eq_some_iff.mp ht)
    | contradiction
    | with_reducible (cases ht; done)
    | with_reducible rfl
    | simp only [↓State.frame_mk, State.frame_fold, foldl_frame, State.endRun_frame]
    | intro _
    | split
    | refine (foldl_frame _ _ _ ?_).trans ?_
    | refine (foldl_frame1 _ _ _ ?_).trans ?_
    | simp only [id_eq]
    | (dsimp only [])
theorem State.writeBne_frame (s : State) (n : Nat) (off : Nat) (v : W32) : (State.writeBne s n off v).frame = s.frame := by
  unfold State.writeBne
  split <;> simp only [State.setBne_frame]
theorem execBneDummyRatio_frame (bne : Nat) (val : W32) (s : State) :
    ∀ t, execBneDummyRatio bne val s = .next t → t.frame = s.frame := by
  intro t ht
  unfold execBneDummyRatio at ht
  repeat' first
    | (with_reducible have ht := Host.Outcome.next.inj ht; subst ht)
    | split at ht
    | (dsimp only [] at ht)
    | (obtain ⟨_, _, rfl⟩ := Option.map_eq_some_iff.mp ht)
    | contradiction
    | with_reducible (cases ht; done)
    | with_reducible rfl
    | simp only [↓State.frame_mk, State.frame_fold, foldl_frame, State.cause_frame, State.onPage_frame, State.raise_frame, State.setBne_frame]
    | refine (State.onPage_frame _ _ _ ?_).trans ?_
    | intro _
    | split
    | refine (foldl_frame _ _ _ ?_).trans ?_
    | refine (foldl_frame1 _ _ _ ?_).trans ?_
    | simp only [id_eq]
    | (dsimp only [])
theorem execBneNop_frame (i : BneWord) (s : State) : ∀ t, execBneNop i s = .next t → t.frame = s.frame :=
  bneExec_frame _ _ _
theorem execLdin_frame (i : BneWord) (s : State) : ∀ t, execLdin i s = .next t → t.frame = s.frame :=
  bneExec_frame _ _ _
theorem execLdkey_frame (i : BneWord) (s : State) : ∀ t, execLdkey i s = .next t → t.frame = s.frame :=
  bneExec_frame _ _ _
theorem execStout_frame (i : BneWord) (s : State) : ∀ t, execStout i s = .next t → t.frame = s.frame :=
  bneExec_frame _ _ _
theorem execSetmod_frame (i : BneWord) (s : State) : ∀ t, execSetmod i s = .next t → t.frame = s.frame :=
  bneExec_frame _ _ _
theorem execRange_frame (i : BneWord) (s : State) : ∀ t, execRange i s = .next t → t.frame = s.frame :=
  bneExec_frame _ _ _
theorem execMadd_frame (i : BneWord) (s : State) : ∀ t, execMadd i s = .next t → t.frame = s.frame :=
  bneExec_frame _ _ _
theorem execMsub_frame (i : BneWord) (s : State) : ∀ t, execMsub i s = .next t → t.frame = s.frame :=
  bneExec_frame _ _ _
theorem execMmul_frame (i : BneWord) (s : State) : ∀ t, execMmul i s = .next t → t.frame = s.frame :=
  bneExec_frame _ _ _
theorem execMsqr_frame (i : BneWord) (s : State) : ∀ t, execMsqr i s = .next t → t.frame = s.frame :=
  bneExec_frame _ _ _
theorem execMinv_frame (i : BneWord) (s : State) : ∀ t, execMinv i s = .next t → t.frame = s.frame :=
  bneExec_frame _ _ _
theorem execMexp_frame (i : BneWord) (s : State) : ∀ t, execMexp i s = .next t → t.frame = s.frame :=
  bneExec_frame _ _ _
theorem execMrand_frame (i : BneWord) (s : State) : ∀ t, execMrand i s = .next t → t.frame = s.frame :=
  bneExec_frame _ _ _
theorem execMcopy_frame (i : BneWord) (s : State) : ∀ t, execMcopy i s = .next t → t.frame = s.frame :=
  bneExec_frame _ _ _
theorem execMcswap_frame (i : BneWord) (s : State) : ∀ t, execMcswap i s = .next t → t.frame = s.frame :=
  bneExec_frame _ _ _
theorem execMclr_frame (i : BneWord) (s : State) : ∀ t, execMclr i s = .next t → t.frame = s.frame :=
  bneExec_frame _ _ _
theorem execBneEnd_frame (i : BneWord) (s : State) : ∀ t, execBneEnd i s = .next t → t.frame = s.frame :=
  bneExec_frame _ _ _
theorem State.settleUnits_frame (s : State) (n : Nat) : (State.settleUnits s n).frame = s.frame := by
  unfold State.settleUnits
  repeat' first | with_reducible rfl | simp only [↓State.frame_mk, State.frame_fold, State.event_frame, State.setPvu_frame] | split | refine (foldl_frame _ _ _ ?_).trans ?_ | refine (foldl_frame1 _ _ _ ?_).trans ?_ | intro _ | (dsimp only [])
theorem State.ctlArrive_frame (s : State) (page : Option Nat) (copies : List CtlCopy) : (State.ctlArrive s page copies).1.frame = s.frame := by
  unfold State.ctlArrive
  repeat' first | with_reducible rfl | simp only [↓State.frame_mk, State.frame_fold, State.fabricFailure_frame] | split | refine (foldl_frame _ _ _ ?_).trans ?_ | refine (foldl_frame1 _ _ _ ?_).trans ?_ | intro _ | (dsimp only [])

end Sys2Proof.Machine
end

