-- ==== Sys2Proof/Laws/FrameUnits.lean ====
section
/-! SUPPORT. Frame lemmas: patterns, the key store, Peer Link, Treadle, engine slots, admin commands, the Digest Service, instances, patches, power and observation. -/

set_option maxRecDepth 2000
set_option linter.unusedSimpArgs false

namespace Sys2Proof.Machine

theorem State.setTest_frame (s : State) (k : Nat) (t : TestUnit) : (State.setTest s k t).frame = s.frame := by
  rfl
theorem State.testFailed_frame (s : State) (k : Nat) (cores : List Nat) : (State.testFailed s k cores).frame = s.frame := by
  unfold State.testFailed
  repeat' first | with_reducible rfl | simp only [State.raise_frame, State.raiseAll_frame] | split
theorem State.testResult_frame (s : State) (k : Nat) (pass : Bool) (cores : List Nat) :
    (State.testResult s k pass cores).frame = s.frame := by
  unfold State.testResult
  repeat' first | with_reducible rfl | simp only [State.cause_frame, State.setTest_frame, State.testFailed_frame] | split
theorem execHrtRestore_frame (val : W32) (pass : Bool) (s : State) :
    ∀ t, execHrtRestore val pass s = .next t → t.frame = s.frame := by
  intro t ht
  rw [← Host.Outcome.next.inj ht]
  repeat' first | with_reducible rfl | simp only [State.returnEngine_frame, ↓State.frame_mk, State.frame_fold, State.setTest_frame, State.testResult_frame] | split
theorem State.loadPattern_frame (s : State) (fn : Nat) (c : List Byte) : (State.loadPattern s fn c).1.frame = s.frame := by
  unfold State.loadPattern
  repeat' first | with_reducible rfl | simp only [↓State.frame_mk, State.frame_fold] | split
theorem State.enterBank_frame (s : State) (source : Nat) : (State.enterBank s source).frame = s.frame := by
  have h := State.discardAll_frame s
  unfold State.enterBank
  simp only [State.frame, Prod.mk.injEq] at h ⊢
  exact ⟨h.1, h.2.1, h.2.2.1, h.2.2.2.1, h.2.2.2.2.1, h.2.2.2.2.2.1, h.2.2.2.2.2.2.1, trivial, h.2.2.2.2.2.2.2.2.1, h.2.2.2.2.2.2.2.2.2.1, h.2.2.2.2.2.2.2.2.2.2⟩
theorem State.requestBank_frame (s : State) (source : Nat) : (State.requestBank s source).frame = s.frame := by
  unfold State.requestBank
  repeat' first | with_reducible rfl | simp only [↓State.frame_mk, State.frame_fold, State.enterBank_frame] | split
theorem State.bankAfterCommit_frame (s : State) : (State.bankAfterCommit s).frame = s.frame := by
  unfold State.bankAfterCommit
  split <;> simp only [State.enterBank_frame]
theorem execBankN_frame (lowUs : Nat) (s : State) : ∀ t, execBankN lowUs s = .next t → t.frame = s.frame := by
  intro t ht
  rw [← Host.Outcome.next.inj ht]
  repeat' first | with_reducible rfl | simp only [State.requestBank_frame] | split
theorem execBankCtrlEnter_frame (s : State) : ∀ t, execBankCtrlEnter s = .next t → t.frame = s.frame := by
  intro t ht
  rw [← Host.Outcome.next.inj ht]
  simp only [State.onPage_frame, State.requestBank_frame]
theorem execBankEnter_frame (s : State) : ∀ t, execBankEnter s = .next t → t.frame = s.frame := by
  intro t ht
  rw [← Host.Outcome.next.inj ht]
  repeat' first | with_reducible rfl | simp only [↓State.frame_mk, State.frame_fold, State.requestBank_frame] | split
theorem State.replicateTo_frame (s : State) (node : Nat) (h : W32) : (State.replicateTo s node h).frame = s.frame := by
  unfold State.replicateTo
  repeat' first | with_reducible rfl | simp only [↓State.frame_mk, State.frame_fold, State.sendFrame_frame] | split
theorem State.replicate_frame (s : State) (h : W32) : (State.replicate s h).frame = s.frame := by
  unfold State.replicate
  repeat' first | with_reducible rfl | simp only [State.replicateTo_frame] | split | refine (foldl_frame _ _ _ ?_).trans ?_ | intro _
theorem kKeyImport_frame  : ∀ u a b, (kKeyImport u a b).1.frame = u.frame := by
  intro u a b
  unfold kKeyImport
  repeat' first | with_reducible rfl | simp only [State.countStatus_frame, State.kstCount_frame, State.store_frame, ↓State.frame_mk, State.frame_fold] | split
theorem kKeyExport_frame  : ∀ u a b, (kKeyExport u a b).1.frame = u.frame := by
  intro u a b
  unfold kKeyExport
  repeat' first | with_reducible rfl | simp only [State.kstCount_frame, ↓State.frame_mk, State.frame_fold] | split
theorem kPubkeyRegister_frame  : ∀ u a b, (kPubkeyRegister u a b).1.frame = u.frame := by
  intro u a b
  unfold kPubkeyRegister
  repeat' first | with_reducible rfl | simp only [State.kstCount_frame, State.store_frame] | split
theorem kPubkeyRead_frame  : ∀ u a b, (kPubkeyRead u a b).1.frame = u.frame := by
  intro u a b
  unfold kPubkeyRead
  repeat' first | with_reducible rfl | simp only [↓State.frame_mk, State.frame_fold, foldl_frame] | split
theorem kKeyDelete_frame  : ∀ u a b, (kKeyDelete u a b).1.frame = u.frame := by
  intro u a b
  unfold kKeyDelete
  repeat' first | with_reducible rfl | simp only [State.journal_frame, State.kstCount_frame] | split
theorem kKeyAttrRead_frame  : ∀ u a b, (kKeyAttrRead u a b).1.frame = u.frame := by
  intro u a b
  unfold kKeyAttrRead
  repeat' first | with_reducible rfl | simp only [↓State.frame_mk, State.frame_fold, foldl_frame] | split
theorem State.updateKey_frame (s : State) (id : Nat) (h : W32) (old : KeyObj) (new : KeyObj) :
    (State.updateKey s id h old new).1.frame = s.frame := by
  unfold State.updateKey
  repeat' first | with_reducible rfl | simp only [State.cause_frame, State.countStatus_frame, State.journal_frame, State.replicate_frame, State.setKey_frame, ↓State.frame_mk, State.frame_fold, State.dramNonce_frame, State.injectKey_frame] | split
theorem kKeyAttrSet_frame  : ∀ u a b, (kKeyAttrSet u a b).1.frame = u.frame := by
  intro u a b
  unfold kKeyAttrSet
  repeat' first | with_reducible rfl | simp only [State.countStatus_frame, State.kstCount_frame, State.updateKey_frame] | split
theorem kKeyBind_frame  : ∀ u a b, (kKeyBind u a b).1.frame = u.frame := by
  intro u a b
  unfold kKeyBind
  repeat' first | with_reducible rfl | simp only [State.countStatus_frame, State.kstCount_frame, State.updateKey_frame] | split
theorem kSymKeygen_frame  : ∀ u a b, (kSymKeygen u a b).1.frame = u.frame := by
  intro u a b
  unfold kSymKeygen
  repeat' first | with_reducible rfl | simp only [State.drawInt_frame, State.store_frame] | split
theorem execKeyImport_frame (job : Nat) (s : State) : ∀ t, execKeyImport job s = .next t → t.frame = s.frame :=
  State.runJob_frame s _ _ _ (kKeyImport_frame)
theorem execKeyExport_frame (job : Nat) (s : State) : ∀ t, execKeyExport job s = .next t → t.frame = s.frame :=
  State.runJob_frame s _ _ _ (kKeyExport_frame)
theorem execPubkeyRegister_frame (job : Nat) (s : State) : ∀ t, execPubkeyRegister job s = .next t → t.frame = s.frame :=
  State.runJob_frame s _ _ _ (kPubkeyRegister_frame)
theorem execPubkeyRead_frame (job : Nat) (s : State) : ∀ t, execPubkeyRead job s = .next t → t.frame = s.frame :=
  State.runJob_frame s _ _ _ (kPubkeyRead_frame)
theorem execKeyDelete_frame (job : Nat) (s : State) : ∀ t, execKeyDelete job s = .next t → t.frame = s.frame :=
  State.runJob_frame s _ _ _ (kKeyDelete_frame)
theorem execKeyAttrRead_frame (job : Nat) (s : State) : ∀ t, execKeyAttrRead job s = .next t → t.frame = s.frame :=
  State.runJob_frame s _ _ _ (kKeyAttrRead_frame)
theorem execKeyAttrSet_frame (job : Nat) (s : State) : ∀ t, execKeyAttrSet job s = .next t → t.frame = s.frame :=
  State.runJob_frame s _ _ _ (kKeyAttrSet_frame)
theorem execKeyBind_frame (job : Nat) (s : State) : ∀ t, execKeyBind job s = .next t → t.frame = s.frame :=
  State.runJob_frame s _ _ _ (kKeyBind_frame)
theorem execSymKeygen_frame (job : Nat) (s : State) : ∀ t, execSymKeygen job s = .next t → t.frame = s.frame :=
  State.runJob_frame s _ _ _ (kSymKeygen_frame)
theorem State.cleanKey_frame (s : State) (h : W32) (k : KeyObj) : (State.cleanKey s h k).frame = s.frame := by
  rfl
theorem execKeyDeleteCleanup_frame (handle : W32) (s : State) :
    ∀ t, execKeyDeleteCleanup handle s = .next t → t.frame = s.frame := by
  intro t ht
  unfold execKeyDeleteCleanup at ht
  repeat' first
    | (with_reducible have ht := Host.Outcome.next.inj ht; subst ht)
    | split at ht
    | (dsimp only [] at ht)
    | (obtain ⟨_, _, rfl⟩ := Option.map_eq_some_iff.mp ht)
    | contradiction
    | with_reducible (cases ht; done)
    | with_reducible rfl
    | simp only [↓State.frame_mk, State.frame_fold, foldl_frame, State.cleanKey_frame]
    | intro _
    | split
    | refine (foldl_frame _ _ _ ?_).trans ?_
    | refine (foldl_frame1 _ _ _ ?_).trans ?_
    | simp only [id_eq]
    | (dsimp only [])
theorem State.retireBlock_frame (s : State) (kind : Nat) (block : Nat) : (State.retireBlock s kind block).frame = s.frame := by
  unfold State.retireBlock
  repeat' first | with_reducible rfl | simp only [↓State.frame_mk, State.frame_fold, State.cause_frame, State.flsCount_frame, State.irqSync_frame, State.kstCount_frame, State.raise_frame, State.raiseAll_frame] | split
theorem execObjectBlockErase_frame (serial : Nat) (ok : Bool) (s : State) :
    ∀ t, execObjectBlockErase serial ok s = .next t → t.frame = s.frame := by
  intro t ht
  unfold execObjectBlockErase at ht
  repeat' first
    | (with_reducible have ht := Host.Outcome.next.inj ht; subst ht)
    | split at ht
    | (dsimp only [] at ht)
    | (obtain ⟨_, _, rfl⟩ := Option.map_eq_some_iff.mp ht)
    | contradiction
    | with_reducible (cases ht; done)
    | with_reducible rfl
    | simp only [↓State.frame_mk, State.frame_fold, foldl_frame, State.eraseBlock_frame, State.retireBlock_frame]
    | intro _
    | split
    | refine (foldl_frame _ _ _ ?_).trans ?_
    | refine (foldl_frame1 _ _ _ ?_).trans ?_
    | simp only [id_eq]
    | (dsimp only [])
theorem State.applyRecord_frame (s : State) (r : JrnRec) : (State.applyRecord s r).frame = s.frame := by
  unfold State.applyRecord
  repeat' first | with_reducible rfl | simp only [↓State.frame_mk, State.frame_fold, State.reserveLeaves_frame, State.sendFrame_frame, State.setKey_frame] | split
theorem State.pageDurable_frame (s : State) : (State.pageDurable s).frame = s.frame := by
  unfold State.pageDurable
  repeat' first | with_reducible rfl | simp only [↓State.frame_mk, State.frame_fold, State.eraseBlock_frame, State.event_frame, State.kstCount_frame, State.programPages_frame] | split
theorem execJournalProgramDone_frame (ok : Bool) (s : State) :
    ∀ t, execJournalProgramDone ok s = .next t → t.frame = s.frame := by
  intro t ht
  unfold execJournalProgramDone at ht
  repeat' first
    | (with_reducible have ht := Host.Outcome.next.inj ht; subst ht)
    | split at ht
    | (dsimp only [] at ht)
    | (obtain ⟨_, _, rfl⟩ := Option.map_eq_some_iff.mp ht)
    | contradiction
    | with_reducible (cases ht; done)
    | with_reducible rfl
    | simp only [↓State.frame_mk, State.frame_fold, foldl_frame, State.applyRecord_frame, State.bankAfterCommit_frame, State.irqSync_frame, State.kstCommit_frame, State.pageDurable_frame, State.retireBlock_frame]
    | intro _
    | split
    | refine (foldl_frame _ _ _ ?_).trans ?_
    | refine (foldl_frame1 _ _ _ ?_).trans ?_
    | simp only [id_eq]
    | (dsimp only [])
theorem State.settle_frame (s : State) : (State.settle s).frame = s.frame := by
  unfold State.settle
  repeat' first | with_reducible rfl | simp only [↓State.frame_mk, State.frame_fold, State.applyRecord_frame] | split | refine (foldl_frame _ _ _ ?_).trans ?_ | intro _
theorem State.wearTest_frame (s : State) : (State.wearTest s).frame = s.frame := by
  unfold State.wearTest
  split <;> simp only [↓State.frame_mk, State.frame_fold, State.irqSync_frame, State.raise_frame]
theorem State.startPage_frame (s : State) : (State.startPage s).frame = s.frame := by
  unfold State.startPage
  repeat' first | with_reducible rfl | simp only [↓State.frame_mk, State.frame_fold] | split
theorem State.undoRecord_frame (s : State) (r : JrnRec) : (State.undoRecord s r).frame = s.frame := by
  unfold State.undoRecord
  repeat' first | with_reducible rfl | simp only [State.setKey_frame] | split
theorem State.writeKst_frame (s : State) (off : Nat) (v : W32) : (State.writeKst s off v).frame = s.frame := by
  unfold State.writeKst
  repeat' first | with_reducible rfl | simp only [↓State.frame_mk, State.frame_fold] | split
theorem State.setPort_frame (s : State) (n : Nat) (p : Port) : (State.setPort s n p).frame = s.frame := by
  rfl
theorem State.plkCount_frame (s : State) (i : Nat) (n : Nat) : (State.plkCount s i n).frame = s.frame := by
  rfl
theorem State.plkSync_frame (s : State) : (State.plkSync s).frame = s.frame := by
  simp only [State.plkSync, ↓State.frame_mk, State.frame_fold, State.irqSync_frame]
theorem State.squashJob_frame (s : State) (id : Nat) : (State.squashJob s id).frame = s.frame := by
  rfl
theorem State.sweepReplicas_frame (s : State) : (State.sweepReplicas s).frame = s.frame := by
  rfl
theorem State.replanForward_frame (s : State) (id : Nat) : (State.replanForward s id).frame = s.frame := by
  simp only [State.replanForward, State.modJob_frame, State.plkCount_frame]
theorem State.loseForwards_frame (s : State) (node : Nat) : (State.loseForwards s node).frame = s.frame := by
  unfold State.loseForwards
  repeat' first | with_reducible rfl | simp only [↓State.frame_mk, State.frame_fold, State.finish_frame, State.replanForward_frame] | split | refine (foldl_frame _ _ _ ?_).trans ?_ | intro _
theorem State.loseKeys_frame (s : State) (node : Nat) : (State.loseKeys s node).frame = s.frame := by
  rfl
theorem State.loseNode_frame (s : State) (node : Nat) : (State.loseNode s node).frame = s.frame := by
  simp only [State.loseNode, ↓State.frame_mk, State.frame_fold, State.loseForwards_frame, State.loseKeys_frame]
theorem State.loseUplink_frame (s : State) : (State.loseUplink s).frame = s.frame := by
  unfold State.loseUplink
  repeat' first | with_reducible rfl | simp only [↓State.frame_mk, State.frame_fold, State.raise_frame, State.squashJob_frame] | split | refine (foldl_frame _ _ _ ?_).trans ?_ | intro _
theorem State.resendOn_frame (s : State) (port : Nat) (frames : List (Nat × Nat × Nat × List Byte × Nat)) :
    (State.resendOn s port frames).frame = s.frame := by
  unfold State.resendOn
  repeat' first | with_reducible rfl | simp only [State.sendFrame_frame, ↓State.frame_mk, State.frame_fold, State.sendPiece_frame] | split | refine (foldl_frame _ _ _ ?_).trans ?_ | intro _
theorem State.startTraining_frame (s : State) (n : Nat) : (State.startTraining s n).frame = s.frame := by
  unfold State.startTraining
  repeat' first | with_reducible rfl | simp only [↓State.frame_mk, State.frame_fold, State.putFrame_frame] | split | refine (foldl_frame _ _ _ ?_).trans ?_ | refine (foldl_frame1 _ _ _ ?_).trans ?_ | intro _ | (dsimp only [])
theorem State.linkLoss_frame (s : State) (n : Nat) : (State.linkLoss s n).frame = s.frame := by
  unfold State.linkLoss
  repeat' first | with_reducible rfl | simp only [↓State.frame_mk, State.frame_fold, State.cause_frame, State.loseNode_frame, State.loseUplink_frame, State.plkSync_frame, State.raise_frame, State.resendOn_frame, State.setPort_frame, State.startTraining_frame] | split | refine (foldl_frame _ _ _ ?_).trans ?_ | intro _
theorem State.trainPort_frame (s : State) (n : Nat) : (State.trainPort s n).frame = s.frame := by
  unfold State.trainPort
  repeat' first | with_reducible rfl | simp only [State.setPort_frame, ↓State.frame_mk, State.frame_fold, State.startTraining_frame] | split
theorem State.downPort_frame (s0 : State) (n : Nat) : (State.downPort s0 n).frame = s0.frame := by
  unfold State.downPort
  repeat' first | with_reducible rfl | simp only [↓State.frame_mk, State.frame_fold, State.linkLoss_frame, State.setPort_frame] | split
theorem execPortEnable_frame (port : Nat) (enable : Bool) (s : State) :
    ∀ t, execPortEnable port enable s = .next t → t.frame = s.frame := by
  intro t ht
  rw [← Host.Outcome.next.inj ht]
  refine State.onPage_frame _ _ _ ?_
  repeat' first | with_reducible rfl | simp only [State.downPort_frame, State.plkSync_frame, State.setPort_frame, State.trainPort_frame] | split
theorem execPeerFprWrite_frame (val : W32) (s : State) : ∀ t, execPeerFprWrite val s = .next t → t.frame = s.frame := by
  intro t ht
  rw [← Host.Outcome.next.inj ht]
  refine State.onPage_frame _ _ _ ?_
  repeat' first | with_reducible rfl | simp only [↓State.frame_mk, State.frame_fold] | split
theorem execPeerFprClear_frame (val : W32) (s : State) : ∀ t, execPeerFprClear val s = .next t → t.frame = s.frame := by
  intro t ht
  rw [← Host.Outcome.next.inj ht]
  refine State.onPage_frame _ _ _ ?_
  repeat' first | with_reducible rfl | simp only [↓State.frame_mk, State.frame_fold] | split
theorem State.joinNode_frame (s : State) (n : Nat) (f : TrainFrame) : (State.joinNode s n f).frame = s.frame := by
  unfold State.joinNode
  repeat' first | with_reducible rfl | simp only [↓State.frame_mk, State.frame_fold, State.replicateTo_frame] | split | refine (foldl_frame _ _ _ ?_).trans ?_ | intro _
theorem State.portUp_frame (s0 : State) (n : Nat) (f : TrainFrame) : (State.portUp s0 n f).frame = s0.frame := by
  unfold State.portUp
  repeat' first | with_reducible rfl | simp only [↓State.frame_mk, State.frame_fold, State.cause_frame, State.drawInt_frame, State.joinNode_frame, State.plkSync_frame, State.setPort_frame] | split | refine (foldl_frame _ _ _ ?_).trans ?_ | refine (foldl_frame1 _ _ _ ?_).trans ?_ | intro _ | (dsimp only [])
theorem execPlkTrain_frame (port : Nat) (p : TrainFrame) (s : State) :
    ∀ t, execPlkTrain port p s = .next t → t.frame = s.frame := by
  intro t ht
  unfold execPlkTrain at ht
  repeat' first
    | (with_reducible have ht := Host.Outcome.next.inj ht; subst ht)
    | split at ht
    | (dsimp only [] at ht)
    | (obtain ⟨_, _, rfl⟩ := Option.map_eq_some_iff.mp ht)
    | contradiction
    | with_reducible (cases ht; done)
    | with_reducible rfl
    | simp only [↓State.frame_mk, State.frame_fold, foldl_frame, State.cause_frame, State.joinNode_frame, State.plkSync_frame, State.portUp_frame, State.raise_frame, State.setPort_frame]
    | intro _
    | split
    | refine (foldl_frame _ _ _ ?_).trans ?_
    | refine (foldl_frame1 _ _ _ ?_).trans ?_
    | simp only [id_eq]
    | (dsimp only [])
theorem State.nakFrame_frame (s : State) (n : Nat) (h : PlkHeader) : (State.nakFrame s n h).frame = s.frame := by
  unfold State.nakFrame
  split <;> simp only [State.emit_frame, State.event_frame, State.plkCount_frame, State.raise_frame, State.setPort_frame, ↓State.frame_mk, State.frame_fold, State.putFrame_frame]
theorem State.takeFrame_frame (s : State) (n : Nat) (h : PlkHeader) : (State.takeFrame s n h).frame = s.frame := by
  unfold State.takeFrame
  repeat' first | with_reducible rfl | simp only [↓State.frame_mk, State.frame_fold, State.event_frame, State.plkCount_frame, State.setPort_frame] | split
theorem State.passOn_frame (s : State) (h : PlkHeader) (typ : Nat) (payload : List Byte) :
    (State.passOn s h typ payload).frame = s.frame := by
  unfold State.passOn
  repeat' first | with_reducible rfl | simp only [State.sendFrame_frame] | split
theorem State.onFrame_frame (s : State) (n : Nat) (h : PlkHeader) (typ : Nat) (payload : List Byte) (f : State → State) (h_f : ∀ u0, (f u0).frame = u0.frame) :
    (State.onFrame s n h typ payload f).frame = s.frame := by
  unfold State.onFrame
  repeat' first | with_reducible rfl | simp only [State.nakFrame_frame, State.passOn_frame, State.takeFrame_frame, h_f] | split
theorem execPlkKeepalive_frame (port : Nat) (h : PlkHeader) (s : State) :
    ∀ t, execPlkKeepalive port h s = .next t → t.frame = s.frame := by
  intro t ht
  unfold execPlkKeepalive at ht
  repeat' first
    | (with_reducible have ht := Host.Outcome.next.inj ht; subst ht)
    | split at ht
    | (dsimp only [] at ht)
    | (obtain ⟨_, _, rfl⟩ := Option.map_eq_some_iff.mp ht)
    | contradiction
    | with_reducible (cases ht; done)
    | with_reducible rfl
    | simp only [↓State.frame_mk, State.frame_fold, foldl_frame, State.onFrame_frame]
    | refine (State.onFrame_frame _ _ _ _ _ _ ?_).trans ?_
    | intro _
    | split
    | refine (foldl_frame _ _ _ ?_).trans ?_
    | refine (foldl_frame1 _ _ _ ?_).trans ?_
    | simp only [id_eq]
    | (dsimp only [])
theorem execPlkKeepaliveSend_frame (port : Nat) (s : State) :
    ∀ t, execPlkKeepaliveSend port s = .next t → t.frame = s.frame := by
  intro t ht
  unfold execPlkKeepaliveSend at ht
  repeat' first
    | (with_reducible have ht := Host.Outcome.next.inj ht; subst ht)
    | split at ht
    | (dsimp only [] at ht)
    | (obtain ⟨_, _, rfl⟩ := Option.map_eq_some_iff.mp ht)
    | contradiction
    | with_reducible (cases ht; done)
    | with_reducible rfl
    | simp only [↓State.frame_mk, State.frame_fold, foldl_frame, State.sendFrame_frame]
    | intro _
    | split
    | refine (foldl_frame _ _ _ ?_).trans ?_
    | refine (foldl_frame1 _ _ _ ?_).trans ?_
    | simp only [id_eq]
    | (dsimp only [])
theorem State.followTick_frame (s : State) (n : Nat) (tickNum : Nat) (phase : Int) :
    (State.followTick s n tickNum phase).frame = s.frame := by
  unfold State.followTick
  repeat' first | with_reducible rfl | simp only [↓State.frame_mk, State.frame_fold] | split
theorem execPlkTick_frame (port : Nat) (h : PlkHeader) (tickNum : Nat) (phase : Int) (s : State) :
    ∀ t, execPlkTick port h tickNum phase s = .next t → t.frame = s.frame := by
  intro t ht
  rw [← Host.Outcome.next.inj ht]
  refine State.onFrame_frame _ _ _ _ _ _ (fun u => ?_)
  repeat' first | with_reducible rfl | simp only [State.followTick_frame] | split
theorem execPlkJob_frame (port : Nat) (h : PlkHeader) (f : ForwardFrame) (s : State) :
    ∀ t, execPlkJob port h f s = .next t → t.frame = s.frame := by
  intro t ht
  rw [← Host.Outcome.next.inj ht]
  refine State.onFrame_frame _ _ _ _ _ _ (fun u => ?_)
  repeat' first | with_reducible rfl | simp only [↓State.frame_mk, State.frame_fold, State.sendFrame_frame, State.setJob_frame] | split
theorem State.takeResult_frame (s : State) (fid : Nat) (x : Forward) (r : Result) :
    (State.takeResult s fid x r).frame = s.frame := by
  unfold State.takeResult
  repeat' first | with_reducible rfl | simp only [↓State.frame_mk, State.frame_fold, State.event_frame, State.modJob_frame, State.plkCount_frame, State.replanForward_frame] | split
theorem execPlkResult_frame (port : Nat) (h : PlkHeader) (fid : Nat) (record : List Byte) (output : List Byte) (s : State) :
    ∀ t, execPlkResult port h fid record output s = .next t → t.frame = s.frame := by
  intro t ht
  rw [← Host.Outcome.next.inj ht]
  refine State.onFrame_frame _ _ _ _ _ _ (fun u => ?_)
  repeat' first | with_reducible rfl | simp only [State.takeResult_frame] | split
theorem execPlkRefuse_frame (port : Nat) (h : PlkHeader) (fid : Nat) (status : Nat) (s : State) :
    ∀ t, execPlkRefuse port h fid status s = .next t → t.frame = s.frame := by
  intro t ht
  rw [← Host.Outcome.next.inj ht]
  refine State.onFrame_frame _ _ _ _ _ _ (fun u => ?_)
  repeat' first | with_reducible rfl | simp only [↓State.frame_mk, State.frame_fold, State.finishWith_frame, State.modJob_frame, State.plkCount_frame, State.replanForward_frame] | split
theorem execPlkSquash_frame (port : Nat) (h : PlkHeader) (fids : List Nat) (s : State) :
    ∀ t, execPlkSquash port h fids s = .next t → t.frame = s.frame := by
  intro t ht
  unfold execPlkSquash at ht
  repeat' first
    | (with_reducible have ht := Host.Outcome.next.inj ht; subst ht)
    | split at ht
    | (dsimp only [] at ht)
    | (obtain ⟨_, _, rfl⟩ := Option.map_eq_some_iff.mp ht)
    | contradiction
    | with_reducible (cases ht; done)
    | with_reducible rfl
    | simp only [↓State.frame_mk, State.frame_fold, foldl_frame, State.onFrame_frame, State.squashJob_frame, State.sweepReplicas_frame]
    | refine (State.onFrame_frame _ _ _ _ _ _ ?_).trans ?_
    | intro _
    | split
    | refine (foldl_frame _ _ _ ?_).trans ?_
    | refine (foldl_frame1 _ _ _ ?_).trans ?_
    | simp only [id_eq]
    | (dsimp only [])
theorem execPlkKeyPut_frame (port : Nat) (h : PlkHeader) (k : KeyFrame) (s : State) :
    ∀ t, execPlkKeyPut port h k s = .next t → t.frame = s.frame := by
  intro t ht
  rw [← Host.Outcome.next.inj ht]
  refine State.onFrame_frame _ _ _ _ _ _ (fun u => ?_)
  repeat' first | with_reducible rfl | simp only [↓State.frame_mk, State.frame_fold, State.sendFrame_frame, State.onFrame_frame] | split
theorem execPlkKeyDel_frame (port : Nat) (h : PlkHeader) (handle : W32) (s : State) :
    ∀ t, execPlkKeyDel port h handle s = .next t → t.frame = s.frame := by
  intro t ht
  rw [← Host.Outcome.next.inj ht]
  refine State.onFrame_frame _ _ _ _ _ _ (fun u => ?_)
  repeat' first | with_reducible rfl | simp only [↓State.frame_mk, State.frame_fold, State.sweepReplicas_frame] | split
theorem execPlkKeyAck_frame (port : Nat) (h : PlkHeader) (handle : W32) (s : State) :
    ∀ t, execPlkKeyAck port h handle s = .next t → t.frame = s.frame := by
  intro t ht
  rw [← Host.Outcome.next.inj ht]
  refine State.onFrame_frame _ _ _ _ _ _ (fun u => ?_)
  repeat' first | with_reducible rfl | simp only [State.setKey_frame] | split
theorem State.grantLeaves_frame (s : State) (h : W32) (node : Nat) : (State.grantLeaves s h node).frame = s.frame := by
  unfold State.grantLeaves
  repeat' first | with_reducible rfl | simp only [State.journal_frame, State.reserveLeaves_frame, State.setKey_frame, State.startBuilds_frame, ↓State.frame_mk, State.frame_fold] | split
theorem State.serveGrants_frame (s : State) : (State.serveGrants s).frame = s.frame := by
  unfold State.serveGrants
  repeat' first | with_reducible rfl | simp only [State.grantLeaves_frame] | split | refine (foldl_frame _ _ _ ?_).trans ?_ | intro _
theorem execPlkGrantReq_frame (port : Nat) (h : PlkHeader) (handle : W32) (s : State) :
    ∀ t, execPlkGrantReq port h handle s = .next t → t.frame = s.frame := by
  intro t ht
  rw [← Host.Outcome.next.inj ht]
  refine State.onFrame_frame _ _ _ _ _ _ (fun u => ?_)
  repeat' first | with_reducible rfl | simp only [State.grantLeaves_frame] | split
theorem State.modReplica_frame (s : State) (h : W32) (f : Stateful → Stateful) : (State.modReplica s h f).frame = s.frame := by
  unfold State.modReplica
  split <;> simp only [↓State.frame_mk, State.frame_fold]
theorem execPlkGrant_frame (port : Nat) (h : PlkHeader) (handle : W32) (first : Nat) (last : Nat) (s : State) :
    ∀ t, execPlkGrant port h handle first last s = .next t → t.frame = s.frame := by
  intro t ht
  rw [← Host.Outcome.next.inj ht]
  refine State.onFrame_frame _ _ _ _ _ _ (fun u => ?_)
  repeat' first | with_reducible rfl | simp only [State.modReplica_frame] | split
theorem execPlkRevoke_frame (port : Nat) (h : PlkHeader) (handle : W32) (s : State) :
    ∀ t, execPlkRevoke port h handle s = .next t → t.frame = s.frame := by
  intro t ht
  rw [← Host.Outcome.next.inj ht]
  refine State.onFrame_frame _ _ _ _ _ _ (fun u => ?_)
  repeat' first | with_reducible rfl | simp only [State.modReplica_frame] | split
theorem execLinkDownTimeout_frame (port : Nat) (s : State) : ∀ t, execLinkDownTimeout port s = .next t → t.frame = s.frame := by
  intro t ht
  rw [← Host.Outcome.next.inj ht]
  repeat' first | with_reducible rfl | simp only [State.linkLoss_frame] | split
theorem execPortRetrainRetry_frame (port : Nat) (s : State) :
    ∀ t, execPortRetrainRetry port s = .next t → t.frame = s.frame := by
  intro t ht
  rw [← Host.Outcome.next.inj ht]
  repeat' first | with_reducible rfl | simp only [State.setPort_frame, ↓State.frame_mk, State.frame_fold, State.startTraining_frame] | split
theorem State.resend_frame (s : State) (n : Nat) (seq : Nat) : (State.resend s n seq).frame = s.frame := by
  unfold State.resend
  repeat' first | with_reducible rfl | simp only [State.emit_frame, State.plkCount_frame, State.plkSync_frame, State.raise_frame, State.setPort_frame, ↓State.frame_mk, State.frame_fold, State.putFrame_frame, State.startTraining_frame] | split
theorem execPlkNak_frame (port : Nat) (h : PlkHeader) (seq : Nat) (s : State) :
    ∀ t, execPlkNak port h seq s = .next t → t.frame = s.frame := by
  intro t ht
  unfold execPlkNak at ht
  repeat' first
    | (with_reducible have ht := Host.Outcome.next.inj ht; subst ht)
    | split at ht
    | (dsimp only [] at ht)
    | (obtain ⟨_, _, rfl⟩ := Option.map_eq_some_iff.mp ht)
    | contradiction
    | with_reducible (cases ht; done)
    | with_reducible rfl
    | simp only [↓State.frame_mk, State.frame_fold, foldl_frame, State.event_frame, State.nakFrame_frame, State.plkCount_frame, State.raise_frame, State.resend_frame, State.setPort_frame]
    | intro _
    | split
    | refine (foldl_frame _ _ _ ?_).trans ?_
    | refine (foldl_frame1 _ _ _ ?_).trans ?_
    | simp only [id_eq]
    | (dsimp only [])
theorem kClusterStatus_frame  : ∀ u a b, (kClusterStatus u a b).1.frame = u.frame := by
  intro u a b
  unfold kClusterStatus
  repeat' first | with_reducible rfl | simp only [↓State.frame_mk, State.frame_fold, foldl_frame] | split
theorem execClusterStatus_frame (job : Nat) (s : State) : ∀ t, execClusterStatus job s = .next t → t.frame = s.frame :=
  State.runJob_frame s _ _ _ (kClusterStatus_frame)
theorem kRngFill_frame  : ∀ u a b, (kRngFill u a b).1.frame = u.frame := by
  intro u a b
  unfold kRngFill
  repeat' first | with_reducible rfl | simp only [State.drawHost_frame] | split
theorem execRngFill_frame (job : Nat) (s : State) : ∀ t, execRngFill job s = .next t → t.frame = s.frame := by
  intro t ht
  unfold execRngFill at ht
  repeat' first
    | (with_reducible have ht := Host.Outcome.next.inj ht; subst ht)
    | split at ht
    | (dsimp only [] at ht)
    | (obtain ⟨_, _, rfl⟩ := Option.map_eq_some_iff.mp ht)
    | contradiction
    | with_reducible (cases ht; done)
    | with_reducible rfl
    | simp only [↓State.frame_mk, State.frame_fold, foldl_frame, State.computeAfter_frame, kRngFill_frame]
    | refine (State.computeAfter_frame _ _ _ _ ?_).trans ?_
    | intro _
    | split
    | refine (foldl_frame _ _ _ ?_).trans ?_
    | refine (foldl_frame1 _ _ _ ?_).trans ?_
    | simp only [id_eq]
    | (dsimp only [])
theorem State.writePlkCfg_frame (s : State) (v : W32) : (State.writePlkCfg s v).frame = s.frame := by
  unfold State.writePlkCfg
  repeat' first | with_reducible rfl | simp only [↓State.frame_mk, State.frame_fold, State.downPort_frame, State.plkSync_frame, State.trainPort_frame] | split | refine (foldl_frame _ _ _ ?_).trans ?_ | intro _
theorem State.writePlk_frame (s : State) (off : Nat) (v : W32) : (State.writePlk s off v).frame = s.frame := by
  unfold State.writePlk
  repeat' first | with_reducible rfl | simp only [↓State.frame_mk, State.frame_fold, State.setPort_frame, State.writePlkCfg_frame] | split
theorem execTrdTickcfg_frame (val : W32) (s : State) : ∀ t, execTrdTickcfg val s = .next t → t.frame = s.frame := by
  intro t ht
  rw [← Host.Outcome.next.inj ht]
  refine State.onPage_frame _ _ _ ?_
  repeat' first | with_reducible rfl | simp only [↓State.frame_mk, State.frame_fold, State.cause_frame, State.raise_frame, State.onPage_frame] | split
theorem State.histCfgWrite_frame (s : State) (v : W32) : (State.histCfgWrite s v).frame = s.frame := by
  rfl
theorem execHistClear_frame (val : W32) (s : State) : ∀ t, execHistClear val s = .next t → t.frame = s.frame := by
  intro t ht
  rw [← Host.Outcome.next.inj ht]
  repeat' first | with_reducible rfl | simp only [↓State.frame_mk, State.frame_fold, State.histCfgWrite_frame, State.onPage_frame] | split
theorem execTickInEdge_frame (interval : Nat) (phase : Int) (s : State) :
    ∀ t, execTickInEdge interval phase s = .next t → t.frame = s.frame := by
  intro t ht
  unfold execTickInEdge at ht
  repeat' first
    | (with_reducible have ht := Host.Outcome.next.inj ht; subst ht)
    | split at ht
    | (dsimp only [↓State.frame_mk, State.frame_fold, State.cause_frame] at ht)
    | (obtain ⟨_, _, rfl⟩ := Option.map_eq_some_iff.mp ht)
    | contradiction
    | with_reducible (cases ht; done)
    | with_reducible rfl
    | simp only [↓State.frame_mk, State.frame_fold, State.cause_frame]
    | intro _
    | split
    | refine (foldl_frame _ _ _ ?_).trans ?_
    | refine (foldl_frame1 _ _ _ ?_).trans ?_
    | simp only [id_eq, ↓State.frame_mk, State.frame_fold, State.cause_frame]
    | (dsimp only [↓State.frame_mk, State.frame_fold, State.cause_frame])
theorem execTickinLost_frame (s : State) : ∀ t, execTickinLost s = .next t → t.frame = s.frame := by
  intro t ht
  unfold execTickinLost at ht
  repeat' first
    | (with_reducible have ht := Host.Outcome.next.inj ht; subst ht)
    | split at ht
    | (dsimp only [↓State.frame_mk, State.frame_fold, State.cause_frame, State.raise_frame] at ht)
    | (obtain ⟨_, _, rfl⟩ := Option.map_eq_some_iff.mp ht)
    | contradiction
    | with_reducible (cases ht; done)
    | with_reducible rfl
    | simp only [↓State.frame_mk, State.frame_fold, State.cause_frame, State.raise_frame]
    | intro _
    | split
    | refine (foldl_frame _ _ _ ?_).trans ?_
    | refine (foldl_frame1 _ _ _ ?_).trans ?_
    | simp only [id_eq, ↓State.frame_mk, State.frame_fold, State.cause_frame, State.raise_frame]
    | (dsimp only [↓State.frame_mk, State.frame_fold, State.cause_frame, State.raise_frame])
theorem execDamperStageChange_frame (tj : Int) (s : State) :
    ∀ t, execDamperStageChange tj s = .next t → t.frame = s.frame := by
  intro t ht
  unfold execDamperStageChange at ht
  extract_lets old n c1 c2 s1 s2 s3 s4 s5 at ht
  have h1 : s1.frame = s.frame := rfl
  have h2 : s2.frame = s.frame := by
    simp only [s2]; exact ite_frame h1 ((State.cause_frame _ _ _).trans h1)
  have h3 : s3.frame = s.frame := by
    simp only [s3]; exact ite_frame ((State.discardAll_frame _).trans h2) h2
  have h4 : s4.frame = s.frame := by
    simp only [s4]; exact ite_frame ((State.raise_frame _ _).trans h3) h3
  have h5 : s5.frame = s.frame := by
    simp only [s5]; exact ite_frame ((State.raise_frame _ _).trans h4) h4
  rw [← Host.Outcome.next.inj ht]
  exact ite_frame ((State.raise_frame _ _).trans h5) h5
theorem execPvuDerate_frame (pvu : Nat) (s : State) : ∀ t, execPvuDerate pvu s = .next t → t.frame = s.frame := by
  intro t ht
  unfold execPvuDerate at ht
  repeat' first
    | (with_reducible have ht := Host.Outcome.next.inj ht; subst ht)
    | split at ht
    | (dsimp only [] at ht)
    | (obtain ⟨_, _, rfl⟩ := Option.map_eq_some_iff.mp ht)
    | contradiction
    | with_reducible (cases ht; done)
    | with_reducible rfl
    | simp only [↓State.frame_mk, State.frame_fold, foldl_frame, State.discard_frame, State.setPvu_frame]
    | intro _
    | split
    | refine (foldl_frame _ _ _ ?_).trans ?_
    | refine (foldl_frame1 _ _ _ ?_).trans ?_
    | simp only [id_eq]
    | (dsimp only [])
theorem State.fullClock_frame (s : State) : (State.fullClock s).frame = s.frame := by
  unfold State.fullClock
  repeat' first | with_reducible rfl | simp only [State.discard_frame, State.setPvu_frame] | split | refine (foldl_frame _ _ _ ?_).trans ?_ | intro _
theorem State.writeTrd_frame (s : State) (off : Nat) (v : W32) : (State.writeTrd s off v).frame = s.frame := by
  unfold State.writeTrd
  repeat' first | with_reducible rfl | simp only [↓State.frame_mk, State.frame_fold, State.histCfgWrite_frame] | split
theorem chainKernel_frame (j : Job) : ∀ u a b, (chainKernel j u a b).1.frame = u.frame := by
  intro u a b
  unfold chainKernel
  repeat' first | with_reducible rfl | simp only [kCompSign_frame, kMldsaSign_frame] | split
theorem State.setDone_frame (s : State) (q : SignQueue) (id : Nat) (n : Nat) : (State.setDone s q id n).frame = s.frame := by
  unfold State.setDone
  repeat' first | with_reducible rfl | simp only [↓State.frame_mk, State.frame_fold] | split | refine (foldl_frame _ _ _ ?_).trans ?_ | refine (foldl_frame1 _ _ _ ?_).trans ?_ | intro _ | (dsimp only [])
theorem State.dropChain_frame (s : State) (id : Nat) : (State.dropChain s id).frame = s.frame := by
  rfl
theorem State.endChain_frame (s : State) (e : Nat) (id : Nat) : (State.endChain s e id).frame = s.frame := by
  simp only [State.endChain, State.dropChain_frame, State.modJob_frame, State.setPvu_frame]
theorem State.chainResult_frame (s : State) (id : Nat) : (State.chainResult s id).1.frame = s.frame := by
  unfold State.chainResult
  repeat' first
    | with_reducible rfl
    | simp only [↓State.frame_mk, State.frame_fold, foldl_frame, State.modJob_frame, State.runKernel_frame, chainKernel_frame]
    | refine (State.runKernel_frame _ _ _ _ ?_).trans ?_
    | intro _
    | split
    | refine (foldl_frame _ _ _ ?_).trans ?_
    | refine (foldl_frame1 _ _ _ ?_).trans ?_
    | simp only [id_eq]
    | (dsimp only [])
theorem State.useSet_frame (s : State) (e : Nat) (h : W32) : (State.useSet s e h).frame = s.frame := by
  rfl
theorem State.attempt_frame (s : State) (e : Nat) (id : Nat) (q : SignQueue) : (State.attempt s e id q).frame = s.frame := by
  unfold State.attempt
  repeat' first | with_reducible rfl | simp only [State.chainResult_frame, State.endChain_frame, State.event_frame, State.modJob_frame, State.setDone_frame, State.setPvu_frame, State.useSet_frame, ↓State.frame_mk, State.frame_fold] | split
theorem State.runPosition_frame (s : State) (e : Nat) (pset : Nat) (order : Nat) (parts : Nat) (cm : Nat) : (State.runPosition s e pset order parts cm).frame = s.frame := by
  unfold State.runPosition
  repeat' first | with_reducible rfl | simp only [↓State.frame_mk, State.frame_fold, State.attempt_frame, State.setDone_frame] | split | refine (foldl_frame _ _ _ ?_).trans ?_ | refine (foldl_frame1 _ _ _ ?_).trans ?_ | intro _ | (dsimp only [])
theorem State.runPositions_frame (s : State) (e : Nat) (lo : Nat) (hi : Nat) :
    (State.runPositions s e lo hi).frame = s.frame := by
  unfold State.runPositions
  repeat' first | with_reducible rfl | simp only [State.runPosition_frame, ↓State.frame_mk, State.frame_fold] | split | refine (foldl_frame _ _ _ ?_).trans ?_ | intro _
theorem execSegmentOverrun_frame (pvu : Nat) (s : State) : ∀ t, execSegmentOverrun pvu s = .next t → t.frame = s.frame := by
  intro t ht
  rw [← Host.Outcome.next.inj ht]
  repeat' first | with_reducible rfl | simp only [State.pvuOverrun_frame] | split
theorem kPatternRun_frame  : ∀ u a b, (kPatternRun u a b).1.frame = u.frame := by
  intro u a b
  unfold kPatternRun
  repeat' first | with_reducible rfl | simp only [State.cause_frame, State.setPvu_frame, ↓State.frame_mk, State.frame_fold, State.poisonEvent_frame] | split
theorem execPatternRun_frame (job : Nat) (s : State) : ∀ t, execPatternRun job s = .next t → t.frame = s.frame := by
  intro t ht
  unfold execPatternRun at ht
  repeat' first
    | refine State.runJob_frame _ _ _ _ ?_ _ ht
    | (with_reducible have ht := Host.Outcome.next.inj ht; subst ht)
    | split at ht
    | (dsimp only [] at ht)
    | (obtain ⟨_, _, rfl⟩ := Option.map_eq_some_iff.mp ht)
    | contradiction
    | with_reducible (cases ht; done)
    | with_reducible rfl
    | simp only [↓State.frame_mk, State.frame_fold, foldl_frame, kPatternRun_frame]
    | refine Eq.trans (State.runJob_frame _ _ _ _ ?_ _ (by assumption)) ?_
    | intro _
    | split
    | refine (foldl_frame _ _ _ ?_).trans ?_
    | refine (foldl_frame1 _ _ _ ?_).trans ?_
    | simp only [id_eq]
    | (dsimp only [])
theorem State.testField_frame (s : State) (k : Nat) (i : TestInfo) (v : W32) : (State.testField s k i v).frame = s.frame := by
  unfold State.testField
  split <;> simp only [State.setTest_frame]
theorem State.testClears_frame (s : State) (k : Nat) (n : Nat) : (State.testClears s k n).frame = s.frame := by
  unfold State.testClears
  split <;> simp only [↓State.frame_mk, State.frame_fold]
theorem execSelftestStart_frame (blk : Nat) (val : W32) (s : State) :
    ∀ t, execSelftestStart blk val s = .next t → t.frame = s.frame := by
  intro t ht
  unfold execSelftestStart at ht
  repeat' first
    | (with_reducible have ht := Host.Outcome.next.inj ht; subst ht)
    | split at ht
    | (dsimp only [] at ht)
    | (obtain ⟨_, _, rfl⟩ := Option.map_eq_some_iff.mp ht)
    | contradiction
    | with_reducible (cases ht; done)
    | with_reducible rfl
    | simp only [↓State.frame_mk, State.frame_fold, foldl_frame, State.onPage_frame, State.setTest_frame, State.testClears_frame, State.testField_frame]
    | refine (State.onPage_frame _ _ _ ?_).trans ?_
    | intro _
    | split
    | refine (foldl_frame _ _ _ ?_).trans ?_
    | refine (foldl_frame1 _ _ _ ?_).trans ?_
    | simp only [id_eq]
    | (dsimp only [])
theorem execSelftestDone_frame (blk : Nat) (pass : Bool) (cores : List Nat) (s : State) :
    ∀ t, execSelftestDone blk pass cores s = .next t → t.frame = s.frame := by
  intro t ht
  rw [← Host.Outcome.next.inj ht]
  repeat' first | with_reducible rfl | simp only [State.testResult_frame] | split
theorem execEngineClockGate_frame (code : Nat) (s : State) : ∀ t, execEngineClockGate code s = .next t → t.frame = s.frame := by
  intro t ht
  unfold execEngineClockGate at ht
  repeat' first
    | (with_reducible have ht := Host.Outcome.next.inj ht; subst ht)
    | split at ht
    | (dsimp only [] at ht)
    | (obtain ⟨_, _, rfl⟩ := Option.map_eq_some_iff.mp ht)
    | contradiction
    | with_reducible (cases ht; done)
    | with_reducible rfl
    | simp only [↓State.frame_mk, State.frame_fold, foldl_frame, State.setBne_frame, State.setPvu_frame]
    | intro _
    | split
    | refine (foldl_frame _ _ _ ?_).trans ?_
    | refine (foldl_frame1 _ _ _ ?_).trans ?_
    | simp only [id_eq]
    | (dsimp only [])
theorem State.adminEnd_frame (s : State) (id : Nat) (r : Result) : (State.adminEnd s id r).frame = s.frame := by
  simp only [State.adminEnd, State.modJob_frame]
theorem State.adminWait_frame (s : State) (id : Nat) : (State.adminWait s id).frame = s.frame := by
  simp only [State.adminWait, State.modJob_frame]
theorem State.onAdmin_frame (s : State) (op : Nat) (id : Nat) (f : State → Job → State) (h_f : ∀ u0 u1, (f u0 u1).frame = u0.frame) :
    (State.onAdmin s op id f).frame = s.frame := by
  unfold State.onAdmin
  split <;> simp only [h_f]
theorem State.onOpen_frame (s : State) (op : Nat) (id : Nat) (f : State → Job → State) (h_f : ∀ u0 u1, (f u0 u1).frame = u0.frame) :
    (State.onOpen s op id f).frame = s.frame := by
  unfold State.onOpen
  split <;> simp only [h_f]
theorem execQueueNop_frame (job : Nat) (s : State) : ∀ t, execQueueNop job s = .next t → t.frame = s.frame := by
  intro t ht
  unfold execQueueNop at ht
  repeat' first
    | (with_reducible have ht := Host.Outcome.next.inj ht; subst ht)
    | split at ht
    | (dsimp only [] at ht)
    | (obtain ⟨_, _, rfl⟩ := Option.map_eq_some_iff.mp ht)
    | contradiction
    | with_reducible (cases ht; done)
    | with_reducible rfl
    | simp only [↓State.frame_mk, State.frame_fold, foldl_frame, State.finishWith_frame]
    | intro _
    | split
    | refine (foldl_frame _ _ _ ?_).trans ?_
    | refine (foldl_frame1 _ _ _ ?_).trans ?_
    | simp only [id_eq]
    | (dsimp only [])
theorem execIdentify_frame (job : Nat) (s : State) : ∀ t, execIdentify job s = .next t → t.frame = s.frame := by
  intro t ht
  rw [← Host.Outcome.next.inj ht]
  refine State.onAdmin_frame _ _ _ _ (fun u j => ?_)
  repeat' first | with_reducible rfl | simp only [State.adminEnd_frame] | split
theorem State.setVersion_frame (s : State) (id : Nat) (j : Job) : (State.setVersion s id j).frame = s.frame := by
  unfold State.setVersion
  repeat' first | with_reducible rfl | simp only [State.adminEnd_frame, State.adminWait_frame, State.setFn_frame] | split
theorem execSetVersion_frame (job : Nat) (s : State) : ∀ t, execSetVersion job s = .next t → t.frame = s.frame := by
  intro t ht
  rw [← Host.Outcome.next.inj ht]
  refine State.onAdmin_frame _ _ _ _ (fun u j => ?_)
  repeat' first | with_reducible rfl | simp only [State.setVersion_frame] | split
theorem execSetVersionApply_frame (fn : Nat) (s : State) : ∀ t, execSetVersionApply fn s = .next t → t.frame = s.frame := by
  intro t ht
  unfold execSetVersionApply at ht
  repeat' first
    | (with_reducible have ht := Host.Outcome.next.inj ht; subst ht)
    | split at ht
    | (dsimp only [] at ht)
    | (obtain ⟨_, _, rfl⟩ := Option.map_eq_some_iff.mp ht)
    | contradiction
    | with_reducible (cases ht; done)
    | with_reducible rfl
    | simp only [↓State.frame_mk, State.frame_fold, foldl_frame, State.adminEnd_frame, State.setFn_frame]
    | intro _
    | split
    | refine (foldl_frame _ _ _ ?_).trans ?_
    | refine (foldl_frame1 _ _ _ ?_).trans ?_
    | simp only [id_eq]
    | (dsimp only [])
theorem execQueueCreate_frame (job : Nat) (s : State) : ∀ t, execQueueCreate job s = .next t → t.frame = s.frame := by
  intro t ht
  rw [← Host.Outcome.next.inj ht]
  refine State.onAdmin_frame _ _ _ _ (fun u j => ?_)
  repeat' first | with_reducible rfl | simp only [State.adminEnd_frame] | split
theorem State.createQueue_frame (s : State) (fn : Nat) (q : Nat) (d : List Byte) :
    (State.createQueue s fn q d).frame = s.frame := by
  simp only [State.createQueue, State.setQueue_frame, State.writeHead_frame]
theorem State.stopQueue_frame (s : State) (fn : Nat) (q : Nat) : (State.stopQueue s fn q).frame = s.frame := by
  unfold State.stopQueue
  split <;> simp only [State.setQueue_frame]
theorem execQueueDestroy_frame (job : Nat) (s : State) : ∀ t, execQueueDestroy job s = .next t → t.frame = s.frame := by
  intro t ht
  rw [← Host.Outcome.next.inj ht]
  refine State.onAdmin_frame _ _ _ _ (fun u j => ?_)
  repeat' first | with_reducible rfl | simp only [State.adminEnd_frame, State.adminWait_frame, State.cancelWaiting_frame, State.stopQueue_frame] | split
theorem State.dropQueue_frame (s : State) (fn : Nat) (q : Nat) : (State.dropQueue s fn q).frame = s.frame := by
  rfl
theorem execQueueDestroyDone_frame (job : Nat) (s : State) : ∀ t, execQueueDestroyDone job s = .next t → t.frame = s.frame := by
  intro t ht
  rw [← Host.Outcome.next.inj ht]
  refine State.onOpen_frame _ _ _ _ (fun u j => ?_)
  repeat' first | with_reducible rfl | simp only [State.adminEnd_frame, State.dropQueue_frame, State.writeHead_frame] | split
theorem State.cancelTaken_frame (s : State) (job : Nat) (fn : Nat) (q : Nat) :
    (State.cancelTaken s job fn q).frame = s.frame := by
  unfold State.cancelTaken
  repeat' first | with_reducible rfl | simp only [State.finishWith_frame, State.modJob_frame, ↓State.frame_mk, State.frame_fold] | split | refine (foldl_frame _ _ _ ?_).trans ?_ | intro _
theorem State.cancelEntry_frame (s : State) (job : Nat) (fn : Nat) (q : Nat) (x : Queue) (e : Entry) :
    (State.cancelEntry s job fn q x e).frame = s.frame := by
  unfold State.cancelEntry
  split <;> simp only [↓State.frame_mk, State.frame_fold, State.finishWith_frame, State.hostWrite_frame, State.modJob_frame, State.setJob_frame, State.setQueue_frame]
theorem State.cancelReads_frame (s : State) (job : Nat) (fn : Nat) (q : Nat) (a0 : List Fetched) :
    (State.cancelReads s job fn q a0).frame = s.frame := by
  induction a0 generalizing s with
  | nil => rfl
  | cons r rs ih =>
    unfold State.cancelReads
    repeat' first
      | with_reducible rfl
      | simp only [ih, State.setQueue_frame, State.takeFailed_frame, State.cancelEntry_frame, State.modJob_frame]
      | split
theorem State.cancelCheck_frame (s : State) (job : Nat) : (State.cancelCheck s job).frame = s.frame := by
  simp only [State.cancelCheck, State.modJob_frame]
theorem State.startCancel_frame (s : State) (job : Nat) (j : Job) (q : Nat) (x : Queue) (reads : List Fetched) :
    (State.startCancel s job j q x reads).frame = s.frame := by
  unfold State.startCancel
  repeat' first | with_reducible rfl | simp only [State.adminWait_frame, State.cancelCheck_frame, State.cancelReads_frame, State.cancelTaken_frame, State.modJob_frame, State.setQueue_frame, State.stopQueue_frame, ↓State.frame_mk, State.frame_fold] | split
theorem execQueueCancel_frame (job : Nat) (reads : List Fetched) (s : State) :
    ∀ t, execQueueCancel job reads s = .next t → t.frame = s.frame := by
  intro t ht
  unfold execQueueCancel at ht
  repeat' first
    | (with_reducible have ht := Host.Outcome.next.inj ht; subst ht)
    | split at ht
    | (dsimp only [] at ht)
    | (obtain ⟨_, _, rfl⟩ := Option.map_eq_some_iff.mp ht)
    | contradiction
    | with_reducible (cases ht; done)
    | with_reducible rfl
    | simp only [↓State.frame_mk, State.frame_fold, foldl_frame, State.adminEnd_frame, State.cancelCheck_frame, State.cancelReads_frame, State.onOpen_frame, State.startCancel_frame]
    | refine (State.onOpen_frame _ _ _ _ ?_).trans ?_
    | intro _
    | split
    | refine (foldl_frame _ _ _ ?_).trans ?_
    | refine (foldl_frame1 _ _ _ ?_).trans ?_
    | simp only [id_eq]
    | (dsimp only [])
theorem execQueueCancelDone_frame (job : Nat) (s : State) : ∀ t, execQueueCancelDone job s = .next t → t.frame = s.frame := by
  intro t ht
  rw [← Host.Outcome.next.inj ht]
  refine State.onOpen_frame _ _ _ _ (fun u j => ?_)
  repeat' first | with_reducible rfl | simp only [State.adminEnd_frame, State.setQueue_frame, State.writeHead_frame, ↓State.frame_mk, State.frame_fold, State.onOpen_frame] | split
theorem execPatternLoad_frame (job : Nat) (s : State) : ∀ t, execPatternLoad job s = .next t → t.frame = s.frame := by
  intro t ht
  rw [← Host.Outcome.next.inj ht]
  refine State.onAdmin_frame _ _ _ _ (fun u j => ?_)
  repeat' first | with_reducible rfl | simp only [State.adminEnd_frame, State.loadPattern_frame] | split
theorem execPatternUnload_frame (job : Nat) (s : State) : ∀ t, execPatternUnload job s = .next t → t.frame = s.frame := by
  intro t ht
  rw [← Host.Outcome.next.inj ht]
  refine State.onAdmin_frame _ _ _ _ (fun u j => ?_)
  repeat' first | with_reducible rfl | simp only [↓State.frame_mk, State.frame_fold, State.adminEnd_frame, State.adminWait_frame] | split
theorem execPatternUnloadDone_frame (job : Nat) (s : State) :
    ∀ t, execPatternUnloadDone job s = .next t → t.frame = s.frame := by
  intro t ht
  rw [← Host.Outcome.next.inj ht]
  refine State.onOpen_frame _ _ _ _ (fun u j => ?_)
  repeat' first | with_reducible rfl | simp only [↓State.frame_mk, State.frame_fold, State.adminEnd_frame] | split
theorem execLogRead_frame (job : Nat) (s : State) : ∀ t, execLogRead job s = .next t → t.frame = s.frame := by
  intro t ht
  rw [← Host.Outcome.next.inj ht]
  refine State.onAdmin_frame _ _ _ _ (fun u j => ?_)
  repeat' first | with_reducible rfl | simp only [State.adminEnd_frame] | split
theorem State.setView_frame (s : State) (fn : Nat) (v : Nat) (x : View) : (State.setView s fn v x).frame = s.frame := by
  rfl
theorem State.viewError_frame (s : State) (fn : Nat) (v : Nat) (e : Nat) : (State.viewError s fn v e).frame = s.frame := by
  rfl
theorem State.viewCommand_frame (s : State) (fn : Nat) (v : Nat) (states : List Nat) (f : View → State) (h_f : ∀ u0, (f u0).frame = s.frame) :
    (State.viewCommand s fn v states f).frame = s.frame := by
  unfold State.viewCommand
  repeat' first | with_reducible rfl | simp only [State.viewError_frame, h_f] | split
theorem execDgsOpen_frame (fn : Nat) (view : Nat) (s : State) : ∀ t, execDgsOpen fn view s = .next t → t.frame = s.frame := by
  intro t ht
  unfold execDgsOpen at ht
  repeat' first
    | (with_reducible have ht := Host.Outcome.next.inj ht; subst ht)
    | split at ht
    | (dsimp only [] at ht)
    | (obtain ⟨_, _, rfl⟩ := Option.map_eq_some_iff.mp ht)
    | contradiction
    | with_reducible (cases ht; done)
    | with_reducible rfl
    | simp only [↓State.frame_mk, State.frame_fold, foldl_frame, State.setView_frame, State.viewCommand_frame, State.viewError_frame]
    | refine (State.viewCommand_frame _ _ _ _ _ ?_).trans ?_
    | intro _
    | split
    | refine (foldl_frame _ _ _ ?_).trans ?_
    | refine (foldl_frame1 _ _ _ ?_).trans ?_
    | simp only [id_eq]
    | (dsimp only [])
theorem execDgsStart_frame (fn : Nat) (view : Nat) (s : State) : ∀ t, execDgsStart fn view s = .next t → t.frame = s.frame := by
  intro t ht
  unfold execDgsStart at ht
  repeat' first
    | (with_reducible have ht := Host.Outcome.next.inj ht; subst ht)
    | split at ht
    | (dsimp only [] at ht)
    | (obtain ⟨_, _, rfl⟩ := Option.map_eq_some_iff.mp ht)
    | contradiction
    | with_reducible (cases ht; done)
    | with_reducible rfl
    | simp only [↓State.frame_mk, State.frame_fold, foldl_frame, State.setView_frame, State.viewCommand_frame, State.viewError_frame]
    | refine (State.viewCommand_frame _ _ _ _ _ ?_).trans ?_
    | intro _
    | split
    | refine (foldl_frame _ _ _ ?_).trans ?_
    | refine (foldl_frame1 _ _ _ ?_).trans ?_
    | simp only [id_eq]
    | (dsimp only [])
theorem State.dataWord_frame (s : State) (fn : Nat) (v : Nat) (w : List Byte) : (State.dataWord s fn v w).frame = s.frame := by
  unfold State.dataWord
  repeat' first | with_reducible rfl | simp only [State.event_frame, State.setView_frame] | split
theorem execDgsVdata_frame (fn : Nat) (view : Nat) (size : Nat) (val : W64) (s : State) :
    ∀ t, execDgsVdata fn view size val s = .next t → t.frame = s.frame := by
  intro t ht
  rw [← Host.Outcome.next.inj ht]
  repeat' first | with_reducible rfl | simp only [State.dataWord_frame, State.raise_frame] | split
theorem execDgsBlockCompressed_frame (fn : Nat) (view : Nat) (mismatches : Nat) (s : State) :
    ∀ t, execDgsBlockCompressed fn view mismatches s = .next t → t.frame = s.frame := by
  intro t ht
  unfold execDgsBlockCompressed at ht
  repeat' first
    | (with_reducible have ht := Host.Outcome.next.inj ht; subst ht)
    | split at ht
    | (dsimp only [] at ht)
    | (obtain ⟨_, _, rfl⟩ := Option.map_eq_some_iff.mp ht)
    | contradiction
    | with_reducible (cases ht; done)
    | with_reducible rfl
    | simp only [↓State.frame_mk, State.frame_fold, foldl_frame, State.event_frame, State.raise_frame, State.setView_frame]
    | intro _
    | split
    | refine (foldl_frame _ _ _ ?_).trans ?_
    | refine (foldl_frame1 _ _ _ ?_).trans ?_
    | simp only [id_eq]
    | (dsimp only [])
theorem execDgsFinal_frame (fn : Nat) (view : Nat) (s : State) : ∀ t, execDgsFinal fn view s = .next t → t.frame = s.frame := by
  intro t ht
  unfold execDgsFinal at ht
  repeat' first
    | (with_reducible have ht := Host.Outcome.next.inj ht; subst ht)
    | split at ht
    | (dsimp only [] at ht)
    | (obtain ⟨_, _, rfl⟩ := Option.map_eq_some_iff.mp ht)
    | contradiction
    | with_reducible (cases ht; done)
    | with_reducible rfl
    | simp only [↓State.frame_mk, State.frame_fold, foldl_frame, State.setView_frame, State.viewCommand_frame]
    | refine (State.viewCommand_frame _ _ _ _ _ ?_).trans ?_
    | intro _
    | split
    | refine (foldl_frame _ _ _ ?_).trans ?_
    | refine (foldl_frame1 _ _ _ ?_).trans ?_
    | simp only [id_eq]
    | (dsimp only [])
theorem execDgsFinalDone_frame (fn : Nat) (view : Nat) (s : State) :
    ∀ t, execDgsFinalDone fn view s = .next t → t.frame = s.frame := by
  intro t ht
  unfold execDgsFinalDone at ht
  repeat' first
    | (with_reducible have ht := Host.Outcome.next.inj ht; subst ht)
    | split at ht
    | (dsimp only [] at ht)
    | (obtain ⟨_, _, rfl⟩ := Option.map_eq_some_iff.mp ht)
    | contradiction
    | with_reducible (cases ht; done)
    | with_reducible rfl
    | simp only [↓State.frame_mk, State.frame_fold, foldl_frame, State.count_frame, State.event_frame, State.setView_frame, State.viewError_frame]
    | intro _
    | split
    | refine (foldl_frame _ _ _ ?_).trans ?_
    | refine (foldl_frame1 _ _ _ ?_).trans ?_
    | simp only [id_eq]
    | (dsimp only [])
theorem execDgsAbort_frame (fn : Nat) (view : Nat) (s : State) : ∀ t, execDgsAbort fn view s = .next t → t.frame = s.frame := by
  intro t ht
  unfold execDgsAbort at ht
  repeat' first
    | (with_reducible have ht := Host.Outcome.next.inj ht; subst ht)
    | split at ht
    | (dsimp only [] at ht)
    | (obtain ⟨_, _, rfl⟩ := Option.map_eq_some_iff.mp ht)
    | contradiction
    | with_reducible (cases ht; done)
    | with_reducible rfl
    | simp only [↓State.frame_mk, State.frame_fold, foldl_frame, State.setView_frame, State.viewCommand_frame]
    | refine (State.viewCommand_frame _ _ _ _ _ ?_).trans ?_
    | intro _
    | split
    | refine (foldl_frame _ _ _ ?_).trans ?_
    | refine (foldl_frame1 _ _ _ ?_).trans ?_
    | simp only [id_eq]
    | (dsimp only [])
theorem execDgsClose_frame (fn : Nat) (view : Nat) (s : State) : ∀ t, execDgsClose fn view s = .next t → t.frame = s.frame := by
  intro t ht
  unfold execDgsClose at ht
  repeat' first
    | (with_reducible have ht := Host.Outcome.next.inj ht; subst ht)
    | split at ht
    | (dsimp only [] at ht)
    | (obtain ⟨_, _, rfl⟩ := Option.map_eq_some_iff.mp ht)
    | contradiction
    | with_reducible (cases ht; done)
    | with_reducible rfl
    | simp only [↓State.frame_mk, State.frame_fold, foldl_frame, State.setView_frame, State.viewCommand_frame]
    | refine (State.viewCommand_frame _ _ _ _ _ ?_).trans ?_
    | intro _
    | split
    | refine (foldl_frame _ _ _ ?_).trans ?_
    | refine (foldl_frame1 _ _ _ ?_).trans ?_
    | simp only [id_eq]
    | (dsimp only [])
theorem execDgsSave_frame (fn : Nat) (view : Nat) (s : State) : ∀ t, execDgsSave fn view s = .next t → t.frame = s.frame := by
  intro t ht
  unfold execDgsSave at ht
  repeat' first
    | (with_reducible have ht := Host.Outcome.next.inj ht; subst ht)
    | split at ht
    | (dsimp only [↓State.frame_mk, State.frame_fold, State.count_frame, State.setFn_frame, State.viewCommand_frame, State.viewError_frame] at ht)
    | (obtain ⟨_, _, rfl⟩ := Option.map_eq_some_iff.mp ht)
    | contradiction
    | with_reducible (cases ht; done)
    | with_reducible rfl
    | simp only [↓State.frame_mk, State.frame_fold, State.count_frame, State.setFn_frame, State.viewCommand_frame, State.viewError_frame]
    | refine (State.viewCommand_frame _ _ _ _ _ ?_).trans ?_
    | intro _
    | split
    | refine (foldl_frame _ _ _ ?_).trans ?_
    | refine (foldl_frame1 _ _ _ ?_).trans ?_
    | simp only [id_eq, ↓State.frame_mk, State.frame_fold, State.count_frame, State.setFn_frame, State.viewCommand_frame, State.viewError_frame]
    | (dsimp only [↓State.frame_mk, State.frame_fold, State.count_frame, State.setFn_frame, State.viewCommand_frame, State.viewError_frame])
theorem execDgsRestore_frame (fn : Nat) (view : Nat) (s : State) :
    ∀ t, execDgsRestore fn view s = .next t → t.frame = s.frame := by
  intro t ht
  unfold execDgsRestore at ht
  repeat' first
    | (with_reducible have ht := Host.Outcome.next.inj ht; subst ht)
    | split at ht
    | (dsimp only [↓State.frame_mk, State.frame_fold, State.setView_frame, State.viewCommand_frame, State.viewError_frame] at ht)
    | (obtain ⟨_, _, rfl⟩ := Option.map_eq_some_iff.mp ht)
    | contradiction
    | with_reducible (cases ht; done)
    | with_reducible rfl
    | simp only [↓State.frame_mk, State.frame_fold, State.count_frame, State.setView_frame, State.viewCommand_frame, State.viewError_frame]
    | refine (State.viewCommand_frame _ _ _ _ _ ?_).trans ?_
    | intro _
    | split
    | refine (foldl_frame _ _ _ ?_).trans ?_
    | refine (foldl_frame1 _ _ _ ?_).trans ?_
    | simp only [id_eq, ↓State.frame_mk, State.frame_fold, State.setView_frame, State.viewCommand_frame, State.viewError_frame]
    | (dsimp only [↓State.frame_mk, State.frame_fold, State.setView_frame, State.viewCommand_frame, State.viewError_frame])
theorem execDgsResultRead_frame (fn : Nat) (view : Nat) (word : Nat) (s : State) :
    ∀ t, execDgsResultRead fn view word s = .next t → t.frame = s.frame := by
  intro t ht
  unfold execDgsResultRead at ht
  repeat' first
    | (with_reducible have ht := Host.Outcome.next.inj ht; subst ht)
    | split at ht
    | (dsimp only [] at ht)
    | (obtain ⟨_, _, rfl⟩ := Option.map_eq_some_iff.mp ht)
    | contradiction
    | with_reducible (cases ht; done)
    | with_reducible rfl
    | simp only [↓State.frame_mk, State.frame_fold, foldl_frame, State.answer_frame, State.setView_frame]
    | intro _
    | split
    | refine (foldl_frame _ _ _ ?_).trans ?_
    | refine (foldl_frame1 _ _ _ ?_).trans ?_
    | simp only [id_eq]
    | (dsimp only [])
theorem State.setWindow_frame (s : State) (fn : Nat) (f : DgsWindow → DgsWindow) :
    (State.setWindow s fn f).frame = s.frame := by
  rfl
theorem execDgsKload_frame (fn : Nat) (handle : W32) (s : State) :
    ∀ t, execDgsKload fn handle s = .next t → t.frame = s.frame := by
  intro t ht
  rw [← Host.Outcome.next.inj ht]
  repeat' first | with_reducible rfl | simp only [State.setWindow_frame] | split
theorem execKeyLoadDone_frame (fn : Nat) (s : State) : ∀ t, execKeyLoadDone fn s = .next t → t.frame = s.frame := by
  intro t ht
  unfold execKeyLoadDone at ht
  repeat' first
    | (with_reducible have ht := Host.Outcome.next.inj ht; subst ht)
    | split at ht
    | (dsimp only [↓State.frame_mk, State.frame_fold, State.sendKey_frame, State.setWindow_frame] at ht)
    | (obtain ⟨_, _, rfl⟩ := Option.map_eq_some_iff.mp ht)
    | contradiction
    | with_reducible (cases ht; done)
    | with_reducible rfl
    | simp only [↓State.frame_mk, State.frame_fold, State.setWindow_frame, State.sendKey_frame]
    | intro _
    | split
    | refine (foldl_frame _ _ _ ?_).trans ?_
    | refine (foldl_frame1 _ _ _ ?_).trans ?_
    | simp only [id_eq, ↓State.frame_mk, State.frame_fold, State.sendKey_frame, State.setWindow_frame]
    | (dsimp only [↓State.frame_mk, State.frame_fold, State.sendKey_frame, State.setWindow_frame])
theorem execDgsKunload_frame (fn : Nat) (slot : W32) (s : State) :
    ∀ t, execDgsKunload fn slot s = .next t → t.frame = s.frame := by
  intro t ht
  unfold execDgsKunload at ht
  repeat' first
    | (with_reducible have ht := Host.Outcome.next.inj ht; subst ht)
    | split at ht
    | (dsimp only [] at ht)
    | (obtain ⟨_, _, rfl⟩ := Option.map_eq_some_iff.mp ht)
    | contradiction
    | with_reducible (cases ht; done)
    | with_reducible rfl
    | simp only [↓State.frame_mk, State.frame_fold, foldl_frame, State.setWindow_frame]
    | intro _
    | split
    | refine (foldl_frame _ _ _ ?_).trans ?_
    | refine (foldl_frame1 _ _ _ ?_).trans ?_
    | simp only [id_eq]
    | (dsimp only [])
theorem State.clearFnDgs_frame (s : State) (fn : Nat) : (State.clearFnDgs s fn).frame = s.frame := by
  rfl
theorem State.writeWindow_frame (s : State) (fn : Nat) (off : Nat) (v : W32) :
    (State.writeWindow s fn off v).frame = s.frame := by
  unfold State.writeWindow
  repeat' first | with_reducible rfl | simp only [State.setView_frame, State.setWindow_frame, State.viewError_frame] | split
theorem State.modFn_frame (s : State) (fn : Nat) (f : Func → Func) : (State.modFn s fn f).frame = s.frame := by
  unfold State.modFn
  split <;> simp only [State.setFn_frame]
theorem State.logEvent_frame (s : State) (fn : Nat) (mk : Nat → Nat → EventRec) : (State.logEvent s fn mk).frame = s.frame := by
  simp only [State.logEvent, State.modFn_frame]
theorem State.message_frame (s : State) (fn : Nat) (typ : Nat) (payload : List Byte) :
    (State.message s fn typ payload).frame = s.frame := by
  simp only [State.message, State.modFn_frame]
theorem State.setInst_frame (s : State) (fn : Nat) (st : Nat) : (State.setInst s fn st).frame = s.frame := by
  simp only [State.setInst, State.cause_frame, State.modFn_frame]
theorem State.reserve_frame (s : State) (fn : Nat) (d : List Byte) : (State.reserve s fn d).frame = s.frame := by
  simp only [State.reserve, State.modFn_frame]
theorem State.nextGen_frame (s : State) (fn : Nat) : (State.nextGen s fn).frame = s.frame := by
  simp only [State.nextGen, ↓State.frame_mk, State.frame_fold, State.modFn_frame]
theorem State.createInst_frame (s : State) (n : Nat) (d : List Byte) : (State.createInst s n d).frame = s.frame := by
  simp only [State.createInst, ↓State.frame_mk, State.frame_fold, State.cause_frame, State.logEvent_frame, State.nextGen_frame, State.reserve_frame]
theorem execInstanceCreate_frame (job : Nat) (s : State) : ∀ t, execInstanceCreate job s = .next t → t.frame = s.frame := by
  intro t ht
  rw [← Host.Outcome.next.inj ht]
  refine State.onAdmin_frame _ _ _ _ (fun u j => ?_)
  repeat' first | with_reducible rfl | simp only [State.adminEnd_frame, State.createInst_frame] | split
theorem execInstanceModify_frame (job : Nat) (s : State) : ∀ t, execInstanceModify job s = .next t → t.frame = s.frame := by
  intro t ht
  rw [← Host.Outcome.next.inj ht]
  refine State.onAdmin_frame _ _ _ _ (fun u j => ?_)
  repeat' first | with_reducible rfl | simp only [State.adminEnd_frame] | split
theorem State.applyModify_frame (s : State) (n : Nat) (d : List Byte) : (State.applyModify s n d).frame = s.frame := by
  unfold State.applyModify
  split <;> simp only [↓State.frame_mk, State.frame_fold, State.cause_frame, State.logEvent_frame, State.message_frame, State.modFn_frame, State.reserve_frame]
theorem State.scanAll_frame (s : State) (fn : Nat) : (State.scanAll s fn).frame = s.frame := by
  unfold State.scanAll
  repeat' first | with_reducible rfl | simp only [State.setQueue_frame] | split | refine (foldl_frame _ _ _ ?_).trans ?_ | intro _
theorem execInstanceEnable_frame (job : Nat) (s : State) : ∀ t, execInstanceEnable job s = .next t → t.frame = s.frame := by
  intro t ht
  rw [← Host.Outcome.next.inj ht]
  refine State.onAdmin_frame _ _ _ _ (fun u j => ?_)
  repeat' first | with_reducible rfl | simp only [State.adminEnd_frame, State.scanAll_frame, State.setInst_frame] | split
theorem State.startDrain_frame (s : State) (fn : Nat) (st : Nat) (job : Nat) :
    (State.startDrain s fn st job).frame = s.frame := by
  simp only [State.startDrain, State.adminWait_frame, State.modFn_frame, State.setInst_frame]
theorem execInstanceQuiesce_frame (job : Nat) (s : State) : ∀ t, execInstanceQuiesce job s = .next t → t.frame = s.frame := by
  intro t ht
  unfold execInstanceQuiesce at ht
  repeat' first
    | (with_reducible have ht := Host.Outcome.next.inj ht; subst ht)
    | split at ht
    | (dsimp only [] at ht)
    | (obtain ⟨_, _, rfl⟩ := Option.map_eq_some_iff.mp ht)
    | contradiction
    | with_reducible (cases ht; done)
    | with_reducible rfl
    | simp only [↓State.frame_mk, State.frame_fold, foldl_frame, State.adminEnd_frame, State.cancelWaiting_frame, State.message_frame, State.onAdmin_frame, State.startDrain_frame]
    | refine (State.onAdmin_frame _ _ _ _ ?_).trans ?_
    | intro _
    | split
    | refine (foldl_frame _ _ _ ?_).trans ?_
    | refine (foldl_frame1 _ _ _ ?_).trans ?_
    | simp only [id_eq]
    | (dsimp only [])
theorem execInstanceQuiesced_frame (fn : Nat) (s : State) : ∀ t, execInstanceQuiesced fn s = .next t → t.frame = s.frame := by
  intro t ht
  unfold execInstanceQuiesced at ht
  repeat' first
    | (with_reducible have ht := Host.Outcome.next.inj ht; subst ht)
    | split at ht
    | (dsimp only [] at ht)
    | (obtain ⟨_, _, rfl⟩ := Option.map_eq_some_iff.mp ht)
    | contradiction
    | with_reducible (cases ht; done)
    | with_reducible rfl
    | simp only [↓State.frame_mk, State.frame_fold, foldl_frame, State.adminEnd_frame, State.logEvent_frame, State.modFn_frame, State.setInst_frame]
    | intro _
    | split
    | refine (foldl_frame _ _ _ ?_).trans ?_
    | refine (foldl_frame1 _ _ _ ?_).trans ?_
    | simp only [id_eq]
    | (dsimp only [])
theorem State.cancelRestore_frame (s : State) (fn : Nat) : (State.cancelRestore s fn).frame = s.frame := by
  rfl
theorem State.startReset_frame (s : State) (fn : Nat) (back : Option Nat) (destroy : Bool) (flr : Bool) (job : Option Nat) :
    (State.startReset s fn back destroy flr job).frame = s.frame := by
  unfold State.startReset
  repeat' first | with_reducible rfl | simp only [State.adminEnd_frame, State.cancelRestore_frame, State.modFn_frame, State.setInst_frame] | split
theorem execInstanceReset_frame (job : Nat) (s : State) : ∀ t, execInstanceReset job s = .next t → t.frame = s.frame := by
  intro t ht
  rw [← Host.Outcome.next.inj ht]
  refine State.onAdmin_frame _ _ _ _ (fun u j => ?_)
  repeat' first | with_reducible rfl | simp only [State.adminEnd_frame, State.adminWait_frame, State.startReset_frame] | split
theorem execInstanceDestroy_frame (job : Nat) (s : State) : ∀ t, execInstanceDestroy job s = .next t → t.frame = s.frame := by
  intro t ht
  rw [← Host.Outcome.next.inj ht]
  refine State.onAdmin_frame _ _ _ _ (fun u j => ?_)
  repeat' first | with_reducible rfl | simp only [State.adminEnd_frame, State.adminWait_frame, State.startReset_frame] | split
theorem execBusMasterEnableClear_frame (fn : Nat) (s : State) :
    ∀ t, execBusMasterEnableClear fn s = .next t → t.frame = s.frame := by
  intro t ht
  rw [← Host.Outcome.next.inj ht]
  simp only [State.modFn_frame, State.startReset_frame]
theorem State.resetAll_frame (s : State) : (State.resetAll s).frame = s.frame := by
  unfold State.resetAll
  repeat' first | with_reducible rfl | simp only [State.startReset_frame, State.modFn_frame] | split | refine (foldl_frame _ _ _ ?_).trans ?_ | intro _
theorem execVfEnableClear_frame (s : State) : ∀ t, execVfEnableClear s = .next t → t.frame = s.frame := by
  intro t ht
  rw [← Host.Outcome.next.inj ht]
  simp only [↓State.frame_mk, State.frame_fold, State.resetAll_frame]
theorem State.squashForward_frame (s : State) (id : Nat) : (State.squashForward s id).frame = s.frame := by
  unfold State.squashForward
  repeat' first | with_reducible rfl | simp only [↓State.frame_mk, State.frame_fold, State.sendFrame_frame] | split
theorem State.squashFn_frame (s : State) (fn : Nat) : (State.squashFn s fn).frame = s.frame := by
  unfold State.squashFn
  repeat' first | with_reducible rfl | simp only [↓State.frame_mk, State.frame_fold, State.bneAbort_frame, State.modJob_frame, State.squashForward_frame] | split | refine (foldl_frame _ _ _ ?_).trans ?_ | intro _
theorem State.dropSquashed_frame (s : State) (id : Nat) : (State.dropSquashed s id).frame = s.frame := by
  unfold State.dropSquashed
  repeat' first | with_reducible rfl | simp only [↓State.frame_mk, State.frame_fold, State.dropCreated_frame, State.logEvent_frame, State.releaseKey_frame, State.reveal_frame] | split
theorem State.clearFn_frame (s : State) (fn : Nat) : (State.clearFn s fn).frame = s.frame := by
  simp only [State.clearFn, ↓State.frame_mk, State.frame_fold, State.clearFnDgs_frame, State.modFn_frame]
theorem State.dropDomain_frame (s : State) (fn : Nat) (job : Option Nat) : (State.dropDomain s fn job).frame = s.frame := by
  unfold State.dropDomain
  repeat' first | with_reducible rfl | simp only [↓State.frame_mk, State.frame_fold, State.journal_frame, State.setKey_frame, State.unpin_frame] | split | refine (foldl_frame _ _ _ ?_).trans ?_ | intro _
theorem State.endReset_frame (s : State) (f : Func) (fn : Nat) : (State.endReset s f fn).frame = s.frame := by
  unfold State.endReset
  repeat' first | with_reducible rfl | simp only [State.adminEnd_frame, State.emit_frame] | split
theorem execInstanceResetDone_frame (fn : Nat) (s : State) : ∀ t, execInstanceResetDone fn s = .next t → t.frame = s.frame := by
  intro t ht
  unfold execInstanceResetDone at ht
  repeat' first
    | (with_reducible have ht := Host.Outcome.next.inj ht; subst ht)
    | split at ht
    | (dsimp only [] at ht)
    | (obtain ⟨_, _, rfl⟩ := Option.map_eq_some_iff.mp ht)
    | contradiction
    | with_reducible (cases ht; done)
    | with_reducible rfl
    | simp only [↓State.frame_mk, State.frame_fold, foldl_frame, State.cause_frame, State.clearFn_frame, State.dropDomain_frame, State.dropSquashed_frame, State.endReset_frame, State.logEvent_frame, State.message_frame, State.modFn_frame, State.nextGen_frame]
    | intro _
    | split
    | refine (foldl_frame _ _ _ ?_).trans ?_
    | refine (foldl_frame1 _ _ _ ?_).trans ?_
    | simp only [id_eq]
    | (dsimp only [])
theorem execRecoveryWindowClose_frame (s : State) : ∀ t, execRecoveryWindowClose s = .next t → t.frame = s.frame := by
  intro t ht
  rw [← Host.Outcome.next.inj ht]
  simp only [↓State.frame_mk, State.frame_fold]
theorem execDirtyLogStart_frame (job : Nat) (s : State) : ∀ t, execDirtyLogStart job s = .next t → t.frame = s.frame := by
  intro t ht
  rw [← Host.Outcome.next.inj ht]
  refine State.onAdmin_frame _ _ _ _ (fun u j => ?_)
  repeat' first | with_reducible rfl | simp only [State.adminEnd_frame] | split
theorem State.startDirty_frame (s : State) (n : Nat) (d : List Byte) : (State.startDirty s n d).frame = s.frame := by
  simp only [State.startDirty, State.modFn_frame]
theorem execDirtyLogRead_frame (job : Nat) (s : State) : ∀ t, execDirtyLogRead job s = .next t → t.frame = s.frame := by
  intro t ht
  rw [← Host.Outcome.next.inj ht]
  refine State.onAdmin_frame _ _ _ _ (fun u j => ?_)
  repeat' first | with_reducible rfl | simp only [State.adminEnd_frame, State.modFn_frame] | split
theorem execDirtyLogStop_frame (job : Nat) (s : State) : ∀ t, execDirtyLogStop job s = .next t → t.frame = s.frame := by
  intro t ht
  rw [← Host.Outcome.next.inj ht]
  refine State.onAdmin_frame _ _ _ _ (fun u j => ?_)
  repeat' first | with_reducible rfl | simp only [State.adminEnd_frame, State.modFn_frame] | split
theorem execMbxUpSend_frame (fn : Nat) (s : State) : ∀ t, execMbxUpSend fn s = .next t → t.frame = s.frame := by
  intro t ht
  unfold execMbxUpSend at ht
  repeat' first
    | (with_reducible have ht := Host.Outcome.next.inj ht; subst ht)
    | split at ht
    | (dsimp only [] at ht)
    | (obtain ⟨_, _, rfl⟩ := Option.map_eq_some_iff.mp ht)
    | contradiction
    | with_reducible (cases ht; done)
    | with_reducible rfl
    | simp only [↓State.frame_mk, State.frame_fold, foldl_frame, State.cause_frame, State.irqSync_frame, State.setFn_frame]
    | intro _
    | split
    | refine (foldl_frame _ _ _ ?_).trans ?_
    | refine (foldl_frame1 _ _ _ ?_).trans ?_
    | simp only [id_eq]
    | (dsimp only [])
theorem execMbxDnSend_frame (fn : Nat) (s : State) : ∀ t, execMbxDnSend fn s = .next t → t.frame = s.frame := by
  intro t ht
  unfold execMbxDnSend at ht
  repeat' first
    | (with_reducible have ht := Host.Outcome.next.inj ht; subst ht)
    | split at ht
    | (dsimp only [] at ht)
    | (obtain ⟨_, _, rfl⟩ := Option.map_eq_some_iff.mp ht)
    | contradiction
    | with_reducible (cases ht; done)
    | with_reducible rfl
    | simp only [↓State.frame_mk, State.frame_fold, foldl_frame, State.cause_frame, State.irqSync_frame, State.setFn_frame]
    | intro _
    | split
    | refine (foldl_frame _ _ _ ?_).trans ?_
    | refine (foldl_frame1 _ _ _ ?_).trans ?_
    | simp only [id_eq]
    | (dsimp only [])
theorem execMbxUpAck_frame (fn : Nat) (s : State) : ∀ t, execMbxUpAck fn s = .next t → t.frame = s.frame := by
  intro t ht
  unfold execMbxUpAck at ht
  repeat' first
    | (with_reducible have ht := Host.Outcome.next.inj ht; subst ht)
    | split at ht
    | (dsimp only [] at ht)
    | (obtain ⟨_, _, rfl⟩ := Option.map_eq_some_iff.mp ht)
    | contradiction
    | with_reducible (cases ht; done)
    | with_reducible rfl
    | simp only [↓State.frame_mk, State.frame_fold, foldl_frame, State.cause_frame, State.irqSync_frame, State.setFn_frame]
    | intro _
    | split
    | refine (foldl_frame _ _ _ ?_).trans ?_
    | refine (foldl_frame1 _ _ _ ?_).trans ?_
    | simp only [id_eq]
    | (dsimp only [])
theorem execMbxDnAck_frame (fn : Nat) (s : State) : ∀ t, execMbxDnAck fn s = .next t → t.frame = s.frame := by
  intro t ht
  unfold execMbxDnAck at ht
  repeat' first
    | (with_reducible have ht := Host.Outcome.next.inj ht; subst ht)
    | split at ht
    | (dsimp only [] at ht)
    | (obtain ⟨_, _, rfl⟩ := Option.map_eq_some_iff.mp ht)
    | contradiction
    | with_reducible (cases ht; done)
    | with_reducible rfl
    | simp only [↓State.frame_mk, State.frame_fold, foldl_frame, State.cause_frame, State.irqSync_frame, State.setFn_frame]
    | intro _
    | split
    | refine (foldl_frame _ _ _ ?_).trans ?_
    | refine (foldl_frame1 _ _ _ ?_).trans ?_
    | simp only [id_eq]
    | (dsimp only [])
theorem execModuleMessage_frame (fn : Nat) (s : State) : ∀ t, execModuleMessage fn s = .next t → t.frame = s.frame := by
  intro t ht
  unfold execModuleMessage at ht
  repeat' first
    | (with_reducible have ht := Host.Outcome.next.inj ht; subst ht)
    | split at ht
    | (dsimp only [] at ht)
    | (obtain ⟨_, _, rfl⟩ := Option.map_eq_some_iff.mp ht)
    | contradiction
    | with_reducible (cases ht; done)
    | with_reducible rfl
    | simp only [↓State.frame_mk, State.frame_fold, foldl_frame, State.irqSync_frame, State.setFn_frame]
    | intro _
    | split
    | refine (foldl_frame _ _ _ ?_).trans ?_
    | refine (foldl_frame1 _ _ _ ?_).trans ?_
    | simp only [id_eq]
    | (dsimp only [])
theorem State.writeInst_frame (s : State) (fn : Nat) (off : Nat) (v : W32) : (State.writeInst s fn off v).frame = s.frame := by
  unfold State.writeInst
  repeat' first | with_reducible rfl | simp only [State.setFn_frame, ↓State.frame_mk, State.frame_fold] | split
theorem execPatchLoad_frame (job : Nat) (s : State) : ∀ t, execPatchLoad job s = .next t → t.frame = s.frame := by
  intro t ht
  rw [← Host.Outcome.next.inj ht]
  refine State.onAdmin_frame _ _ _ _ (fun u j => ?_)
  repeat' first | with_reducible rfl | simp only [↓State.frame_mk, State.frame_fold, State.adminEnd_frame] | split
theorem State.injectPatch_frame (s : State) (code : Nat) (b : Bobbin) : (State.injectPatch s code b).frame = s.frame := by
  unfold State.injectPatch
  repeat' first | with_reducible rfl | refine Eq.trans (State.injectAt_frame _ _ _ _ (by assumption)) ?_ | refine Eq.trans (State.injectAtPair_frame (by assumption)) ?_ | simp only [↓State.frame_mk, State.frame_fold, State.injectAt_frame, State.keepInjected_frame] | split | refine (foldl_frame _ _ _ ?_).trans ?_ | refine (foldl_frame1 _ _ _ ?_).trans ?_ | intro _ | (dsimp only [])
theorem State.loadEngine_frame (s0 : State) (code : Nat) (im : PatchImage) : (State.loadEngine s0 code im).frame = s0.frame := by
  unfold State.loadEngine
  repeat' first | with_reducible rfl | simp only [↓State.frame_mk, State.frame_fold, State.injectPatch_frame, State.setBne_frame, State.setPvu_frame] | split | refine (foldl_frame _ _ _ ?_).trans ?_ | refine (foldl_frame1 _ _ _ ?_).trans ?_ | intro _ | (dsimp only [])
theorem State.setTurn_frame (s : State) (job : Nat) (left : List Nat) (ended : List Nat) :
    (State.setTurn s job left ended).frame = s.frame := by
  unfold State.setTurn
  split <;> simp only [↓State.frame_mk, State.frame_fold, State.adminEnd_frame]
theorem State.activateImage_frame (s : State) (job : Nat) (im : PatchImage) :
    (State.activateImage s job im).frame = s.frame := by
  simp only [State.activateImage, ↓State.frame_mk, State.frame_fold, State.adminWait_frame, State.setTurn_frame, State.programPages_frame]
theorem execPatchActivate_frame (job : Nat) (s : State) : ∀ t, execPatchActivate job s = .next t → t.frame = s.frame := by
  intro t ht
  rw [← Host.Outcome.next.inj ht]
  refine State.onAdmin_frame _ _ _ _ (fun u j => ?_)
  repeat' first | with_reducible rfl | simp only [State.activateImage_frame, State.adminEnd_frame] | split
theorem execPatchEngineTurn_frame (code : Nat) (readBack : Bool) (s : State) :
    ∀ t, execPatchEngineTurn code readBack s = .next t → t.frame = s.frame := by
  intro t ht
  unfold execPatchEngineTurn at ht
  repeat' first
    | (with_reducible have ht := Host.Outcome.next.inj ht; subst ht)
    | split at ht
    | (dsimp only [] at ht)
    | (obtain ⟨_, _, rfl⟩ := Option.map_eq_some_iff.mp ht)
    | contradiction
    | with_reducible (cases ht; done)
    | with_reducible rfl
    | simp only [↓State.frame_mk, State.frame_fold, foldl_frame, State.loadEngine_frame, State.raise_frame, State.setTurn_frame]
    | intro _
    | split
    | refine (foldl_frame _ _ _ ?_).trans ?_
    | refine (foldl_frame1 _ _ _ ?_).trans ?_
    | simp only [id_eq]
    | (dsimp only [])
theorem State.dropTurn_frame (s : State) : (State.dropTurn s).frame = s.frame := by
  unfold State.dropTurn
  repeat' first | with_reducible rfl | simp only [↓State.frame_mk, State.frame_fold, State.setTurn_frame] | split
theorem execPatchRamReloadDone_frame (code : Nat) (s : State) :
    ∀ t, execPatchRamReloadDone code s = .next t → t.frame = s.frame := by
  intro t ht
  unfold execPatchRamReloadDone at ht
  repeat' first
    | (with_reducible have ht := Host.Outcome.next.inj ht; subst ht)
    | split at ht
    | (dsimp only [] at ht)
    | (obtain ⟨_, _, rfl⟩ := Option.map_eq_some_iff.mp ht)
    | contradiction
    | with_reducible (cases ht; done)
    | with_reducible rfl
    | simp only [↓State.frame_mk, State.frame_fold, foldl_frame, State.loadEngine_frame]
    | intro _
    | split
    | refine (foldl_frame _ _ _ ?_).trans ?_
    | refine (foldl_frame1 _ _ _ ?_).trans ?_
    | simp only [id_eq]
    | (dsimp only [])
theorem execPatchStatus_frame (job : Nat) (s : State) : ∀ t, execPatchStatus job s = .next t → t.frame = s.frame := by
  intro t ht
  rw [← Host.Outcome.next.inj ht]
  refine State.onAdmin_frame _ _ _ _ (fun u j => ?_)
  repeat' first | with_reducible rfl | simp only [State.adminEnd_frame] | split
theorem execPatchRead_frame (job : Nat) (s : State) : ∀ t, execPatchRead job s = .next t → t.frame = s.frame := by
  intro t ht
  rw [← Host.Outcome.next.inj ht]
  refine State.onAdmin_frame _ _ _ _ (fun u j => ?_)
  repeat' first | with_reducible rfl | simp only [State.adminEnd_frame] | split
theorem execPcrReset_frame (val : W32) (s : State) : ∀ t, execPcrReset val s = .next t → t.frame = s.frame := by
  intro t ht
  rw [← Host.Outcome.next.inj ht]
  refine State.onPage_frame _ _ _ ?_
  repeat' first | with_reducible rfl | simp only [↓State.frame_mk, State.frame_fold] | split
theorem State.bootStep_frame (s : State) (n : Nat) (f : State → State) (h_f : ∀ u0, (f u0).frame = u0.frame) :
    (State.bootStep s n f).frame = s.frame := by
  unfold State.bootStep
  repeat' first | with_reducible rfl | simp only [↓State.frame_mk, State.frame_fold, h_f] | split
theorem State.bootMemories_frame (s : State) (r : BootResults) : (State.bootMemories s r).frame = s.frame := by
  unfold State.bootMemories
  repeat' first | with_reducible rfl | simp only [↓State.frame_mk, State.frame_fold, State.cause_frame, State.irqSync_frame, State.raise_frame] | split | refine (foldl_frame _ _ _ ?_).trans ?_ | intro _
theorem State.bootDrbgs_frame (s : State) (r : BootResults) : (State.bootDrbgs s r).frame = s.frame := by
  unfold State.bootDrbgs
  repeat' first | with_reducible rfl | simp only [↓State.frame_mk, State.frame_fold, State.raise_frame, State.seededCause_frame] | split
theorem State.bootKeys_frame (s : State) (r : BootResults) : (State.bootKeys s r).frame = s.frame := by
  unfold State.bootKeys
  repeat' first | with_reducible rfl | simp only [↓State.frame_mk, State.frame_fold, State.kstOpen_frame, State.raise_frame] | split
theorem State.engineOn_frame (s : State) (code : Nat) (on : Bool) : (State.engineOn s code on).frame = s.frame := by
  unfold State.engineOn
  split <;> simp only [State.setBne_frame, State.setPvu_frame]
theorem State.enginesOn_frame (s : State) (im : PatchImage) : (State.enginesOn s im).frame = s.frame := by
  unfold State.enginesOn
  repeat' first | with_reducible rfl | simp only [↓State.frame_mk, State.frame_fold, State.engineOn_frame, State.loadEngine_frame] | split | refine (foldl_frame _ _ _ ?_).trans ?_ | intro _
theorem State.domainOn_frame (s : State) (u : Nat) : (State.domainOn s u).frame = s.frame := by
  unfold State.domainOn
  repeat' first | with_reducible rfl | simp only [↓State.frame_mk, State.frame_fold, State.engineOn_frame, State.loadEngine_frame] | split
theorem State.domainsDue_frame (s : State) : (State.domainsDue s).frame = s.frame := by
  unfold State.domainsDue
  repeat' first | with_reducible rfl | simp only [↓State.frame_mk, State.frame_fold, State.domainOn_frame] | split | refine (foldl_frame _ _ _ ?_).trans ?_ | intro _
theorem State.bootPatches_frame (s : State) : (State.bootPatches s).frame = s.frame := by
  unfold State.bootPatches
  repeat' first | with_reducible rfl | simp only [↓State.frame_mk, State.frame_fold, State.enginesOn_frame, State.raise_frame] | split
theorem State.retireNow_frame (s : State) (code : Nat) : (State.retireNow s code).frame = s.frame := by
  unfold State.retireNow
  repeat' first | with_reducible rfl | simp only [↓State.frame_mk, State.frame_fold, State.cause_frame, State.setBne_frame, State.setPvu_frame] | split
theorem State.bootTests_frame (s : State) (r : BootResults) : (State.bootTests s r).frame = s.frame := by
  unfold State.bootTests
  repeat' first | with_reducible rfl | simp only [↓State.frame_mk, State.frame_fold, State.raise_frame, State.retireNow_frame, State.setTest_frame, State.cause_frame] | split | refine (foldl_frame _ _ _ ?_).trans ?_ | intro _
theorem State.replayGap_frame (s : State) (r : BootResults) : (State.replayGap s r).frame = s.frame := by
  unfold State.replayGap
  repeat' first | with_reducible rfl | simp only [↓State.frame_mk, State.frame_fold, State.cause_frame, State.flsCount_frame, State.journal_frame, State.raise_frame] | split | refine (foldl_frame _ _ _ ?_).trans ?_ | intro _
theorem State.bootJournal_frame (s : State) (r : BootResults) : (State.bootJournal s r).frame = s.frame := by
  unfold State.bootJournal
  repeat' first | with_reducible rfl | simp only [State.kstReplay_frame, State.replayGap_frame] | split
theorem State.bootLka_frame (s : State) : (State.bootLka s).frame = s.frame := by
  rfl
theorem State.rebuildTrees_frame (s : State) : (State.rebuildTrees s).frame = s.frame := by
  unfold State.rebuildTrees
  repeat' first | with_reducible rfl | simp only [State.startBuilds_frame] | split | refine (foldl_frame _ _ _ ?_).trans ?_ | intro _
theorem State.dropLink_frame (s : State) : (State.dropLink s).frame = s.frame := by
  unfold State.dropLink
  repeat' first | with_reducible rfl | simp only [↓State.frame_mk, State.frame_fold, State.dropSquashed_frame, State.modFn_frame, State.squashFn_frame] | split | refine (foldl_frame _ _ _ ?_).trans ?_ | intro _
theorem State.linkReset_frame (s : State) : (State.linkReset s).frame = s.frame := by
  unfold State.linkReset
  repeat' first | with_reducible rfl | simp only [↓State.frame_mk, State.frame_fold, State.modFn_frame, State.resetAll_frame, State.stopQueue_frame] | split | refine (foldl_frame _ _ _ ?_).trans ?_ | intro _
theorem execLinkReset_frame (s : State) : ∀ t, execLinkReset s = .next t → t.frame = s.frame := by
  intro t ht
  rw [← Host.Outcome.next.inj ht]
  repeat' first | with_reducible rfl | simp only [State.linkReset_frame] | split
theorem execPcieLinkUp_frame (s : State) : ∀ t, execPcieLinkUp s = .next t → t.frame = s.frame := by
  intro t ht
  rw [← Host.Outcome.next.inj ht]
  repeat' first | with_reducible rfl | simp only [↓State.frame_mk, State.frame_fold] | split
theorem execPcieLinkCorr_frame (s : State) : ∀ t, execPcieLinkCorr s = .next t → t.frame = s.frame := by
  intro t ht
  rw [← Host.Outcome.next.inj ht]
  repeat' first | with_reducible rfl | simp only [State.raise_frame] | split
theorem execFlr_frame (fn : Nat) (s : State) : ∀ t, execFlr fn s = .next t → t.frame = s.frame := by
  intro t ht
  rw [← Host.Outcome.next.inj ht]
  repeat' first | with_reducible rfl | simp only [State.linkReset_frame, State.startReset_frame] | split
theorem State.sendDue_frame (s : State) (fn : Nat) : (State.sendDue s fn).frame = s.frame := by
  unfold State.sendDue
  repeat' first | with_reducible rfl | simp only [↓State.frame_mk, State.frame_fold, State.sendMsix_frame, State.setFn_frame] | split | refine (foldl_frame _ _ _ ?_).trans ?_ | refine (foldl_frame1 _ _ _ ?_).trans ?_ | intro _ | (dsimp only [])
theorem State.fnUnmask_frame (s : State) (fn : Nat) : (State.fnUnmask s fn).frame = s.frame := by
  unfold State.fnUnmask
  repeat' first | with_reducible rfl | simp only [State.sendMsix_frame, State.setFn_frame, ↓State.frame_mk, State.frame_fold, State.sendDue_frame] | split | refine (foldl_frame _ _ _ ?_).trans ?_ | intro _
theorem State.configWrite_frame (s : State) (fn : Nat) (reg : Nat) (v : W32) :
    (State.configWrite s fn reg v).frame = s.frame := by
  unfold State.configWrite
  repeat' first | with_reducible rfl | simp only [↓State.frame_mk, State.frame_fold, State.fnUnmask_frame, State.modFn_frame, State.resetAll_frame, State.startReset_frame, State.sendDue_frame] | split
theorem execPcieConfigRequest_frame (fn : Nat) (write : Bool) (reg : Nat) (val : W32) (s : State) :
    ∀ t, execPcieConfigRequest fn write reg val s = .next t → t.frame = s.frame := by
  intro t ht
  unfold execPcieConfigRequest at ht
  repeat' first
    | (with_reducible have ht := Host.Outcome.next.inj ht; subst ht)
    | split at ht
    | (dsimp only [] at ht)
    | (obtain ⟨_, _, rfl⟩ := Option.map_eq_some_iff.mp ht)
    | contradiction
    | with_reducible (cases ht; done)
    | with_reducible rfl
    | simp only [↓State.frame_mk, State.frame_fold, foldl_frame, State.configWrite_frame, State.emit_frame]
    | intro _
    | split
    | refine (foldl_frame _ _ _ ?_).trans ?_
    | refine (foldl_frame1 _ _ _ ?_).trans ?_
    | simp only [id_eq]
    | (dsimp only [])
theorem State.warned_frame (s : State) : (State.warned s).frame = s.frame := by
  rfl
theorem execPowerWarning_frame (s : State) : ∀ t, execPowerWarning s = .next t → t.frame = s.frame := by
  intro t ht
  unfold execPowerWarning at ht
  repeat' first
    | (with_reducible have ht := Host.Outcome.next.inj ht; subst ht)
    | split at ht
    | (dsimp only [] at ht)
    | (obtain ⟨_, _, rfl⟩ := Option.map_eq_some_iff.mp ht)
    | contradiction
    | with_reducible (cases ht; done)
    | with_reducible rfl
    | simp only [↓State.frame_mk, State.frame_fold, foldl_frame, State.discardAll_frame, State.irqSync_frame, State.raise_frame, State.warned_frame]
    | intro _
    | split
    | refine (foldl_frame _ _ _ ?_).trans ?_
    | refine (foldl_frame1 _ _ _ ?_).trans ?_
    | simp only [id_eq]
    | (dsimp only [])
theorem execWarnClear_frame (s : State) : ∀ t, execWarnClear s = .next t → t.frame = s.frame := by
  intro t ht
  unfold execWarnClear at ht
  repeat' first
    | (with_reducible have ht := Host.Outcome.next.inj ht; subst ht)
    | split at ht
    | (dsimp only [] at ht)
    | (obtain ⟨_, _, rfl⟩ := Option.map_eq_some_iff.mp ht)
    | contradiction
    | with_reducible (cases ht; done)
    | with_reducible rfl
    | simp only [↓State.frame_mk, State.frame_fold, foldl_frame]
    | intro _
    | split
    | refine (foldl_frame _ _ _ ?_).trans ?_
    | refine (foldl_frame1 _ _ _ ?_).trans ?_
    | simp only [id_eq]
    | (dsimp only [])
theorem State.requestLife_frame (s : State) (target : Nat) : (State.requestLife s target).frame = s.frame := by
  unfold State.requestLife
  repeat' first | with_reducible rfl | simp only [↓State.frame_mk, State.frame_fold, State.raise_frame] | split
theorem State.generateMs_frame (s : State) : (State.generateMs s).frame = s.frame := by
  unfold State.generateMs
  split <;> simp only [↓State.frame_mk, State.frame_fold, State.drawInt_frame, State.kstOpen_frame, State.raise_frame]
theorem State.armDecom_frame (s : State) : (State.armDecom s).frame = s.frame := by
  unfold State.armDecom
  split <;> simp only [↓State.frame_mk, State.frame_fold]
theorem State.lifeCtrl_frame (s : State) (v : W32) : (State.lifeCtrl s v).frame = s.frame := by
  unfold State.lifeCtrl
  repeat' first | with_reducible rfl | simp only [State.armDecom_frame, State.generateMs_frame, State.requestLife_frame] | split
theorem execLifecycleTarget_frame (val : W32) (s : State) : ∀ t, execLifecycleTarget val s = .next t → t.frame = s.frame := by
  intro t ht
  rw [← Host.Outcome.next.inj ht]
  simp only [State.lifeCtrl_frame, State.onPage_frame]
theorem execGenerateMs_frame (s : State) : ∀ t, execGenerateMs s = .next t → t.frame = s.frame := by
  intro t ht
  rw [← Host.Outcome.next.inj ht]
  simp only [State.lifeCtrl_frame, State.onPage_frame]
theorem execDecomArm_frame (s : State) : ∀ t, execDecomArm s = .next t → t.frame = s.frame := by
  intro t ht
  rw [← Host.Outcome.next.inj ht]
  simp only [State.lifeCtrl_frame, State.onPage_frame]
theorem execDecomArmExpiry_frame (s : State) : ∀ t, execDecomArmExpiry s = .next t → t.frame = s.frame := by
  intro t ht
  rw [← Host.Outcome.next.inj ht]
  simp only [↓State.frame_mk, State.frame_fold]
theorem State.leaveMaintenance_frame (s : State) : (State.leaveMaintenance s).frame = s.frame := by
  simp only [State.leaveMaintenance, ↓State.frame_mk, State.frame_fold, State.endRaw_frame]
theorem State.eraseArea_frame (s : State) : (State.eraseArea s).frame = s.frame := by
  rfl
theorem State.writePcr_frame (s : State) (off : Nat) (v : W32) : (State.writePcr s off v).frame = s.frame := by
  unfold State.writePcr
  repeat' first | with_reducible rfl | simp only [↓State.frame_mk, State.frame_fold] | split
theorem keyKernel_frame (op : Nat) : ∀ k, keyKernel op = some k → ∀ u a b, (k u a b).1.frame = u.frame := by
  intro k hk s id j
  unfold keyKernel at hk
  repeat' first
    | (with_reducible have hk := Option.some.inj hk; subst hk)
    | split at hk
    | (dsimp only [] at hk)
    | (obtain ⟨_, _, rfl⟩ := Option.map_eq_some_iff.mp hk)
    | contradiction
    | with_reducible (cases hk; done)
    | with_reducible rfl
    | simp only [↓State.frame_mk, State.frame_fold, foldl_frame, kKeyAttrRead_frame, kKeyAttrSet_frame, kKeyBind_frame, kKeyDelete_frame, kKeyExport_frame, kKeyImport_frame, kPubkeyRead_frame, kPubkeyRegister_frame, kSymKeygen_frame]
    | intro _
    | split
    | refine (foldl_frame _ _ _ ?_).trans ?_
    | refine (foldl_frame1 _ _ _ ?_).trans ?_
    | simp only [id_eq]
    | (dsimp only [])
theorem latticeKernel_frame (op : Nat) : ∀ k, latticeKernel op = some k → ∀ u a b, (k u a b).1.frame = u.frame := by
  intro k hk s id j
  unfold latticeKernel at hk
  repeat' first
    | (with_reducible have hk := Option.some.inj hk; subst hk)
    | split at hk
    | (dsimp only [] at hk)
    | (obtain ⟨_, _, rfl⟩ := Option.map_eq_some_iff.mp hk)
    | contradiction
    | with_reducible (cases hk; done)
    | with_reducible rfl
    | simp only [↓State.frame_mk, State.frame_fold, foldl_frame, kFndsaVerify_frame, kMatrixPreload_frame, kMldsaKeygen_frame, kMldsaSign_frame, kMldsaVerify_frame, kMlkemDecaps_frame, kMlkemEncaps_frame, kMlkemKeygen_frame]
    | intro _
    | split
    | refine (foldl_frame _ _ _ ?_).trans ?_
    | refine (foldl_frame1 _ _ _ ?_).trans ?_
    | simp only [id_eq]
    | (dsimp only [])
theorem hashKernel_frame (op : Nat) : ∀ k, hashKernel op = some k → ∀ u a b, (k u a b).1.frame = u.frame := by
  intro k hk s id j
  unfold hashKernel at hk
  repeat' first
    | (with_reducible have hk := Option.some.inj hk; subst hk)
    | split at hk
    | (dsimp only [] at hk)
    | (obtain ⟨_, _, rfl⟩ := Option.map_eq_some_iff.mp hk)
    | contradiction
    | with_reducible (cases hk; done)
    | with_reducible rfl
    | simp only [↓State.frame_mk, State.frame_fold, foldl_frame, kLmsVerify_frame, kSlhKeygen_frame, kSlhSign_frame, kSlhVerify_frame, kStatefulAdvance_frame, kStatefulKeygen_frame, kStatefulSign_frame, kStatefulStatus_frame, kXmssVerify_frame]
    | intro _
    | split
    | refine (foldl_frame _ _ _ ?_).trans ?_
    | refine (foldl_frame1 _ _ _ ?_).trans ?_
    | simp only [id_eq]
    | (dsimp only [])
theorem codeKernel_frame (op : Nat) : ∀ k, codeKernel op = some k → ∀ u a b, (k u a b).1.frame = u.frame := by
  intro k hk s id j
  unfold codeKernel at hk
  repeat' first
    | (with_reducible have hk := Option.some.inj hk; subst hk)
    | split at hk
    | (dsimp only [] at hk)
    | (obtain ⟨_, _, rfl⟩ := Option.map_eq_some_iff.mp hk)
    | contradiction
    | with_reducible (cases hk; done)
    | with_reducible rfl
    | simp only [↓State.frame_mk, State.frame_fold, foldl_frame, kHqcDecaps_frame, kHqcEncaps_frame, kHqcKeygen_frame, kMceDecaps_frame, kMceEncaps_frame, kMceKeygen_frame, kMcePin_frame, kMceUnpin_frame]
    | intro _
    | split
    | refine (foldl_frame _ _ _ ?_).trans ?_
    | refine (foldl_frame1 _ _ _ ?_).trans ?_
    | simp only [id_eq]
    | (dsimp only [])
theorem classicKernel_frame (op : Nat) : ∀ k, classicKernel op = some k → ∀ u a b, (k u a b).1.frame = u.frame := by
  intro k hk s id j
  unfold classicKernel at hk
  repeat' first
    | (with_reducible have hk := Option.some.inj hk; subst hk)
    | split at hk
    | (dsimp only [] at hk)
    | (obtain ⟨_, _, rfl⟩ := Option.map_eq_some_iff.mp hk)
    | contradiction
    | with_reducible (cases hk; done)
    | with_reducible rfl
    | simp only [↓State.frame_mk, State.frame_fold, foldl_frame, kEcKeygen_frame, kEcdh_frame, kEcdsaSign_frame, kEcdsaVerify_frame, kEddsaKeygen_frame, kEddsaSign_frame, kEddsaVerify_frame, kRsaDecrypt_frame, kRsaEncrypt_frame, kRsaKeygen_frame, kRsaSign_frame, kRsaVerify_frame, kXdh_frame, kXdhKeygen_frame]
    | intro _
    | split
    | refine (foldl_frame _ _ _ ?_).trans ?_
    | refine (foldl_frame1 _ _ _ ?_).trans ?_
    | simp only [id_eq]
    | (dsimp only [])
theorem hybridKernel_frame (op : Nat) : ∀ k, hybridKernel op = some k → ∀ u a b, (k u a b).1.frame = u.frame := by
  intro k hk s id j
  unfold hybridKernel at hk
  repeat' first
    | (with_reducible have hk := Option.some.inj hk; subst hk)
    | split at hk
    | (dsimp only [] at hk)
    | (obtain ⟨_, _, rfl⟩ := Option.map_eq_some_iff.mp hk)
    | contradiction
    | with_reducible (cases hk; done)
    | with_reducible rfl
    | simp only [↓State.frame_mk, State.frame_fold, foldl_frame, kCompKeygen_frame, kCompSign_frame, kCompVerify_frame, kHybDecaps_frame, kHybEncaps_frame, kHybKeygen_frame]
    | intro _
    | split
    | refine (foldl_frame _ _ _ ?_).trans ?_
    | refine (foldl_frame1 _ _ _ ?_).trans ?_
    | simp only [id_eq]
    | (dsimp only [])
theorem digestKernel_frame (op : Nat) : ∀ k, digestKernel op = some k → ∀ u a b, (k u a b).1.frame = u.frame := by
  intro k hk s id j
  unfold digestKernel at hk
  repeat' first
    | (with_reducible have hk := Option.some.inj hk; subst hk)
    | split at hk
    | (dsimp only [] at hk)
    | (obtain ⟨_, _, rfl⟩ := Option.map_eq_some_iff.mp hk)
    | contradiction
    | with_reducible (cases hk; done)
    | with_reducible rfl
    | simp only [↓State.frame_mk, State.frame_fold, foldl_frame, kHash_frame, kHkdf_frame, kHmac_frame, kKbkdf_frame, kRngFill_frame]
    | intro _
    | split
    | refine (foldl_frame _ _ _ ?_).trans ?_
    | refine (foldl_frame1 _ _ _ ?_).trans ?_
    | simp only [id_eq]
    | (dsimp only [])
theorem rawOpKernel_frame (op : Nat) : ∀ k, rawOpKernel op = some k → ∀ u a b, (k u a b).1.frame = u.frame := by
  intro k hk s id j
  unfold rawOpKernel at hk
  repeat' first
    | (with_reducible have hk := Option.some.inj hk; subst hk)
    | split at hk
    | (dsimp only [] at hk)
    | (obtain ⟨_, _, rfl⟩ := Option.map_eq_some_iff.mp hk)
    | contradiction
    | with_reducible (cases hk; done)
    | with_reducible rfl
    | simp only [↓State.frame_mk, State.frame_fold, foldl_frame, kModAdd_frame, kModExp_frame, kModInv_frame, kModMul_frame, kModRand_frame, kModSqr_frame, kModSub_frame]
    | intro _
    | split
    | refine (foldl_frame _ _ _ ?_).trans ?_
    | refine (foldl_frame1 _ _ _ ?_).trans ?_
    | simp only [id_eq]
    | (dsimp only [])
theorem kernelOf_frame (op : Nat) : ∀ s id j, (kernelOf op s id j).1.frame = s.frame := by
  intro s id j
  have key : ∀ k : Option Kernel, (∀ f, k = some f → ∀ s id j, (f s id j).1.frame = s.frame) →
      (k.getD (fun s _ _ => (s, status 0x0012)) s id j).1.frame = s.frame := by
    intro k h
    cases k with
    | none => rfl
    | some f => exact h f rfl s id j
  unfold kernelOf
  apply key
  intro f hf
  repeat' first
    | contradiction
    | exact keyKernel_frame _ _ hf
    | exact latticeKernel_frame _ _ hf
    | exact hashKernel_frame _ _ hf
    | exact codeKernel_frame _ _ hf
    | exact classicKernel_frame _ _ hf
    | exact hybridKernel_frame _ _ hf
    | exact digestKernel_frame _ _ hf
    | exact rawOpKernel_frame _ _ hf
    | (cases hf; first | exact kPatternRun_frame | exact kClusterStatus_frame)
    | split at hf
theorem State.closeSegment_frame (s : State) (e : Nat) : (State.closeSegment s e).frame = s.frame := by
  unfold State.closeSegment
  repeat' first | with_reducible rfl | simp only [State.pvuOverrun_frame, State.setPvu_frame, ↓State.frame_mk, State.frame_fold, State.segmentFails_frame] | split
theorem State.endPvuSlot_frame (s : State) (e : Nat) : (State.endPvuSlot s e).frame = s.frame := by
  unfold State.endPvuSlot
  repeat' first | with_reducible rfl | simp only [↓State.frame_mk, State.frame_fold, State.closeSegment_frame, State.event_frame, State.runPositions_frame, State.setPvu_frame, State.settleUnits_frame] | split
theorem State.endBneSlot_frame (s : State) (n : Nat) : (State.endBneSlot s n).frame = s.frame := by
  unfold State.endBneSlot
  repeat' first | with_reducible rfl | simp only [State.endRun_frame, State.setBne_frame, ↓State.frame_mk, State.frame_fold, State.endClear_frame] | split
theorem State.coreFault_frame (s : State) (core : Nat) (job : Option Nat) : (State.coreFault s core job).frame = s.frame := by
  unfold State.coreFault
  repeat' first | with_reducible rfl | simp only [↓State.frame_mk, State.frame_fold, State.modJob_frame, State.raise_frame] | split | refine (foldl_frame _ _ _ ?_).trans ?_ | refine (foldl_frame1 _ _ _ ?_).trans ?_ | intro _ | (dsimp only [])
theorem State.groupFaults_frame (s : State) (g : Nat) : (State.groupFaults s g).frame = s.frame := by
  unfold State.groupFaults
  repeat' first | with_reducible rfl | simp only [↓State.frame_mk, State.frame_fold, State.coreFault_frame] | split | refine (foldl_frame _ _ _ ?_).trans ?_ | refine (foldl_frame1 _ _ _ ?_).trans ?_ | intro _ | (dsimp only [])
theorem State.endGroup_frame (s : State) (g : Nat) : (State.endGroup s g).frame = s.frame := by
  unfold State.endGroup
  repeat' first | with_reducible rfl | simp only [↓State.frame_mk, State.frame_fold, State.event_frame, State.groupFaults_frame] | split | refine (foldl_frame _ _ _ ?_).trans ?_ | intro _
theorem State.endHsa_frame (s : State) : (State.endHsa s).frame = s.frame := by
  unfold State.endHsa
  repeat' first | with_reducible rfl | simp only [↓State.frame_mk, State.frame_fold, State.endGroup_frame] | split | refine (foldl_frame _ _ _ ?_).trans ?_ | intro _
theorem State.markStarted_frame (s : State) : (State.markStarted s).frame = s.frame := by
  unfold State.markStarted
  repeat' first | with_reducible rfl | simp only [State.modJob_frame] | split | refine (foldl_frame _ _ _ ?_).trans ?_ | intro _
theorem State.startAllotments_frame (s : State) : (State.startAllotments s).frame = s.frame := by
  unfold State.startAllotments
  repeat' first | with_reducible rfl | simp only [State.modJob_frame] | split | refine (foldl_frame _ _ _ ?_).trans ?_ | intro _
theorem State.touchSets_frame (s : State) : (State.touchSets s).frame = s.frame := by
  rfl
theorem State.placeSet_frame (s : State) (e : Nat) (h : W32) (verify : Bool) (blocks : Nat) :
    (State.placeSet s e h verify blocks).frame = s.frame := by
  unfold State.placeSet
  split <;> simp only [↓State.frame_mk, State.frame_fold]
theorem State.endFills_frame (s : State) : (State.endFills s).frame = s.frame := by
  unfold State.endFills
  repeat' first | with_reducible rfl | simp only [↓State.frame_mk, State.frame_fold, State.placeSet_frame] | split | refine (foldl_frame _ _ _ ?_).trans ?_ | intro _
theorem State.endSlots_frame (s : State) : (State.endSlots s).frame = s.frame := by
  unfold State.endSlots
  repeat' first | with_reducible rfl | simp only [State.endBneSlot_frame, State.endFills_frame, State.endHsa_frame, State.endPvuSlot_frame, State.markStarted_frame, State.touchSets_frame] | split | refine (foldl_frame _ _ _ ?_).trans ?_ | intro _
theorem State.reseedPvu_frame (s : State) (e : Nat) : (State.reseedPvu s e).1.frame = s.frame := by
  unfold State.reseedPvu
  repeat' first | with_reducible rfl | simp only [State.drawInt_frame, State.setPvu_frame] | split
theorem State.reseedBne_frame (s : State) (n : Nat) : (State.reseedBne s n).1.frame = s.frame := by
  unfold State.reseedBne
  repeat' first | with_reducible rfl | simp only [State.drawInt_frame, State.setBne_frame] | split
theorem State.reseeds_frame (s : State) : (State.reseeds s).frame = s.frame := by
  unfold State.reseeds
  repeat' first
    | with_reducible rfl
    | simp only [↓State.frame_mk, State.frame_fold, foldl_frame, State.raiseAll_frame, State.reseedBne_frame, State.reseedPvu_frame]
    | intro _
    | split
    | refine (foldl_frame _ _ _ ?_).trans ?_
    | refine (foldl_frame1 _ _ _ ?_).trans ?_
    | simp only [id_eq]
    | (dsimp only [])
theorem State.clearFiles_frame (s : State) : (State.clearFiles s).frame = s.frame := by
  rfl
theorem State.zeroPages_frame (s : State) : (State.zeroPages s).frame = s.frame := by
  unfold State.zeroPages
  repeat' first | with_reducible rfl | simp only [State.setPvu_frame, ↓State.frame_mk, State.frame_fold] | split | refine (foldl_frame _ _ _ ?_).trans ?_ | intro _
theorem State.stepRing_frame (s : State) : (State.stepRing s).frame = s.frame := by
  unfold State.stepRing
  split <;> simp only [↓State.frame_mk, State.frame_fold]
theorem State.endBuilds_frame (s : State) : (State.endBuilds s).frame = s.frame := by
  unfold State.endBuilds
  repeat' first | with_reducible rfl | simp only [↓State.frame_mk, State.frame_fold, State.setKey_frame, State.startBuilds_frame] | split | refine (foldl_frame _ _ _ ?_).trans ?_ | intro _
theorem State.retryBuilds_frame (s : State) : (State.retryBuilds s).frame = s.frame := by
  unfold State.retryBuilds
  repeat' first | with_reducible rfl | simp only [↓State.frame_mk, State.frame_fold, State.addBuilds_frame] | split | refine (foldl_frame _ _ _ ?_).trans ?_ | refine (foldl_frame1 _ _ _ ?_).trans ?_ | intro _ | (dsimp only [])
theorem State.gaveBuild_frame (s : State) (b : TreeBuild) (n : Nat) : (State.gaveBuild s b n).frame = s.frame := by
  unfold State.gaveBuild
  repeat' first | with_reducible rfl | simp only [↓State.frame_mk, State.frame_fold] | split | refine (foldl_frame _ _ _ ?_).trans ?_ | refine (foldl_frame1 _ _ _ ?_).trans ?_ | intro _ | (dsimp only [])
theorem allotBuild_frame (p : BuildPool) (b : TreeBuild) : (allotBuild p b).st.frame = p.st.frame := by
  unfold allotBuild
  repeat' first | with_reducible rfl | simp only [State.gaveBuild_frame] | split | (dsimp only [])
theorem State.giveBuilds_frame (s0 : State) : (State.giveBuilds s0).frame = s0.frame := by
  have fold : ∀ (l : List TreeBuild) (p : BuildPool), (l.foldl allotBuild p).st.frame = p.st.frame := by
    intro l
    induction l with
    | nil => intro p; rfl
    | cons b l ih => intro p; rw [List.foldl_cons, ih, allotBuild_frame]
  unfold State.giveBuilds
  dsimp only []
  split
  · exact State.retryBuilds_frame _
  · simp only [↓State.frame_mk, State.frame_fold, fold, State.retryBuilds_frame]
theorem State.prune_frame (s : State) : (State.prune s).frame = s.frame := by
  rfl
theorem State.releaseCounter_frame (s : State) (c : Nat) : (State.releaseCounter s c).frame = s.frame := by
  unfold State.releaseCounter
  repeat' first | with_reducible rfl | simp only [↓State.frame_mk, State.frame_fold, State.setBlk_frame] | split
theorem State.assignCounter_frame (s : State) (r : CounterReq) : ∀ t, State.assignCounter s r = some t → t.frame = s.frame := by
  intro t ht
  unfold State.assignCounter at ht
  repeat' first
    | (with_reducible have ht := Option.some.inj ht; subst ht)
    | split at ht
    | (dsimp only [] at ht)
    | (obtain ⟨_, _, rfl⟩ := Option.map_eq_some_iff.mp ht)
    | contradiction
    | with_reducible (cases ht; done)
    | with_reducible rfl
    | simp only [↓State.frame_mk, State.frame_fold, foldl_frame, State.releaseCounter_frame, State.setBlk_frame]
    | intro _
    | split
    | refine (foldl_frame _ _ _ ?_).trans ?_
    | refine (foldl_frame1 _ _ _ ?_).trans ?_
    | simp only [id_eq]
    | (dsimp only [])
theorem State.onPmu_frame (s : State) (op : Nat) (id : Nat) (f : State → Job → State) (h_f : ∀ u0 u1, (f u0 u1).frame = u0.frame) :
    (State.onPmu s op id f).frame = s.frame := by
  unfold State.onPmu
  repeat' first
    | with_reducible rfl
    | simp only [↓State.frame_mk, State.frame_fold, foldl_frame, State.onAdmin_frame, h_f]
    | refine (State.onAdmin_frame _ _ _ _ ?_).trans ?_
    | intro _
    | split
    | refine (foldl_frame _ _ _ ?_).trans ?_
    | refine (foldl_frame1 _ _ _ ?_).trans ?_
    | simp only [id_eq]
    | (dsimp only [])
theorem execPmuAssign_frame (job : Nat) (s : State) : ∀ t, execPmuAssign job s = .next t → t.frame = s.frame := by
  intro t ht
  unfold execPmuAssign at ht
  repeat' first
    | refine State.assignCounter_frame _ _ _ ht
    | (with_reducible have ht := Host.Outcome.next.inj ht; subst ht)
    | split at ht
    | (dsimp only [] at ht)
    | (obtain ⟨_, _, rfl⟩ := Option.map_eq_some_iff.mp ht)
    | contradiction
    | with_reducible (cases ht; done)
    | with_reducible rfl
    | simp only [↓State.frame_mk, State.frame_fold, foldl_frame, State.adminEnd_frame, State.onPmu_frame]
    | refine Eq.trans (State.assignCounter_frame _ _ _ (by assumption)) ?_
    | refine (State.onPmu_frame _ _ _ _ ?_).trans ?_
    | intro _
    | split
    | refine (foldl_frame _ _ _ ?_).trans ?_
    | refine (foldl_frame1 _ _ _ ?_).trans ?_
    | simp only [id_eq]
    | (dsimp only [])
theorem execPmuRelease_frame (job : Nat) (s : State) : ∀ t, execPmuRelease job s = .next t → t.frame = s.frame := by
  intro t ht
  rw [← Host.Outcome.next.inj ht]
  refine State.onAdmin_frame _ _ _ _ (fun u j => ?_)
  repeat' first | with_reducible rfl | simp only [State.adminEnd_frame, State.releaseCounter_frame] | split
theorem execSampleStart_frame (job : Nat) (s : State) : ∀ t, execSampleStart job s = .next t → t.frame = s.frame := by
  intro t ht
  rw [← Host.Outcome.next.inj ht]
  refine State.onAdmin_frame _ _ _ _ (fun u j => ?_)
  repeat' first | with_reducible rfl | simp only [State.adminEnd_frame] | split
theorem State.stopSampling_frame (s : State) (fn : Nat) : (State.stopSampling s fn).frame = s.frame := by
  unfold State.stopSampling
  split <;> simp only [State.setFn_frame]
theorem execSampleStop_frame (job : Nat) (s : State) : ∀ t, execSampleStop job s = .next t → t.frame = s.frame := by
  intro t ht
  rw [← Host.Outcome.next.inj ht]
  refine State.onAdmin_frame _ _ _ _ (fun u j => ?_)
  repeat' first | with_reducible rfl | simp only [State.adminEnd_frame, State.stopSampling_frame] | split
theorem State.beginSampling_frame (s : State) (fn : Nat) (input : List Byte) (par : List Byte) :
    (State.beginSampling s fn input par).frame = s.frame := by
  rfl
theorem State.writeSamples_frame (s : State) (fn : Nat) : (State.writeSamples s fn).frame = s.frame := by
  unfold State.writeSamples
  repeat' first | with_reducible rfl | simp only [State.hostWrite_frame, State.setFn_frame] | split | refine (foldl_frame _ _ _ ?_).trans ?_ | intro _
theorem State.writeAllSamples_frame (s : State) : (State.writeAllSamples s).frame = s.frame := by
  unfold State.writeAllSamples
  repeat' first | with_reducible rfl | simp only [State.writeSamples_frame] | split | refine (foldl_frame _ _ _ ?_).trans ?_ | intro _
theorem State.pmuCtrl_frame (s : State) (v : W32) : (State.pmuCtrl s v).frame = s.frame := by
  rfl
theorem execPmuClear_frame (val : W32) (s : State) : ∀ t, execPmuClear val s = .next t → t.frame = s.frame := by
  intro t ht
  rw [← Host.Outcome.next.inj ht]
  simp only [State.onPage_frame, State.pmuCtrl_frame]
theorem execPmuFreeze_frame (val : W32) (s : State) : ∀ t, execPmuFreeze val s = .next t → t.frame = s.frame := by
  intro t ht
  rw [← Host.Outcome.next.inj ht]
  simp only [State.onPage_frame, State.pmuCtrl_frame]
theorem State.writePmu_frame (s : State) (off : Nat) (v : W32) : (State.writePmu s off v).frame = s.frame := by
  unfold State.writePmu
  repeat' first | with_reducible rfl | simp only [↓State.frame_mk, State.frame_fold, State.irqSync_frame] | split
theorem execTelemetryRecord_frame (m : TeleMeasure) (s : State) :
    ∀ t, execTelemetryRecord m s = .next t → t.frame = s.frame := by
  intro t ht
  unfold execTelemetryRecord at ht
  repeat' first
    | (with_reducible have ht := Host.Outcome.next.inj ht; subst ht)
    | split at ht
    | (dsimp only [] at ht)
    | (obtain ⟨_, _, rfl⟩ := Option.map_eq_some_iff.mp ht)
    | contradiction
    | with_reducible (cases ht; done)
    | with_reducible rfl
    | simp only [↓State.frame_mk, State.frame_fold, foldl_frame]
    | intro _
    | split
    | refine (foldl_frame _ _ _ ?_).trans ?_
    | refine (foldl_frame1 _ _ _ ?_).trans ?_
    | simp only [id_eq]
    | (dsimp only [])
theorem State.mgmt_frame (s : State) (bs : List Byte) : (State.mgmt s bs).frame = s.frame := by
  unfold State.mgmt
  split <;> simp only [State.emit_frame]
theorem State.mctpCtl_frame (s : State) (cmd : Byte) (code : Byte) (data : List Byte) :
    (State.mctpCtl s cmd code data).frame = s.frame := by
  simp only [State.mctpCtl, State.mgmt_frame]
theorem State.pldm_frame (s : State) (typ : Byte) (cmd : Byte) (code : Byte) (data : List Byte) :
    (State.pldm s typ cmd code data).frame = s.frame := by
  simp only [State.pldm, State.mgmt_frame]
theorem execSetEndpointId_frame (eid : Byte) (s : State) : ∀ t, execSetEndpointId eid s = .next t → t.frame = s.frame := by
  intro t ht
  unfold execSetEndpointId at ht
  repeat' first
    | (with_reducible have ht := Host.Outcome.next.inj ht; subst ht)
    | split at ht
    | (dsimp only [] at ht)
    | (obtain ⟨_, _, rfl⟩ := Option.map_eq_some_iff.mp ht)
    | contradiction
    | with_reducible (cases ht; done)
    | with_reducible rfl
    | simp only [↓State.frame_mk, State.frame_fold, foldl_frame, State.mctpCtl_frame]
    | intro _
    | split
    | refine (foldl_frame _ _ _ ?_).trans ?_
    | refine (foldl_frame1 _ _ _ ?_).trans ?_
    | simp only [id_eq]
    | (dsimp only [])
theorem execGetEndpointId_frame (s : State) : ∀ t, execGetEndpointId s = .next t → t.frame = s.frame := by
  intro t ht
  rw [← Host.Outcome.next.inj ht]
  simp only [State.mctpCtl_frame]
theorem execGetMctpVersionSupport_frame (msgType : Byte) (s : State) :
    ∀ t, execGetMctpVersionSupport msgType s = .next t → t.frame = s.frame := by
  intro t ht
  rw [← Host.Outcome.next.inj ht]
  repeat' first | with_reducible rfl | simp only [State.mctpCtl_frame] | split
theorem execGetMessageTypeSupport_frame (s : State) : ∀ t, execGetMessageTypeSupport s = .next t → t.frame = s.frame := by
  intro t ht
  rw [← Host.Outcome.next.inj ht]
  simp only [State.mctpCtl_frame]
theorem execGetTid_frame (s : State) : ∀ t, execGetTid s = .next t → t.frame = s.frame := by
  intro t ht
  rw [← Host.Outcome.next.inj ht]
  simp only [State.pldm_frame]
theorem execGetPldmVersion_frame (pldmType : Byte) (s : State) :
    ∀ t, execGetPldmVersion pldmType s = .next t → t.frame = s.frame := by
  intro t ht
  rw [← Host.Outcome.next.inj ht]
  repeat' first | with_reducible rfl | simp only [State.pldm_frame] | split
theorem execGetPldmTypes_frame (s : State) : ∀ t, execGetPldmTypes s = .next t → t.frame = s.frame := by
  intro t ht
  rw [← Host.Outcome.next.inj ht]
  simp only [State.pldm_frame]
theorem execGetPldmCommands_frame (pldmType : Byte) (s : State) :
    ∀ t, execGetPldmCommands pldmType s = .next t → t.frame = s.frame := by
  intro t ht
  rw [← Host.Outcome.next.inj ht]
  repeat' first | with_reducible rfl | simp only [State.pldm_frame] | split
theorem execGetPdrRepositoryInfo_frame (s : State) : ∀ t, execGetPdrRepositoryInfo s = .next t → t.frame = s.frame := by
  intro t ht
  rw [← Host.Outcome.next.inj ht]
  simp only [State.pldm_frame]
theorem execGetPdr_frame (record : Nat) (s : State) : ∀ t, execGetPdr record s = .next t → t.frame = s.frame := by
  intro t ht
  rw [← Host.Outcome.next.inj ht]
  repeat' first | with_reducible rfl | simp only [State.pldm_frame] | split
theorem execGetSensorReading_frame (sensor : Nat) (s : State) :
    ∀ t, execGetSensorReading sensor s = .next t → t.frame = s.frame := by
  intro t ht
  rw [← Host.Outcome.next.inj ht]
  repeat' first | with_reducible rfl | simp only [State.pldm_frame] | split
theorem execGetStateSensorReadings_frame (sensor : Nat) (s : State) :
    ∀ t, execGetStateSensorReadings sensor s = .next t → t.frame = s.frame := by
  intro t ht
  rw [← Host.Outcome.next.inj ht]
  repeat' first | with_reducible rfl | simp only [State.pldm_frame] | split
theorem execUnsupportedPldmCmd_frame (pldmType : Byte) (cmd : Byte) (s : State) :
    ∀ t, execUnsupportedPldmCmd pldmType cmd s = .next t → t.frame = s.frame := by
  intro t ht
  rw [← Host.Outcome.next.inj ht]
  repeat' first | with_reducible rfl | simp only [State.pldm_frame] | split
theorem State.pmbusValue_frame (s : State) (cmd : Nat) : (State.pmbusValue s cmd).frame = s.frame := by
  unfold State.pmbusValue
  split <;> simp only [↓State.frame_mk, State.frame_fold, State.emit_frame]
theorem execReadVin_frame (s : State) : ∀ t, execReadVin s = .next t → t.frame = s.frame := by
  intro t ht
  rw [← Host.Outcome.next.inj ht]
  simp only [State.pmbusValue_frame]
theorem execReadIin_frame (s : State) : ∀ t, execReadIin s = .next t → t.frame = s.frame := by
  intro t ht
  rw [← Host.Outcome.next.inj ht]
  simp only [State.pmbusValue_frame]
theorem execReadVout_frame (s : State) : ∀ t, execReadVout s = .next t → t.frame = s.frame := by
  intro t ht
  rw [← Host.Outcome.next.inj ht]
  simp only [State.pmbusValue_frame]
theorem execReadIout_frame (s : State) : ∀ t, execReadIout s = .next t → t.frame = s.frame := by
  intro t ht
  rw [← Host.Outcome.next.inj ht]
  simp only [State.pmbusValue_frame]
theorem execReadTemperature1_frame (s : State) : ∀ t, execReadTemperature1 s = .next t → t.frame = s.frame := by
  intro t ht
  rw [← Host.Outcome.next.inj ht]
  simp only [State.pmbusValue_frame]
theorem execReadPout_frame (s : State) : ∀ t, execReadPout s = .next t → t.frame = s.frame := by
  intro t ht
  rw [← Host.Outcome.next.inj ht]
  simp only [State.pmbusValue_frame]
theorem execStatusWord_frame (s : State) : ∀ t, execStatusWord s = .next t → t.frame = s.frame := by
  intro t ht
  rw [← Host.Outcome.next.inj ht]
  repeat' first | with_reducible rfl | simp only [↓State.frame_mk, State.frame_fold, State.emit_frame] | split
theorem execClearFaults_frame (s : State) : ∀ t, execClearFaults s = .next t → t.frame = s.frame := by
  intro t ht
  rw [← Host.Outcome.next.inj ht]
  repeat' first | with_reducible rfl | simp only [↓State.frame_mk, State.frame_fold] | split
theorem execPmbusRevision_frame (s : State) : ∀ t, execPmbusRevision s = .next t → t.frame = s.frame := by
  intro t ht
  rw [← Host.Outcome.next.inj ht]
  repeat' first | with_reducible rfl | simp only [State.emit_frame] | split
theorem execMfrId_frame (s : State) : ∀ t, execMfrId s = .next t → t.frame = s.frame := by
  intro t ht
  rw [← Host.Outcome.next.inj ht]
  repeat' first | with_reducible rfl | simp only [State.emit_frame] | split
theorem execPmbusOtherCommand_frame (cmd : Byte) (write : Bool) (s : State) :
    ∀ t, execPmbusOtherCommand cmd write s = .next t → t.frame = s.frame := by
  intro t ht
  rw [← Host.Outcome.next.inj ht]
  repeat' first | with_reducible rfl | simp only [↓State.frame_mk, State.frame_fold] | split
theorem execSpdmGetVersion_frame (s : State) : ∀ t, execSpdmGetVersion s = .next t → t.frame = s.frame := by
  intro t ht
  rw [← Host.Outcome.next.inj ht]
  repeat' first | with_reducible rfl | simp only [↓State.frame_mk, State.frame_fold, State.emit_frame] | split
theorem execSpdmRequest_frame (code : Byte) (req : List Byte) (s : State) :
    ∀ t, execSpdmRequest code req s = .next t → t.frame = s.frame := by
  intro t ht
  unfold execSpdmRequest at ht
  repeat' first
    | (with_reducible have ht := Host.Outcome.next.inj ht; subst ht)
    | split at ht
    | (dsimp only [] at ht)
    | (obtain ⟨_, _, rfl⟩ := Option.map_eq_some_iff.mp ht)
    | contradiction
    | with_reducible (cases ht; done)
    | with_reducible rfl
    | simp only [↓State.frame_mk, State.frame_fold, foldl_frame, State.emit_frame]
    | intro _
    | split
    | refine (foldl_frame _ _ _ ?_).trans ?_
    | refine (foldl_frame1 _ _ _ ?_).trans ?_
    | simp only [id_eq]
    | (dsimp only [])
theorem execUartConsoleInput_frame (c : Byte) (s : State) : ∀ t, execUartConsoleInput c s = .next t → t.frame = s.frame := by
  intro t ht
  rw [← Host.Outcome.next.inj ht]
  repeat' first | with_reducible rfl | simp only [↓State.frame_mk, State.frame_fold] | split
theorem State.startQueue_frame (s : State) (fn : Nat) (q : Nat) : (State.startQueue s fn q).frame = s.frame := by
  unfold State.startQueue
  repeat' first | with_reducible rfl | simp only [↓State.frame_mk, State.frame_fold, State.setQueue_frame] | split | refine (foldl_frame _ _ _ ?_).trans ?_ | refine (foldl_frame1 _ _ _ ?_).trans ?_ | intro _ | (dsimp only [])
theorem State.loadJob_frame (s : State) (x : Nat × Nat × Nat × Nat × List Nat) : (State.loadJob s x).frame = s.frame := by
  unfold State.loadJob
  repeat' first | with_reducible rfl | simp only [↓State.frame_mk, State.frame_fold, State.sendKey_frame, State.setPvu_frame] | split | refine (foldl_frame _ _ _ ?_).trans ?_ | refine (foldl_frame1 _ _ _ ?_).trans ?_ | intro _ | (dsimp only [])
theorem State.loadStarts_frame (s : State) : (State.loadStarts s).frame = s.frame := by
  unfold State.loadStarts
  repeat' first | with_reducible rfl | simp only [↓State.frame_mk, State.frame_fold, State.loadJob_frame] | split | refine (foldl_frame _ _ _ ?_).trans ?_ | refine (foldl_frame1 _ _ _ ?_).trans ?_ | intro _ | (dsimp only [])

end Sys2Proof.Machine
end

