-- ==== Sys2Proof/Laws/FrameTick.lean ====
section
/-! SUPPORT. Frame lemmas: release and tick edges, host register access, migration and the test port. -/

set_option maxRecDepth 2000
set_option linter.unusedSimpArgs false

namespace Sys2Proof.Machine

theorem State.replan_frame (s : State) (id : Nat) (parts : Option (Bool × Nat)) (dry : Bool) :
    (State.replan s id parts dry).frame = s.frame := by
  unfold State.replan
  repeat' first | with_reducible rfl | simp only [↓State.frame_mk, State.frame_fold, State.dropChain_frame, State.modJob_frame] | split
theorem State.repeatAttempt_frame (s : State) (id : Nat) : (State.repeatAttempt s id).frame = s.frame := by
  rfl
theorem State.retryJob_frame (s : State) (id : Nat) : (State.retryJob s id).frame = s.frame := by
  unfold State.retryJob
  repeat' first | with_reducible rfl | simp only [State.finishWith_frame, State.modJob_frame, State.repeatAttempt_frame, State.replan_frame, ↓State.frame_mk, State.frame_fold, State.finish_frame] | split
theorem State.retries_frame (s : State) : (State.retries s).frame = s.frame := by
  unfold State.retries
  repeat' first | with_reducible rfl | simp only [State.retryJob_frame] | split | refine (foldl_frame _ _ _ ?_).trans ?_ | intro _
theorem State.leaveEngine_frame (s : State) (e : Nat) : (State.leaveEngine s e).frame = s.frame := by
  unfold State.leaveEngine
  repeat' first | with_reducible rfl | simp only [↓State.frame_mk, State.frame_fold, State.finishWith_frame, State.modJob_frame, State.replan_frame, State.finish_frame, State.retries_frame] | split | refine (foldl_frame _ _ _ ?_).trans ?_ | intro _
theorem State.fitGroups_frame (a0 : Nat) (a1 : State) : (State.fitGroups a0 a1).frame = a1.frame := by
  induction a0 generalizing a1 with
  | zero => rfl
  | succ n ih =>
    unfold State.fitGroups
    repeat' first
      | with_reducible rfl
      | simp only [ih, State.replan_frame]
      | split
theorem State.retireAt_frame (s : State) (code : Nat) : (State.retireAt s code).frame = s.frame := by
  unfold State.retireAt
  split <;> simp only [↓State.frame_mk, State.frame_fold, State.fitGroups_frame, State.leaveEngine_frame, State.retireNow_frame]
theorem State.retirements_frame (s : State) : (State.retirements s).frame = s.frame := by
  unfold State.retirements
  repeat' first | with_reducible rfl | simp only [↓State.frame_mk, State.frame_fold, State.retireAt_frame] | split | refine (foldl_frame _ _ _ ?_).trans ?_ | intro _
theorem State.comeBack_frame (s : State) : (State.comeBack s).frame = s.frame := by
  unfold State.comeBack
  repeat' first | with_reducible rfl | simp only [↓State.frame_mk, State.frame_fold, State.engineOn_frame, State.loadEngine_frame] | split | refine (foldl_frame _ _ _ ?_).trans ?_ | intro _
theorem State.leaveDomains_frame (s : State) : (State.leaveDomains s).frame = s.frame := by
  unfold State.leaveDomains
  repeat' first | with_reducible rfl | simp only [↓State.frame_mk, State.frame_fold, State.replan_frame] | split | refine (foldl_frame _ _ _ ?_).trans ?_ | intro _
theorem State.leaveStale_frame (s : State) : (State.leaveStale s).frame = s.frame := by
  unfold State.leaveStale
  repeat' first | with_reducible rfl | simp only [State.replan_frame] | split | refine (foldl_frame _ _ _ ?_).trans ?_ | intro _
theorem State.histogram_frame (s : State) (j : Job) : (State.histogram s j).frame = s.frame := by
  unfold State.histogram
  split <;> simp only [↓State.frame_mk, State.frame_fold]
theorem State.countLate_frame (s : State) (j : Job) : (State.countLate s j).frame = s.frame := by
  simp only [State.countLate, ↓State.frame_mk, State.frame_fold, State.event_frame]
theorem State.reveals_frame (s : State) (id : Nat) (j : Job) (r : Result) : (State.reveals s id j r).frame = s.frame := by
  unfold State.reveals
  repeat' first | with_reducible rfl | simp only [State.replicate_frame, State.reveal_frame] | split
theorem State.releaseJob_frame (s : State) (id : Nat) (j : Job) (r : Result) : (State.releaseJob s id j r).frame = s.frame := by
  unfold State.releaseJob
  split <;> simp only [State.countLate_frame, State.finish_frame, State.histogram_frame, State.reveals_frame]
theorem State.releaseOne_frame (s : State) (id : Nat) : (State.releaseOne s id).frame = s.frame := by
  unfold State.releaseOne
  repeat' first
    | with_reducible rfl
    | simp only [↓State.frame_mk, State.frame_fold, foldl_frame, State.computeAfter_frame, State.modJob_frame, State.releaseJob_frame, kernelOf_frame]
    | refine (State.computeAfter_frame _ _ _ _ ?_).trans ?_
    | intro _
    | split
    | refine (foldl_frame _ _ _ ?_).trans ?_
    | refine (foldl_frame1 _ _ _ ?_).trans ?_
    | simp only [id_eq]
    | (dsimp only [])
theorem State.releases_frame (s : State) : (State.releases s).frame = s.frame := by
  unfold State.releases
  repeat' first | with_reducible rfl | simp only [State.releaseOne_frame] | split | refine (foldl_frame _ _ _ ?_).trans ?_ | intro _
theorem State.adminEffect_frame (s : State) (j : Job) (r : Result) : (State.adminEffect s j r).frame = s.frame := by
  unfold State.adminEffect
  repeat' first | with_reducible rfl | simp only [State.applyModify_frame, State.beginSampling_frame, State.createQueue_frame, State.startDirty_frame, ↓State.frame_mk, State.frame_fold, State.startQueue_frame] | split
theorem State.adminRelease_frame (s : State) (id : Nat) : (State.adminRelease s id).frame = s.frame := by
  unfold State.adminRelease
  repeat' first | with_reducible rfl | simp only [State.adminEffect_frame, State.aqClose_frame, State.finish_frame] | split
theorem State.adminReleases_frame (s : State) : (State.adminReleases s).frame = s.frame := by
  unfold State.adminReleases
  repeat' first | with_reducible rfl | simp only [State.adminRelease_frame] | split | refine (foldl_frame _ _ _ ?_).trans ?_ | intro _
theorem State.answerEntries_frame (s : State) : (State.answerEntries s).frame = s.frame := by
  unfold State.answerEntries
  repeat' first | with_reducible rfl | simp only [State.aqClose_frame, State.finishWith_frame] | split | refine (foldl_frame _ _ _ ?_).trans ?_ | intro _
theorem State.dropRecords_frame (s : State) : (State.dropRecords s).frame = s.frame := by
  unfold State.dropRecords
  repeat' first | with_reducible rfl | simp only [↓State.frame_mk, State.frame_fold, State.undoRecord_frame] | split | refine (foldl_frame _ _ _ ?_).trans ?_ | intro _
theorem State.undoDelete_frame (s : State) (id : Nat) : (State.undoDelete s id).frame = s.frame := by
  unfold State.undoDelete
  repeat' first | with_reducible rfl | simp only [State.setKey_frame] | split
theorem State.domainsOff_frame (s : State) : (State.domainsOff s).frame = s.frame := by
  unfold State.domainsOff
  repeat' first | with_reducible rfl | simp only [↓State.frame_mk, State.frame_fold, State.abortRuns_frame] | split | refine (foldl_frame _ _ _ ?_).trans ?_ | refine (foldl_frame1 _ _ _ ?_).trans ?_ | intro _ | (dsimp only [])
theorem State.shedPower_frame (s : State) : (State.shedPower s).frame = s.frame := by
  unfold State.shedPower
  repeat' first | with_reducible rfl | simp only [↓State.frame_mk, State.frame_fold, State.domainsOff_frame, State.dropRecords_frame, State.finish_frame, State.kstCommit_frame, State.undoDelete_frame, State.aqCloseAll_frame] | split | refine (foldl_frame _ _ _ ?_).trans ?_ | intro _
theorem State.reserveAll_frame (s : State) : (State.reserveAll s).frame = s.frame := by
  unfold State.reserveAll
  repeat' first | with_reducible rfl | simp only [State.reserveLeaves_frame] | split | refine (foldl_frame _ _ _ ?_).trans ?_ | intro _
theorem State.clearWarning_frame (s : State) : (State.clearWarning s).frame = s.frame := by
  unfold State.clearWarning
  split <;> simp only [↓State.frame_mk, State.frame_fold, State.cause_frame, State.reserveAll_frame]
theorem State.endClearing_frame (s : State) : (State.endClearing s).frame = s.frame := by
  unfold State.endClearing
  split <;> simp only [↓State.frame_mk, State.frame_fold]
theorem State.signalVector_frame (s : State) (fv : Nat × Nat) : (State.signalVector s fv).frame = s.frame := by
  simp only [State.signalVector, ↓State.frame_mk, State.frame_fold, State.sendMsix_frame]
theorem State.signalQueues_frame (s : State) : (State.signalQueues s).frame = s.frame := by
  unfold State.signalQueues
  repeat' first | with_reducible rfl | simp only [State.signalVector_frame] | split | refine (foldl_frame _ _ _ ?_).trans ?_ | intro _
theorem State.followCfg_frame (s : State) : (State.followCfg s).frame = s.frame := by
  unfold State.followCfg
  repeat' first | with_reducible rfl | simp only [↓State.frame_mk, State.frame_fold] | split
theorem State.squashes_frame (s : State) : (State.squashes s).frame = s.frame := by
  unfold State.squashes
  repeat' first | with_reducible rfl | simp only [State.dropLink_frame, State.squashFn_frame] | split | refine (foldl_frame _ _ _ ?_).trans ?_ | intro _
theorem State.runTimers_frame (s : State) : (State.runTimers s).frame = s.frame := by
  rfl
theorem State.followDrains_frame (s : State) : (State.followDrains s).frame = s.frame := by
  unfold State.followDrains
  repeat' first | with_reducible rfl | simp only [State.setFn_frame] | split | refine (foldl_frame _ _ _ ?_).trans ?_ | intro _
theorem State.resumed_frame (s : State) : (State.resumed s).frame = s.frame := by
  rfl
theorem State.tickFrames_frame (s : State) : (State.tickFrames s).frame = s.frame := by
  unfold State.tickFrames
  repeat' first | with_reducible rfl | simp only [State.sendFrame_frame] | split | refine (foldl_frame _ _ _ ?_).trans ?_ | intro _
theorem State.looseEvent_frame (s : State) (k : Nat) (ev : Nat) : (State.looseEvent s k ev).frame = s.frame := by
  simp only [State.looseEvent, ↓State.frame_mk, State.frame_fold, State.event_frame]
theorem State.tickEvents_frame (s : State) : (State.tickEvents s).frame = s.frame := by
  simp only [State.tickEvents, State.event_frame, State.looseEvent_frame]
theorem State.syncPages_frame (s : State) : (State.syncPages s).frame = s.frame := by
  simp only [State.syncPages, State.irqSyncAll_frame]
theorem State.whenRunning_frame (s : State) (f : State → State) (h_f : ∀ u0, (f u0).frame = u0.frame) :
    (State.whenRunning s f).frame = s.frame := by
  unfold State.whenRunning
  split <;> simp only [h_f]
theorem State.settleTick_frame (s : State) : (State.settleTick s).frame = s.frame := by
  unfold State.settleTick
  repeat' first
    | with_reducible rfl
    | simp only [↓State.frame_mk, State.frame_fold, foldl_frame, State.endBuilds_frame, State.leaveDomains_frame, State.leaveStale_frame, State.retirements_frame, State.retries_frame, State.serveGrants_frame, State.settle_frame, State.squashes_frame, State.wearTest_frame, State.whenRunning_frame]
    | refine (State.whenRunning_frame _ _ ?_).trans ?_
    | intro _
    | split
    | refine (foldl_frame _ _ _ ?_).trans ?_
    | refine (foldl_frame1 _ _ _ ?_).trans ?_
    | simp only [id_eq]
    | (dsimp only [])
theorem State.releaseEdge_frame (s : State) : (State.releaseEdge s).frame = s.frame := by
  unfold State.releaseEdge
  repeat' first
    | with_reducible rfl
    | simp only [↓State.frame_mk, State.frame_fold, foldl_frame, State.adminReleases_frame, State.answerEntries_frame, State.clearWarning_frame, State.domainsDue_frame, State.dropTurn_frame, State.endClearing_frame, State.releases_frame, State.shedPower_frame, State.signalQueues_frame, State.sweepReplicas_frame, State.whenRunning_frame, State.writeAllSamples_frame]
    | refine (State.whenRunning_frame _ _ ?_).trans ?_
    | intro _
    | split
    | refine (foldl_frame _ _ _ ?_).trans ?_
    | refine (foldl_frame1 _ _ _ ?_).trans ?_
    | simp only [id_eq]
    | (dsimp only [])
theorem State.frameTickLost_frame (s : State) : (State.frameTickLost s).frame = s.frame := by
  unfold State.frameTickLost
  repeat' first | with_reducible rfl | simp only [↓State.frame_mk, State.frame_fold, State.raise_frame] | split | refine (foldl_frame _ _ _ ?_).trans ?_ | refine (foldl_frame1 _ _ _ ?_).trans ?_ | intro _ | (dsimp only [])
theorem State.openTick_frame (s : State) : (State.openTick s).frame = s.frame := by
  unfold State.openTick
  repeat' first
    | with_reducible rfl
    | simp only [↓State.frame_mk, State.frame_fold, State.clearFiles_frame, State.followDrains_frame, State.giveBuilds_frame, State.prune_frame, State.reseeds_frame, State.runTimers_frame, State.startAllotments_frame, State.startPage_frame, State.stepRing_frame, State.syncPages_frame, State.tickEvents_frame, State.tickFrames_frame, State.whenRunning_frame, State.zeroPages_frame, State.frameTickLost_frame, State.loadStarts_frame]
    | refine (State.whenRunning_frame _ _ ?_).trans ?_
    | intro _
    | split
    | refine (foldl_frame _ _ _ ?_).trans ?_
    | refine (foldl_frame1 _ _ _ ?_).trans ?_
    | simp only [id_eq, ↓State.frame_mk, State.frame_fold, State.clearFiles_frame, State.followDrains_frame, State.frameTickLost_frame, State.giveBuilds_frame, State.loadStarts_frame, State.prune_frame, State.reseeds_frame, State.runTimers_frame, State.startAllotments_frame, State.startPage_frame, State.syncPages_frame, State.tickEvents_frame, State.tickFrames_frame, State.whenRunning_frame, State.zeroPages_frame]
    | (dsimp only [↓State.frame_mk, State.frame_fold, State.clearFiles_frame, State.followDrains_frame, State.frameTickLost_frame, State.giveBuilds_frame, State.loadStarts_frame, State.prune_frame, State.reseeds_frame, State.runTimers_frame, State.startAllotments_frame, State.startPage_frame, State.syncPages_frame, State.tickEvents_frame, State.tickFrames_frame, State.whenRunning_frame, State.zeroPages_frame])
theorem State.tickOutPulse_frame (s : State) : (State.tickOutPulse s).frame = s.frame := by
  unfold State.tickOutPulse
  split <;> simp only [State.emit_frame, ↓State.frame_mk, State.frame_fold]
theorem State.takeAnswer_frame (s : State) : (State.takeAnswer s).1.frame = s.frame := by
  unfold State.takeAnswer
  repeat' first | with_reducible rfl | simp only [↓State.frame_mk, State.frame_fold] | split | refine (foldl_frame _ _ _ ?_).trans ?_ | refine (foldl_frame1 _ _ _ ?_).trans ?_ | intro _ | (dsimp only [])
theorem State.readBy_frame (s : State) (f : State → Host.Outcome State Fault Refusal) (h : ∀ t, f s = .next t → t.frame = s.frame) :
    (State.readBy s f).1.frame = s.frame := by
  unfold State.readBy
  split
  · exact (State.takeAnswer_frame _).trans (h _ ‹_›)
  · rfl
  · rfl
theorem readCommand_frame (r : RegTarget) (f : State → Host.Outcome State Fault Refusal) (h : readCommand r = some f) (s : State) :
    ∀ t, f s = .next t → t.frame = s.frame := by
  intro t ht
  unfold readCommand at h
  repeat' first
    | split at h
    | contradiction
    | (with_reducible have h := Option.some.inj h; subst h)
    | exact execRngDataRead_frame _ _ _ ht
    | exact execDgsResultRead_frame _ _ _ _ _ ht
    | exact execApduDataRead_frame _ _ ht
theorem State.readReg_frame (s : State) (fn : Nat) (addr : Nat) : (State.readReg s fn addr).1.frame = s.frame := by
  unfold State.readReg
  dsimp only []
  split
  · rfl
  · split
    · split
      · exact State.readBy_frame _ _ (readCommand_frame _ _ ‹_› s)
      · rfl
    · split <;> rfl
theorem State.readAccess_frame (s : State) (fn : Nat) (addr : Nat) (copies : List CtlCopy) : (State.readAccess s fn addr copies).1.frame = s.frame := by
  unfold State.readAccess
  repeat' first | with_reducible rfl | simp only [↓State.frame_mk, State.frame_fold, State.ctlArrive_frame, State.readReg_frame] | split | refine (foldl_frame _ _ _ ?_).trans ?_ | refine (foldl_frame1 _ _ _ ?_).trans ?_ | intro _ | (dsimp only [])
theorem execCounterLoRead_frame (fn : Nat) (rd : HostRead) (s : State) :
    ∀ t, execCounterLoRead fn rd s = .next t → t.frame = s.frame := by
  intro t ht
  unfold execCounterLoRead at ht
  repeat' first | (with_reducible have ht := Host.Outcome.next.inj ht; subst ht) | split at ht | (dsimp only [] at ht) | contradiction | with_reducible (cases ht; done) | with_reducible rfl | simp only [↓State.frame_mk, State.frame_fold, State.answer_frame, State.readAccess_frame] | split | refine (foldl_frame _ _ _ ?_).trans ?_ | refine (foldl_frame1 _ _ _ ?_).trans ?_ | intro _ | (dsimp only [])
theorem State.through_frame (s : State) (f : State → Host.Outcome State Fault Refusal) (h_f : ∀ t, f s = .next t → t.frame = s.frame) :
    (State.through s f).frame = s.frame := by
  unfold State.through
  split
  · exact h_f _ ‹_›
  · rfl
  · rfl
theorem State.writeCtrl_frame (s : State) (k : Nat) (v : W32) : (State.writeCtrl s k v).frame = s.frame := by
  unfold State.writeCtrl
  repeat' first
    | with_reducible rfl
    | simp only [↓State.frame_mk, State.frame_fold, foldl_frame, State.onPage_frame, State.through_frame, State.writeHeader_frame]
    | refine Eq.trans (execBlkCtrlLock_frame _ _ _ (by assumption)) ?_
    | refine (State.onPage_frame _ _ _ ?_).trans ?_
    | refine (State.through_frame _ _ ?_).trans ?_
    | intro _
    | split
    | refine (foldl_frame _ _ _ ?_).trans ?_
    | refine (foldl_frame1 _ _ _ ?_).trans ?_
    | simp only [id_eq]
    | (dsimp only [])
theorem State.writeHif_frame (s : State) (off : Nat) (v : W32) : (State.writeHif s off v).frame = s.frame := by
  unfold State.writeHif
  split <;> simp only [↓State.frame_mk, State.frame_fold]
theorem State.writeSlotCtrl_frame (s : State) (n : Nat) (v : W32) : (State.writeSlotCtrl s n v).frame = s.frame := by
  unfold State.writeSlotCtrl
  repeat' first
    | with_reducible rfl
    | simp only [↓State.frame_mk, State.frame_fold, foldl_frame, State.through_frame]
    | refine Eq.trans (execCardActivate_frame _ _ _ (by assumption)) ?_
    | refine Eq.trans (execCardDeactivate_frame _ _ _ (by assumption)) ?_
    | refine Eq.trans (execCardWarmReset_frame _ _ _ (by assumption)) ?_
    | refine (State.through_frame _ _ ?_).trans ?_
    | intro _
    | split
    | refine (foldl_frame _ _ _ ?_).trans ?_
    | refine (foldl_frame1 _ _ _ ?_).trans ?_
    | simp only [id_eq]
    | (dsimp only [])
theorem State.writeThmReg_frame (s : State) (off : Nat) (v : W32) :
    (State.writeThmReg s off v).frame = s.frame := by
  unfold State.writeThmReg
  refine ite_frame ?_ (ite_frame ?_ (ite_frame ?_ (ite_frame ?_ ?_)))
  · exact State.through_frame _ _ (execApduStart_frame _ _)
  · exact State.through_frame _ _ (execApduDataWrite_frame _ _)
  · exact (State.through_frame _ _ (execQuorumClose_frame _ _)).trans (State.through_frame _ _ (execQuorumOpen_frame _ _))
  · exact State.writeSlotCtrl_frame _ _ _
  · exact State.onPage_frame _ _ _ (State.writeThm_frame _ _ _)
theorem State.writePlkReg_frame (s : State) (off : Nat) (v : W32) : (State.writePlkReg s off v).frame = s.frame := by
  unfold State.writePlkReg
  repeat' first
    | with_reducible rfl
    | simp only [↓State.frame_mk, State.frame_fold, foldl_frame, State.onPage_frame, State.through_frame, State.writePlk_frame]
    | refine Eq.trans (execPeerFprClear_frame _ _ _ (by assumption)) ?_
    | refine Eq.trans (execPeerFprWrite_frame _ _ _ (by assumption)) ?_
    | refine Eq.trans (execPortEnable_frame _ _ _ _ (by assumption)) ?_
    | refine (State.onPage_frame _ _ _ ?_).trans ?_
    | refine (State.through_frame _ _ ?_).trans ?_
    | intro _
    | split
    | refine (foldl_frame _ _ _ ?_).trans ?_
    | refine (foldl_frame1 _ _ _ ?_).trans ?_
    | simp only [id_eq]
    | (dsimp only [])
theorem State.writePcrReg_frame (s : State) (off : Nat) (v : W32) : (State.writePcrReg s off v).frame = s.frame := by
  unfold State.writePcrReg
  repeat' first
    | with_reducible rfl
    | simp only [↓State.frame_mk, State.frame_fold, foldl_frame, State.onPage_frame, State.through_frame, State.writePcr_frame]
    | refine Eq.trans (execBankCtrlEnter_frame _ _ (by assumption)) ?_
    | refine Eq.trans (execLifecycleTarget_frame _ _ _ (by assumption)) ?_
    | refine Eq.trans (execPcrReset_frame _ _ _ (by assumption)) ?_
    | refine (State.onPage_frame _ _ _ ?_).trans ?_
    | refine (State.through_frame _ _ ?_).trans ?_
    | intro _
    | split
    | refine (foldl_frame _ _ _ ?_).trans ?_
    | refine (foldl_frame1 _ _ _ ?_).trans ?_
    | simp only [id_eq]
    | (dsimp only [])
theorem State.writeHrtReg_frame (s : State) (off : Nat) (v : W32) : (State.writeHrtReg s off v).frame = s.frame := by
  unfold State.writeHrtReg
  repeat' first
    | with_reducible rfl
    | simp only [↓State.frame_mk, State.frame_fold, foldl_frame, State.onPage_frame, State.through_frame, State.writeHrt_frame]
    | refine Eq.trans (execHrtAck_frame _ _ _ (by assumption)) ?_
    | refine Eq.trans (execHrtBeat_frame _ _ _ (by assumption)) ?_
    | refine Eq.trans (execHrtFirst_frame _ _ _ (by assumption)) ?_
    | refine Eq.trans (execSrcCfgWrite_frame _ _ _ (by assumption)) ?_
    | refine (State.onPage_frame _ _ _ ?_).trans ?_
    | refine (State.through_frame _ _ ?_).trans ?_
    | intro _
    | split
    | refine (foldl_frame _ _ _ ?_).trans ?_
    | refine (foldl_frame1 _ _ _ ?_).trans ?_
    | simp only [id_eq]
    | (dsimp only [])
theorem State.writeInstReg_frame (s : State) (fn : Nat) (off : Nat) (v : W32) :
    (State.writeInstReg s fn off v).frame = s.frame := by
  unfold State.writeInstReg
  refine ite_frame ?_ (ite_frame ?_ (ite_frame ?_ (ite_frame (ite_frame ?_ rfl) (ite_frame (ite_frame ?_ rfl) ?_))))
  · exact State.through_frame _ _ (fun t h => execInstAdb_frame _ _ _ t h)
  · split
    · exact State.through_frame _ _ (fun t h => execAdminQueueEnable_frame _ _ _ t h)
    · exact State.through_frame _ _ (fun t h => execAdminQueueDisable_frame _ _ _ t h)
  · exact State.through_frame _ _ (fun t h => execInstEcinv_frame _ _ _ t h)
  · exact State.through_frame _ _ (fun t h => execMbxUpSend_frame _ _ t h)
  · exact State.through_frame _ _ (fun t h => execMbxDnAck_frame _ _ t h)
  · exact State.onPage_frame _ _ _ (State.writeInst_frame _ _ _ _)
theorem State.writeBlock_frame (s : State) (k : Nat) (off : Nat) (v : W32) :
    (State.writeBlock s k off v).frame = s.frame := by
  unfold State.writeBlock
  refine ite_frame ?_ ?_
  · exact State.through_frame _ _ (fun t h => execSelftestStart_frame _ _ _ t h)
  · repeat' first
      | with_reducible rfl
      | exact State.through_frame _ _ (fun t h => execTrdTickcfg_frame _ _ t h)
      | exact State.through_frame _ _ (fun t h => execHistClear_frame _ _ t h)
      | exact State.through_frame _ _ (fun t h => execBneDummyRatio_frame _ _ _ t h)
      | exact State.through_frame _ _ (fun t h => execEntRawCtrl_frame _ _ _ t h)
      | exact State.through_frame _ _ (fun t h => execInjectionArm_frame _ _ t h)
      | exact State.through_frame _ _ (fun t h => execTmpRelease_frame _ _ t h)
      | exact State.through_frame _ _ (fun t h => execTamperConfigWrite_frame _ _ _ t h)
      | exact State.through_frame _ _ (fun t h => execPmuFreeze_frame _ _ t h)
      | exact State.through_frame _ _ (fun t h => execLkaRelax_frame _ _ t h)
      | exact State.writeHrtReg_frame _ _ _
      | exact State.writeThmReg_frame _ _ _
      | exact State.writePlkReg_frame _ _ _
      | exact State.writePcrReg_frame _ _ _
      | exact State.writeInstReg_frame _ _ _ _
      | exact State.onPage_frame _ _ _ (State.writeHif_frame _ _ _)
      | exact State.onPage_frame _ _ _ (State.writeTrd_frame _ _ _)
      | exact State.onPage_frame _ _ _ (State.writeBne_frame _ _ _ _)
      | exact State.onPage_frame _ _ _ (State.writeEnt_frame _ _ _)
      | exact State.onPage_frame _ _ _ (State.writeKst_frame _ _ _)
      | exact State.onPage_frame _ _ _ (State.writeMem_frame _ _ _)
      | exact State.onPage_frame _ _ _ (State.writeTmp_frame _ _ _)
      | exact State.onPage_frame _ _ _ (State.writePmu_frame _ _ _)
      | exact State.onPage_frame _ _ _ (State.writeLka_frame _ _ _)
      | refine ite_frame ?_ ?_
theorem State.writeView_frame (s : State) (fn : Nat) (off : Nat) (v : W32) : (State.writeView s fn off v).frame = s.frame := by
  unfold State.writeView
  repeat' first
    | with_reducible rfl
    | simp only [↓State.frame_mk, State.frame_fold, foldl_frame, State.through_frame]
    | refine Eq.trans (execMbxDnSend_frame _ _ _ (by assumption)) ?_
    | refine Eq.trans (execMbxUpAck_frame _ _ _ (by assumption)) ?_
    | refine (State.through_frame _ _ ?_).trans ?_
    | intro _
    | split
    | refine (foldl_frame _ _ _ ?_).trans ?_
    | refine (foldl_frame1 _ _ _ ?_).trans ?_
    | simp only [id_eq]
    | (dsimp only [])
theorem State.writeMailbox_frame (s : State) (fn : Nat) (byManager : Bool) (off : Nat) (v : W32) :
    (State.writeMailbox s fn byManager off v).frame = s.frame := by
  unfold State.writeMailbox
  repeat' first | with_reducible rfl | simp only [State.setFn_frame] | split
theorem State.writeVctrl_frame (s : State) (fn : Nat) (view : Nat) (v : W32) :
    (State.writeVctrl s fn view v).frame = s.frame := by
  unfold State.writeVctrl
  repeat' first
    | with_reducible rfl
    | simp only [↓State.frame_mk, State.frame_fold, foldl_frame, State.through_frame, State.writeWindow_frame]
    | refine Eq.trans (execDgsAbort_frame _ _ _ _ (by assumption)) ?_
    | refine Eq.trans (execDgsClose_frame _ _ _ _ (by assumption)) ?_
    | refine Eq.trans (execDgsFinal_frame _ _ _ _ (by assumption)) ?_
    | refine Eq.trans (execDgsOpen_frame _ _ _ _ (by assumption)) ?_
    | refine Eq.trans (execDgsRestore_frame _ _ _ _ (by assumption)) ?_
    | refine Eq.trans (execDgsSave_frame _ _ _ _ (by assumption)) ?_
    | refine Eq.trans (execDgsStart_frame _ _ _ _ (by assumption)) ?_
    | refine (State.through_frame _ _ ?_).trans ?_
    | intro _
    | split
    | refine (foldl_frame _ _ _ ?_).trans ?_
    | refine (foldl_frame1 _ _ _ ?_).trans ?_
    | simp only [id_eq]
    | (dsimp only [])
theorem State.writeDgsReg_frame (s : State) (fn : Nat) (off : Nat) (v : W32) :
    (State.writeDgsReg s fn off v).frame = s.frame := by
  unfold State.writeDgsReg
  repeat' first
    | with_reducible rfl
    | simp only [↓State.frame_mk, State.frame_fold, foldl_frame, State.through_frame, State.writeVctrl_frame, State.writeWindow_frame]
    | refine Eq.trans (execDgsKload_frame _ _ _ _ (by assumption)) ?_
    | refine Eq.trans (execDgsKunload_frame _ _ _ _ (by assumption)) ?_
    | refine Eq.trans (execDgsVdata_frame _ _ _ _ _ _ (by assumption)) ?_
    | refine (State.through_frame _ _ ?_).trans ?_
    | intro _
    | split
    | refine (foldl_frame _ _ _ ?_).trans ?_
    | refine (foldl_frame1 _ _ _ ?_).trans ?_
    | simp only [id_eq]
    | (dsimp only [])
theorem State.writeTable_frame (s : State) (fn : Nat) (off : Nat) (v : W32) :
    (State.writeTable s fn off v).frame = s.frame := by
  unfold State.writeTable
  repeat' first
    | with_reducible rfl
    | simp only [↓State.frame_mk, State.frame_fold, foldl_frame, State.msixMask_frame, State.through_frame]
    | refine Eq.trans (execMsixUnmask_frame _ _ _ _ (by assumption)) ?_
    | refine (State.through_frame _ _ ?_).trans ?_
    | intro _
    | split
    | refine (foldl_frame _ _ _ ?_).trans ?_
    | refine (foldl_frame1 _ _ _ ?_).trans ?_
    | simp only [id_eq]
    | (dsimp only [])
theorem State.narrowWrite_frame (s : State) (fn : Nat) (addr : Nat) : (State.narrowWrite s fn addr).frame = s.frame := by
  unfold State.narrowWrite
  repeat' first | with_reducible rfl | simp only [State.raise_frame, ↓State.frame_mk, State.frame_fold] | split
theorem execMigrateOffer_frame (job : Nat) (s : State) : ∀ t, execMigrateOffer job s = .next t → t.frame = s.frame := by
  intro t ht
  rw [← Host.Outcome.next.inj ht]
  refine State.onAdmin_frame _ _ _ _ (fun u j => ?_)
  repeat' first | with_reducible rfl | simp only [↓State.frame_mk, State.frame_fold, State.adminEnd_frame, State.drawInt_frame, State.modFn_frame, State.onAdmin_frame] | split
theorem execMigrateOfferExpiry_frame (fn : Nat) (s : State) :
    ∀ t, execMigrateOfferExpiry fn s = .next t → t.frame = s.frame := by
  intro t ht
  rw [← Host.Outcome.next.inj ht]
  simp only [State.modFn_frame]
theorem execMigrateFreeze_frame (job : Nat) (s : State) : ∀ t, execMigrateFreeze job s = .next t → t.frame = s.frame := by
  intro t ht
  rw [← Host.Outcome.next.inj ht]
  refine State.onAdmin_frame _ _ _ _ (fun u j => ?_)
  repeat' first | with_reducible rfl | simp only [State.adminEnd_frame, State.startDrain_frame] | split
theorem execInstanceFrozen_frame (fn : Nat) (s : State) : ∀ t, execInstanceFrozen fn s = .next t → t.frame = s.frame := by
  intro t ht
  unfold execInstanceFrozen at ht
  repeat' first
    | (with_reducible have ht := Host.Outcome.next.inj ht; subst ht)
    | split at ht
    | (dsimp only [] at ht)
    | (obtain ⟨_, _, rfl⟩ := Option.map_eq_some_iff.mp ht)
    | contradiction
    | with_reducible (cases ht; done)
    | with_reducible rfl
    | simp only [↓State.frame_mk, State.frame_fold, foldl_frame, State.adminEnd_frame, State.logEvent_frame, State.modFn_frame, State.setInst_frame]
    | intro _
    | split
    | refine (foldl_frame _ _ _ ?_).trans ?_
    | refine (foldl_frame1 _ _ _ ?_).trans ?_
    | simp only [id_eq]
    | (dsimp only [])
theorem execMigrateAbort_frame (job : Nat) (s : State) : ∀ t, execMigrateAbort job s = .next t → t.frame = s.frame := by
  intro t ht
  rw [← Host.Outcome.next.inj ht]
  refine State.onAdmin_frame _ _ _ _ (fun u j => ?_)
  repeat' first | with_reducible rfl | simp only [State.adminEnd_frame, State.logEvent_frame, State.modFn_frame, State.setInst_frame] | split
theorem State.exportKeys_frame (s : State) (fn : Nat) (job : Nat) : (State.exportKeys s fn job).frame = s.frame := by
  unfold State.exportKeys
  repeat' first | with_reducible rfl | simp only [State.journal_frame, State.setKey_frame] | split | refine (foldl_frame _ _ _ ?_).trans ?_ | intro _
theorem State.saveFirst_frame (s : State) (job : Nat) (j : Job) (version : Nat) :
    (State.saveFirst s job j version).frame = s.frame := by
  unfold State.saveFirst
  repeat' first | with_reducible rfl | simp only [State.adminEnd_frame, State.drawInt_frame, State.exportKeys_frame, State.modFn_frame, State.modJob_frame, ↓State.frame_mk, State.frame_fold] | split
theorem State.saveNext_frame (s : State) (job : Nat) (m : Migration) (index : Nat) : (State.saveNext s job m index).frame = s.frame := by
  unfold State.saveNext
  repeat' first | with_reducible rfl | simp only [↓State.frame_mk, State.frame_fold, State.adminEnd_frame, State.modFn_frame] | split | refine (foldl_frame _ _ _ ?_).trans ?_ | refine (foldl_frame1 _ _ _ ?_).trans ?_ | intro _ | (dsimp only [])
theorem execMigrateSave_frame (job : Nat) (s : State) : ∀ t, execMigrateSave job s = .next t → t.frame = s.frame := by
  intro t ht
  rw [← Host.Outcome.next.inj ht]
  refine State.onAdmin_frame _ _ _ _ (fun u j => ?_)
  repeat' first | with_reducible rfl | simp only [State.adminEnd_frame, State.saveFirst_frame, State.saveNext_frame, ↓State.frame_mk, State.frame_fold, State.onAdmin_frame] | split
theorem State.restoreKey_frame (s : State) (job : Nat) (c : List Byte) : (State.restoreKey s job c).frame = s.frame := by
  unfold State.restoreKey
  repeat' first | with_reducible rfl | simp only [↓State.frame_mk, State.frame_fold, State.createKey_frame, State.reserveLeaves_frame, State.startBuilds_frame] | split
theorem State.retake_frame (a0 : Nat) (a1 : State) (a2 : Nat) (a3 : Nat) (a4 : Nat → Bool) (a5 : List Fetched) :
    (State.retake a0 a1 a2 a3 a4 a5).1.frame = a1.frame := by
  induction a0 generalizing a1 a5 with
  | zero => rfl
  | succ n ih =>
    unfold State.retake
    repeat' first
      | with_reducible rfl
      | simp only [ih, ↓State.frame_mk, State.frame_fold, State.setQueue_frame, State.setJob_frame, State.takeEntry_frame, State.takeFailed_frame]
      | split
theorem State.restoreQueue_frame (s : State) (fn : Nat) (q : Nat) (x : Queue) (head : Nat) (sp : Nat) (epoch : Nat) (done : Nat → Bool) (rs : List Fetched) :
    (State.restoreQueue s fn q x head sp epoch done rs).1.frame = s.frame := by
  unfold State.restoreQueue
  repeat' first | with_reducible rfl | simp only [State.moveHead_frame, State.retake_frame, State.setQueue_frame, State.writeHead_frame] | split
theorem State.restoreSection_frame (job : Nat) (fn : Nat) (acc : State × List Fetched × Nat) (x : Nat × List Byte) :
    (State.restoreSection job fn acc x).1.frame = acc.1.frame := by
  unfold State.restoreSection
  repeat' first | with_reducible rfl | simp only [↓State.frame_mk, State.frame_fold, State.modFn_frame, State.restoreKey_frame, State.restoreQueue_frame] | split
theorem State.restoreWindow_frame (fn : Nat) (s : State) (x : Nat × List Byte) :
    (State.restoreWindow fn s x).frame = s.frame := by
  unfold State.restoreWindow
  split <;> simp only [State.setQueue_frame]
theorem State.failRestore_frame (s : State) (fn : Nat) (job : Nat) (r : Result) :
    (State.failRestore s fn job r).frame = s.frame := by
  unfold State.failRestore
  split <;> simp only [State.adminEnd_frame, State.modFn_frame, State.setInst_frame]
theorem State.finishRestore_frame (s : State) (fn : Nat) (job : Nat) (m : Migration) (reads : List Fetched) :
    (State.finishRestore s fn job m reads).frame = s.frame := by
  unfold State.finishRestore
  repeat' first
    | with_reducible rfl
    | simp only [↓State.frame_mk, State.frame_fold, foldl_frame, State.adminEnd_frame, State.failRestore_frame, State.logEvent_frame, State.message_frame, State.modFn_frame, State.modJob_frame, State.restoreSection_frame, State.restoreWindow_frame, State.setInst_frame]
    | intro _
    | split
    | refine (foldl_frame _ _ _ ?_).trans ?_
    | refine (foldl_frame1 _ _ _ ?_).trans ?_
    | simp only [id_eq]
    | (dsimp only [])
theorem State.addChunk_frame (s : State) (fn : Nat) (job : Nat) (m : Migration) (index : Nat) (plain : List Byte) (reads : List Fetched) :
    (State.addChunk s fn job m index plain reads).frame = s.frame := by
  unfold State.addChunk
  split <;> simp only [State.adminEnd_frame, State.finishRestore_frame, State.modFn_frame]
theorem State.restoreFirst_frame (s : State) (fn : Nat) (job : Nat) (o : Offer) (c : List Byte) (reads : List Fetched) :
    (State.restoreFirst s fn job o c reads).frame = s.frame := by
  unfold State.restoreFirst
  repeat' first | with_reducible rfl | simp only [State.addChunk_frame, State.failRestore_frame, State.modFn_frame, State.setInst_frame, ↓State.frame_mk, State.frame_fold] | split
theorem execMigrateRestore_frame (job : Nat) (reads : List Fetched) (s : State) :
    ∀ t, execMigrateRestore job reads s = .next t → t.frame = s.frame := by
  intro t ht
  rw [← Host.Outcome.next.inj ht]
  refine State.onAdmin_frame _ _ _ _ (fun u j => ?_)
  repeat' first | with_reducible rfl | simp only [State.addChunk_frame, State.adminEnd_frame, State.failRestore_frame, State.restoreFirst_frame] | split
theorem State.tap_frame (s : State) (ir : Nat) (out : List Bool) : (State.tap s ir out).frame = s.frame := by
  rfl
theorem State.boundaryScan_frame (s : State) (ir : Nat) (tdi : List Bool) : (State.boundaryScan s ir tdi).frame = s.frame := by
  rfl
theorem execExtest_frame (tdi : List Bool) (s : State) : ∀ t, execExtest tdi s = .next t → t.frame = s.frame := by
  intro t ht
  rw [← Host.Outcome.next.inj ht]
  repeat' first | with_reducible rfl | simp only [State.boundaryScan_frame] | split
theorem execSamplePreload_frame (tdi : List Bool) (s : State) : ∀ t, execSamplePreload tdi s = .next t → t.frame = s.frame := by
  intro t ht
  rw [← Host.Outcome.next.inj ht]
  repeat' first | with_reducible rfl | simp only [State.boundaryScan_frame] | split
theorem execIdcode_frame (s : State) : ∀ t, execIdcode s = .next t → t.frame = s.frame := by
  intro t ht
  rw [← Host.Outcome.next.inj ht]
  repeat' first | with_reducible rfl | simp only [State.tap_frame] | split
theorem execBypass_frame (tdi : List Bool) (s : State) : ∀ t, execBypass tdi s = .next t → t.frame = s.frame := by
  intro t ht
  rw [← Host.Outcome.next.inj ht]
  repeat' first | with_reducible rfl | simp only [State.tap_frame] | split
theorem execBankAddr_frame (addr : W64) (s : State) : ∀ t, execBankAddr addr s = .next t → t.frame = s.frame := by
  intro t ht
  rw [← Host.Outcome.next.inj ht]
  repeat' first | with_reducible rfl | simp only [↓State.frame_mk, State.frame_fold] | split
theorem State.bankRead_frame (s : State) (r : Nat) (off : Nat) : (State.bankRead s r off).1.frame = s.frame := by
  unfold State.bankRead
  repeat' first | with_reducible rfl | simp only [↓State.frame_mk, State.frame_fold, State.readReg_frame] | split
theorem execBankData_frame (s : State) : ∀ t, execBankData s = .next t → t.frame = s.frame := by
  intro t ht
  rw [← Host.Outcome.next.inj ht]
  repeat' first | with_reducible rfl | simp only [↓State.frame_mk, State.frame_fold, State.bankRead_frame, State.tap_frame] | split

end Sys2Proof.Machine
end

