-- ==== Sys2Proof/Laws/Life.lean ====
section
/-! SUPPORT. What the lifecycle rows keep: the lifecycle invariant, and DECOMMISSIONED as a final state. -/

namespace Sys2Proof.Machine

/-- `t` may follow `s`: the queue and the part stay, the lifecycle invariant is kept, and DECOMMISSIONED is final. -/
def State.Follows (s t : State) : Prop :=
  t.pending = s.pending ∧ t.part = s.part
  ∧ (s.lifeInv → t.lifeInv ∧ (s.held.decommissioned = true → t.held.decommissioned = true))

theorem State.follows_refl (s : State) : s.Follows s := ⟨rfl, rfl, fun h => ⟨h, id⟩⟩

theorem State.Follows.trans {a b c : State} (h : a.Follows b) (g : b.Follows c) : a.Follows c :=
  ⟨g.1.trans h.1, g.2.1.trans h.2.1, fun i => ⟨(g.2.2 (h.2.2 i).1).1, fun d => (g.2.2 (h.2.2 i).1).2 ((h.2.2 i).2 d)⟩⟩

theorem State.frame_parts {a b : State} (h : a.frame = b.frame) :
    a.pending = b.pending ∧ a.part = b.part ∧ a.held.life = b.held.life ∧ a.held.prevLife = b.held.prevLife
      ∧ a.held.stickyLock = b.held.stickyLock ∧ a.held.zeroized = b.held.zeroized
      ∧ a.held.decommissioned = b.held.decommissioned ∧ a.pcr.erasing = b.pcr.erasing
      ∧ a.us = b.us ∧ a.trd.edge = b.trd.edge ∧ a.trd.period = b.trd.period := by
  simpa only [State.frame, Prod.mk.injEq] using h

theorem State.follows_of_frame {a b : State} (h : b.frame = a.frame) : a.Follows b := by
  obtain ⟨h1, h2, h3, h4, h5, _, h7, h8, _⟩ := State.frame_parts h
  refine ⟨h1, h2, fun i => ⟨?_, fun d => h7.trans d⟩⟩
  simpa only [State.lifeInv, h3, h4, h5, h7, h8] using i

theorem State.follows_ite {c : Prop} [Decidable c] {s a b : State} (ha : c → s.Follows a) (hb : ¬c → s.Follows b) :
    s.Follows (if c then a else b) := by
  split
  · exact ha ‹_›
  · exact hb ‹_›

theorem lifeOk_lock {life prev er : Nat} {st de : Bool} (i : lifeOk life prev er st de) (h : life ≠ 7) (g : life ≠ 5) :
    lifeOk 5 life er true de := by
  obtain ⟨⟨i1, i2⟩, i3, i4, i5⟩ := i
  refine ⟨by decide, ?_, fun _ => by decide, fun _ _ => by omega⟩
  rw [i3]; exact ⟨fun e => absurd e h, fun e => absurd e (by decide)⟩
theorem lifeOk_erase {life prev er : Nat} {st de : Bool} (i : lifeOk life prev er st de) (h : life ≠ 7) :
    lifeOk 6 0 er true de := by
  obtain ⟨⟨i1, i2⟩, i3, i4, i5⟩ := i
  refine ⟨by decide, ?_, fun _ => by decide, fun e => absurd e (by decide)⟩
  rw [i3]; exact ⟨fun e => absurd e h, fun e => absurd e (by decide)⟩

/-- A response is taken from any state but DECOMMISSIONED (R613, R731). -/
theorem State.lifeResponse_follows (s : State) (r : Nat) (h : s.held.life ≠ 7) : s.Follows (s.lifeResponse r) := by
  unfold State.lifeResponse
  exact State.follows_ite (fun g => ⟨rfl, rfl, fun i => ⟨lifeOk_lock i h g.2, id⟩⟩)
    (fun _ => State.follows_ite (fun _ => ⟨rfl, rfl, fun i => ⟨lifeOk_erase i h, id⟩⟩) (fun _ => State.follows_refl _))

theorem State.takeResponse_follows (s : State) (r : Nat) (h : s.held.life ≠ 7) : s.Follows (s.takeResponse r) := by
  unfold State.takeResponse
  have e : s.Follows ({ s with tmp := { s.tmp with response := r, resuming := false } } : State) := State.follows_of_frame rfl
  exact (e.trans (State.lifeResponse_follows _ r h)).trans (State.follows_of_frame (State.haltModule_frame _ _))

theorem State.alarm_follows (s : State) (n r eflags meas : Nat) (forced drill : Bool) (h : r = 0 ∨ s.held.life ≠ 7) :
    s.Follows (s.alarm n r eflags meas forced drill) := by
  unfold State.alarm
  have e := State.alarmRecord_frame s n r (if s.inForce < r then r else 0) eflags meas forced drill
  generalize s.alarmRecord n r (if s.inForce < r then r else 0) eflags meas forced drill = t at *
  have f := State.follows_of_frame e
  refine State.follows_ite (fun g => ?_) (fun _ => f)
  refine f.trans (State.takeResponse_follows t r ?_)
  rw [(State.frame_parts e).2.2.1]
  rcases h with h | h
  · omega
  · exact h

theorem State.realAlarm_follows (s : State) (n eflags meas : Nat) : s.Follows (s.realAlarm n eflags meas) := by
  unfold State.realAlarm
  split
  next r h =>
    refine State.alarm_follows s n r eflags meas false false ?_
    unfold State.alarmResponse at h
    obtain ⟨x, _, hx⟩ := Option.map_eq_some_iff.mp h
    split at hx
    · exact .inl hx.symm
    · exact .inr (by omega)
  · exact State.follows_refl _

theorem State.forceTamper_follows (s : State) : s.Follows s.forceTamper := by
  unfold State.forceTamper
  have e : s.Follows ({ s with free := s.free + 1 } : State) := State.follows_of_frame rfl
  dsimp only []
  split
  · split
    next h => exact e.trans (State.alarm_follows _ _ _ _ _ _ _ (.inr (by rw [h]; decide)))
    · exact e.trans (State.alarm_follows _ _ _ _ _ _ _ (.inl rfl))
  · exact e.trans (State.alarm_follows _ _ _ _ _ _ _ (.inl rfl))

theorem State.onPage_follows (s : State) (k : Nat) (f : State → State) (h : s.Follows (f s)) : s.Follows (s.onPage k f) := by
  unfold State.onPage
  exact State.follows_ite (fun _ => h) (fun _ => State.follows_refl _)

theorem State.through_follows (s : State) (f : State → Host.Outcome State Fault Refusal)
    (h : ∀ t, f s = .next t → s.Follows t) : s.Follows (s.through f) := by
  unfold State.through
  split
  next t e => exact h _ e
  · exact State.follows_refl _
  · exact State.follows_refl _

theorem State.whenRunning_follows (s : State) (f : State → State) (h : s.Follows (f s)) : s.Follows (s.whenRunning f) := by
  unfold State.whenRunning
  exact State.follows_ite (fun _ => h) (fun _ => State.follows_refl _)

theorem execFltForce_follows (blk : Nat) (val : W32) (s : State) :
    ∀ t, execFltForce blk val s = .next t → s.Follows t := by
  intro t ht
  rw [← Host.Outcome.next.inj ht]
  refine State.onPage_follows s blk _ ?_
  refine State.follows_ite (fun _ => State.follows_refl _) (fun _ => ?_)
  have e : ∀ (u v : State) (evs : List Event), u.frame = s.frame → v = u.raiseAll evs → s.Follows v := by
    intro u v evs hu hv
    rw [hv]
    exact State.follows_of_frame ((State.raiseAll_frame _ _).trans hu)
  refine State.follows_ite (fun _ => ?_) (fun _ => ?_)
  · refine State.Follows.trans ?_ (State.forceTamper_follows _)
    refine e _ _ _ ?_ rfl
    exact ite_frame rfl rfl
  · refine e _ _ _ ?_ rfl
    exact ite_frame rfl rfl

/-- The lifecycle rows that raise a real alarm (R605 to R609, R614, R621). -/
theorem execTamperAlarm_follows (input meas : Nat) (s : State) : ∀ t, execTamperAlarm input meas s = .next t → s.Follows t := by
  intro t ht
  rw [← Host.Outcome.next.inj ht]
  exact State.follows_ite
    (fun _ => (State.follows_of_frame (State.detectors_frame _ _ _)).trans (State.realAlarm_follows _ _ _ _)) (fun _ => State.follows_refl _)

theorem execSelvedgeCheck_follows (traces : BitVec 8) (s : State) :
    ∀ t, execSelvedgeCheck traces s = .next t → s.Follows t := by
  intro t ht
  rw [← Host.Outcome.next.inj ht]
  refine State.follows_ite (fun _ => ?_) (fun _ => State.Follows.trans ?_ (State.realAlarm_follows _ _ _ _))
  · exact State.follows_of_frame ((State.event_frame _ _ _ _ _).trans rfl)
  · exact State.follows_of_frame ((State.event_frame _ _ _ _ _).trans rfl)

theorem execLoopCheck_follows (n meas : Nat) (bitsMatch : Bool) (s : State) :
    ∀ t, execLoopCheck n meas bitsMatch s = .next t → s.Follows t := by
  intro t ht
  rw [← Host.Outcome.next.inj ht]
  refine State.follows_ite (fun _ => State.Follows.trans ?_ (State.realAlarm_follows _ _ _ _)) (fun _ => ?_)
  · exact State.follows_of_frame ((State.event_frame _ _ _ _ _).trans rfl)
  · exact State.follows_of_frame ((State.event_frame _ _ _ _ _).trans rfl)

theorem execCaseSwitch_follows (n : Nat) (level : Bool) (s : State) : ∀ t, execCaseSwitch n level s = .next t → s.Follows t := by
  intro t ht
  rw [← Host.Outcome.next.inj ht]
  refine State.follows_ite (fun _ => State.Follows.trans ?_ (State.realAlarm_follows _ _ _ _)) (fun _ => ?_)
  · exact State.follows_of_frame rfl
  · exact State.follows_of_frame rfl

theorem execMonitorDisagree_follows (m : Nat) (detectorB : Bool) (s : State) :
    ∀ t, execMonitorDisagree m detectorB s = .next t → s.Follows t := by
  intro t ht
  unfold execMonitorDisagree at ht
  split at ht
  · rw [← Host.Outcome.next.inj ht]
    refine State.Follows.trans ?_ (State.realAlarm_follows _ _ _ _)
    exact State.follows_of_frame ((State.raise_frame _ _).trans ((State.event_frame _ _ _ _ _).trans rfl))
  · rw [← Host.Outcome.next.inj ht]
    exact State.follows_refl _

theorem execVbatLow_follows (mv : Nat) (s : State) : ∀ t, execVbatLow mv s = .next t → s.Follows t := by
  intro t ht
  rw [← Host.Outcome.next.inj ht]
  refine State.follows_ite (fun _ => ?_) (fun _ => State.follows_ite (fun _ => ?_)
    (fun _ => State.Follows.trans ?_ (State.realAlarm_follows _ _ _ _)))
  · exact State.follows_of_frame ((State.irqSync_frame _ _).trans rfl)
  · exact State.follows_of_frame ((State.irqSync_frame _ _).trans ((State.raise_frame _ _).trans rfl))
  · exact State.follows_of_frame rfl

theorem lifeOk_set {life prev er n : Nat} {st de : Bool} (i : lifeOk life prev er st de) (h : life ≠ 7)
    (hn : 1 ≤ n ∧ n ≤ 6 ∧ n ≠ 5) : lifeOk n prev er st de := by
  obtain ⟨⟨i1, i2⟩, i3, i4, i5⟩ := i
  refine ⟨by omega, ?_, fun _ => by omega, fun e => by omega⟩
  rw [i3]
  exact ⟨fun e => absurd e h, fun e => by omega⟩

/-- A transition by request goes along a row of R727's table. -/
theorem State.lifeAllowed_row (s : State) (n : Nat) (h : s.lifeAllowed n = true) :
    (s.held.life = 1 ∧ n = 2) ∨ (s.held.life = 2 ∧ n = 3) ∨ (s.held.life = 3 ∧ n = 4) ∨ (s.held.life = 4 ∧ (n = 3 ∨ n = 7))
      ∨ (s.held.life = 6 ∧ n = 2) := by
  unfold State.lifeAllowed at h
  dsimp only [] at h
  split at h <;> simp_all

theorem State.setLife_follows (s : State) (n : Nat) (h : s.held.life ≠ 7) (hn : 1 ≤ n ∧ n ≤ 6 ∧ n ≠ 5) :
    s.Follows (s.setLife n) := by
  unfold State.setLife
  have e : s.Follows ({ s with held := { s.held with life := n } } : State) :=
    ⟨rfl, rfl, fun i => ⟨lifeOk_set i h hn, id⟩⟩
  exact e.trans (State.follows_of_frame (State.cause_frame _ _ _))

theorem State.startErase_follows (s : State) (n : Nat) (h : n = 1 → s.held.life ≠ 7) : s.Follows (s.startErase n) := by
  refine ⟨rfl, rfl, fun i => ⟨?_, id⟩⟩
  obtain ⟨i1, i2, i3, i4⟩ := i
  exact ⟨i1, i2, h, i4⟩

theorem State.leaveMaintenance_follows (s : State) : s.Follows s.leaveMaintenance :=
  State.follows_of_frame (State.leaveMaintenance_frame _)

theorem State.applyTarget_follows (s : State) : s.Follows s.applyTarget := by
  unfold State.applyTarget
  split
  · exact State.follows_refl _
  next n _ =>
    have e : s.Follows ({ s with pcr := { s.pcr with target := none } } : State) := State.follows_of_frame rfl
    refine State.follows_ite (fun _ => e) (fun g => e.trans ?_)
    have row := State.lifeAllowed_row s n (by simpa using g)
    have hl : s.held.life ≠ 7 := by omega
    have hm := State.leaveMaintenance_frame ({ s with pcr := { s.pcr with target := none } } : State)
    have ml : (({ s with pcr := { s.pcr with target := none } } : State).leaveMaintenance).held.life = s.held.life :=
      (State.frame_parts hm).2.2.1
    refine State.follows_ite (fun h7 => ?_) (fun h7 => State.follows_ite (fun h6 => ?_) (fun h6 => State.follows_ite (fun h1 => ?_) (fun h1 => ?_)))
    · exact ((State.leaveMaintenance_follows _).trans (State.takeResponse_follows _ 3 (by rw [ml]; exact hl))).trans
        (State.startErase_follows _ 2 (fun h => absurd h (by decide)))
    · exact State.startErase_follows _ 1 (fun _ => hl)
    · refine State.Follows.trans (State.follows_of_frame rfl) (State.setLife_follows _ 2 hl (by decide))
    · have hn : 1 ≤ n ∧ n ≤ 6 ∧ n ≠ 5 := by omega
      split
      · exact (State.leaveMaintenance_follows _).trans (State.setLife_follows _ n (by rw [ml]; exact hl) hn)
      · exact State.setLife_follows _ n hl hn

theorem State.unlock_follows (s : State) (h : s.held.life = 5) (g : s.held.stickyLock = true) : s.Follows s.unlock := by
  unfold State.unlock
  refine State.Follows.trans ?_ (State.follows_of_frame (State.afterUnlock_frame _))
  refine ⟨rfl, rfl, fun i => ⟨?_, id⟩⟩
  obtain ⟨i1, i2, i3, i4⟩ := i
  have p := i4 h g
  refine ⟨⟨p.1, by show s.held.prevLife ≤ 7; omega⟩, ?_, fun _ => by show s.held.prevLife ≠ 7; omega, fun _ e => absurd e (by show ¬ false = true; decide)⟩
  show s.held.decommissioned = true ↔ s.held.prevLife = 7
  rw [i2]
  omega

theorem State.quorumAction_follows (s : State) : s.Follows s.quorumAction := by
  unfold State.quorumAction
  split
  · exact State.follows_refl _
  · dsimp only []
    have e : s.Follows ({ s with thm := { s.thm with action := none } } : State) := State.follows_of_frame rfl
    split
    · refine State.follows_ite (fun g => e.trans (State.unlock_follows _ g.2 ?_)) (fun _ => State.follows_refl _)
      have := g.1
      simp only [State.unlockable, Bool.and_eq_true] at this
      exact this.1
    · exact State.follows_of_frame ((State.evidence_frame _ _ _ _ _).trans rfl)
    · exact State.follows_ite (fun _ => State.follows_of_frame rfl) (fun _ => e)
    · refine State.follows_ite (fun g => e.trans ?_) (fun _ => e)
      refine State.Follows.trans ?_ (State.follows_of_frame (State.afterRestore_frame _))
      refine ⟨rfl, rfl, fun i => ⟨?_, id⟩⟩
      obtain ⟨i1, i2, i3, i4⟩ := i
      refine ⟨by show 1 ≤ 3 ∧ 3 ≤ 7; decide, ?_, fun _ => by show 3 ≠ 7; decide, fun h => absurd h (by show ¬ 3 = 5; decide)⟩
      show s.held.decommissioned = true ↔ 3 = 7
      have : s.held.decommissioned = true ↔ s.held.life = 7 := i2
      rw [this, g]
      decide
    · exact e

theorem execAreaEraseDone_follows (s : State) : ∀ t, execAreaEraseDone s = .next t → s.Follows t := by
  intro t ht
  rw [← Host.Outcome.next.inj ht]
  have e := State.eraseArea_frame s
  have hl : (s.eraseArea).held.life = s.held.life := (State.frame_parts e).2.2.1
  refine State.follows_ite (fun g => ?_) (fun _ => State.follows_ite (fun g => ?_) (fun _ => State.follows_refl _))
  · refine State.Follows.trans ?_ (State.follows_of_frame ((State.irqSync_frame _ _).trans (State.cause_frame _ _ _)))
    refine ⟨rfl, rfl, fun i => ⟨?_, id⟩⟩
    obtain ⟨i1, i2, i3, i4⟩ := i
    refine ⟨by show 1 ≤ 2 ∧ 2 ≤ 7; decide, ?_, fun _ => by show 2 ≠ 7; decide, fun h => absurd h (by show ¬ 2 = 5; decide)⟩
    show s.held.decommissioned = true ↔ 2 = 7
    have h2 : s.held.decommissioned = true ↔ s.held.life = 7 := i2
    rw [h2]
    exact ⟨fun h => absurd h (i3 g), fun h => absurd h (by decide)⟩
  · refine State.Follows.trans ?_ (State.follows_of_frame (State.cause_frame _ _ _))
    refine ⟨rfl, rfl, fun i => ⟨?_, fun _ => rfl⟩⟩
    refine ⟨by show 1 ≤ 7 ∧ 7 ≤ 7; decide, ?_, fun h => absurd h (by show ¬ 0 = 1; decide), fun h => absurd h (by show ¬ 7 = 5; decide)⟩
    exact ⟨fun _ => rfl, fun _ => rfl⟩

theorem State.resetHeld_life (s : State) (loss : Bool) :
    (s.resetHeld loss).life = s.held.life ∧ (s.resetHeld loss).decommissioned = s.held.decommissioned
      ∧ ((s.resetHeld loss).stickyLock = true → (s.resetHeld loss).prevLife = s.held.prevLife ∧ s.held.stickyLock = true) := by
  unfold State.resetHeld
  dsimp only []
  split
  · exact ⟨rfl, rfl, fun h => absurd h (by show ¬ false = true; decide)⟩
  · exact ⟨rfl, rfl, fun h => ⟨rfl, h⟩⟩

theorem State.inReset_follows (s : State) (c : ResetCause) : s.Follows (s.inReset c) := by
  have h := State.resetHeld_life s (decide (c = .powerUp) || decide (c = .undervoltage))
  refine ⟨rfl, rfl, fun i => ?_⟩
  obtain ⟨i1, i2, i3, i4⟩ := i
  show lifeOk (s.resetHeld _).life (s.resetHeld _).prevLife 0 (s.resetHeld _).stickyLock (s.resetHeld _).decommissioned
    ∧ (_ → (s.resetHeld _).decommissioned = true)
  refine ⟨⟨?_, ?_, fun e => absurd e (by decide), fun e g => ?_⟩, fun d => h.2.1.trans d⟩
  · rw [h.1]; exact i1
  · rw [h.1, h.2.1]; exact i2
  · rw [(h.2.2 g).1]
    exact i4 (h.1.symm.trans e) (h.2.2 g).2

theorem State.afterReset_follows (s : State) (c : ResetCause) : s.Follows (s.afterReset c) := by
  refine (State.inReset_follows s c).trans ?_
  refine State.follows_of_frame ?_
  unfold State.afterReset
  refine (State.nextGen_frame _ _).trans ?_
  exact ite_frame rfl ((State.reserve_frame _ _ _).trans (State.modFn_frame _ _ _))

theorem execColdReset_follows (c : ResetCause) (s : State) : ∀ t, execColdReset c s = .next t → s.Follows t := by
  intro t ht
  rw [← Host.Outcome.next.inj ht]
  exact State.follows_ite (fun _ => State.follows_refl _) (fun _ => State.afterReset_follows _ _)

theorem bootLife_cases (h : Held) :
    (bootLife h = 7 ∧ (h.decommissioned = true ∨ h.life = 7)) ∨ (h.decommissioned = false ∧
      (bootLife h = 1 ∨ bootLife h = 6 ∨ (bootLife h = 5 ∧ h.stickyLock = true ∧ (h.valid = true → h.life ≠ 7)) ∨ bootLife h = 2 ∨ bootLife h = 3)) := by
  unfold bootLife
  split
  next g => exact .inl ⟨rfl, g.imp_right And.right⟩
  next g =>
    have hd : h.decommissioned = false := by
      cases e : h.decommissioned with
      | false => rfl
      | true => exact absurd (.inl e) g
    have g2 : h.valid = true → h.life ≠ 7 := fun a b => g (.inr ⟨a, b⟩)
    refine .inr ⟨hd, ?_⟩
    split
    · exact .inl rfl
    · split
      · exact .inr (.inl rfl)
      · split
        · exact .inr (.inl rfl)
        · split
          next hs => exact .inr (.inr (.inl ⟨rfl, hs, g2⟩))
          · split
            · exact .inr (.inr (.inr (.inl rfl)))
            · exact .inr (.inr (.inr (.inr rfl)))

theorem State.takeLife_follows (s : State) : s.Follows s.takeLife := by
  refine ⟨rfl, rfl, fun i => ⟨?_, id⟩⟩
  obtain ⟨⟨i1, i1'⟩, i2, i3, i4⟩ := i
  show lifeOk (bootLife s.held) (if bootLife s.held = 5 then (if s.held.life = 5 then s.held.prevLife else s.held.life) else 0)
    s.pcr.erasing s.held.stickyLock s.held.decommissioned
  rcases bootLife_cases s.held with ⟨h, g⟩ | ⟨hd, h⟩
  · have d : s.held.decommissioned = true := g.elim id i2.mpr
    rw [h]
    exact ⟨by decide, ⟨fun _ => rfl, fun _ => d⟩, fun e => absurd (i2.mp d) (i3 e), fun e => absurd e (by decide)⟩
  · have hl : s.held.life ≠ 7 := fun e => by rw [i2.mpr e] at hd; exact absurd hd (by decide)
    have key : ∀ n p : Nat, 1 ≤ n ∧ n ≤ 6 → (n = 5 → s.held.stickyLock = true → 1 ≤ p ∧ p ≤ 6 ∧ p ≠ 5) →
        lifeOk n p s.pcr.erasing s.held.stickyLock s.held.decommissioned := by
      intro n p hn hp
      refine ⟨by omega, ?_, fun _ => by omega, hp⟩
      rw [hd]
      exact ⟨fun e => absurd e (by decide), fun e => by omega⟩
    apply key
    · omega
    · intro h5 st
      rw [if_pos h5]
      split
      next e => exact i4 e st
      · omega

theorem State.bootFireguard_follows (s : State) (r : BootResults) : s.Follows (s.bootFireguard r) := by
  unfold State.bootFireguard
  refine State.follows_ite (fun _ => State.follows_of_frame (State.raise_frame _ _)) (fun _ => ?_)
  refine (State.takeLife_follows s).trans (State.follows_of_frame ?_)
  exact (State.bootDrbgs_frame _ _).trans (ite_frame ((State.raise_frame _ _).trans rfl) rfl)

theorem State.bootStep_follows (s : State) (n : Nat) (f : State → State) (h : ∀ u : State, u.Follows (f u)) :
    s.Follows (s.bootStep n f) := by
  unfold State.bootStep
  refine State.follows_ite (fun _ => State.follows_refl _) (fun _ => ?_)
  exact (h s).trans (State.follows_ite (fun _ => State.follows_refl _) (fun _ => State.follows_of_frame rfl))

theorem State.bootReady_follows (s : State) (r : BootResults) : s.Follows (s.bootReady r) := by
  have h := State.follows_of_frame (State.rebuildTrees_frame s)
  have k : ∀ u : State, s.Follows u → s.Follows (u.cause 0x71 3) := fun u h => h.trans (State.follows_of_frame (State.cause_frame _ _ _))
  exact k _ ⟨h.1, h.2.1, h.2.2⟩

theorem State.powerUp_follows (s : State) (r : BootResults) : s.Follows (s.powerUp r) := by
  unfold State.powerUp
  have key : ∀ (a b : State) (n : Nat) (f : State → State), a.Follows b → (∀ u : State, u.Follows (f u)) →
      a.Follows (b.bootStep n f) := fun a b n f h g => h.trans (State.bootStep_follows b n f g)
  refine key _ _ _ _ (key _ _ _ _ (key _ _ _ _ (key _ _ _ _ (key _ _ _ _ (key _ _ _ _ (key _ _ _ _ (key _ _ _ _ (key _ _ _ _
    (key _ _ _ _ (key _ _ _ _ (key _ _ _ _ (key _ _ _ _ (State.follows_of_frame rfl) ?_) ?_) ?_) ?_) ?_) ?_) ?_) ?_) ?_) ?_) ?_) ?_) ?_
  · exact fun u => State.follows_refl u
  · exact fun u => State.follows_refl u
  · exact fun u => State.follows_of_frame (State.bootMemories_frame _ _)
  · exact fun u => State.follows_of_frame rfl
  · exact fun u => State.bootFireguard_follows u r
  · exact fun u => State.follows_of_frame rfl
  · exact fun u => State.follows_of_frame (State.bootKeys_frame _ _)
  · exact fun u => State.follows_of_frame (State.bootPatches_frame _)
  · exact fun u => State.follows_of_frame (State.bootTests_frame _ _)
  · exact fun u => State.follows_refl u
  · exact fun u => State.follows_of_frame (State.bootJournal_frame _ _)
  · exact fun u => State.follows_of_frame (State.bootLka_frame _)
  · exact fun u => State.bootReady_follows u r

theorem execPowerUp_follows (r : BootResults) (s : State) : ∀ t, execPowerUp r s = .next t → s.Follows t := by
  intro t ht
  rw [← Host.Outcome.next.inj ht]
  exact State.follows_ite (fun _ => State.follows_refl _) (fun _ => State.powerUp_follows _ _)

theorem State.applyChanges_follows (s : State) : s.Follows s.applyChanges := by
  unfold State.applyChanges
  have e : s.Follows (s.resumed.applyLka) := State.follows_of_frame ((State.applyLka_frame _).trans (State.resumed_frame _))
  exact (e.trans ((State.quorumAction_follows _).trans (State.applyTarget_follows _))).trans
    (State.follows_of_frame (State.comeBack_frame _))

theorem State.admissionEdge_follows (s : State) : s.Follows s.admissionEdge := by
  unfold State.admissionEdge
  refine State.follows_ite (fun _ => State.follows_refl _) (fun _ => (State.applyChanges_follows s).trans ?_)
  exact State.follows_ite (fun _ => State.follows_of_frame (State.admission_frame _))
    (fun _ => State.follows_ite (fun _ => State.follows_of_frame (foldl_frame _ _ _ State.stoppedOne_frame))
      (fun _ => State.follows_refl _))

theorem execPeriodApplied_follows (s : State) : ∀ t, execPeriodApplied s = .next t → s.Follows t := by
  intro t ht
  unfold execPeriodApplied at ht
  split at ht
  · rw [← Host.Outcome.next.inj ht]; exact State.follows_refl s
  · have k : ∀ u : State, s.Follows u → s.Follows (u.cause 3 2) := fun u h => h.trans (State.follows_of_frame (State.cause_frame _ _ _))
    rw [← Host.Outcome.next.inj ht]
    exact k _ ⟨rfl, rfl, fun i => ⟨i, id⟩⟩

theorem State.closeTick_follows (s : State) : s.Follows s.closeTick := by
  have h := State.whenRunning_follows s _ (State.follows_of_frame (State.endSlots_frame s))
  have k : ∀ u : State, s.Follows u → s.Follows ((u.countEdge s.tickLength).whenRunning State.stepRing).followCfg := fun u h =>
    Follows.trans (b := u.countEdge s.tickLength) ⟨h.1, h.2.1, h.2.2⟩ (State.follows_of_frame
      ((State.followCfg_frame _).trans (State.whenRunning_frame _ _ State.stepRing_frame)))
  exact k _ h

theorem State.tickEdge_follows (s : State) : s.Follows s.tickEdge := by
  unfold State.tickEdge
  have e1 : s.Follows (((s.closeTick).settleTick).releaseEdge) :=
    (State.closeTick_follows s).trans
      (State.follows_of_frame ((State.releaseEdge_frame _).trans (State.settleTick_frame _)))
  have e2 : ∀ u : State, u.Follows u.planEdgeWork := by
    intro u
    refine State.whenRunning_follows u _ ?_
    exact ((State.follows_of_frame (State.fullClock_frame u)).trans (State.admissionEdge_follows _)).trans
      (State.follows_of_frame (State.trim_frame _))
  exact (e1.trans (e2 _)).trans (State.follows_of_frame ((State.tickOutPulse_frame _).trans (State.openTick_frame _)))

theorem execTickEdge_follows (s : State) : ∀ t, execTickEdge s = .next t → s.Follows t := by
  intro t ht
  rw [← Host.Outcome.next.inj ht]
  exact State.follows_ite (fun _ => State.tickEdge_follows _) (fun _ => State.follows_refl _)

theorem State.writeHead__follows (s : State) (k off : Nat) (v : W32) : s.Follows (s.writeHead_ k off v) := by
  unfold State.writeHead_
  refine State.follows_ite (fun _ => State.follows_of_frame (State.writeCtrl_frame _ _ _)) (fun _ =>
    State.follows_ite (fun _ => ?_) (fun _ => State.follows_ite (fun _ => ?_) (fun _ => State.follows_ite (fun _ => ?_) (fun _ =>
      State.follows_ite (fun _ => ?_) (fun _ => ?_)))))
  · exact State.follows_of_frame (State.through_frame _ _ (fun t h => execIrqMask_frame _ _ _ t h))
  · exact State.follows_of_frame (State.through_frame _ _ (fun t h => execIrqClear_frame _ _ _ t h))
  · exact State.follows_of_frame (State.through_frame _ _ (fun t h => execFltStatus_frame _ _ _ t h))
  · exact State.through_follows _ _ (fun t h => execFltForce_follows _ _ _ t h)
  · exact State.follows_of_frame (State.onPage_frame _ _ _ (State.writeHeader_frame _ _ _ _))

theorem State.writeReg_follows (s : State) (fn addr : Nat) (v : W32) : s.Follows (s.writeReg fn addr v) := by
  unfold State.writeReg
  refine State.follows_ite (fun _ => ?_) (fun _ => State.follows_refl _)
  unfold State.writeTarget
  split
  · exact State.follows_of_frame (State.writeTable_frame _ _ _ _)
  · exact State.follows_of_frame (State.through_frame _ _ (fun t h => execDoorbell_frame _ _ _ _ t h))
  · exact State.follows_ite (fun _ => State.writeHead__follows _ _ _ _) (fun _ => State.follows_of_frame (State.writeBlock_frame _ _ _ _))
  · exact State.follows_of_frame (State.writeView_frame _ _ _ _)
  · exact State.follows_of_frame (State.writeMailbox_frame _ _ _ _ _)
  · exact State.follows_of_frame (State.writeDgsReg_frame _ _ _ _)
  · exact State.follows_of_frame (State.writeRng_frame _ _ _ _)
  · exact State.follows_refl _
  · exact State.follows_refl _
  · exact State.follows_refl _

theorem State.writeAccess_follows (s : State) (fn addr : Nat) (v : W32) (copies : List CtlCopy) :
    s.Follows (s.writeAccess fn addr v copies) := by
  unfold State.writeAccess
  have e := State.follows_of_frame (State.ctlArrive_frame s (s.seamPage (regTarget fn addr)) copies)
  exact State.follows_ite (fun _ => e.trans (State.writeReg_follows _ _ _ _)) (fun _ => e)

theorem execRegisterWrite_follows (fn addr size : Nat) (val : HostWord) (s : State) :
    ∀ t, execRegisterWrite fn addr size val s = .next t → s.Follows t := by
  intro t ht
  rw [← Host.Outcome.next.inj ht]
  exact State.follows_ite (fun _ => State.follows_of_frame (State.narrowWrite_frame _ _ _)) (fun _ =>
    State.follows_ite (fun _ => State.follows_refl _) (fun _ => State.follows_ite (fun _ => State.writeAccess_follows _ _ _ _ _)
      (fun _ => (State.writeAccess_follows _ _ _ _ _).trans (State.writeAccess_follows _ _ _ _ _))))

/-- A share word that fails twice raises KEY_SEAM, whose response may be taken (R612, R614). -/
theorem State.shareArrives_follows (s : State) (w r : ShareWord) : s.Follows (s.shareArrives w r) := by
  unfold State.shareArrives
  have e := State.follows_of_frame (State.keyFailure_frame s w.receiver.toNat w.sender.toNat)
  refine State.follows_ite (fun _ => State.follows_of_frame (State.linkPassed_frame _ _)) (fun _ =>
    State.follows_ite (fun _ => e.trans (State.follows_of_frame (State.linkPassed_frame _ _))) (fun _ => ?_))
  exact (e.trans (State.follows_of_frame (State.keyFailure_frame _ _ _))).trans (State.realAlarm_follows _ _ _ _)

theorem State.engineArrives_follows (eng : Nat) (job : Option Nat) (s : State) (a : Arrival) : s.Follows (State.engineArrives eng job s a) := by
  unfold State.engineArrives
  split
  next b r =>
    have e := State.follows_of_frame (State.beatArrives_frame s b r)
    exact State.follows_ite (fun _ => e.trans (State.follows_of_frame (State.computeFault_frame _ _ _ _))) (fun _ => e)
  · exact State.shareArrives_follows _ _ _

theorem State.engineArrivals_follows (s : State) (eng : Nat) (job : Option Nat) (l : List Arrival) : s.Follows (s.engineArrivals eng job l) := by
  unfold State.engineArrivals
  induction l generalizing s with
  | nil => exact State.follows_refl _
  | cons a l ih => exact (State.engineArrives_follows eng job s a).trans (ih _)

theorem execSegmentStart_follows (pvu : Nat) (start : SegmentAt) (s : State) :
    ∀ t, execSegmentStart pvu start s = .next t → s.Follows t := by
  intro t ht
  unfold execSegmentStart at ht
  dsimp only [] at ht
  have e : s.Follows ((s.runPositions pvu (s.positionsRun pvu) start.index).settleUnits pvu) :=
    State.follows_of_frame ((State.settleUnits_frame _ _).trans (State.runPositions_frame _ _ _ _))
  generalize (s.runPositions pvu (s.positionsRun pvu) start.index).settleUnits pvu = su at *
  split at ht
  · rw [← Host.Outcome.next.inj ht]; exact State.follows_refl _
  · split at ht
    · rw [← Host.Outcome.next.inj ht]; exact e.trans (State.follows_of_frame (State.setPvu_frame _ _ _))
    next b _ =>
      refine (e.trans (State.engineArrivals_follows su pvu b.job start.arrived)).trans ?_
      generalize su.engineArrivals pvu b.job start.arrived = s0 at *
      split at ht
      · rw [← Host.Outcome.next.inj ht]; exact State.follows_refl _
      · refine State.follows_of_frame ?_
        repeat' first
          | (rw [← Host.Outcome.next.inj ht]; simp only [State.modJob_frame, State.event_frame, State.setPvu_frame]; done)
          | split at ht

theorem State.openRun_follows (s : State) (bne : Nat) (bk : Booking) (id : Nat) (arrived : List Arrival) :
    s.Follows (s.openRun bne bk id arrived) := by
  unfold State.openRun
  refine (State.engineArrivals_follows s (16 + bne) (some id) arrived).trans ?_
  exact State.follows_ite (fun _ => State.follows_refl _) (fun _ =>
    State.follows_ite (fun _ => State.follows_of_frame (State.setBne_frame _ _ _)) (fun _ =>
      State.follows_ite (fun _ => State.follows_of_frame (State.dryRun_frame _ _ _ _)) (fun _ =>
        State.follows_of_frame (State.startRun_frame _ _ _ _ _))))

theorem execBneRunStart_follows (start : RunAt) (s : State) : ∀ t, execBneRunStart start s = .next t → s.Follows t := by
  intro t ht
  unfold execBneRunStart at ht
  dsimp only [] at ht
  repeat' first
    | (rw [← Host.Outcome.next.inj ht]; exact State.openRun_follows _ _ _ _ _)
    | (rw [← Host.Outcome.next.inj ht]; exact State.follows_refl _)
    | split at ht
end Sys2Proof.Machine
end

