-- ==== Sys2Proof/Laws/Clock.lean ====
section
/-! SUPPORT. The time and the number of the last edge: the lifecycle rows leave them alone, and TICK_EDGE moves them on. -/

set_option maxRecDepth 2000
set_option linter.unusedSimpArgs false

namespace Sys2Proof.Machine

/-- The time, the number of the last edge and the period. -/
def State.clock (s : State) : Nat × Nat × Nat := (s.us, s.trd.edge, s.trd.period)

theorem State.clock_mk (a b c d e f g h) (tr : Treadle) (j k l m n o p q r u v w x y z a1 hd c1 d1 e1 f1 g1 pc i1) :
    (State.mk a b c d e f g h tr j k l m n o p q r u v w x y z a1 hd c1 d1 e1 f1 g1 pc i1).clock = (d, tr.edge, tr.period) := rfl
theorem State.clock_fold (s : State) : (s.us, s.trd.edge, s.trd.period) = s.clock := rfl
theorem State.clock_of_frame {a b : State} (h : a.frame = b.frame) : a.clock = b.clock := by
  have := State.frame_parts h
  exact Prod.ext this.2.2.2.2.2.2.2.2.1 (Prod.ext this.2.2.2.2.2.2.2.2.2.1 this.2.2.2.2.2.2.2.2.2.2)
theorem foldl_clock {α : Type} (f : State → α → State) (l : List α) (s : State)
    (h : ∀ t x, (f t x).clock = t.clock) : (l.foldl f s).clock = s.clock := by
  induction l generalizing s with
  | nil => rfl
  | cons x l ih => rw [List.foldl_cons, ih, h]
theorem State.onPage_clock (s : State) (k : Nat) (f : State → State) (h : (f s).clock = s.clock) : (s.onPage k f).clock = s.clock := by
  unfold State.onPage; split
  · exact h
  · rfl
theorem State.whenRunning_clock (s : State) (f : State → State) (h : (f s).clock = s.clock) : (s.whenRunning f).clock = s.clock := by
  unfold State.whenRunning; split
  · exact h
  · rfl
theorem State.through_clock (s : State) (f : State → Host.Outcome State Fault Refusal) (h : ∀ t, f s = .next t → t.clock = s.clock) :
    (s.through f).clock = s.clock := by
  unfold State.through; split
  · exact h _ ‹_›
  · rfl
  · rfl
theorem State.irqSync_clock (s : State) (k : Nat) : (State.irqSync s k).clock = s.clock := State.clock_of_frame (State.irqSync_frame s k)
theorem State.cause_clock (s : State) (k : Nat) (n : Nat) : (State.cause s k n).clock = s.clock := State.clock_of_frame (State.cause_frame s k n)
theorem State.event_clock (s : State) (k : Nat) (ev : Nat) (fn : Option Nat) (n : Nat) : (State.event s k ev fn n).clock = s.clock := State.clock_of_frame (State.event_frame s k ev fn n)
theorem State.raise_clock (s : State) (e : Event) : (State.raise s e).clock = s.clock := State.clock_of_frame (State.raise_frame s e)
theorem State.raiseAll_clock (s : State) (a0 : List Event) : (State.raiseAll s a0).clock = s.clock := State.clock_of_frame (State.raiseAll_frame s a0)
theorem State.writeHeader_clock (s : State) (k : Nat) (off : Nat) (v : W32) : (State.writeHeader s k off v).clock = s.clock := State.clock_of_frame (State.writeHeader_frame s k off v)
theorem execIrqClear_clock (blk : Nat) (val : W32) (s : State) : ∀ t, execIrqClear blk val s = .next t → t.clock = s.clock :=
  fun t h => State.clock_of_frame (execIrqClear_frame blk val s t h)
theorem execIrqMask_clock (blk : Nat) (val : W32) (s : State) : ∀ t, execIrqMask blk val s = .next t → t.clock = s.clock :=
  fun t h => State.clock_of_frame (execIrqMask_frame blk val s t h)
theorem execFltStatus_clock (blk : Nat) (val : W32) (s : State) : ∀ t, execFltStatus blk val s = .next t → t.clock = s.clock :=
  fun t h => State.clock_of_frame (execFltStatus_frame blk val s t h)
theorem State.evidence_clock (s : State) (input : Nat) (response : Nat) (eflags : Nat) (meas : Nat) : (State.evidence s input response eflags meas).clock = s.clock := State.clock_of_frame (State.evidence_frame s input response eflags meas)
theorem State.haltModule_clock (s : State) (r : Nat) : (State.haltModule s r).clock = s.clock := State.clock_of_frame (State.haltModule_frame s r)
theorem State.alarmRecord_clock (s : State) (n : Nat) (r : Nat) (applied : Nat) (eflags : Nat) (meas : Nat) (forced : Bool) (drill : Bool) : (State.alarmRecord s n r applied eflags meas forced drill).clock = s.clock := State.clock_of_frame (State.alarmRecord_frame s n r applied eflags meas forced drill)
theorem State.writeRng_clock (s : State) (fn : Nat) (off : Nat) (v : W32) : (State.writeRng s fn off v).clock = s.clock := State.clock_of_frame (State.writeRng_frame s fn off v)
theorem State.applyLka_clock (s : State) : (State.applyLka s).clock = s.clock := State.clock_of_frame (State.applyLka_frame s)
theorem State.doorbell_clock (s : State) (fn : Nat) (idx : Nat) : (State.doorbell s fn idx).clock = s.clock := State.clock_of_frame (State.doorbell_frame s fn idx)
theorem execDoorbell_clock (fn : Nat) (idx : Nat) (size : Nat) (s : State) : ∀ t, execDoorbell fn idx size s = .next t → t.clock = s.clock :=
  fun t h => State.clock_of_frame (execDoorbell_frame fn idx size s t h)
theorem State.afterUnlock_clock (s : State) : (State.afterUnlock s).clock = s.clock := State.clock_of_frame (State.afterUnlock_frame s)
theorem State.afterRestore_clock (s : State) : (State.afterRestore s).clock = s.clock := State.clock_of_frame (State.afterRestore_frame s)
theorem State.detectors_clock (s : State) (n : Nat) (on : Bool) : (State.detectors s n on).clock = s.clock := State.clock_of_frame (State.detectors_frame s n on)
theorem State.stoppedOne_clock (s : State) (id : Nat) : (State.stoppedOne s id).clock = s.clock := State.clock_of_frame (State.stoppedOne_frame s id)
theorem State.trim_clock (s : State) : (State.trim s).clock = s.clock := State.clock_of_frame (State.trim_frame s)
theorem State.admission_clock (s : State) : (State.admission s).clock = s.clock := State.clock_of_frame (State.admission_frame s)
theorem State.fullClock_clock (s : State) : (State.fullClock s).clock = s.clock := State.clock_of_frame (State.fullClock_frame s)
theorem State.bootDrbgs_clock (s : State) (r : BootResults) : (State.bootDrbgs s r).clock = s.clock := State.clock_of_frame (State.bootDrbgs_frame s r)
theorem State.leaveMaintenance_clock (s : State) : (State.leaveMaintenance s).clock = s.clock := State.clock_of_frame (State.leaveMaintenance_frame s)
theorem State.eraseArea_clock (s : State) : (State.eraseArea s).clock = s.clock := State.clock_of_frame (State.eraseArea_frame s)
theorem State.comeBack_clock (s : State) : (State.comeBack s).clock = s.clock := State.clock_of_frame (State.comeBack_frame s)
theorem State.resumed_clock (s : State) : (State.resumed s).clock = s.clock := State.clock_of_frame (State.resumed_frame s)
theorem State.writeCtrl_clock (s : State) (k : Nat) (v : W32) : (State.writeCtrl s k v).clock = s.clock := State.clock_of_frame (State.writeCtrl_frame s k v)
theorem State.writeBlock_clock (s : State) (k : Nat) (off : Nat) (v : W32) : (State.writeBlock s k off v).clock = s.clock := State.clock_of_frame (State.writeBlock_frame s k off v)
theorem State.writeView_clock (s : State) (fn : Nat) (off : Nat) (v : W32) : (State.writeView s fn off v).clock = s.clock := State.clock_of_frame (State.writeView_frame s fn off v)
theorem State.writeMailbox_clock (s : State) (fn : Nat) (byManager : Bool) (off : Nat) (v : W32) : (State.writeMailbox s fn byManager off v).clock = s.clock := State.clock_of_frame (State.writeMailbox_frame s fn byManager off v)
theorem State.writeDgsReg_clock (s : State) (fn : Nat) (off : Nat) (v : W32) : (State.writeDgsReg s fn off v).clock = s.clock := State.clock_of_frame (State.writeDgsReg_frame s fn off v)
theorem State.writeTable_clock (s : State) (fn : Nat) (off : Nat) (v : W32) : (State.writeTable s fn off v).clock = s.clock := State.clock_of_frame (State.writeTable_frame s fn off v)
theorem State.narrowWrite_clock (s : State) (fn : Nat) (addr : Nat) : (State.narrowWrite s fn addr).clock = s.clock := State.clock_of_frame (State.narrowWrite_frame s fn addr)
theorem State.lifeResponse_clock (s : State) (r : Nat) : (State.lifeResponse s r).clock = s.clock := by
  unfold State.lifeResponse
  repeat' first
    | with_reducible rfl
    | simp only [↓State.clock_mk, State.clock_fold, foldl_clock]
    | intro _
    | split
    | refine (foldl_clock _ _ _ ?_).trans ?_
    | simp only [id_eq]
    | (dsimp only [])
theorem State.takeResponse_clock (s : State) (r : Nat) : (State.takeResponse s r).clock = s.clock := by
  unfold State.takeResponse
  repeat' first
    | with_reducible rfl
    | simp only [↓State.clock_mk, State.clock_fold, foldl_clock, State.haltModule_clock, State.lifeResponse_clock]
    | intro _
    | split
    | refine (foldl_clock _ _ _ ?_).trans ?_
    | simp only [id_eq]
    | (dsimp only [])
theorem State.alarm_clock (s : State) (n : Nat) (r : Nat) (eflags : Nat) (meas : Nat) (forced : Bool) (drill : Bool) : (State.alarm s n r eflags meas forced drill).clock = s.clock := by
  unfold State.alarm
  repeat' first
    | with_reducible rfl
    | simp only [↓State.clock_mk, State.clock_fold, foldl_clock, State.alarmRecord_clock, State.takeResponse_clock]
    | intro _
    | split
    | refine (foldl_clock _ _ _ ?_).trans ?_
    | simp only [id_eq]
    | (dsimp only [])
theorem State.realAlarm_clock (s : State) (n : Nat) (eflags : Nat) (meas : Nat) : (State.realAlarm s n eflags meas).clock = s.clock := by
  unfold State.realAlarm
  repeat' first
    | with_reducible rfl
    | simp only [↓State.clock_mk, State.clock_fold, foldl_clock, State.alarm_clock]
    | intro _
    | split
    | refine (foldl_clock _ _ _ ?_).trans ?_
    | simp only [id_eq]
    | (dsimp only [])
theorem execTamperAlarm_clock (input : Nat) (meas : Nat) (s : State) : ∀ t, execTamperAlarm input meas s = .next t → t.clock = s.clock := by
  intro t ht
  unfold execTamperAlarm at ht
  repeat' first
    | (with_reducible have ht := Host.Outcome.next.inj ht; subst ht)
    | split at ht
    | (dsimp only [] at ht)
    | (obtain ⟨_, _, rfl⟩ := Option.map_eq_some_iff.mp ht)
    | contradiction
    | with_reducible (cases ht; done)
    | with_reducible rfl
    | simp only [↓State.clock_mk, State.clock_fold, foldl_clock, State.realAlarm_clock, State.detectors_clock]
    | intro _
    | split
    | refine (foldl_clock _ _ _ ?_).trans ?_
    | simp only [id_eq]
    | (dsimp only [])
theorem execSelvedgeCheck_clock (traces : BitVec 8) (s : State) : ∀ t, execSelvedgeCheck traces s = .next t → t.clock = s.clock := by
  intro t ht
  unfold execSelvedgeCheck at ht
  repeat' first
    | (with_reducible have ht := Host.Outcome.next.inj ht; subst ht)
    | split at ht
    | (dsimp only [] at ht)
    | (obtain ⟨_, _, rfl⟩ := Option.map_eq_some_iff.mp ht)
    | contradiction
    | with_reducible (cases ht; done)
    | with_reducible rfl
    | simp only [↓State.clock_mk, State.clock_fold, foldl_clock, State.event_clock, State.realAlarm_clock]
    | intro _
    | split
    | refine (foldl_clock _ _ _ ?_).trans ?_
    | simp only [id_eq]
    | (dsimp only [])
theorem execLoopCheck_clock (n : Nat) (meas : Nat) (bitsMatch : Bool) (s : State) : ∀ t, execLoopCheck n meas bitsMatch s = .next t → t.clock = s.clock := by
  intro t ht
  unfold execLoopCheck at ht
  repeat' first
    | (with_reducible have ht := Host.Outcome.next.inj ht; subst ht)
    | split at ht
    | (dsimp only [] at ht)
    | (obtain ⟨_, _, rfl⟩ := Option.map_eq_some_iff.mp ht)
    | contradiction
    | with_reducible (cases ht; done)
    | with_reducible rfl
    | simp only [↓State.clock_mk, State.clock_fold, foldl_clock, State.event_clock, State.realAlarm_clock]
    | intro _
    | split
    | refine (foldl_clock _ _ _ ?_).trans ?_
    | simp only [id_eq]
    | (dsimp only [])
theorem execCaseSwitch_clock (n : Nat) (level : Bool) (s : State) : ∀ t, execCaseSwitch n level s = .next t → t.clock = s.clock := by
  intro t ht
  unfold execCaseSwitch at ht
  repeat' first
    | (with_reducible have ht := Host.Outcome.next.inj ht; subst ht)
    | split at ht
    | (dsimp only [] at ht)
    | (obtain ⟨_, _, rfl⟩ := Option.map_eq_some_iff.mp ht)
    | contradiction
    | with_reducible (cases ht; done)
    | with_reducible rfl
    | simp only [↓State.clock_mk, State.clock_fold, foldl_clock, State.realAlarm_clock]
    | intro _
    | split
    | refine (foldl_clock _ _ _ ?_).trans ?_
    | simp only [id_eq]
    | (dsimp only [])
theorem execMonitorDisagree_clock (m : Nat) (detectorB : Bool) (s : State) : ∀ t, execMonitorDisagree m detectorB s = .next t → t.clock = s.clock := by
  intro t ht
  unfold execMonitorDisagree at ht
  repeat' first
    | (with_reducible have ht := Host.Outcome.next.inj ht; subst ht)
    | split at ht
    | (dsimp only [] at ht)
    | (obtain ⟨_, _, rfl⟩ := Option.map_eq_some_iff.mp ht)
    | contradiction
    | with_reducible (cases ht; done)
    | with_reducible rfl
    | simp only [↓State.clock_mk, State.clock_fold, foldl_clock, State.event_clock, State.raise_clock, State.realAlarm_clock]
    | intro _
    | split
    | refine (foldl_clock _ _ _ ?_).trans ?_
    | simp only [id_eq]
    | (dsimp only [])
theorem execVbatLow_clock (mv : Nat) (s : State) : ∀ t, execVbatLow mv s = .next t → t.clock = s.clock := by
  intro t ht
  unfold execVbatLow at ht
  repeat' first
    | (with_reducible have ht := Host.Outcome.next.inj ht; subst ht)
    | split at ht
    | (dsimp only [] at ht)
    | (obtain ⟨_, _, rfl⟩ := Option.map_eq_some_iff.mp ht)
    | contradiction
    | with_reducible (cases ht; done)
    | with_reducible rfl
    | simp only [↓State.clock_mk, State.clock_fold, foldl_clock, State.irqSync_clock, State.raise_clock, State.realAlarm_clock]
    | intro _
    | split
    | refine (foldl_clock _ _ _ ?_).trans ?_
    | simp only [id_eq]
    | (dsimp only [])
theorem State.forceTamper_clock (s : State) : (State.forceTamper s).clock = s.clock := by
  unfold State.forceTamper
  repeat' first
    | with_reducible rfl
    | simp only [↓State.clock_mk, State.clock_fold, foldl_clock, State.alarm_clock]
    | intro _
    | split
    | refine (foldl_clock _ _ _ ?_).trans ?_
    | simp only [id_eq]
    | (dsimp only [])
theorem execFltForce_clock (blk : Nat) (val : W32) (s : State) : ∀ t, execFltForce blk val s = .next t → t.clock = s.clock := by
  intro t ht
  unfold execFltForce at ht
  repeat' first
    | (with_reducible have ht := Host.Outcome.next.inj ht; subst ht)
    | split at ht
    | (dsimp only [] at ht)
    | (obtain ⟨_, _, rfl⟩ := Option.map_eq_some_iff.mp ht)
    | contradiction
    | with_reducible (cases ht; done)
    | with_reducible rfl
    | simp only [↓State.clock_mk, State.clock_fold, foldl_clock, State.forceTamper_clock, State.onPage_clock, State.raiseAll_clock]
    | refine (State.onPage_clock _ _ _ ?_).trans ?_
    | intro _
    | split
    | refine (foldl_clock _ _ _ ?_).trans ?_
    | simp only [id_eq]
    | (dsimp only [])
theorem State.unlockLife_clock (s : State) : (State.unlockLife s).clock = s.clock := by
  unfold State.unlockLife
  repeat' first
    | with_reducible rfl
    | simp only [↓State.clock_mk, State.clock_fold, foldl_clock]
    | intro _
    | split
    | refine (foldl_clock _ _ _ ?_).trans ?_
    | simp only [id_eq]
    | (dsimp only [])
theorem State.unlock_clock (s : State) : (State.unlock s).clock = s.clock := by
  unfold State.unlock
  repeat' first
    | with_reducible rfl
    | simp only [↓State.clock_mk, State.clock_fold, foldl_clock, State.afterUnlock_clock, State.unlockLife_clock]
    | intro _
    | split
    | refine (foldl_clock _ _ _ ?_).trans ?_
    | simp only [id_eq]
    | (dsimp only [])
theorem State.restoreLife_clock (s : State) : (State.restoreLife s).clock = s.clock := by
  unfold State.restoreLife
  repeat' first
    | with_reducible rfl
    | simp only [↓State.clock_mk, State.clock_fold, foldl_clock]
    | intro _
    | split
    | refine (foldl_clock _ _ _ ?_).trans ?_
    | simp only [id_eq]
    | (dsimp only [])
theorem State.quorumAction_clock (s : State) : (State.quorumAction s).clock = s.clock := by
  unfold State.quorumAction
  repeat' first
    | with_reducible rfl
    | simp only [↓State.clock_mk, State.clock_fold, foldl_clock, State.afterRestore_clock, State.evidence_clock, State.restoreLife_clock, State.unlock_clock]
    | intro _
    | split
    | refine (foldl_clock _ _ _ ?_).trans ?_
    | simp only [id_eq]
    | (dsimp only [])
theorem State.takeLife_clock (s : State) : (State.takeLife s).clock = s.clock := by
  unfold State.takeLife
  repeat' first
    | with_reducible rfl
    | simp only [↓State.clock_mk, State.clock_fold, foldl_clock]
    | intro _
    | split
    | refine (foldl_clock _ _ _ ?_).trans ?_
    | simp only [id_eq]
    | (dsimp only [])
theorem State.bootFireguard_clock (s : State) (r : BootResults) : (State.bootFireguard s r).clock = s.clock := by
  unfold State.bootFireguard
  repeat' first
    | with_reducible rfl
    | simp only [↓State.clock_mk, State.clock_fold, foldl_clock, State.bootDrbgs_clock, State.raise_clock, State.takeLife_clock]
    | intro _
    | split
    | refine (foldl_clock _ _ _ ?_).trans ?_
    | simp only [id_eq]
    | (dsimp only [])
theorem State.setLife_clock (s : State) (n : Nat) : (State.setLife s n).clock = s.clock := by
  unfold State.setLife
  repeat' first
    | with_reducible rfl
    | simp only [↓State.clock_mk, State.clock_fold, foldl_clock, State.cause_clock]
    | intro _
    | split
    | refine (foldl_clock _ _ _ ?_).trans ?_
    | simp only [id_eq]
    | (dsimp only [])
theorem State.startErase_clock (s : State) (n : Nat) : (State.startErase s n).clock = s.clock := by
  unfold State.startErase
  repeat' first
    | with_reducible rfl
    | simp only [↓State.clock_mk, State.clock_fold, foldl_clock]
    | intro _
    | split
    | refine (foldl_clock _ _ _ ?_).trans ?_
    | simp only [id_eq]
    | (dsimp only [])
theorem State.applyTarget_clock (s : State) : (State.applyTarget s).clock = s.clock := by
  unfold State.applyTarget
  repeat' first
    | with_reducible rfl
    | simp only [↓State.clock_mk, State.clock_fold, foldl_clock, State.leaveMaintenance_clock, State.setLife_clock, State.startErase_clock, State.takeResponse_clock]
    | intro _
    | split
    | refine (foldl_clock _ _ _ ?_).trans ?_
    | simp only [id_eq]
    | (dsimp only [])
theorem State.reenrolled_clock (s : State) : (State.reenrolled s).clock = s.clock := by
  unfold State.reenrolled
  repeat' first
    | with_reducible rfl
    | simp only [↓State.clock_mk, State.clock_fold, foldl_clock]
    | intro _
    | split
    | refine (foldl_clock _ _ _ ?_).trans ?_
    | simp only [id_eq]
    | (dsimp only [])
theorem State.decommission_clock (s : State) : (State.decommission s).clock = s.clock := by
  unfold State.decommission
  repeat' first
    | with_reducible rfl
    | simp only [↓State.clock_mk, State.clock_fold, foldl_clock]
    | intro _
    | split
    | refine (foldl_clock _ _ _ ?_).trans ?_
    | simp only [id_eq]
    | (dsimp only [])
theorem execAreaEraseDone_clock (s : State) : ∀ t, execAreaEraseDone s = .next t → t.clock = s.clock := by
  intro t ht
  unfold execAreaEraseDone at ht
  repeat' first
    | (with_reducible have ht := Host.Outcome.next.inj ht; subst ht)
    | split at ht
    | (dsimp only [] at ht)
    | (obtain ⟨_, _, rfl⟩ := Option.map_eq_some_iff.mp ht)
    | contradiction
    | with_reducible (cases ht; done)
    | with_reducible rfl
    | simp only [↓State.clock_mk, State.clock_fold, foldl_clock, State.cause_clock, State.decommission_clock, State.eraseArea_clock, State.irqSync_clock, State.reenrolled_clock]
    | intro _
    | split
    | refine (foldl_clock _ _ _ ?_).trans ?_
    | simp only [id_eq]
    | (dsimp only [])
theorem State.applyChanges_clock (s : State) : (State.applyChanges s).clock = s.clock := by
  unfold State.applyChanges
  repeat' first
    | with_reducible rfl
    | simp only [↓State.clock_mk, State.clock_fold, foldl_clock, State.applyLka_clock, State.applyTarget_clock, State.comeBack_clock, State.quorumAction_clock, State.resumed_clock]
    | intro _
    | split
    | refine (foldl_clock _ _ _ ?_).trans ?_
    | simp only [id_eq]
    | (dsimp only [])
theorem State.admissionEdge_clock (s : State) : (State.admissionEdge s).clock = s.clock := by
  unfold State.admissionEdge
  repeat' first
    | with_reducible rfl
    | simp only [↓State.clock_mk, State.clock_fold, foldl_clock, State.admission_clock, State.applyChanges_clock, State.stoppedOne_clock]
    | intro _
    | split
    | refine (foldl_clock _ _ _ ?_).trans ?_
    | simp only [id_eq]
    | (dsimp only [])
theorem State.planEdgeWork_clock (s : State) : (State.planEdgeWork s).clock = s.clock := by
  unfold State.planEdgeWork
  repeat' first
    | with_reducible rfl
    | simp only [↓State.clock_mk, State.clock_fold, foldl_clock, State.admissionEdge_clock, State.fullClock_clock, State.trim_clock, State.whenRunning_clock]
    | refine (State.whenRunning_clock _ _ ?_).trans ?_
    | intro _
    | split
    | refine (foldl_clock _ _ _ ?_).trans ?_
    | simp only [id_eq]
    | (dsimp only [])
theorem State.writeHead__clock (s : State) (k : Nat) (off : Nat) (v : W32) : (State.writeHead_ s k off v).clock = s.clock := by
  unfold State.writeHead_
  repeat' first
    | with_reducible rfl
    | simp only [↓State.clock_mk, State.clock_fold, foldl_clock, State.onPage_clock, State.through_clock, State.writeCtrl_clock, State.writeHeader_clock]
    | refine Eq.trans (execFltForce_clock _ _ _ _ (by assumption)) ?_
    | refine Eq.trans (execFltStatus_clock _ _ _ _ (by assumption)) ?_
    | refine Eq.trans (execIrqClear_clock _ _ _ _ (by assumption)) ?_
    | refine Eq.trans (execIrqMask_clock _ _ _ _ (by assumption)) ?_
    | refine (State.onPage_clock _ _ _ ?_).trans ?_
    | refine (State.through_clock _ _ ?_).trans ?_
    | intro _
    | split
    | refine (foldl_clock _ _ _ ?_).trans ?_
    | simp only [id_eq]
    | (dsimp only [])
theorem State.writeTarget_clock (s : State) (t : RegTarget) (v : W32) : (State.writeTarget s t v).clock = s.clock := by
  unfold State.writeTarget
  repeat' first
    | with_reducible rfl
    | simp only [↓State.clock_mk, State.clock_fold, foldl_clock, State.doorbell_clock, State.through_clock, State.writeBlock_clock, State.writeDgsReg_clock, State.writeHead__clock, State.writeMailbox_clock, State.writeRng_clock, State.writeTable_clock, State.writeView_clock]
    | refine Eq.trans (execDoorbell_clock _ _ _ _ _ (by assumption)) ?_
    | refine (State.through_clock _ _ ?_).trans ?_
    | intro _
    | split
    | refine (foldl_clock _ _ _ ?_).trans ?_
    | simp only [id_eq]
    | (dsimp only [])
theorem State.writeReg_clock (s : State) (fn : Nat) (addr : Nat) (v : W32) : (State.writeReg s fn addr v).clock = s.clock := by
  unfold State.writeReg
  repeat' first
    | with_reducible rfl
    | simp only [↓State.clock_mk, State.clock_fold, foldl_clock, State.writeTarget_clock]
    | intro _
    | split
    | refine (foldl_clock _ _ _ ?_).trans ?_
    | simp only [id_eq]
    | (dsimp only [])
theorem State.writeAccess_clock (s : State) (fn addr : Nat) (v : W32) (copies : List CtlCopy) : (State.writeAccess s fn addr v copies).clock = s.clock := by
  unfold State.writeAccess
  have e := State.clock_of_frame (State.ctlArrive_frame s (s.seamPage (regTarget fn addr)) copies)
  dsimp only []
  split
  · exact (State.writeReg_clock _ _ _ _).trans e
  · exact e
theorem execRegisterWrite_clock (fn : Nat) (addr : Nat) (size : Nat) (val : HostWord) (s : State) : ∀ t, execRegisterWrite fn addr size val s = .next t → t.clock = s.clock := by
  intro t ht
  rw [← Host.Outcome.next.inj ht]
  repeat' first | with_reducible rfl | simp only [State.narrowWrite_clock, State.writeAccess_clock] | split | (dsimp only [])
theorem State.shareArrives_clock (s : State) (w r : ShareWord) : (State.shareArrives s w r).clock = s.clock := by
  have e : ∀ (u : State) (a b : Nat), (u.keyFailure a b).clock = u.clock := fun u a b => State.clock_of_frame (State.keyFailure_frame u a b)
  have p : ∀ (u : State) (a : Nat), (u.linkPassed a).clock = u.clock := fun u a => State.clock_of_frame (State.linkPassed_frame u a)
  unfold State.shareArrives
  repeat' first | with_reducible rfl | simp only [e, p, State.realAlarm_clock] | split | (dsimp only [])
theorem State.engineArrives_clock (eng : Nat) (job : Option Nat) (s : State) (a : Arrival) : (State.engineArrives eng job s a).clock = s.clock := by
  unfold State.engineArrives
  split
  next b r =>
    have e := State.clock_of_frame (State.beatArrives_frame s b r)
    dsimp only []
    split
    · exact (State.clock_of_frame (State.computeFault_frame _ _ _ _)).trans e
    · exact e
  · exact State.shareArrives_clock _ _ _
theorem State.engineArrivals_clock (s : State) (eng : Nat) (job : Option Nat) (l : List Arrival) : (State.engineArrivals s eng job l).clock = s.clock :=
  foldl_clock _ _ _ (State.engineArrives_clock eng job)
theorem execSegmentStart_clock (pvu : Nat) (start : SegmentAt) (s : State) : ∀ t, execSegmentStart pvu start s = .next t → t.clock = s.clock := by
  intro t ht
  unfold execSegmentStart at ht
  dsimp only [] at ht
  have e : ((s.runPositions pvu (s.positionsRun pvu) start.index).settleUnits pvu).clock = s.clock :=
    State.clock_of_frame ((State.settleUnits_frame _ _).trans (State.runPositions_frame _ _ _ _))
  generalize (s.runPositions pvu (s.positionsRun pvu) start.index).settleUnits pvu = su at *
  split at ht
  · rw [← Host.Outcome.next.inj ht]
  · split at ht
    · rw [← Host.Outcome.next.inj ht]; exact (State.clock_of_frame (State.setPvu_frame _ _ _)).trans e
    next b _ =>
      have a := (State.engineArrivals_clock su pvu b.job start.arrived).trans e
      generalize su.engineArrivals pvu b.job start.arrived = s0 at *
      refine Eq.trans (State.clock_of_frame ?_) a
      repeat' first
        | (rw [← Host.Outcome.next.inj ht]; done)
        | (rw [← Host.Outcome.next.inj ht]; simp only [State.modJob_frame, State.event_frame, State.setPvu_frame]; done)
        | split at ht
theorem State.openRun_clock (s : State) (bne : Nat) (bk : Booking) (id : Nat) (arrived : List Arrival) :
    (s.openRun bne bk id arrived).clock = s.clock := by
  unfold State.openRun
  refine Eq.trans (State.clock_of_frame ?_) (State.engineArrivals_clock s (16 + bne) (some id) arrived)
  dsimp only []
  repeat' first | with_reducible rfl | simp only [State.setBne_frame, State.dryRun_frame, State.startRun_frame] | split
theorem execBneRunStart_clock (start : RunAt) (s : State) : ∀ t, execBneRunStart start s = .next t → t.clock = s.clock := by
  intro t ht
  unfold execBneRunStart at ht
  dsimp only [] at ht
  repeat' first
    | (rw [← Host.Outcome.next.inj ht]; exact State.openRun_clock _ _ _ _ _)
    | (rw [← Host.Outcome.next.inj ht]; done)
    | split at ht
theorem State.closeTick_clock (s : State) : (s.closeTick).clock = (s.us + s.tickLength, s.trd.edge + 1, s.trd.period) := by
  have h : (s.whenRunning State.endSlots).clock = s.clock :=
    State.whenRunning_clock s _ (State.clock_of_frame (State.endSlots_frame s))
  have k : ∀ (u : State) (n : Nat), (u.countEdge n).clock = (u.us + n, u.trd.edge + 1, u.trd.period) := fun _ _ => rfl
  have g := Prod.mk.inj h
  have g2 := Prod.mk.inj g.2
  rw [State.closeTick, State.clock_of_frame (State.followCfg_frame _), State.clock_of_frame (State.whenRunning_frame _ _ State.stepRing_frame), k,
    g.1, g2.1, g2.2]
theorem State.tickEdge_clock (s : State) : (s.tickEdge).clock = (s.us + s.tickLength, s.trd.edge + 1, s.trd.period) := by
  unfold State.tickEdge
  rw [State.clock_of_frame (State.tickOutPulse_frame _), State.clock_of_frame (State.openTick_frame _), State.planEdgeWork_clock,
    State.clock_of_frame (State.releaseEdge_frame _), State.clock_of_frame (State.settleTick_frame _), State.closeTick_clock]

end Sys2Proof.Machine
end

