-- ==== Sys2Proof/Laws/State.lean ====
section
/-! SUPPORT. What the named updates of the state change: one lemma per field and update, and what a lookup answers after an update. -/

namespace Sys2Proof

theorem KV.get?_set_self {α : Type} (m : KV α) (k : Nat) (a : α) : KV.get? (KV.set m k a) k = some a := by
  induction m with
  | nil => simp [KV.set, KV.get?]
  | cons x m ih =>
    obtain ⟨i, y⟩ := x
    simp only [KV.set]
    split
    · simp [KV.get?]
    · split
      · simp [KV.get?]
      · simp [KV.get?, *]

theorem KV.get?_set_other {α : Type} (m : KV α) {k l : Nat} (a : α) (h : l ≠ k) : KV.get? (KV.set m k a) l = KV.get? m l := by
  induction m with
  | nil => simp [KV.set, KV.get?, h]
  | cons x m ih =>
    obtain ⟨i, y⟩ := x
    simp only [KV.set]
    split
    · simp [KV.get?, h]
    · split
      · subst i; simp [KV.get?, h]
      · simp [KV.get?, ih]

theorem KV.get?_erase_self {α : Type} (m : KV α) (k : Nat) : KV.get? (KV.erase m k) k = none := by
  induction m with
  | nil => rfl
  | cons x m ih =>
    obtain ⟨i, y⟩ := x; simp only [KV.erase]; split
    · exact ih
    · simp [KV.get?, *]

theorem KV.get?_erase_other {α : Type} (m : KV α) {k l : Nat} (h : l ≠ k) : KV.get? (KV.erase m k) l = KV.get? m l := by
  induction m with
  | nil => rfl
  | cons x m ih =>
    obtain ⟨i, y⟩ := x; simp only [KV.erase]; split
    · subst i; simp [KV.get?, ih, h]
    · simp [KV.get?, ih]

@[simp] theorem KV.getD_set_self {α : Type} (m : KV α) (k : Nat) (a d : α) : KV.getD (KV.set m k a) k d = a := by
  simp [KV.getD, KV.get?_set_self]

theorem KV.getD_set_other {α : Type} (m : KV α) {k l : Nat} (a d : α) (h : l ≠ k) :
    KV.getD (KV.set m k a) l d = KV.getD m l d := by
  simp [KV.getD, KV.get?_set_other m a h]

end Sys2Proof

namespace Sys2Proof.Machine

theorem vget_vset_self {α : Type} {n : Nat} (v : Vector α n) (i : Nat) (a d : α) (h : i < n) : vget (vset v i a) i d = a := by
  simp [vget, vset, Vector.getD, h]

theorem vget_vset_other {α : Type} {n : Nat} (v : Vector α n) {i j : Nat} (a d : α) (h : j ≠ i) :
    vget (vset v i a) j d = vget v j d := by
  have e (w : Vector α n) : w.getD j d = (w[j]?).getD d := by simp [Vector.getD]
  rw [vget, vget, vset, e, e, Vector.getElem?_setIfInBounds_ne h.symm]

@[simp] theorem State.setPvu_pending (s : State) (n : Nat) (p : Pvu) : (s.setPvu n p).pending = s.pending := rfl
@[simp] theorem State.setPvu_out (s : State) (n : Nat) (p : Pvu) : (s.setPvu n p).out = s.out := rfl
@[simp] theorem State.setPvu_part (s : State) (n : Nat) (p : Pvu) : (s.setPvu n p).part = s.part := rfl
@[simp] theorem State.setPvu_us (s : State) (n : Nat) (p : Pvu) : (s.setPvu n p).us = s.us := rfl
@[simp] theorem State.setPvu_regs (s : State) (n : Nat) (p : Pvu) : (s.setPvu n p).regs = s.regs := rfl
@[simp] theorem State.setPvu_latchHi (s : State) (n : Nat) (p : Pvu) : (s.setPvu n p).latchHi = s.latchHi := rfl
@[simp] theorem State.setPvu_blk (s : State) (n : Nat) (p : Pvu) : (s.setPvu n p).blk = s.blk := rfl
@[simp] theorem State.setPvu_tests (s : State) (n : Nat) (p : Pvu) : (s.setPvu n p).tests = s.tests := rfl
@[simp] theorem State.setPvu_trd (s : State) (n : Nat) (p : Pvu) : (s.setPvu n p).trd = s.trd := rfl
@[simp] theorem State.setPvu_pvu (s : State) (n : Nat) (p : Pvu) : (s.setPvu n p).pvu = vset s.pvu n p := rfl
@[simp] theorem State.setPvu_bne (s : State) (n : Nat) (p : Pvu) : (s.setPvu n p).bne = s.bne := rfl
@[simp] theorem State.setPvu_hsa (s : State) (n : Nat) (p : Pvu) : (s.setPvu n p).hsa = s.hsa := rfl
@[simp] theorem State.setPvu_funcs (s : State) (n : Nat) (p : Pvu) : (s.setPvu n p).funcs = s.funcs := rfl
@[simp] theorem State.setPvu_queues (s : State) (n : Nat) (p : Pvu) : (s.setPvu n p).queues = s.queues := rfl
@[simp] theorem State.setPvu_jobs (s : State) (n : Nat) (p : Pvu) : (s.setPvu n p).jobs = s.jobs := rfl
@[simp] theorem State.setPvu_nextJob (s : State) (n : Nat) (p : Pvu) : (s.setPvu n p).nextJob = s.nextJob := rfl
@[simp] theorem State.setPvu_patterns (s : State) (n : Nat) (p : Pvu) : (s.setPvu n p).patterns = s.patterns := rfl
@[simp] theorem State.setPvu_nextPattern (s : State) (n : Nat) (p : Pvu) : (s.setPvu n p).nextPattern = s.nextPattern := rfl
@[simp] theorem State.setPvu_hrt (s : State) (n : Nat) (p : Pvu) : (s.setPvu n p).hrt = s.hrt := rfl
@[simp] theorem State.setPvu_kst (s : State) (n : Nat) (p : Pvu) : (s.setPvu n p).kst = s.kst := rfl
@[simp] theorem State.setPvu_dgs (s : State) (n : Nat) (p : Pvu) : (s.setPvu n p).dgs = s.dgs := rfl
@[simp] theorem State.setPvu_ent (s : State) (n : Nat) (p : Pvu) : (s.setPvu n p).ent = s.ent := rfl
@[simp] theorem State.setPvu_lka (s : State) (n : Nat) (p : Pvu) : (s.setPvu n p).lka = s.lka := rfl
@[simp] theorem State.setPvu_mem (s : State) (n : Nat) (p : Pvu) : (s.setPvu n p).mem = s.mem := rfl
@[simp] theorem State.setPvu_fls (s : State) (n : Nat) (p : Pvu) : (s.setPvu n p).fls = s.fls := rfl
@[simp] theorem State.setPvu_held (s : State) (n : Nat) (p : Pvu) : (s.setPvu n p).held = s.held := rfl
@[simp] theorem State.setPvu_tmp (s : State) (n : Nat) (p : Pvu) : (s.setPvu n p).tmp = s.tmp := rfl
@[simp] theorem State.setPvu_thm (s : State) (n : Nat) (p : Pvu) : (s.setPvu n p).thm = s.thm := rfl
@[simp] theorem State.setPvu_plk (s : State) (n : Nat) (p : Pvu) : (s.setPvu n p).plk = s.plk := rfl
@[simp] theorem State.setPvu_pmu (s : State) (n : Nat) (p : Pvu) : (s.setPvu n p).pmu = s.pmu := rfl
@[simp] theorem State.setPvu_patches (s : State) (n : Nat) (p : Pvu) : (s.setPvu n p).patches = s.patches := rfl
@[simp] theorem State.setPvu_pcr (s : State) (n : Nat) (p : Pvu) : (s.setPvu n p).pcr = s.pcr := rfl
@[simp] theorem State.setPvu_free (s : State) (n : Nat) (p : Pvu) : (s.setPvu n p).free = s.free := rfl

@[simp] theorem State.setBne_pending (s : State) (n : Nat) (b : Bne) : (s.setBne n b).pending = s.pending := rfl
@[simp] theorem State.setBne_out (s : State) (n : Nat) (b : Bne) : (s.setBne n b).out = s.out := rfl
@[simp] theorem State.setBne_part (s : State) (n : Nat) (b : Bne) : (s.setBne n b).part = s.part := rfl
@[simp] theorem State.setBne_us (s : State) (n : Nat) (b : Bne) : (s.setBne n b).us = s.us := rfl
@[simp] theorem State.setBne_regs (s : State) (n : Nat) (b : Bne) : (s.setBne n b).regs = s.regs := rfl
@[simp] theorem State.setBne_latchHi (s : State) (n : Nat) (b : Bne) : (s.setBne n b).latchHi = s.latchHi := rfl
@[simp] theorem State.setBne_blk (s : State) (n : Nat) (b : Bne) : (s.setBne n b).blk = s.blk := rfl
@[simp] theorem State.setBne_tests (s : State) (n : Nat) (b : Bne) : (s.setBne n b).tests = s.tests := rfl
@[simp] theorem State.setBne_trd (s : State) (n : Nat) (b : Bne) : (s.setBne n b).trd = s.trd := rfl
@[simp] theorem State.setBne_pvu (s : State) (n : Nat) (b : Bne) : (s.setBne n b).pvu = s.pvu := rfl
@[simp] theorem State.setBne_bne (s : State) (n : Nat) (b : Bne) : (s.setBne n b).bne = vset s.bne n b := rfl
@[simp] theorem State.setBne_hsa (s : State) (n : Nat) (b : Bne) : (s.setBne n b).hsa = s.hsa := rfl
@[simp] theorem State.setBne_funcs (s : State) (n : Nat) (b : Bne) : (s.setBne n b).funcs = s.funcs := rfl
@[simp] theorem State.setBne_queues (s : State) (n : Nat) (b : Bne) : (s.setBne n b).queues = s.queues := rfl
@[simp] theorem State.setBne_jobs (s : State) (n : Nat) (b : Bne) : (s.setBne n b).jobs = s.jobs := rfl
@[simp] theorem State.setBne_nextJob (s : State) (n : Nat) (b : Bne) : (s.setBne n b).nextJob = s.nextJob := rfl
@[simp] theorem State.setBne_patterns (s : State) (n : Nat) (b : Bne) : (s.setBne n b).patterns = s.patterns := rfl
@[simp] theorem State.setBne_nextPattern (s : State) (n : Nat) (b : Bne) : (s.setBne n b).nextPattern = s.nextPattern := rfl
@[simp] theorem State.setBne_hrt (s : State) (n : Nat) (b : Bne) : (s.setBne n b).hrt = s.hrt := rfl
@[simp] theorem State.setBne_kst (s : State) (n : Nat) (b : Bne) : (s.setBne n b).kst = s.kst := rfl
@[simp] theorem State.setBne_dgs (s : State) (n : Nat) (b : Bne) : (s.setBne n b).dgs = s.dgs := rfl
@[simp] theorem State.setBne_ent (s : State) (n : Nat) (b : Bne) : (s.setBne n b).ent = s.ent := rfl
@[simp] theorem State.setBne_lka (s : State) (n : Nat) (b : Bne) : (s.setBne n b).lka = s.lka := rfl
@[simp] theorem State.setBne_mem (s : State) (n : Nat) (b : Bne) : (s.setBne n b).mem = s.mem := rfl
@[simp] theorem State.setBne_fls (s : State) (n : Nat) (b : Bne) : (s.setBne n b).fls = s.fls := rfl
@[simp] theorem State.setBne_held (s : State) (n : Nat) (b : Bne) : (s.setBne n b).held = s.held := rfl
@[simp] theorem State.setBne_tmp (s : State) (n : Nat) (b : Bne) : (s.setBne n b).tmp = s.tmp := rfl
@[simp] theorem State.setBne_thm (s : State) (n : Nat) (b : Bne) : (s.setBne n b).thm = s.thm := rfl
@[simp] theorem State.setBne_plk (s : State) (n : Nat) (b : Bne) : (s.setBne n b).plk = s.plk := rfl
@[simp] theorem State.setBne_pmu (s : State) (n : Nat) (b : Bne) : (s.setBne n b).pmu = s.pmu := rfl
@[simp] theorem State.setBne_patches (s : State) (n : Nat) (b : Bne) : (s.setBne n b).patches = s.patches := rfl
@[simp] theorem State.setBne_pcr (s : State) (n : Nat) (b : Bne) : (s.setBne n b).pcr = s.pcr := rfl
@[simp] theorem State.setBne_free (s : State) (n : Nat) (b : Bne) : (s.setBne n b).free = s.free := rfl

@[simp] theorem State.setBlk_pending (s : State) (k : Nat) (b : Blk) : (s.setBlk k b).pending = s.pending := rfl
@[simp] theorem State.setBlk_out (s : State) (k : Nat) (b : Blk) : (s.setBlk k b).out = s.out := rfl
@[simp] theorem State.setBlk_part (s : State) (k : Nat) (b : Blk) : (s.setBlk k b).part = s.part := rfl
@[simp] theorem State.setBlk_us (s : State) (k : Nat) (b : Blk) : (s.setBlk k b).us = s.us := rfl
@[simp] theorem State.setBlk_regs (s : State) (k : Nat) (b : Blk) : (s.setBlk k b).regs = s.regs := rfl
@[simp] theorem State.setBlk_latchHi (s : State) (k : Nat) (b : Blk) : (s.setBlk k b).latchHi = s.latchHi := rfl
@[simp] theorem State.setBlk_blk (s : State) (k : Nat) (b : Blk) : (s.setBlk k b).blk = KV.set s.blk k b := rfl
@[simp] theorem State.setBlk_tests (s : State) (k : Nat) (b : Blk) : (s.setBlk k b).tests = s.tests := rfl
@[simp] theorem State.setBlk_trd (s : State) (k : Nat) (b : Blk) : (s.setBlk k b).trd = s.trd := rfl
@[simp] theorem State.setBlk_pvu (s : State) (k : Nat) (b : Blk) : (s.setBlk k b).pvu = s.pvu := rfl
@[simp] theorem State.setBlk_bne (s : State) (k : Nat) (b : Blk) : (s.setBlk k b).bne = s.bne := rfl
@[simp] theorem State.setBlk_hsa (s : State) (k : Nat) (b : Blk) : (s.setBlk k b).hsa = s.hsa := rfl
@[simp] theorem State.setBlk_funcs (s : State) (k : Nat) (b : Blk) : (s.setBlk k b).funcs = s.funcs := rfl
@[simp] theorem State.setBlk_queues (s : State) (k : Nat) (b : Blk) : (s.setBlk k b).queues = s.queues := rfl
@[simp] theorem State.setBlk_jobs (s : State) (k : Nat) (b : Blk) : (s.setBlk k b).jobs = s.jobs := rfl
@[simp] theorem State.setBlk_nextJob (s : State) (k : Nat) (b : Blk) : (s.setBlk k b).nextJob = s.nextJob := rfl
@[simp] theorem State.setBlk_patterns (s : State) (k : Nat) (b : Blk) : (s.setBlk k b).patterns = s.patterns := rfl
@[simp] theorem State.setBlk_nextPattern (s : State) (k : Nat) (b : Blk) : (s.setBlk k b).nextPattern = s.nextPattern := rfl
@[simp] theorem State.setBlk_hrt (s : State) (k : Nat) (b : Blk) : (s.setBlk k b).hrt = s.hrt := rfl
@[simp] theorem State.setBlk_kst (s : State) (k : Nat) (b : Blk) : (s.setBlk k b).kst = s.kst := rfl
@[simp] theorem State.setBlk_dgs (s : State) (k : Nat) (b : Blk) : (s.setBlk k b).dgs = s.dgs := rfl
@[simp] theorem State.setBlk_ent (s : State) (k : Nat) (b : Blk) : (s.setBlk k b).ent = s.ent := rfl
@[simp] theorem State.setBlk_lka (s : State) (k : Nat) (b : Blk) : (s.setBlk k b).lka = s.lka := rfl
@[simp] theorem State.setBlk_mem (s : State) (k : Nat) (b : Blk) : (s.setBlk k b).mem = s.mem := rfl
@[simp] theorem State.setBlk_fls (s : State) (k : Nat) (b : Blk) : (s.setBlk k b).fls = s.fls := rfl
@[simp] theorem State.setBlk_held (s : State) (k : Nat) (b : Blk) : (s.setBlk k b).held = s.held := rfl
@[simp] theorem State.setBlk_tmp (s : State) (k : Nat) (b : Blk) : (s.setBlk k b).tmp = s.tmp := rfl
@[simp] theorem State.setBlk_thm (s : State) (k : Nat) (b : Blk) : (s.setBlk k b).thm = s.thm := rfl
@[simp] theorem State.setBlk_plk (s : State) (k : Nat) (b : Blk) : (s.setBlk k b).plk = s.plk := rfl
@[simp] theorem State.setBlk_pmu (s : State) (k : Nat) (b : Blk) : (s.setBlk k b).pmu = s.pmu := rfl
@[simp] theorem State.setBlk_patches (s : State) (k : Nat) (b : Blk) : (s.setBlk k b).patches = s.patches := rfl
@[simp] theorem State.setBlk_pcr (s : State) (k : Nat) (b : Blk) : (s.setBlk k b).pcr = s.pcr := rfl
@[simp] theorem State.setBlk_free (s : State) (k : Nat) (b : Blk) : (s.setBlk k b).free = s.free := rfl

@[simp] theorem State.setFn_pending (s : State) (f : Nat) (x : Func) : (s.setFn f x).pending = s.pending := rfl
@[simp] theorem State.setFn_out (s : State) (f : Nat) (x : Func) : (s.setFn f x).out = s.out := rfl
@[simp] theorem State.setFn_part (s : State) (f : Nat) (x : Func) : (s.setFn f x).part = s.part := rfl
@[simp] theorem State.setFn_us (s : State) (f : Nat) (x : Func) : (s.setFn f x).us = s.us := rfl
@[simp] theorem State.setFn_regs (s : State) (f : Nat) (x : Func) : (s.setFn f x).regs = s.regs := rfl
@[simp] theorem State.setFn_latchHi (s : State) (f : Nat) (x : Func) : (s.setFn f x).latchHi = s.latchHi := rfl
@[simp] theorem State.setFn_blk (s : State) (f : Nat) (x : Func) : (s.setFn f x).blk = s.blk := rfl
@[simp] theorem State.setFn_tests (s : State) (f : Nat) (x : Func) : (s.setFn f x).tests = s.tests := rfl
@[simp] theorem State.setFn_trd (s : State) (f : Nat) (x : Func) : (s.setFn f x).trd = s.trd := rfl
@[simp] theorem State.setFn_pvu (s : State) (f : Nat) (x : Func) : (s.setFn f x).pvu = s.pvu := rfl
@[simp] theorem State.setFn_bne (s : State) (f : Nat) (x : Func) : (s.setFn f x).bne = s.bne := rfl
@[simp] theorem State.setFn_hsa (s : State) (f : Nat) (x : Func) : (s.setFn f x).hsa = s.hsa := rfl
@[simp] theorem State.setFn_funcs (s : State) (f : Nat) (x : Func) : (s.setFn f x).funcs = KV.set s.funcs f x := rfl
@[simp] theorem State.setFn_queues (s : State) (f : Nat) (x : Func) : (s.setFn f x).queues = s.queues := rfl
@[simp] theorem State.setFn_jobs (s : State) (f : Nat) (x : Func) : (s.setFn f x).jobs = s.jobs := rfl
@[simp] theorem State.setFn_nextJob (s : State) (f : Nat) (x : Func) : (s.setFn f x).nextJob = s.nextJob := rfl
@[simp] theorem State.setFn_patterns (s : State) (f : Nat) (x : Func) : (s.setFn f x).patterns = s.patterns := rfl
@[simp] theorem State.setFn_nextPattern (s : State) (f : Nat) (x : Func) : (s.setFn f x).nextPattern = s.nextPattern := rfl
@[simp] theorem State.setFn_hrt (s : State) (f : Nat) (x : Func) : (s.setFn f x).hrt = s.hrt := rfl
@[simp] theorem State.setFn_kst (s : State) (f : Nat) (x : Func) : (s.setFn f x).kst = s.kst := rfl
@[simp] theorem State.setFn_dgs (s : State) (f : Nat) (x : Func) : (s.setFn f x).dgs = s.dgs := rfl
@[simp] theorem State.setFn_ent (s : State) (f : Nat) (x : Func) : (s.setFn f x).ent = s.ent := rfl
@[simp] theorem State.setFn_lka (s : State) (f : Nat) (x : Func) : (s.setFn f x).lka = s.lka := rfl
@[simp] theorem State.setFn_mem (s : State) (f : Nat) (x : Func) : (s.setFn f x).mem = s.mem := rfl
@[simp] theorem State.setFn_fls (s : State) (f : Nat) (x : Func) : (s.setFn f x).fls = s.fls := rfl
@[simp] theorem State.setFn_held (s : State) (f : Nat) (x : Func) : (s.setFn f x).held = s.held := rfl
@[simp] theorem State.setFn_tmp (s : State) (f : Nat) (x : Func) : (s.setFn f x).tmp = s.tmp := rfl
@[simp] theorem State.setFn_thm (s : State) (f : Nat) (x : Func) : (s.setFn f x).thm = s.thm := rfl
@[simp] theorem State.setFn_plk (s : State) (f : Nat) (x : Func) : (s.setFn f x).plk = s.plk := rfl
@[simp] theorem State.setFn_pmu (s : State) (f : Nat) (x : Func) : (s.setFn f x).pmu = s.pmu := rfl
@[simp] theorem State.setFn_patches (s : State) (f : Nat) (x : Func) : (s.setFn f x).patches = s.patches := rfl
@[simp] theorem State.setFn_pcr (s : State) (f : Nat) (x : Func) : (s.setFn f x).pcr = s.pcr := rfl
@[simp] theorem State.setFn_free (s : State) (f : Nat) (x : Func) : (s.setFn f x).free = s.free := rfl

@[simp] theorem State.setQueue_pending (s : State) (f q : Nat) (x : Queue) : (s.setQueue f q x).pending = s.pending := rfl
@[simp] theorem State.setQueue_out (s : State) (f q : Nat) (x : Queue) : (s.setQueue f q x).out = s.out := rfl
@[simp] theorem State.setQueue_part (s : State) (f q : Nat) (x : Queue) : (s.setQueue f q x).part = s.part := rfl
@[simp] theorem State.setQueue_us (s : State) (f q : Nat) (x : Queue) : (s.setQueue f q x).us = s.us := rfl
@[simp] theorem State.setQueue_regs (s : State) (f q : Nat) (x : Queue) : (s.setQueue f q x).regs = s.regs := rfl
@[simp] theorem State.setQueue_latchHi (s : State) (f q : Nat) (x : Queue) : (s.setQueue f q x).latchHi = s.latchHi := rfl
@[simp] theorem State.setQueue_blk (s : State) (f q : Nat) (x : Queue) : (s.setQueue f q x).blk = s.blk := rfl
@[simp] theorem State.setQueue_tests (s : State) (f q : Nat) (x : Queue) : (s.setQueue f q x).tests = s.tests := rfl
@[simp] theorem State.setQueue_trd (s : State) (f q : Nat) (x : Queue) : (s.setQueue f q x).trd = s.trd := rfl
@[simp] theorem State.setQueue_pvu (s : State) (f q : Nat) (x : Queue) : (s.setQueue f q x).pvu = s.pvu := rfl
@[simp] theorem State.setQueue_bne (s : State) (f q : Nat) (x : Queue) : (s.setQueue f q x).bne = s.bne := rfl
@[simp] theorem State.setQueue_hsa (s : State) (f q : Nat) (x : Queue) : (s.setQueue f q x).hsa = s.hsa := rfl
@[simp] theorem State.setQueue_funcs (s : State) (f q : Nat) (x : Queue) : (s.setQueue f q x).funcs = s.funcs := rfl
@[simp] theorem State.setQueue_queues (s : State) (f q : Nat) (x : Queue) : (s.setQueue f q x).queues = KV.set s.queues (qkey f q) x := rfl
@[simp] theorem State.setQueue_jobs (s : State) (f q : Nat) (x : Queue) : (s.setQueue f q x).jobs = s.jobs := rfl
@[simp] theorem State.setQueue_nextJob (s : State) (f q : Nat) (x : Queue) : (s.setQueue f q x).nextJob = s.nextJob := rfl
@[simp] theorem State.setQueue_patterns (s : State) (f q : Nat) (x : Queue) : (s.setQueue f q x).patterns = s.patterns := rfl
@[simp] theorem State.setQueue_nextPattern (s : State) (f q : Nat) (x : Queue) : (s.setQueue f q x).nextPattern = s.nextPattern := rfl
@[simp] theorem State.setQueue_hrt (s : State) (f q : Nat) (x : Queue) : (s.setQueue f q x).hrt = s.hrt := rfl
@[simp] theorem State.setQueue_kst (s : State) (f q : Nat) (x : Queue) : (s.setQueue f q x).kst = s.kst := rfl
@[simp] theorem State.setQueue_dgs (s : State) (f q : Nat) (x : Queue) : (s.setQueue f q x).dgs = s.dgs := rfl
@[simp] theorem State.setQueue_ent (s : State) (f q : Nat) (x : Queue) : (s.setQueue f q x).ent = s.ent := rfl
@[simp] theorem State.setQueue_lka (s : State) (f q : Nat) (x : Queue) : (s.setQueue f q x).lka = s.lka := rfl
@[simp] theorem State.setQueue_mem (s : State) (f q : Nat) (x : Queue) : (s.setQueue f q x).mem = s.mem := rfl
@[simp] theorem State.setQueue_fls (s : State) (f q : Nat) (x : Queue) : (s.setQueue f q x).fls = s.fls := rfl
@[simp] theorem State.setQueue_held (s : State) (f q : Nat) (x : Queue) : (s.setQueue f q x).held = s.held := rfl
@[simp] theorem State.setQueue_tmp (s : State) (f q : Nat) (x : Queue) : (s.setQueue f q x).tmp = s.tmp := rfl
@[simp] theorem State.setQueue_thm (s : State) (f q : Nat) (x : Queue) : (s.setQueue f q x).thm = s.thm := rfl
@[simp] theorem State.setQueue_plk (s : State) (f q : Nat) (x : Queue) : (s.setQueue f q x).plk = s.plk := rfl
@[simp] theorem State.setQueue_pmu (s : State) (f q : Nat) (x : Queue) : (s.setQueue f q x).pmu = s.pmu := rfl
@[simp] theorem State.setQueue_patches (s : State) (f q : Nat) (x : Queue) : (s.setQueue f q x).patches = s.patches := rfl
@[simp] theorem State.setQueue_pcr (s : State) (f q : Nat) (x : Queue) : (s.setQueue f q x).pcr = s.pcr := rfl
@[simp] theorem State.setQueue_free (s : State) (f q : Nat) (x : Queue) : (s.setQueue f q x).free = s.free := rfl

@[simp] theorem State.setJob_pending (s : State) (j : Nat) (x : Job) : (s.setJob j x).pending = s.pending := rfl
@[simp] theorem State.setJob_out (s : State) (j : Nat) (x : Job) : (s.setJob j x).out = s.out := rfl
@[simp] theorem State.setJob_part (s : State) (j : Nat) (x : Job) : (s.setJob j x).part = s.part := rfl
@[simp] theorem State.setJob_us (s : State) (j : Nat) (x : Job) : (s.setJob j x).us = s.us := rfl
@[simp] theorem State.setJob_regs (s : State) (j : Nat) (x : Job) : (s.setJob j x).regs = s.regs := rfl
@[simp] theorem State.setJob_latchHi (s : State) (j : Nat) (x : Job) : (s.setJob j x).latchHi = s.latchHi := rfl
@[simp] theorem State.setJob_blk (s : State) (j : Nat) (x : Job) : (s.setJob j x).blk = s.blk := rfl
@[simp] theorem State.setJob_tests (s : State) (j : Nat) (x : Job) : (s.setJob j x).tests = s.tests := rfl
@[simp] theorem State.setJob_trd (s : State) (j : Nat) (x : Job) : (s.setJob j x).trd = s.trd := rfl
@[simp] theorem State.setJob_pvu (s : State) (j : Nat) (x : Job) : (s.setJob j x).pvu = s.pvu := rfl
@[simp] theorem State.setJob_bne (s : State) (j : Nat) (x : Job) : (s.setJob j x).bne = s.bne := rfl
@[simp] theorem State.setJob_hsa (s : State) (j : Nat) (x : Job) : (s.setJob j x).hsa = s.hsa := rfl
@[simp] theorem State.setJob_funcs (s : State) (j : Nat) (x : Job) : (s.setJob j x).funcs = s.funcs := rfl
@[simp] theorem State.setJob_queues (s : State) (j : Nat) (x : Job) : (s.setJob j x).queues = s.queues := rfl
@[simp] theorem State.setJob_jobs (s : State) (j : Nat) (x : Job) : (s.setJob j x).jobs = KV.set s.jobs j x := rfl
@[simp] theorem State.setJob_nextJob (s : State) (j : Nat) (x : Job) : (s.setJob j x).nextJob = s.nextJob := rfl
@[simp] theorem State.setJob_patterns (s : State) (j : Nat) (x : Job) : (s.setJob j x).patterns = s.patterns := rfl
@[simp] theorem State.setJob_nextPattern (s : State) (j : Nat) (x : Job) : (s.setJob j x).nextPattern = s.nextPattern := rfl
@[simp] theorem State.setJob_hrt (s : State) (j : Nat) (x : Job) : (s.setJob j x).hrt = s.hrt := rfl
@[simp] theorem State.setJob_kst (s : State) (j : Nat) (x : Job) : (s.setJob j x).kst = s.kst := rfl
@[simp] theorem State.setJob_dgs (s : State) (j : Nat) (x : Job) : (s.setJob j x).dgs = s.dgs := rfl
@[simp] theorem State.setJob_ent (s : State) (j : Nat) (x : Job) : (s.setJob j x).ent = s.ent := rfl
@[simp] theorem State.setJob_lka (s : State) (j : Nat) (x : Job) : (s.setJob j x).lka = s.lka := rfl
@[simp] theorem State.setJob_mem (s : State) (j : Nat) (x : Job) : (s.setJob j x).mem = s.mem := rfl
@[simp] theorem State.setJob_fls (s : State) (j : Nat) (x : Job) : (s.setJob j x).fls = s.fls := rfl
@[simp] theorem State.setJob_held (s : State) (j : Nat) (x : Job) : (s.setJob j x).held = s.held := rfl
@[simp] theorem State.setJob_tmp (s : State) (j : Nat) (x : Job) : (s.setJob j x).tmp = s.tmp := rfl
@[simp] theorem State.setJob_thm (s : State) (j : Nat) (x : Job) : (s.setJob j x).thm = s.thm := rfl
@[simp] theorem State.setJob_plk (s : State) (j : Nat) (x : Job) : (s.setJob j x).plk = s.plk := rfl
@[simp] theorem State.setJob_pmu (s : State) (j : Nat) (x : Job) : (s.setJob j x).pmu = s.pmu := rfl
@[simp] theorem State.setJob_patches (s : State) (j : Nat) (x : Job) : (s.setJob j x).patches = s.patches := rfl
@[simp] theorem State.setJob_pcr (s : State) (j : Nat) (x : Job) : (s.setJob j x).pcr = s.pcr := rfl
@[simp] theorem State.setJob_free (s : State) (j : Nat) (x : Job) : (s.setJob j x).free = s.free := rfl

@[simp] theorem State.setKey_pending (s : State) (h : W32) (x : KeyObj) : (s.setKey h x).pending = s.pending := rfl
@[simp] theorem State.setKey_out (s : State) (h : W32) (x : KeyObj) : (s.setKey h x).out = s.out := rfl
@[simp] theorem State.setKey_part (s : State) (h : W32) (x : KeyObj) : (s.setKey h x).part = s.part := rfl
@[simp] theorem State.setKey_us (s : State) (h : W32) (x : KeyObj) : (s.setKey h x).us = s.us := rfl
@[simp] theorem State.setKey_regs (s : State) (h : W32) (x : KeyObj) : (s.setKey h x).regs = s.regs := rfl
@[simp] theorem State.setKey_latchHi (s : State) (h : W32) (x : KeyObj) : (s.setKey h x).latchHi = s.latchHi := rfl
@[simp] theorem State.setKey_blk (s : State) (h : W32) (x : KeyObj) : (s.setKey h x).blk = s.blk := rfl
@[simp] theorem State.setKey_tests (s : State) (h : W32) (x : KeyObj) : (s.setKey h x).tests = s.tests := rfl
@[simp] theorem State.setKey_trd (s : State) (h : W32) (x : KeyObj) : (s.setKey h x).trd = s.trd := rfl
@[simp] theorem State.setKey_pvu (s : State) (h : W32) (x : KeyObj) : (s.setKey h x).pvu = s.pvu := rfl
@[simp] theorem State.setKey_bne (s : State) (h : W32) (x : KeyObj) : (s.setKey h x).bne = s.bne := rfl
@[simp] theorem State.setKey_hsa (s : State) (h : W32) (x : KeyObj) : (s.setKey h x).hsa = s.hsa := rfl
@[simp] theorem State.setKey_funcs (s : State) (h : W32) (x : KeyObj) : (s.setKey h x).funcs = s.funcs := rfl
@[simp] theorem State.setKey_queues (s : State) (h : W32) (x : KeyObj) : (s.setKey h x).queues = s.queues := rfl
@[simp] theorem State.setKey_jobs (s : State) (h : W32) (x : KeyObj) : (s.setKey h x).jobs = s.jobs := rfl
@[simp] theorem State.setKey_nextJob (s : State) (h : W32) (x : KeyObj) : (s.setKey h x).nextJob = s.nextJob := rfl
@[simp] theorem State.setKey_patterns (s : State) (h : W32) (x : KeyObj) : (s.setKey h x).patterns = s.patterns := rfl
@[simp] theorem State.setKey_nextPattern (s : State) (h : W32) (x : KeyObj) : (s.setKey h x).nextPattern = s.nextPattern := rfl
@[simp] theorem State.setKey_hrt (s : State) (h : W32) (x : KeyObj) : (s.setKey h x).hrt = s.hrt := rfl
@[simp] theorem State.setKey_kst (s : State) (h : W32) (x : KeyObj) : (s.setKey h x).kst = { s.kst with objs := KV.set s.kst.objs h.toNat x } := rfl
@[simp] theorem State.setKey_dgs (s : State) (h : W32) (x : KeyObj) : (s.setKey h x).dgs = s.dgs := rfl
@[simp] theorem State.setKey_ent (s : State) (h : W32) (x : KeyObj) : (s.setKey h x).ent = s.ent := rfl
@[simp] theorem State.setKey_lka (s : State) (h : W32) (x : KeyObj) : (s.setKey h x).lka = s.lka := rfl
@[simp] theorem State.setKey_mem (s : State) (h : W32) (x : KeyObj) : (s.setKey h x).mem = s.mem := rfl
@[simp] theorem State.setKey_fls (s : State) (h : W32) (x : KeyObj) : (s.setKey h x).fls = s.fls := rfl
@[simp] theorem State.setKey_held (s : State) (h : W32) (x : KeyObj) : (s.setKey h x).held = s.held := rfl
@[simp] theorem State.setKey_tmp (s : State) (h : W32) (x : KeyObj) : (s.setKey h x).tmp = s.tmp := rfl
@[simp] theorem State.setKey_thm (s : State) (h : W32) (x : KeyObj) : (s.setKey h x).thm = s.thm := rfl
@[simp] theorem State.setKey_plk (s : State) (h : W32) (x : KeyObj) : (s.setKey h x).plk = s.plk := rfl
@[simp] theorem State.setKey_pmu (s : State) (h : W32) (x : KeyObj) : (s.setKey h x).pmu = s.pmu := rfl
@[simp] theorem State.setKey_patches (s : State) (h : W32) (x : KeyObj) : (s.setKey h x).patches = s.patches := rfl
@[simp] theorem State.setKey_pcr (s : State) (h : W32) (x : KeyObj) : (s.setKey h x).pcr = s.pcr := rfl
@[simp] theorem State.setKey_free (s : State) (h : W32) (x : KeyObj) : (s.setKey h x).free = s.free := rfl

@[simp] theorem State.setTest_pending (s : State) (k : Nat) (x : TestUnit) : (s.setTest k x).pending = s.pending := rfl
@[simp] theorem State.setTest_out (s : State) (k : Nat) (x : TestUnit) : (s.setTest k x).out = s.out := rfl
@[simp] theorem State.setTest_part (s : State) (k : Nat) (x : TestUnit) : (s.setTest k x).part = s.part := rfl
@[simp] theorem State.setTest_us (s : State) (k : Nat) (x : TestUnit) : (s.setTest k x).us = s.us := rfl
@[simp] theorem State.setTest_regs (s : State) (k : Nat) (x : TestUnit) : (s.setTest k x).regs = s.regs := rfl
@[simp] theorem State.setTest_latchHi (s : State) (k : Nat) (x : TestUnit) : (s.setTest k x).latchHi = s.latchHi := rfl
@[simp] theorem State.setTest_blk (s : State) (k : Nat) (x : TestUnit) : (s.setTest k x).blk = s.blk := rfl
@[simp] theorem State.setTest_tests (s : State) (k : Nat) (x : TestUnit) : (s.setTest k x).tests = KV.set s.tests k x := rfl
@[simp] theorem State.setTest_trd (s : State) (k : Nat) (x : TestUnit) : (s.setTest k x).trd = s.trd := rfl
@[simp] theorem State.setTest_pvu (s : State) (k : Nat) (x : TestUnit) : (s.setTest k x).pvu = s.pvu := rfl
@[simp] theorem State.setTest_bne (s : State) (k : Nat) (x : TestUnit) : (s.setTest k x).bne = s.bne := rfl
@[simp] theorem State.setTest_hsa (s : State) (k : Nat) (x : TestUnit) : (s.setTest k x).hsa = s.hsa := rfl
@[simp] theorem State.setTest_funcs (s : State) (k : Nat) (x : TestUnit) : (s.setTest k x).funcs = s.funcs := rfl
@[simp] theorem State.setTest_queues (s : State) (k : Nat) (x : TestUnit) : (s.setTest k x).queues = s.queues := rfl
@[simp] theorem State.setTest_jobs (s : State) (k : Nat) (x : TestUnit) : (s.setTest k x).jobs = s.jobs := rfl
@[simp] theorem State.setTest_nextJob (s : State) (k : Nat) (x : TestUnit) : (s.setTest k x).nextJob = s.nextJob := rfl
@[simp] theorem State.setTest_patterns (s : State) (k : Nat) (x : TestUnit) : (s.setTest k x).patterns = s.patterns := rfl
@[simp] theorem State.setTest_nextPattern (s : State) (k : Nat) (x : TestUnit) : (s.setTest k x).nextPattern = s.nextPattern := rfl
@[simp] theorem State.setTest_hrt (s : State) (k : Nat) (x : TestUnit) : (s.setTest k x).hrt = s.hrt := rfl
@[simp] theorem State.setTest_kst (s : State) (k : Nat) (x : TestUnit) : (s.setTest k x).kst = s.kst := rfl
@[simp] theorem State.setTest_dgs (s : State) (k : Nat) (x : TestUnit) : (s.setTest k x).dgs = s.dgs := rfl
@[simp] theorem State.setTest_ent (s : State) (k : Nat) (x : TestUnit) : (s.setTest k x).ent = s.ent := rfl
@[simp] theorem State.setTest_lka (s : State) (k : Nat) (x : TestUnit) : (s.setTest k x).lka = s.lka := rfl
@[simp] theorem State.setTest_mem (s : State) (k : Nat) (x : TestUnit) : (s.setTest k x).mem = s.mem := rfl
@[simp] theorem State.setTest_fls (s : State) (k : Nat) (x : TestUnit) : (s.setTest k x).fls = s.fls := rfl
@[simp] theorem State.setTest_held (s : State) (k : Nat) (x : TestUnit) : (s.setTest k x).held = s.held := rfl
@[simp] theorem State.setTest_tmp (s : State) (k : Nat) (x : TestUnit) : (s.setTest k x).tmp = s.tmp := rfl
@[simp] theorem State.setTest_thm (s : State) (k : Nat) (x : TestUnit) : (s.setTest k x).thm = s.thm := rfl
@[simp] theorem State.setTest_plk (s : State) (k : Nat) (x : TestUnit) : (s.setTest k x).plk = s.plk := rfl
@[simp] theorem State.setTest_pmu (s : State) (k : Nat) (x : TestUnit) : (s.setTest k x).pmu = s.pmu := rfl
@[simp] theorem State.setTest_patches (s : State) (k : Nat) (x : TestUnit) : (s.setTest k x).patches = s.patches := rfl
@[simp] theorem State.setTest_pcr (s : State) (k : Nat) (x : TestUnit) : (s.setTest k x).pcr = s.pcr := rfl
@[simp] theorem State.setTest_free (s : State) (k : Nat) (x : TestUnit) : (s.setTest k x).free = s.free := rfl

@[simp] theorem State.setSrc_pending (s : State) (k : Nat) (x : SrcRec) : (s.setSrc k x).pending = s.pending := rfl
@[simp] theorem State.setSrc_out (s : State) (k : Nat) (x : SrcRec) : (s.setSrc k x).out = s.out := rfl
@[simp] theorem State.setSrc_part (s : State) (k : Nat) (x : SrcRec) : (s.setSrc k x).part = s.part := rfl
@[simp] theorem State.setSrc_us (s : State) (k : Nat) (x : SrcRec) : (s.setSrc k x).us = s.us := rfl
@[simp] theorem State.setSrc_regs (s : State) (k : Nat) (x : SrcRec) : (s.setSrc k x).regs = s.regs := rfl
@[simp] theorem State.setSrc_latchHi (s : State) (k : Nat) (x : SrcRec) : (s.setSrc k x).latchHi = s.latchHi := rfl
@[simp] theorem State.setSrc_blk (s : State) (k : Nat) (x : SrcRec) : (s.setSrc k x).blk = s.blk := rfl
@[simp] theorem State.setSrc_tests (s : State) (k : Nat) (x : SrcRec) : (s.setSrc k x).tests = s.tests := rfl
@[simp] theorem State.setSrc_trd (s : State) (k : Nat) (x : SrcRec) : (s.setSrc k x).trd = s.trd := rfl
@[simp] theorem State.setSrc_pvu (s : State) (k : Nat) (x : SrcRec) : (s.setSrc k x).pvu = s.pvu := rfl
@[simp] theorem State.setSrc_bne (s : State) (k : Nat) (x : SrcRec) : (s.setSrc k x).bne = s.bne := rfl
@[simp] theorem State.setSrc_hsa (s : State) (k : Nat) (x : SrcRec) : (s.setSrc k x).hsa = s.hsa := rfl
@[simp] theorem State.setSrc_funcs (s : State) (k : Nat) (x : SrcRec) : (s.setSrc k x).funcs = s.funcs := rfl
@[simp] theorem State.setSrc_queues (s : State) (k : Nat) (x : SrcRec) : (s.setSrc k x).queues = s.queues := rfl
@[simp] theorem State.setSrc_jobs (s : State) (k : Nat) (x : SrcRec) : (s.setSrc k x).jobs = s.jobs := rfl
@[simp] theorem State.setSrc_nextJob (s : State) (k : Nat) (x : SrcRec) : (s.setSrc k x).nextJob = s.nextJob := rfl
@[simp] theorem State.setSrc_patterns (s : State) (k : Nat) (x : SrcRec) : (s.setSrc k x).patterns = s.patterns := rfl
@[simp] theorem State.setSrc_nextPattern (s : State) (k : Nat) (x : SrcRec) : (s.setSrc k x).nextPattern = s.nextPattern := rfl
@[simp] theorem State.setSrc_hrt (s : State) (k : Nat) (x : SrcRec) : (s.setSrc k x).hrt = { s.hrt with src := KV.set s.hrt.src k x } := rfl
@[simp] theorem State.setSrc_kst (s : State) (k : Nat) (x : SrcRec) : (s.setSrc k x).kst = s.kst := rfl
@[simp] theorem State.setSrc_dgs (s : State) (k : Nat) (x : SrcRec) : (s.setSrc k x).dgs = s.dgs := rfl
@[simp] theorem State.setSrc_ent (s : State) (k : Nat) (x : SrcRec) : (s.setSrc k x).ent = s.ent := rfl
@[simp] theorem State.setSrc_lka (s : State) (k : Nat) (x : SrcRec) : (s.setSrc k x).lka = s.lka := rfl
@[simp] theorem State.setSrc_mem (s : State) (k : Nat) (x : SrcRec) : (s.setSrc k x).mem = s.mem := rfl
@[simp] theorem State.setSrc_fls (s : State) (k : Nat) (x : SrcRec) : (s.setSrc k x).fls = s.fls := rfl
@[simp] theorem State.setSrc_held (s : State) (k : Nat) (x : SrcRec) : (s.setSrc k x).held = s.held := rfl
@[simp] theorem State.setSrc_tmp (s : State) (k : Nat) (x : SrcRec) : (s.setSrc k x).tmp = s.tmp := rfl
@[simp] theorem State.setSrc_thm (s : State) (k : Nat) (x : SrcRec) : (s.setSrc k x).thm = s.thm := rfl
@[simp] theorem State.setSrc_plk (s : State) (k : Nat) (x : SrcRec) : (s.setSrc k x).plk = s.plk := rfl
@[simp] theorem State.setSrc_pmu (s : State) (k : Nat) (x : SrcRec) : (s.setSrc k x).pmu = s.pmu := rfl
@[simp] theorem State.setSrc_patches (s : State) (k : Nat) (x : SrcRec) : (s.setSrc k x).patches = s.patches := rfl
@[simp] theorem State.setSrc_pcr (s : State) (k : Nat) (x : SrcRec) : (s.setSrc k x).pcr = s.pcr := rfl
@[simp] theorem State.setSrc_free (s : State) (k : Nat) (x : SrcRec) : (s.setSrc k x).free = s.free := rfl

@[simp] theorem State.setPort_pending (s : State) (n : Nat) (x : Port) : (s.setPort n x).pending = s.pending := rfl
@[simp] theorem State.setPort_out (s : State) (n : Nat) (x : Port) : (s.setPort n x).out = s.out := rfl
@[simp] theorem State.setPort_part (s : State) (n : Nat) (x : Port) : (s.setPort n x).part = s.part := rfl
@[simp] theorem State.setPort_us (s : State) (n : Nat) (x : Port) : (s.setPort n x).us = s.us := rfl
@[simp] theorem State.setPort_regs (s : State) (n : Nat) (x : Port) : (s.setPort n x).regs = s.regs := rfl
@[simp] theorem State.setPort_latchHi (s : State) (n : Nat) (x : Port) : (s.setPort n x).latchHi = s.latchHi := rfl
@[simp] theorem State.setPort_blk (s : State) (n : Nat) (x : Port) : (s.setPort n x).blk = s.blk := rfl
@[simp] theorem State.setPort_tests (s : State) (n : Nat) (x : Port) : (s.setPort n x).tests = s.tests := rfl
@[simp] theorem State.setPort_trd (s : State) (n : Nat) (x : Port) : (s.setPort n x).trd = s.trd := rfl
@[simp] theorem State.setPort_pvu (s : State) (n : Nat) (x : Port) : (s.setPort n x).pvu = s.pvu := rfl
@[simp] theorem State.setPort_bne (s : State) (n : Nat) (x : Port) : (s.setPort n x).bne = s.bne := rfl
@[simp] theorem State.setPort_hsa (s : State) (n : Nat) (x : Port) : (s.setPort n x).hsa = s.hsa := rfl
@[simp] theorem State.setPort_funcs (s : State) (n : Nat) (x : Port) : (s.setPort n x).funcs = s.funcs := rfl
@[simp] theorem State.setPort_queues (s : State) (n : Nat) (x : Port) : (s.setPort n x).queues = s.queues := rfl
@[simp] theorem State.setPort_jobs (s : State) (n : Nat) (x : Port) : (s.setPort n x).jobs = s.jobs := rfl
@[simp] theorem State.setPort_nextJob (s : State) (n : Nat) (x : Port) : (s.setPort n x).nextJob = s.nextJob := rfl
@[simp] theorem State.setPort_patterns (s : State) (n : Nat) (x : Port) : (s.setPort n x).patterns = s.patterns := rfl
@[simp] theorem State.setPort_nextPattern (s : State) (n : Nat) (x : Port) : (s.setPort n x).nextPattern = s.nextPattern := rfl
@[simp] theorem State.setPort_hrt (s : State) (n : Nat) (x : Port) : (s.setPort n x).hrt = s.hrt := rfl
@[simp] theorem State.setPort_kst (s : State) (n : Nat) (x : Port) : (s.setPort n x).kst = s.kst := rfl
@[simp] theorem State.setPort_dgs (s : State) (n : Nat) (x : Port) : (s.setPort n x).dgs = s.dgs := rfl
@[simp] theorem State.setPort_ent (s : State) (n : Nat) (x : Port) : (s.setPort n x).ent = s.ent := rfl
@[simp] theorem State.setPort_lka (s : State) (n : Nat) (x : Port) : (s.setPort n x).lka = s.lka := rfl
@[simp] theorem State.setPort_mem (s : State) (n : Nat) (x : Port) : (s.setPort n x).mem = s.mem := rfl
@[simp] theorem State.setPort_fls (s : State) (n : Nat) (x : Port) : (s.setPort n x).fls = s.fls := rfl
@[simp] theorem State.setPort_held (s : State) (n : Nat) (x : Port) : (s.setPort n x).held = s.held := rfl
@[simp] theorem State.setPort_tmp (s : State) (n : Nat) (x : Port) : (s.setPort n x).tmp = s.tmp := rfl
@[simp] theorem State.setPort_thm (s : State) (n : Nat) (x : Port) : (s.setPort n x).thm = s.thm := rfl
@[simp] theorem State.setPort_plk (s : State) (n : Nat) (x : Port) : (s.setPort n x).plk = { s.plk with ports := vset s.plk.ports n x } := rfl
@[simp] theorem State.setPort_pmu (s : State) (n : Nat) (x : Port) : (s.setPort n x).pmu = s.pmu := rfl
@[simp] theorem State.setPort_patches (s : State) (n : Nat) (x : Port) : (s.setPort n x).patches = s.patches := rfl
@[simp] theorem State.setPort_pcr (s : State) (n : Nat) (x : Port) : (s.setPort n x).pcr = s.pcr := rfl
@[simp] theorem State.setPort_free (s : State) (n : Nat) (x : Port) : (s.setPort n x).free = s.free := rfl

@[simp] theorem State.setSlot_pending (s : State) (n : Nat) (x : CardSlot) : (s.setSlot n x).pending = s.pending := rfl
@[simp] theorem State.setSlot_out (s : State) (n : Nat) (x : CardSlot) : (s.setSlot n x).out = s.out := rfl
@[simp] theorem State.setSlot_part (s : State) (n : Nat) (x : CardSlot) : (s.setSlot n x).part = s.part := rfl
@[simp] theorem State.setSlot_us (s : State) (n : Nat) (x : CardSlot) : (s.setSlot n x).us = s.us := rfl
@[simp] theorem State.setSlot_regs (s : State) (n : Nat) (x : CardSlot) : (s.setSlot n x).regs = s.regs := rfl
@[simp] theorem State.setSlot_latchHi (s : State) (n : Nat) (x : CardSlot) : (s.setSlot n x).latchHi = s.latchHi := rfl
@[simp] theorem State.setSlot_blk (s : State) (n : Nat) (x : CardSlot) : (s.setSlot n x).blk = s.blk := rfl
@[simp] theorem State.setSlot_tests (s : State) (n : Nat) (x : CardSlot) : (s.setSlot n x).tests = s.tests := rfl
@[simp] theorem State.setSlot_trd (s : State) (n : Nat) (x : CardSlot) : (s.setSlot n x).trd = s.trd := rfl
@[simp] theorem State.setSlot_pvu (s : State) (n : Nat) (x : CardSlot) : (s.setSlot n x).pvu = s.pvu := rfl
@[simp] theorem State.setSlot_bne (s : State) (n : Nat) (x : CardSlot) : (s.setSlot n x).bne = s.bne := rfl
@[simp] theorem State.setSlot_hsa (s : State) (n : Nat) (x : CardSlot) : (s.setSlot n x).hsa = s.hsa := rfl
@[simp] theorem State.setSlot_funcs (s : State) (n : Nat) (x : CardSlot) : (s.setSlot n x).funcs = s.funcs := rfl
@[simp] theorem State.setSlot_queues (s : State) (n : Nat) (x : CardSlot) : (s.setSlot n x).queues = s.queues := rfl
@[simp] theorem State.setSlot_jobs (s : State) (n : Nat) (x : CardSlot) : (s.setSlot n x).jobs = s.jobs := rfl
@[simp] theorem State.setSlot_nextJob (s : State) (n : Nat) (x : CardSlot) : (s.setSlot n x).nextJob = s.nextJob := rfl
@[simp] theorem State.setSlot_patterns (s : State) (n : Nat) (x : CardSlot) : (s.setSlot n x).patterns = s.patterns := rfl
@[simp] theorem State.setSlot_nextPattern (s : State) (n : Nat) (x : CardSlot) : (s.setSlot n x).nextPattern = s.nextPattern := rfl
@[simp] theorem State.setSlot_hrt (s : State) (n : Nat) (x : CardSlot) : (s.setSlot n x).hrt = s.hrt := rfl
@[simp] theorem State.setSlot_kst (s : State) (n : Nat) (x : CardSlot) : (s.setSlot n x).kst = s.kst := rfl
@[simp] theorem State.setSlot_dgs (s : State) (n : Nat) (x : CardSlot) : (s.setSlot n x).dgs = s.dgs := rfl
@[simp] theorem State.setSlot_ent (s : State) (n : Nat) (x : CardSlot) : (s.setSlot n x).ent = s.ent := rfl
@[simp] theorem State.setSlot_lka (s : State) (n : Nat) (x : CardSlot) : (s.setSlot n x).lka = s.lka := rfl
@[simp] theorem State.setSlot_mem (s : State) (n : Nat) (x : CardSlot) : (s.setSlot n x).mem = s.mem := rfl
@[simp] theorem State.setSlot_fls (s : State) (n : Nat) (x : CardSlot) : (s.setSlot n x).fls = s.fls := rfl
@[simp] theorem State.setSlot_held (s : State) (n : Nat) (x : CardSlot) : (s.setSlot n x).held = s.held := rfl
@[simp] theorem State.setSlot_tmp (s : State) (n : Nat) (x : CardSlot) : (s.setSlot n x).tmp = s.tmp := rfl
@[simp] theorem State.setSlot_thm (s : State) (n : Nat) (x : CardSlot) : (s.setSlot n x).thm = { s.thm with slots := vset s.thm.slots n x } := rfl
@[simp] theorem State.setSlot_plk (s : State) (n : Nat) (x : CardSlot) : (s.setSlot n x).plk = s.plk := rfl
@[simp] theorem State.setSlot_pmu (s : State) (n : Nat) (x : CardSlot) : (s.setSlot n x).pmu = s.pmu := rfl
@[simp] theorem State.setSlot_patches (s : State) (n : Nat) (x : CardSlot) : (s.setSlot n x).patches = s.patches := rfl
@[simp] theorem State.setSlot_pcr (s : State) (n : Nat) (x : CardSlot) : (s.setSlot n x).pcr = s.pcr := rfl
@[simp] theorem State.setSlot_free (s : State) (n : Nat) (x : CardSlot) : (s.setSlot n x).free = s.free := rfl

@[simp] theorem State.setLka_pending (s : State) (e : Nat) (x : LkaEngine) : (s.setLka e x).pending = s.pending := rfl
@[simp] theorem State.setLka_out (s : State) (e : Nat) (x : LkaEngine) : (s.setLka e x).out = s.out := rfl
@[simp] theorem State.setLka_part (s : State) (e : Nat) (x : LkaEngine) : (s.setLka e x).part = s.part := rfl
@[simp] theorem State.setLka_us (s : State) (e : Nat) (x : LkaEngine) : (s.setLka e x).us = s.us := rfl
@[simp] theorem State.setLka_regs (s : State) (e : Nat) (x : LkaEngine) : (s.setLka e x).regs = s.regs := rfl
@[simp] theorem State.setLka_latchHi (s : State) (e : Nat) (x : LkaEngine) : (s.setLka e x).latchHi = s.latchHi := rfl
@[simp] theorem State.setLka_blk (s : State) (e : Nat) (x : LkaEngine) : (s.setLka e x).blk = s.blk := rfl
@[simp] theorem State.setLka_tests (s : State) (e : Nat) (x : LkaEngine) : (s.setLka e x).tests = s.tests := rfl
@[simp] theorem State.setLka_trd (s : State) (e : Nat) (x : LkaEngine) : (s.setLka e x).trd = s.trd := rfl
@[simp] theorem State.setLka_pvu (s : State) (e : Nat) (x : LkaEngine) : (s.setLka e x).pvu = s.pvu := rfl
@[simp] theorem State.setLka_bne (s : State) (e : Nat) (x : LkaEngine) : (s.setLka e x).bne = s.bne := rfl
@[simp] theorem State.setLka_hsa (s : State) (e : Nat) (x : LkaEngine) : (s.setLka e x).hsa = s.hsa := rfl
@[simp] theorem State.setLka_funcs (s : State) (e : Nat) (x : LkaEngine) : (s.setLka e x).funcs = s.funcs := rfl
@[simp] theorem State.setLka_queues (s : State) (e : Nat) (x : LkaEngine) : (s.setLka e x).queues = s.queues := rfl
@[simp] theorem State.setLka_jobs (s : State) (e : Nat) (x : LkaEngine) : (s.setLka e x).jobs = s.jobs := rfl
@[simp] theorem State.setLka_nextJob (s : State) (e : Nat) (x : LkaEngine) : (s.setLka e x).nextJob = s.nextJob := rfl
@[simp] theorem State.setLka_patterns (s : State) (e : Nat) (x : LkaEngine) : (s.setLka e x).patterns = s.patterns := rfl
@[simp] theorem State.setLka_nextPattern (s : State) (e : Nat) (x : LkaEngine) : (s.setLka e x).nextPattern = s.nextPattern := rfl
@[simp] theorem State.setLka_hrt (s : State) (e : Nat) (x : LkaEngine) : (s.setLka e x).hrt = s.hrt := rfl
@[simp] theorem State.setLka_kst (s : State) (e : Nat) (x : LkaEngine) : (s.setLka e x).kst = s.kst := rfl
@[simp] theorem State.setLka_dgs (s : State) (e : Nat) (x : LkaEngine) : (s.setLka e x).dgs = s.dgs := rfl
@[simp] theorem State.setLka_ent (s : State) (e : Nat) (x : LkaEngine) : (s.setLka e x).ent = s.ent := rfl
@[simp] theorem State.setLka_lka (s : State) (e : Nat) (x : LkaEngine) : (s.setLka e x).lka = { s.lka with engines := vset s.lka.engines e x } := rfl
@[simp] theorem State.setLka_mem (s : State) (e : Nat) (x : LkaEngine) : (s.setLka e x).mem = s.mem := rfl
@[simp] theorem State.setLka_fls (s : State) (e : Nat) (x : LkaEngine) : (s.setLka e x).fls = s.fls := rfl
@[simp] theorem State.setLka_held (s : State) (e : Nat) (x : LkaEngine) : (s.setLka e x).held = s.held := rfl
@[simp] theorem State.setLka_tmp (s : State) (e : Nat) (x : LkaEngine) : (s.setLka e x).tmp = s.tmp := rfl
@[simp] theorem State.setLka_thm (s : State) (e : Nat) (x : LkaEngine) : (s.setLka e x).thm = s.thm := rfl
@[simp] theorem State.setLka_plk (s : State) (e : Nat) (x : LkaEngine) : (s.setLka e x).plk = s.plk := rfl
@[simp] theorem State.setLka_pmu (s : State) (e : Nat) (x : LkaEngine) : (s.setLka e x).pmu = s.pmu := rfl
@[simp] theorem State.setLka_patches (s : State) (e : Nat) (x : LkaEngine) : (s.setLka e x).patches = s.patches := rfl
@[simp] theorem State.setLka_pcr (s : State) (e : Nat) (x : LkaEngine) : (s.setLka e x).pcr = s.pcr := rfl
@[simp] theorem State.setLka_free (s : State) (e : Nat) (x : LkaEngine) : (s.setLka e x).free = s.free := rfl

@[simp] theorem State.emit_pending (s : State) (o : Output) : (s.emit o).pending = s.pending := rfl
@[simp] theorem State.emit_out (s : State) (o : Output) : (s.emit o).out = o :: s.out := rfl
@[simp] theorem State.emit_part (s : State) (o : Output) : (s.emit o).part = s.part := rfl
@[simp] theorem State.emit_us (s : State) (o : Output) : (s.emit o).us = s.us := rfl
@[simp] theorem State.emit_regs (s : State) (o : Output) : (s.emit o).regs = s.regs := rfl
@[simp] theorem State.emit_latchHi (s : State) (o : Output) : (s.emit o).latchHi = s.latchHi := rfl
@[simp] theorem State.emit_blk (s : State) (o : Output) : (s.emit o).blk = s.blk := rfl
@[simp] theorem State.emit_tests (s : State) (o : Output) : (s.emit o).tests = s.tests := rfl
@[simp] theorem State.emit_trd (s : State) (o : Output) : (s.emit o).trd = s.trd := rfl
@[simp] theorem State.emit_pvu (s : State) (o : Output) : (s.emit o).pvu = s.pvu := rfl
@[simp] theorem State.emit_bne (s : State) (o : Output) : (s.emit o).bne = s.bne := rfl
@[simp] theorem State.emit_hsa (s : State) (o : Output) : (s.emit o).hsa = s.hsa := rfl
@[simp] theorem State.emit_funcs (s : State) (o : Output) : (s.emit o).funcs = s.funcs := rfl
@[simp] theorem State.emit_queues (s : State) (o : Output) : (s.emit o).queues = s.queues := rfl
@[simp] theorem State.emit_jobs (s : State) (o : Output) : (s.emit o).jobs = s.jobs := rfl
@[simp] theorem State.emit_nextJob (s : State) (o : Output) : (s.emit o).nextJob = s.nextJob := rfl
@[simp] theorem State.emit_patterns (s : State) (o : Output) : (s.emit o).patterns = s.patterns := rfl
@[simp] theorem State.emit_nextPattern (s : State) (o : Output) : (s.emit o).nextPattern = s.nextPattern := rfl
@[simp] theorem State.emit_hrt (s : State) (o : Output) : (s.emit o).hrt = s.hrt := rfl
@[simp] theorem State.emit_kst (s : State) (o : Output) : (s.emit o).kst = s.kst := rfl
@[simp] theorem State.emit_dgs (s : State) (o : Output) : (s.emit o).dgs = s.dgs := rfl
@[simp] theorem State.emit_ent (s : State) (o : Output) : (s.emit o).ent = s.ent := rfl
@[simp] theorem State.emit_lka (s : State) (o : Output) : (s.emit o).lka = s.lka := rfl
@[simp] theorem State.emit_mem (s : State) (o : Output) : (s.emit o).mem = s.mem := rfl
@[simp] theorem State.emit_fls (s : State) (o : Output) : (s.emit o).fls = s.fls := rfl
@[simp] theorem State.emit_held (s : State) (o : Output) : (s.emit o).held = s.held := rfl
@[simp] theorem State.emit_tmp (s : State) (o : Output) : (s.emit o).tmp = s.tmp := rfl
@[simp] theorem State.emit_thm (s : State) (o : Output) : (s.emit o).thm = s.thm := rfl
@[simp] theorem State.emit_plk (s : State) (o : Output) : (s.emit o).plk = s.plk := rfl
@[simp] theorem State.emit_pmu (s : State) (o : Output) : (s.emit o).pmu = s.pmu := rfl
@[simp] theorem State.emit_patches (s : State) (o : Output) : (s.emit o).patches = s.patches := rfl
@[simp] theorem State.emit_pcr (s : State) (o : Output) : (s.emit o).pcr = s.pcr := rfl
@[simp] theorem State.emit_free (s : State) (o : Output) : (s.emit o).free = s.free := rfl

theorem State.getPvu_setPvu (s : State) (n : Nat) (p : Pvu) (h : n < 16) : (s.setPvu n p).getPvu n = p :=
  vget_vset_self s.pvu n p {} h
theorem State.getPvu_setPvu_other (s : State) {n m : Nat} (p : Pvu) (h : m ≠ n) : (s.setPvu n p).getPvu m = s.getPvu m :=
  vget_vset_other s.pvu p {} h
theorem State.getBne_setBne (s : State) (n : Nat) (b : Bne) (h : n < 8) : (s.setBne n b).getBne n = b :=
  vget_vset_self s.bne n b {} h
theorem State.getBne_setBne_other (s : State) {n m : Nat} (b : Bne) (h : m ≠ n) : (s.setBne n b).getBne m = s.getBne m :=
  vget_vset_other s.bne b {} h
@[simp] theorem State.getBlk_setBlk (s : State) (k : Nat) (b : Blk) : (s.setBlk k b).getBlk k = b := KV.getD_set_self s.blk k b {}
theorem State.getBlk_setBlk_other (s : State) {k l : Nat} (b : Blk) (h : l ≠ k) : (s.setBlk k b).getBlk l = s.getBlk l :=
  KV.getD_set_other s.blk b {} h
@[simp] theorem State.getFn_setFn (s : State) (f : Nat) (x : Func) : (s.setFn f x).getFn f = x := KV.getD_set_self s.funcs f x {}
theorem State.getFn_setFn_other (s : State) {f g : Nat} (x : Func) (h : g ≠ f) : (s.setFn f x).getFn g = s.getFn g :=
  KV.getD_set_other s.funcs x {} h
@[simp] theorem State.getQueue_setQueue (s : State) (f q : Nat) (x : Queue) : (s.setQueue f q x).getQueue f q = some x :=
  KV.get?_set_self s.queues (qkey f q) x
@[simp] theorem State.getJob_setJob (s : State) (j : Nat) (x : Job) : (s.setJob j x).getJob j = x := KV.getD_set_self s.jobs j x {}
theorem State.getJob_setJob_other (s : State) {j l : Nat} (x : Job) (h : l ≠ j) : (s.setJob j x).getJob l = s.getJob l :=
  KV.getD_set_other s.jobs x {} h
@[simp] theorem State.getKey_setKey (s : State) (h : W32) (x : KeyObj) : (s.setKey h x).getKey h = some x :=
  KV.get?_set_self s.kst.objs h.toNat x
@[simp] theorem State.getSrc_setSrc (s : State) (k : Nat) (x : SrcRec) : (s.setSrc k x).getSrc k = x :=
  KV.getD_set_self s.hrt.src k x {}
/-- Changing a job that exists: what is held of it afterwards. -/
theorem State.modJob_eq (s : State) (j : Nat) (f : Job → Job) (x : Job) (h : KV.get? s.jobs j = some x) :
    s.modJob j f = s.setJob j (f x) := by simp [State.modJob, h]

end Sys2Proof.Machine
end

