-- ==== Sys2Proof/Laws/Signals.lean ====
section
/-! SUPPORT. What an interrupt request, a latched cause and a counted event change (R61 to R68, R669 to R672). -/

namespace Sys2Proof.Machine

theorem State.signals_refl (s : State) : s.Signals s := ⟨rfl, fun _ => rfl, fun _ => rfl, [], rfl⟩

theorem State.Signals.trans {a b c : State} (h : a.Signals b) (g : b.Signals c) : a.Signals c := by
  obtain ⟨h1, h2, h3, l, h4⟩ := h
  obtain ⟨g1, g2, g3, m, g4⟩ := g
  refine ⟨?_, fun k => ?_, fun f => ?_, m ++ l, ?_⟩
  · rw [g1, h1]
  · rw [g2 k, h2 k]
  · rw [g3 f, h3 f]
  · rw [g4, h4, List.append_assoc]

theorem State.emit_signals (s : State) (o : Output) : s.Signals (s.emit o) :=
  ⟨rfl, fun _ => rfl, fun _ => rfl, [o], rfl⟩

theorem State.count_signals (s : State) (k ev : Nat) (fn : Option Nat) (n : Nat) : s.Signals (s.count k ev fn n) := by
  unfold State.count
  split
  · exact s.signals_refl
  · exact ⟨rfl, fun _ => rfl, fun _ => rfl, [], rfl⟩

theorem State.setFn_signals (s : State) (f : Nat) (l : List Nat) : s.Signals (s.setFn f { s.getFn f with pendingVec := l }) := by
  refine ⟨rfl, fun _ => rfl, fun g => ?_, [], rfl⟩
  by_cases h : g = f
  · subst h; simp
  · simp [State.getFn_setFn_other s _ h]

theorem State.setBlk_signals (s : State) (k : Nat) (r : Bool) : s.Signals (s.setBlk k { s.getBlk k with request := r }) := by
  refine ⟨rfl, fun l => ?_, fun _ => rfl, [], rfl⟩
  by_cases h : l = k
  · subst h; simp
  · simp [State.getBlk_setBlk_other s _ h]

theorem State.sendMsix_signals (s : State) (fn vec : Nat) : s.Signals (s.sendMsix fn vec) := by
  unfold State.sendMsix
  dsimp only []
  split
  · exact s.setFn_signals fn _
  · exact (s.emit_signals _).trans (State.count_signals _ _ _ _ _)

theorem State.requestMessage_signals (s : State) (k : Nat) : s.Signals (s.requestMessage k) := by
  unfold State.requestMessage
  dsimp only []
  repeat' split
  all_goals first | exact s.sendMsix_signals _ _ | exact s.signals_refl

theorem State.irqSync_signals (s : State) (k : Nat) : s.Signals (s.irqSync k) := by
  unfold State.irqSync
  dsimp only []
  repeat' split
  all_goals first
    | exact s.signals_refl
    | exact (s.setBlk_signals k _).trans (State.requestMessage_signals _ _)
    | exact s.setBlk_signals k _

theorem State.irqReeval_signals (s : State) (k : Nat) : s.Signals (s.irqReeval k) := by
  unfold State.irqReeval
  dsimp only []
  split
  · exact (s.setBlk_signals k _).trans (State.requestMessage_signals _ _)
  · exact s.setBlk_signals k _

theorem State.cause_signals (s : State) (k n : Nat) :
    (s.setBlk k { s.getBlk k with irqEdge := (s.getBlk k).irqEdge ||| bitW n }).Signals (s.cause k n) :=
  State.irqSync_signals _ k

theorem State.event_signals (s : State) (k ev : Nat) (fn : Option Nat) (n : Nat) : s.Signals (s.event k ev fn n) :=
  (s.count_signals k ev fn n).trans (State.irqSync_signals _ _)

theorem State.Signals.posts {s t : State} (h : s.Signals t) : s.Posts t := by
  obtain ⟨h1, h2, h3, h4⟩ := h
  exact ⟨h1, h2, fun f => by rw [h3 f], h4⟩

theorem State.posts_refl (s : State) : s.Posts s := s.signals_refl.posts

theorem State.Posts.trans {a b c : State} (h : a.Posts b) (g : b.Posts c) : a.Posts c := by
  obtain ⟨h1, h2, h3, l, h4⟩ := h
  obtain ⟨g1, g2, g3, m, g4⟩ := g
  refine ⟨?_, fun k => ?_, fun f => ?_, m ++ l, ?_⟩
  · rw [g1, h1]
  · rw [g2 k, h2 k]
  · rw [g3 f, h3 f]
  · rw [g4, h4, List.append_assoc]

theorem State.markDirty_posts (s : State) (fn addr n : Nat) : s.Posts (s.markDirty fn addr n) := by
  unfold State.markDirty
  split
  · exact s.posts_refl
  · refine ⟨rfl, fun _ => rfl, fun g => ?_, [], rfl⟩
    by_cases h : g = fn
    · subst h; simp
    · simp [State.getFn_setFn_other s _ h]

theorem State.hostWrite_posts (s : State) (fn addr : Nat) (bs : List Byte) : s.Posts (s.hostWrite fn addr bs) := by
  unfold State.hostWrite
  split
  · exact s.posts_refl
  · exact (s.markDirty_posts fn addr _).trans (State.emit_signals _ _).posts

theorem State.writeHead_posts (s : State) (fn : Nat) (q : Queue) : s.Posts (s.writeHead fn q) :=
  (s.hostWrite_posts fn _ _).trans (State.event_signals _ _ _ _ _).posts

end Sys2Proof.Machine
end

