-- ==== Sys2Proof/Laws/Pvu.lean ====
section
/-! SUPPORT. What the PVU's operations change: registers, tags and scorch marks by destination (R192, R208, R231), and what an
executed instruction leaves of the state (R244 to R246). -/

namespace Sys2Proof.Machine

/-- Both halves of a frame. -/
def Pvu.Chg (d : List Reg) (store ku flow : Bool) (p q : Pvu) : Prop := p.Only d q ∧ p.Rest store ku flow q

theorem Pvu.chg_refl (d : List Reg) (st ku fl : Bool) (p : Pvu) : p.Chg d st ku fl p := by
  refine ⟨⟨fun _ _ => ⟨rfl, rfl, rfl⟩, fun _ _ => ⟨rfl, rfl, rfl⟩, fun _ _ => ⟨rfl, rfl, rfl⟩, fun _ _ => ⟨rfl, rfl⟩,
    fun _ _ => rfl, fun _ => ⟨rfl, rfl, rfl, rfl, rfl⟩⟩, ?_⟩
  cases st <;> cases ku <;> cases fl <;> rfl

theorem Pvu.Only.trans {d : List Reg} {p q r : Pvu} (h : p.Only d q) (g : q.Only d r) : p.Only d r := by
  obtain ⟨h1, h2, h3, h4, h5, h6⟩ := h
  obtain ⟨g1, g2, g3, g4, g5, g6⟩ := g
  refine ⟨fun k n => ?_, fun k n => ?_, fun k n => ?_, fun k n => ?_, fun k n => ?_, fun n => ?_⟩
  · rw [(g1 k n).1, (g1 k n).2.1, (g1 k n).2.2]; exact h1 k n
  · rw [(g2 k n).1, (g2 k n).2.1, (g2 k n).2.2]; exact h2 k n
  · rw [(g3 k n).1, (g3 k n).2.1, (g3 k n).2.2]; exact h3 k n
  · rw [(g4 k n).1, (g4 k n).2]; exact h4 k n
  · rw [g5 k n]; exact h5 k n
  · obtain ⟨a, b, c, e, f⟩ := g6 n
    rw [a, b, c, e, f]; exact h6 n

theorem Pvu.Rest.trans {st ku fl : Bool} {p q r : Pvu} (h : p.Rest st ku fl q) (g : q.Rest st ku fl r) : p.Rest st ku fl r := by
  unfold Pvu.Rest at *
  rw [g, h]
  cases st <;> cases ku <;> cases fl <;> rfl

theorem Pvu.Chg.trans {d : List Reg} {st ku fl : Bool} {p q r : Pvu} (h : p.Chg d st ku fl q) (g : q.Chg d st ku fl r) :
    p.Chg d st ku fl r := ⟨h.1.trans g.1, h.2.trans g.2⟩

theorem Pvu.Only.mono {d e : List Reg} {p q : Pvu} (h : p.Only d q) (hs : ∀ r ∈ d, r ∈ e) : p.Only e q := by
  obtain ⟨h1, h2, h3, h4, h5, h6⟩ := h
  exact ⟨fun k n => h1 k (fun m => n (hs _ m)), fun k n => h2 k (fun m => n (hs _ m)), fun k n => h3 k (fun m => n (hs _ m)),
    fun k n => h4 k (fun m => n (hs _ m)), fun k n => h5 k (fun m => n (hs _ m)), fun n => h6 (fun m => n (hs _ m))⟩

theorem Pvu.Rest.mono {st ku fl st' ku' fl' : Bool} {p q : Pvu} (h : p.Rest st ku fl q)
    (h1 : st = true → st' = true) (h2 : ku = true → ku' = true) (h3 : fl = true → fl' = true) : p.Rest st' ku' fl' q := by
  unfold Pvu.Rest at *
  rw [h]
  cases st <;> cases ku <;> cases fl <;> cases st' <;> cases ku' <;> cases fl' <;>
    first | rfl | exact absurd (h1 rfl) (by decide) | exact absurd (h2 rfl) (by decide) | exact absurd (h3 rfl) (by decide)

theorem Pvu.chg_foldl {α : Type} {d : List Reg} {st ku fl : Bool} (f : Pvu → α → Pvu) (xs : List α)
    (h : ∀ (q : Pvu), ∀ a ∈ xs, q.Chg d st ku fl (f q a)) (p : Pvu) : p.Chg d st ku fl (xs.foldl f p) := by
  induction xs generalizing p with
  | nil => exact Pvu.chg_refl d st ku fl p
  | cons a xs ih =>
    exact (h p a (List.mem_cons_self ..)).trans (ih (fun q b hb => h q b (List.mem_cons_of_mem _ hb)) (f p a))

section
variable {d : List Reg} {st ku fl : Bool}

/-- A goal about one write: the frame of the fields that it leaves. -/
theorem Pvu.putL_chg (p : Pvu) (n w : Nat) (xs : List (Option Elem)) (h : Reg.l n ∈ d) : p.Chg d st ku fl (p.putL n w xs) := by
  refine ⟨⟨fun k hk => ?_, fun _ _ => ⟨rfl, rfl, rfl⟩, fun _ _ => ⟨rfl, rfl, rfl⟩, fun _ _ => ⟨rfl, rfl⟩,
    fun _ _ => rfl, fun _ => ⟨rfl, rfl, rfl, rfl, rfl⟩⟩, ?_⟩
  · have hne : k ≠ n := fun e => hk (e ▸ h)
    exact ⟨vget_vset_other _ _ _ hne, vget_vset_other _ _ _ hne, rfl⟩
  · cases st <;> cases ku <;> cases fl <;> rfl

theorem Pvu.lset_chg (p : Pvu) (n : Nat) (a : BitVec 8192) (b : BitVec 256) (h : Reg.l n ∈ d) :
    p.Chg d st ku fl { p with l := vset p.l n a, lScorch := vset p.lScorch n b } := by
  refine ⟨⟨fun k hk => ?_, fun _ _ => ⟨rfl, rfl, rfl⟩, fun _ _ => ⟨rfl, rfl, rfl⟩, fun _ _ => ⟨rfl, rfl⟩,
    fun _ _ => rfl, fun _ => ⟨rfl, rfl, rfl, rfl, rfl⟩⟩, ?_⟩
  · have hne : k ≠ n := fun e => hk (e ▸ h)
    exact ⟨vget_vset_other _ _ _ hne, vget_vset_other _ _ _ hne, rfl⟩
  · cases st <;> cases ku <;> cases fl <;> rfl

theorem Pvu.sset_chg (p : Pvu) (n : Nat) (a : BitVec 128) (b : BitVec 4) (h : Reg.s n ∈ d) :
    p.Chg d st ku fl { p with s := vset p.s n a, sScorch := vset p.sScorch n b } := by
  refine ⟨⟨fun _ _ => ⟨rfl, rfl, rfl⟩, fun k hk => ?_, fun _ _ => ⟨rfl, rfl, rfl⟩, fun _ _ => ⟨rfl, rfl⟩,
    fun _ _ => rfl, fun _ => ⟨rfl, rfl, rfl, rfl, rfl⟩⟩, ?_⟩
  · have hne : k ≠ n := fun e => hk (e ▸ h)
    exact ⟨vget_vset_other _ _ _ hne, vget_vset_other _ _ _ hne, rfl⟩
  · cases st <;> cases ku <;> cases fl <;> rfl

theorem Pvu.putS_chg (p : Pvu) (n w : Nat) (xs : List (Option Elem)) (h : Reg.s n ∈ d) : p.Chg d st ku fl (p.putS n w xs) :=
  p.sset_chg n _ _ h

theorem Pvu.putX_chg (p : Pvu) (n : Nat) (v : Elem) (h : Reg.x n ∈ d) : p.Chg d st ku fl (p.putX n v) := by
  unfold Pvu.putX
  split
  · exact Pvu.chg_refl ..
  · refine ⟨⟨fun _ _ => ⟨rfl, rfl, rfl⟩, fun _ _ => ⟨rfl, rfl, rfl⟩, fun k hk => ?_, fun _ _ => ⟨rfl, rfl⟩,
      fun _ _ => rfl, fun _ => ⟨rfl, rfl, rfl, rfl, rfl⟩⟩, ?_⟩
    · have hne : k ≠ n := fun e => hk (e ▸ h)
      refine ⟨vget_vset_other _ _ _ hne, ?_, rfl⟩
      dsimp only []
      have hb : (BitVec.ofNat 32 (2 ^ n)).getLsbD k = false := by
        rw [BitVec.getLsbD_ofNat, Nat.testBit_two_pow_of_ne (Ne.symm hne), Bool.and_false]
      split <;> simp only [BitVec.getLsbD_or, BitVec.getLsbD_and, BitVec.getLsbD_not, hb]
      · simp
      · by_cases hk32 : k < 32
        · simp [hk32]
        · simp [BitVec.getLsbD_of_ge, Nat.le_of_not_lt hk32]
    · cases st <;> cases ku <;> cases fl <;> rfl

theorem Pvu.putP_chg (p : Pvu) (n : Nat) (xs : List Elem) (h : Reg.p n ∈ d) : p.Chg d st ku fl (p.putP n xs) := by
  unfold Pvu.putP
  split
  · exact Pvu.chg_refl ..
  · refine ⟨⟨fun _ _ => ⟨rfl, rfl, rfl⟩, fun _ _ => ⟨rfl, rfl, rfl⟩, fun _ _ => ⟨rfl, rfl, rfl⟩, fun k hk => ?_,
      fun _ _ => rfl, fun _ => ⟨rfl, rfl, rfl, rfl, rfl⟩⟩, ?_⟩
    · have hne : k ≠ n := fun e => hk (e ▸ h)
      exact ⟨vget_vset_other _ _ _ hne, vget_vset_other _ _ _ hne⟩
    · cases st <;> cases ku <;> cases fl <;> rfl

theorem Pvu.setTag_chg (p : Pvu) (r : Reg) (t : ShareTag) (h : r ∈ d) : p.Chg d st ku fl (p.setTag r t) := by
  unfold Pvu.setTag
  split
  · refine ⟨⟨fun k hk => ?_, fun _ _ => ⟨rfl, rfl, rfl⟩, fun _ _ => ⟨rfl, rfl, rfl⟩, fun _ _ => ⟨rfl, rfl⟩,
      fun _ _ => rfl, fun _ => ⟨rfl, rfl, rfl, rfl, rfl⟩⟩, ?_⟩
    · exact ⟨rfl, rfl, vget_vset_other _ _ _ (fun e => hk (e ▸ h))⟩
    · cases st <;> cases ku <;> cases fl <;> rfl
  · refine ⟨⟨fun _ _ => ⟨rfl, rfl, rfl⟩, fun k hk => ?_, fun _ _ => ⟨rfl, rfl, rfl⟩, fun _ _ => ⟨rfl, rfl⟩,
      fun _ _ => rfl, fun _ => ⟨rfl, rfl, rfl, rfl, rfl⟩⟩, ?_⟩
    · exact ⟨rfl, rfl, vget_vset_other _ _ _ (fun e => hk (e ▸ h))⟩
    · cases st <;> cases ku <;> cases fl <;> rfl
  · split
    · exact Pvu.chg_refl ..
    · refine ⟨⟨fun _ _ => ⟨rfl, rfl, rfl⟩, fun _ _ => ⟨rfl, rfl, rfl⟩, fun k hk => ?_, fun _ _ => ⟨rfl, rfl⟩,
        fun _ _ => rfl, fun _ => ⟨rfl, rfl, rfl, rfl, rfl⟩⟩, ?_⟩
      · exact ⟨rfl, rfl, vget_vset_other _ _ _ (fun e => hk (e ▸ h))⟩
      · cases st <;> cases ku <;> cases fl <;> rfl
  · exact Pvu.chg_refl ..

theorem Pvu.setReady_chg (p : Pvu) (t : Nat) (r : Reg) : p.Chg d st ku fl (p.setReady t r) := by
  unfold Pvu.setReady
  split
  case h_3 =>
    split
    · exact Pvu.chg_refl ..
    · refine ⟨⟨fun _ _ => ⟨rfl, rfl, rfl⟩, fun _ _ => ⟨rfl, rfl, rfl⟩, fun _ _ => ⟨rfl, rfl, rfl⟩, fun _ _ => ⟨rfl, rfl⟩,
        fun _ _ => rfl, fun _ => ⟨rfl, rfl, rfl, rfl, rfl⟩⟩, ?_⟩
      cases st <;> cases ku <;> cases fl <;> rfl
  case h_4 =>
    split
    · exact Pvu.chg_refl ..
    · refine ⟨⟨fun _ _ => ⟨rfl, rfl, rfl⟩, fun _ _ => ⟨rfl, rfl, rfl⟩, fun _ _ => ⟨rfl, rfl, rfl⟩, fun _ _ => ⟨rfl, rfl⟩,
        fun _ _ => rfl, fun _ => ⟨rfl, rfl, rfl, rfl, rfl⟩⟩, ?_⟩
      cases st <;> cases ku <;> cases fl <;> rfl
  all_goals
    refine ⟨⟨fun _ _ => ⟨rfl, rfl, rfl⟩, fun _ _ => ⟨rfl, rfl, rfl⟩, fun _ _ => ⟨rfl, rfl, rfl⟩, fun _ _ => ⟨rfl, rfl⟩,
      fun _ _ => rfl, fun _ => ⟨rfl, rfl, rfl, rfl, rfl⟩⟩, ?_⟩
    cases st <;> cases ku <;> cases fl <;> rfl

theorem Pvu.setStat_chg (p : Pvu) (n : Nat) (a b c k : Bool) (h : Reg.stat ∈ d) :
    p.Chg d st ku fl { p with ffcount := n, flagEq := a, flagLtu := b, flagLt := c, flagScorch := k } := by
  refine ⟨⟨fun _ _ => ⟨rfl, rfl, rfl⟩, fun _ _ => ⟨rfl, rfl, rfl⟩, fun _ _ => ⟨rfl, rfl, rfl⟩, fun _ _ => ⟨rfl, rfl⟩,
    fun _ _ => rfl, fun hn => absurd h hn⟩, ?_⟩
  cases st <;> cases ku <;> cases fl <;> rfl

theorem Pvu.setM_chg (p : Pvu) (n : Nat) (c : ModCtx) (h : Reg.m n ∈ d) : p.Chg d st ku fl { p with m := vset p.m n c } := by
  refine ⟨⟨fun _ _ => ⟨rfl, rfl, rfl⟩, fun _ _ => ⟨rfl, rfl, rfl⟩, fun _ _ => ⟨rfl, rfl, rfl⟩, fun _ _ => ⟨rfl, rfl⟩,
    fun k hk => vget_vset_other _ _ _ (fun e => hk (e ▸ h)), fun _ => ⟨rfl, rfl, rfl, rfl, rfl⟩⟩, ?_⟩
  cases st <;> cases ku <;> cases fl <;> rfl

theorem Pvu.setRet_chg (p : Pvu) (r : List Nat) : p.Chg d st ku true { p with retStack := r } := by
  refine ⟨⟨fun _ _ => ⟨rfl, rfl, rfl⟩, fun _ _ => ⟨rfl, rfl, rfl⟩, fun _ _ => ⟨rfl, rfl, rfl⟩, fun _ _ => ⟨rfl, rfl⟩,
    fun _ _ => rfl, fun _ => ⟨rfl, rfl, rfl, rfl, rfl⟩⟩, ?_⟩
  cases st <;> cases ku <;> rfl

theorem Pvu.setKu_chg (p : Pvu) (k : Vector KuState 2) (m : Nat) : p.Chg d st true fl { p with ku := k, mrgUsed := m } := by
  refine ⟨⟨fun _ _ => ⟨rfl, rfl, rfl⟩, fun _ _ => ⟨rfl, rfl, rfl⟩, fun _ _ => ⟨rfl, rfl, rfl⟩, fun _ _ => ⟨rfl, rfl⟩,
    fun _ _ => rfl, fun _ => ⟨rfl, rfl, rfl, rfl, rfl⟩⟩, ?_⟩
  cases st <;> cases fl <;> rfl

theorem Pvu.setMrg_chg (p : Pvu) (m : Nat) : p.Chg d st ku fl { p with mrgUsed := m } := by
  refine ⟨⟨fun _ _ => ⟨rfl, rfl, rfl⟩, fun _ _ => ⟨rfl, rfl, rfl⟩, fun _ _ => ⟨rfl, rfl, rfl⟩, fun _ _ => ⟨rfl, rfl⟩,
    fun _ _ => rfl, fun _ => ⟨rfl, rfl, rfl, rfl, rfl⟩⟩, ?_⟩
  cases st <;> cases ku <;> cases fl <;> rfl

theorem Pvu.setLs_chg (p : Pvu) (a : List Host.Cell) (b : KV ShareTag) (c : KV Bool) :
    p.Chg d true ku fl { p with ls := a, lsTag := b, lsScorch := c } := by
  refine ⟨⟨fun _ _ => ⟨rfl, rfl, rfl⟩, fun _ _ => ⟨rfl, rfl, rfl⟩, fun _ _ => ⟨rfl, rfl, rfl⟩, fun _ _ => ⟨rfl, rfl⟩,
    fun _ _ => rfl, fun _ => ⟨rfl, rfl, rfl, rfl, rfl⟩⟩, ?_⟩
  cases ku <;> cases fl <;> rfl

/-- The fields of the sequencer: program counter, timing, counters and phase. -/
theorem Pvu.setSeq_chg (p : Pvu) (pc cyc ld ra sm : Nat) (c : Vector Nat 15) (ph : PvuPhase) (se : SegEnd) :
    p.Chg d st ku fl { p with pc := pc, cyc := cyc, lastDone := ld, resumeAt := ra, segMode := sm, cnt := c, phase := ph, segEnd := se } := by
  refine ⟨⟨fun _ _ => ⟨rfl, rfl, rfl⟩, fun _ _ => ⟨rfl, rfl, rfl⟩, fun _ _ => ⟨rfl, rfl, rfl⟩, fun _ _ => ⟨rfl, rfl⟩,
    fun _ _ => rfl, fun _ => ⟨rfl, rfl, rfl, rfl, rfl⟩⟩, ?_⟩
  cases st <;> cases ku <;> cases fl <;> rfl

end

theorem Pvu.putActive_chg {d : List Reg} {st ku fl : Bool} (p : Pvu) (pg n w : Nat) (xs : List Elem) (h : Reg.l n ∈ d) :
    p.Chg d st ku fl (p.putActive pg n w xs) := p.putL_chg n w _ h

/-- No function samples instructions. -/
def noSampling (s : State) : Prop := ∀ f ∈ s.funcs, f.2.sampling = none

theorem KV.mem_set {α : Type} (m : KV α) (k : Nat) (a : α) (x : Nat × α) (h : x ∈ KV.set m k a) : x = (k, a) ∨ x ∈ m := by
  induction m with
  | nil => simp [KV.set] at h; exact .inl h
  | cons y m ih =>
    obtain ⟨j, b⟩ := y
    simp only [KV.set] at h
    split at h
    · simpa using h
    · split at h
      · rcases List.mem_cons.1 h with h | h
        · exact .inl h
        · exact .inr (List.mem_cons_of_mem _ h)
      · rcases List.mem_cons.1 h with h | h
        · exact .inr (h ▸ List.mem_cons_self ..)
        · rcases ih h with h | h
          · exact .inl h
          · exact .inr (List.mem_cons_of_mem _ h)

theorem KV.get?_mem {α : Type} (m : KV α) (k : Nat) (a : α) (h : KV.get? m k = some a) : ∃ j, (j, a) ∈ m := by
  induction m with
  | nil => simp [KV.get?] at h
  | cons y m ih =>
    obtain ⟨j, b⟩ := y
    simp only [KV.get?] at h
    split at h
    · cases h; exact ⟨j, List.mem_cons_self ..⟩
    · obtain ⟨j', hj⟩ := ih h; exact ⟨j', List.mem_cons_of_mem _ hj⟩

theorem noSampling_getFn {s : State} (h : noSampling s) (f : Nat) : (s.getFn f).sampling = none := by
  unfold State.getFn KV.getD
  cases e : KV.get? s.funcs f with
  | none => rfl
  | some a => obtain ⟨j, hj⟩ := KV.get?_mem _ _ _ e; exact h _ hj

theorem noSampling_setFn {s : State} (h : noSampling s) (f : Nat) (l : List Nat) :
    noSampling (s.setFn f { s.getFn f with pendingVec := l }) := by
  intro x hx
  rcases KV.mem_set _ _ _ _ hx with e | e
  · rw [e]; exact noSampling_getFn h f
  · exact h x e

theorem noSampling_funcs {s t : State} (e : t.funcs = s.funcs) (h : noSampling s) : noSampling t := by
  unfold noSampling; rw [e]; exact h

theorem noSampling_count {s : State} (h : noSampling s) (k ev : Nat) (fn : Option Nat) (n : Nat) : noSampling (s.count k ev fn n) := by
  refine noSampling_funcs ?_ h
  unfold State.count
  split <;> rfl

theorem noSampling_sendMsix {s : State} (h : noSampling s) (fn vec : Nat) : noSampling (s.sendMsix fn vec) := by
  unfold State.sendMsix
  dsimp only []
  split
  · exact noSampling_setFn h _ _
  · exact noSampling_count (s := s.emit _) h _ _ _ _

theorem noSampling_requestMessage {s : State} (h : noSampling s) (k : Nat) : noSampling (s.requestMessage k) := by
  unfold State.requestMessage
  dsimp only []
  repeat' split
  all_goals first | exact noSampling_sendMsix h _ _ | exact h

theorem noSampling_irqSync {s : State} (h : noSampling s) (k : Nat) : noSampling (s.irqSync k) := by
  unfold State.irqSync
  dsimp only []
  repeat' split
  all_goals first
    | exact h
    | exact noSampling_requestMessage (s := s.setBlk k _) h k

theorem noSampling_event {s : State} (h : noSampling s) (k ev : Nat) (fn : Option Nat) (n : Nat) : noSampling (s.event k ev fn n) :=
  noSampling_irqSync (noSampling_count h k ev fn n) _

theorem sampleAll_none {s : State} (h : noSampling s) (n : Nat) (p : Pvu) (op : PvuOp) (lat elem : Nat) (exc : Bool) :
    s.sampleAll n p op lat elem exc = s := by
  unfold State.sampleAll
  have : ∀ (l : KV Func) (t : State), (∀ f ∈ l, f.2.sampling = none) →
      l.foldl (fun t f => if f.2.sampling.isSome then t.sampleFor n p op lat elem exc f.1 (t.getFn f.1) else t) t = t := by
    intro l
    induction l with
    | nil => intro t _; rfl
    | cons x l ih =>
      intro t hl
      have h1 : x.2.sampling = none := hl x (List.mem_cons_self ..)
      simp only [List.foldl_cons, h1]
      exact ih t (fun f hf => hl f (List.mem_cons_of_mem _ hf))
  exact this s.funcs s h

theorem mem_dropInjected (m : Mem) (f : Nat × Nat × Bool → Bool) (h : m.injected = []) : ({ m with injected := m.injected.filter f } : Mem) = m := by
  cases m; simp at h; simp [h]

/-- No injection is armed: nothing is met, and the state stays (R572). -/
theorem injectAt_quiet {s : State} (h : s.mem.injArmed = false) (region : Nat) (hit : Nat → Bool) : s.injectAt region hit = (none, s) := by
  unfold State.injectAt
  simp only [h, Bool.false_and, Bool.false_eq_true, if_false]

theorem injectStores_quiet {s : State} (h1 : s.mem.injected = []) (h2 : s.mem.injArmed = false) (n : Nat) (ws : List Nat) :
    s.injectStores n ws = s := by
  have e : s.dropInjected (fun x => decide (x.1 = n) && ws.contains x.2.1) = s :=
    congrArg (fun m => ({ s with mem := m } : State)) (mem_dropInjected s.mem _ h1)
  unfold State.injectStores
  rw [e, injectAt_quiet h2]

theorem modJob_mem (s : State) (j : Nat) (f : Job → Job) : (s.modJob j f).mem = s.mem := by
  unfold State.modJob; split <;> rfl

theorem noSampling_modJob {s : State} (h : noSampling s) (j : Nat) (f : Job → Job) : noSampling (s.modJob j f) := by
  refine noSampling_funcs ?_ h
  unfold State.modJob; split <;> rfl

/-- A dummy instruction before an instruction takes cycles and random words, and nothing else (R475). -/
theorem Pvu.interleave_chg {d : List Reg} {st ku fl : Bool} (p : Pvu) (eng : Nat) : p.Chg d st ku fl (p.interleave eng) := by
  unfold Pvu.interleave
  dsimp only []
  repeat' split
  all_goals
    refine ⟨⟨fun _ _ => ⟨rfl, rfl, rfl⟩, fun _ _ => ⟨rfl, rfl, rfl⟩, fun _ _ => ⟨rfl, rfl, rfl⟩, fun _ _ => ⟨rfl, rfl⟩,
      fun _ _ => rfl, fun _ => ⟨rfl, rfl, rfl, rfl, rfl⟩⟩, ?_⟩
    cases st <;> cases ku <;> cases fl <;> rfl

/-- What every field but four of a PVU is after a dummy instruction (R475). -/
theorem Pvu.interleave_eq (p : Pvu) (eng : Nat) : p.interleave eng =
    { p with cyc := (p.interleave eng).cyc, mrgUsed := (p.interleave eng).mrgUsed, dummyCnt := (p.interleave eng).dummyCnt,
             dummyAt := (p.interleave eng).dummyAt } := by
  unfold Pvu.interleave
  dsimp only []
  repeat' split
  all_goals rfl

/-- The PVU that an executed instruction leaves. -/
def pvuAfter (start : Nat) (op : PvuOp) (i : PvuWord) (p : Pvu) (r : PvuRes) (m : Option MicroRun) (pc : Nat) : Pvu :=
  let x := patchedTime m (op.time p i)
  let q0 := op.retag p r.p i
  let q1 := (op.dst p i).foldl (fun q d => q.setReady (start + x.2 + r.wait) d) q0
  let q2 := { (q1.counted r).afterRoutine m with
    pc := pc, resumeAt := r.resumeAt, cyc := start + x.1 + r.wait + r.extra, lastDone := max p.lastDone (start + x.2 + r.wait) }
  if r.fin = .none then q2 else { q2 with phase := .dummy, segMode := 0, segEnd := r.fin }

/-- What an executed instruction leaves: its PVU, the events it counts, and its job where it ends the last segment (R246). -/
theorem pvuCommit_eq {s : State} (h1 : s.mem.injected = []) (h2 : s.mem.injArmed = false) (h3 : noSampling s) (n start : Nat) (op : PvuOp)
    (i : PvuWord) (p : Pvu) (r : PvuRes) (m : Option MicroRun) (pc : Nat) :
    ∃ u, (s.setPvu n (pvuAfter start op i p r m pc)).Signals u ∧ noSampling u ∧ u.mem = s.mem ∧
      s.pvuCommit n start op i p r m pc = (match r.fin, p.jobId with
        | .ended last, some id => if last || p.lastSeg then u.modJob id (fun j => { j with ended := true }) else u
        | _, _ => u) := by
  let s1 := (((s.setPvu n (pvuAfter start op i p r m pc)).event (0x10 + n) 6 (some (s.segFn p)) r.perms).event (0x10 + n) 7
    (some (s.segFn p)) r.mcBlocks)
  let u := if p.vendor then s1 else s1.event (0x10 + n) 8 (some (s.segFn p)) 1
  have hs1 : (s.setPvu n (pvuAfter start op i p r m pc)).Signals s1 := (State.event_signals ..).trans (State.event_signals ..)
  have hn1 : noSampling s1 := noSampling_event (noSampling_event (s := s.setPvu n _) h3 _ _ _ _) _ _ _ _
  have hu : (s.setPvu n (pvuAfter start op i p r m pc)).Signals u := by
    dsimp only [u]; split
    · exact hs1
    · exact hs1.trans (State.event_signals ..)
  have hn : noSampling u := by
    dsimp only [u]; split
    · exact hn1
    · exact noSampling_event hn1 _ _ _ _
  have hm : u.mem = s.mem := by rw [hu.1]; rfl
  refine ⟨u, hu, hn, hm, ?_⟩
  have e : u.injectStores n r.writes = u := injectStores_quiet (hm ▸ h1) (hm ▸ h2) _ _
  show (match r.fin, p.jobId with
    | .ended last, some id => if last || p.lastSeg then
        (u.injectStores n r.writes).modJob id (fun j => { j with ended := true }) else u.injectStores n r.writes
    | _, _ => u.injectStores n r.writes) = _
  rw [e]

/-- An instruction that its PVU accepts and that raises no exception commits. -/
theorem pvuRun_commit {s : State} {op : PvuOp} {i : PvuWord} {pc : Nat} (h : s.pvuAccepts op i) (he : (s.pvuRes op i).exc = none)
    (hp : nextPc (s.pvuReady i.pvu) (s.pvuRes op i) = some pc) :
    pvuExec op i s = .next (s.pvuCommit i.pvu (s.pvuStart op i) op i (s.pvuReady i.pvu) (s.pvuRes op i) (s.pvuRoutine op i) pc) := by
  obtain ⟨⟨⟨h1, h2, h3, h4, h4'⟩, ⟨h5, h6, h7⟩⟩, h8, h9, h10, h11⟩ := h
  have e0 : s.scorchInjected i.pvu (s.getPvu i.pvu) = s.getPvu i.pvu := by
    unfold State.scorchInjected; rw [h5]; rfl
  unfold pvuExec
  simp only [h1, h3, h4, h4', Bool.not_true, Nat.not_le.2 h2, decide_false, Bool.or_self, Bool.false_eq_true, if_false]
  congr 1
  unfold State.pvuRun
  simp only [e0]
  have hr : op.body (s.pvuStart op i) i.pvu (s.pvuReady i.pvu) i = s.pvuRes op i := rfl
  have hst : op.start (s.pvuReady i.pvu) i = s.pvuStart op i := rfl
  have hq : (s.getPvu i.pvu).interleave i.pvu = s.pvuReady i.pvu := rfl
  have hm : (s.pvuReady i.pvu).bob.routine false (s.pvuReady i.pvu).microEnv (pvuEntry op.cls op.func) (s.pvuReady i.pvu).budget
      = s.pvuRoutine op i := rfl
  rw [he] at h11
  simp only [hq, hst, hm, hr, h9, h10, h11, if_neg (Nat.not_le.2 h8), hp, Bool.false_eq_true, if_false]
  obtain ⟨u, hu, hn, hm', e⟩ := pvuCommit_eq (s := s) h5 h6 h7 i.pvu (s.pvuStart op i) op i (s.pvuReady i.pvu) (s.pvuRes op i) (s.pvuRoutine op i) pc
  have hns : noSampling (s.pvuCommit i.pvu (s.pvuStart op i) op i (s.pvuReady i.pvu) (s.pvuRes op i) (s.pvuRoutine op i) pc) := by
    rw [e]; split
    · split
      · exact noSampling_modJob hn _ _
      · exact hn
    · exact hn
  have hmm : (s.pvuCommit i.pvu (s.pvuStart op i) op i (s.pvuReady i.pvu) (s.pvuRes op i) (s.pvuRoutine op i) pc).mem = s.mem := by
    rw [e]; split
    · split
      · rw [modJob_mem]; exact hm'
      · exact hm'
    · exact hm'
  rw [sampleAll_none hns]
  unfold State.readInjected
  rw [hmm, h5]
  rfl

end Sys2Proof.Machine
end

