-- ==== Sys2Proof/Laws/Lanes.lean ====
section
/-! SUPPORT. Reading the elements of L and S registers after some of them have been written (R193 to R195). -/

namespace Sys2Proof.Machine

theorem splitE_length (b c v : Nat) : (splitE b c v).length = c := by
  induction c generalizing v with
  | zero => rfl
  | succ c ih => simp [splitE, ih]

theorem joinE_lt (b : Nat) (xs : List Nat) : joinE b xs < 2 ^ (b * xs.length) := by
  induction xs with
  | nil => simp [joinE]
  | cons x xs ih =>
    simp only [joinE, List.length_cons, Nat.mul_add, Nat.mul_one, Nat.pow_add]
    have h1 : x % 2 ^ b < 2 ^ b := Nat.mod_lt _ (Nat.two_pow_pos b)
    calc x % 2 ^ b + 2 ^ b * joinE b xs < 2 ^ b + 2 ^ b * joinE b xs := by omega
      _ = 2 ^ b * (joinE b xs + 1) := by rw [Nat.mul_add, Nat.mul_one, Nat.add_comm]
      _ ≤ 2 ^ b * 2 ^ (b * xs.length) := Nat.mul_le_mul_left _ ih
      _ = 2 ^ (b * xs.length) * 2 ^ b := Nat.mul_comm _ _

theorem splitE_joinE (b : Nat) (xs : List Nat) : splitE b xs.length (joinE b xs) = xs.map (· % 2 ^ b) := by
  induction xs with
  | nil => rfl
  | cons x xs ih =>
    have hp := Nat.two_pow_pos b
    simp only [joinE, List.length_cons, splitE, List.map_cons]
    rw [Nat.add_mul_mod_self_left, Nat.mod_mod, Nat.add_mul_div_left _ _ hp, Nat.div_eq_of_lt (Nat.mod_lt _ hp), Nat.zero_add, ih]

theorem splitE_lt (b c v : Nat) : ∀ x ∈ splitE b c v, x < 2 ^ b := by
  induction c generalizing v with
  | zero => intro x hx; cases hx
  | succ c ih =>
    intro x hx
    rcases List.mem_cons.1 hx with h | h
    · rw [h]; exact Nat.mod_lt _ (Nat.two_pow_pos b)
    · exact ih _ x h

theorem overlay_length {α : Type} (xs : List (Option α)) (old : List α) : (overlay xs old).length = old.length := by
  induction old generalizing xs with
  | nil => cases xs <;> rfl
  | cons o os ih => cases xs with
    | nil => rfl
    | cons x xs => simp [overlay, ih]

theorem overlay_get? {α : Type} (xs : List (Option α)) (old : List α) (e : Nat) :
    (overlay xs old)[e]? = match xs[e]? with | some (some v) => (if e < old.length then some v else none) | _ => old[e]? := by
  induction old generalizing xs e with
  | nil => cases xs <;> simp [overlay] <;> split <;> rfl
  | cons o os ih => cases xs with
    | nil => simp [overlay]
    | cons x xs =>
      cases e with
      | zero => cases x <;> simp [overlay]
      | succ e =>
        simp only [overlay, List.getElem?_cons_succ, ih, List.length_cons, Nat.add_lt_add_iff_right]

theorem twice_length {α : Type} (xs : List α) : (twice xs).length = 2 * xs.length := by
  induction xs with
  | nil => rfl
  | cons a xs ih =>
    have : twice (a :: xs) = a :: a :: twice xs := rfl
    rw [this]; simp [ih]; omega

theorem pairOr_length : ∀ xs : List Bool, (pairOr xs).length = xs.length / 2
  | [] => rfl
  | [_] => by simp [pairOr]
  | a :: b :: r => by simp only [pairOr, List.length_cons, pairOr_length r]; omega

theorem bitsOf_length (n v : Nat) : (bitsOf n v).length = n := by
  induction n generalizing v with
  | zero => rfl
  | succ n ih => simp [bitsOf, ih]

theorem elemMarks_length (w : Nat) (hw : w ≤ 2) (lanes : Nat) (h : lanes % 2 = 0) (k : Nat) :
    (elemMarks w (bitsOf lanes k)).length = lanes * 2 / 2 ^ w := by
  unfold elemMarks
  have : w = 0 ∨ w = 1 ∨ w = 2 := by omega
  rcases this with rfl | rfl | rfl
  · simp [twice_length, bitsOf_length]; omega
  · simp [bitsOf_length]
  · simp [pairOr_length, bitsOf_length]; omega

/-- The value of element `e` of a list of elements. -/
theorem readV_val (lanes w v k e : Nat) (hw : w ≤ 2) (hl : lanes % 2 = 0) :
    ((readV lanes w v k).getD e (0, false)).1 = (splitE (wBits w) (lanes * 2 / 2 ^ w) v).getD e 0 := by
  unfold readV
  have hlen : (elemMarks w (bitsOf lanes k)).length = (splitE (wBits w) (lanes * 2 / 2 ^ w) v).length := by
    rw [elemMarks_length w hw lanes hl, splitE_length]
  rw [List.getD_eq_getElem?_getD, List.getD_eq_getElem?_getD]
  by_cases h : e < (splitE (wBits w) (lanes * 2 / 2 ^ w) v).length
  · have h2 : e < (elemMarks w (bitsOf lanes k)).length := hlen ▸ h
    rw [List.getElem?_eq_getElem (by simp only [List.length_zip]; omega), List.getElem?_eq_getElem h]
    simp
  · rw [List.getElem?_eq_none (by simp only [List.length_zip]; omega), List.getElem?_eq_none (by omega)]
    rfl

theorem readV_length (lanes w v k : Nat) (hw : w ≤ 2) (hl : lanes % 2 = 0) : (readV lanes w v k).length = lanes * 2 / 2 ^ w := by
  unfold readV
  rw [List.length_zip, elemMarks_length w hw lanes hl, splitE_length, Nat.min_self]

/-- The elements of the number that a write leaves. -/
theorem writeV_split (lanes w v k : Nat) (xs : List (Option Elem)) :
    splitE (wBits w) (lanes * 2 / 2 ^ w) (writeV lanes w v k xs).1
      = (overlay (xs.map (fun x => x.map (·.1))) (splitE (wBits w) (lanes * 2 / 2 ^ w) v)).map (· % 2 ^ wBits w) := by
  unfold writeV
  have h := splitE_joinE (wBits w) (overlay (xs.map (fun x => x.map (·.1))) (splitE (wBits w) (lanes * 2 / 2 ^ w) v))
  rw [overlay_length, splitE_length] at h
  exact h

theorem writeV_lt (lanes w v k : Nat) (xs : List (Option Elem)) :
    (writeV lanes w v k xs).1 < 2 ^ (wBits w * (lanes * 2 / 2 ^ w)) := by
  unfold writeV
  have h := joinE_lt (wBits w) (overlay (xs.map (fun x => x.map (·.1))) (splitE (wBits w) (lanes * 2 / 2 ^ w) v))
  rwa [overlay_length, splitE_length] at h

/-- An element after a write: the new value, reduced to the width, or the old one. -/
theorem writeV_val (lanes w v k k' e : Nat) (xs : List (Option Elem)) (hw : w ≤ 2) (hl : lanes % 2 = 0)
    (he : e < lanes * 2 / 2 ^ w) :
    ((readV lanes w (writeV lanes w v k xs).1 k').getD e (0, false)).1
      = match xs[e]? with
        | some (some x) => x.1 % 2 ^ wBits w
        | _ => ((readV lanes w v k).getD e (0, false)).1 := by
  rw [readV_val _ _ _ _ _ hw hl, writeV_split, readV_val _ _ _ _ _ hw hl]
  rw [List.getD_eq_getElem?_getD, List.getD_eq_getElem?_getD, List.getElem?_map, overlay_get?, List.getElem?_map, splitE_length]
  have hlt : ∀ y, (splitE (wBits w) (lanes * 2 / 2 ^ w) v)[e]? = some y → y % 2 ^ wBits w = y :=
    fun y hy => Nat.mod_eq_of_lt (splitE_lt _ _ _ y (List.mem_of_getElem? hy))
  have hsome : ∃ y, (splitE (wBits w) (lanes * 2 / 2 ^ w) v)[e]? = some y :=
    ⟨_, List.getElem?_eq_getElem (by rw [splitE_length]; exact he)⟩
  obtain ⟨y, hy⟩ := hsome
  cases h : xs[e]? with
  | none => simp [hy, hlt y hy]
  | some o => cases o with
    | none => simp [hy, hlt y hy]
    | some x => simp [he]

/-- The value of element `e` of an L register, of an S register. -/
theorem Pvu.putL_val (p : Pvu) (n w e : Nat) (xs : List (Option Elem)) (hn : n < 32) (hw : w ≤ 2) (he : e < 512 / 2 ^ w) :
    (((p.putL n w xs).getL n w).getD e (0, false)).1 = match xs[e]? with
      | some (some x) => x.1 % 2 ^ wBits w
      | _ => ((p.getL n w).getD e (0, false)).1 := by
  have hb : (writeV 256 w (vget p.l n 0).toNat (vget p.lScorch n 0).toNat xs).1 < 2 ^ 8192 := by
    have h := writeV_lt 256 w (vget p.l n 0).toNat (vget p.lScorch n 0).toNat xs
    have h2 : wBits w * (256 * 2 / 2 ^ w) = 8192 := by
      have : w = 0 ∨ w = 1 ∨ w = 2 := by omega
      rcases this with rfl | rfl | rfl <;> rfl
    rwa [h2] at h
  have e1 : (p.putL n w xs).getL n w = readV 256 w (writeV 256 w (vget p.l n 0).toNat (vget p.lScorch n 0).toNat xs).1
      (vget (p.putL n w xs).lScorch n 0).toNat := by
    unfold Pvu.getL
    congr 1
    show (vget (vset p.l n _) n 0).toNat = _
    rw [vget_vset_self _ _ _ _ hn, BitVec.toNat_ofNat, Nat.mod_eq_of_lt hb]
  rw [e1]
  exact writeV_val 256 w _ _ _ e xs hw rfl he

theorem Pvu.putS_val (p : Pvu) (n w e : Nat) (xs : List (Option Elem)) (hn : n < 32) (hw : w ≤ 2) (he : e < 8 / 2 ^ w) :
    (((p.putS n w xs).getS n w).getD e (0, false)).1 = match xs[e]? with
      | some (some x) => x.1 % 2 ^ wBits w
      | _ => ((p.getS n w).getD e (0, false)).1 := by
  have hb : (writeV 4 w (vget p.s n 0).toNat (vget p.sScorch n 0).toNat xs).1 < 2 ^ 128 := by
    have h := writeV_lt 4 w (vget p.s n 0).toNat (vget p.sScorch n 0).toNat xs
    have h2 : wBits w * (4 * 2 / 2 ^ w) = 128 := by
      have : w = 0 ∨ w = 1 ∨ w = 2 := by omega
      rcases this with rfl | rfl | rfl <;> rfl
    rwa [h2] at h
  have e1 : (p.putS n w xs).getS n w = readV 4 w (writeV 4 w (vget p.s n 0).toNat (vget p.sScorch n 0).toNat xs).1
      (vget (p.putS n w xs).sScorch n 0).toNat := by
    unfold Pvu.getS
    congr 1
    show (vget (vset p.s n _) n 0).toNat = _
    rw [vget_vset_self _ _ _ _ hn, BitVec.toNat_ofNat, Nat.mod_eq_of_lt hb]
  rw [e1]
  exact writeV_val 4 w _ _ _ e xs hw rfl he

theorem Pvu.getL_length (p : Pvu) (n w : Nat) (hw : w ≤ 2) : (p.getL n w).length = 512 / 2 ^ w := readV_length 256 w _ _ hw rfl
theorem Pvu.getS_length (p : Pvu) (n w : Nat) (hw : w ≤ 2) : (p.getS n w).length = 8 / 2 ^ w := readV_length 4 w _ _ hw rfl

theorem evens_length : ∀ xs : List Elem, (evens xs).length = (xs.length + 1) / 2
  | [] => rfl
  | [_] => by simp [evens]
  | _ :: _ :: r => by simp only [evens, List.length_cons, evens_length r]; omega

theorem Pvu.getP_length (p : Pvu) (n : Nat) : (p.getP n).length = 256 := by
  unfold Pvu.getP
  split
  · exact List.length_replicate
  · rw [List.length_zip, List.length_map, bitsOf_length, bitsOf_length]; rfl

theorem Pvu.governing_length (p : Pvu) (pg w : Nat) (hw : w ≤ 2) : (p.governing pg w).length = 512 / 2 ^ w := by
  unfold Pvu.governing
  have : w = 0 ∨ w = 1 ∨ w = 2 := by omega
  rcases this with rfl | rfl | rfl
  · simp [twice_length, Pvu.getP_length]
  · simp [Pvu.getP_length]
  · simp [evens_length, Pvu.getP_length]

/-- The element that a governed write leaves: the new value where the element is active. -/
theorem Pvu.putActive_val (p : Pvu) (pg n w e : Nat) (xs : List Elem) (hn : n < 32) (hw : w ≤ 2) (he : e < 512 / 2 ^ w)
    (hx : xs.length = 512 / 2 ^ w) :
    (((p.putActive pg n w xs).getL n w).getD e (0, false)).1 =
      if (p.actives pg w).getD e false then (xs.getD e (0, false)).1 % 2 ^ wBits w else ((p.getL n w).getD e (0, false)).1 := by
  unfold Pvu.putActive
  rw [Pvu.putL_val _ _ _ _ _ hn hw he]
  have ha : (p.actives pg w).length = 512 / 2 ^ w := by unfold Pvu.actives; rw [List.length_map, p.governing_length pg w hw]
  have e1 : xs.getD e (0, false) = xs[e]'(by rw [hx]; exact he) := by
    rw [List.getD_eq_getElem?_getD, List.getElem?_eq_getElem (by rw [hx]; exact he), Option.getD_some]
  have e2 : (p.actives pg w).getD e false = (p.actives pg w)[e]'(by rw [ha]; exact he) := by
    rw [List.getD_eq_getElem?_getD, List.getElem?_eq_getElem (by rw [ha]; exact he), Option.getD_some]
  rw [List.getElem?_map, List.getElem?_eq_getElem (by rw [List.length_zip]; omega), List.getElem_zip, e1, e2]
  cases (p.actives pg w)[e]'(by rw [ha]; exact he) <;> simp

end Sys2Proof.Machine
end

