-- ==== Sys2Proof/Laws/PvuBody.lean ====
section
/-! SUPPORT. What the body of each PVU instruction changes of its PVU (R192, R208, R248, R258, R260). -/

namespace Sys2Proof.Machine

/-- Membership of a destination in the registers that an instruction may write. -/
theorem PvuOp.dst_writes (op : PvuOp) (p : Pvu) (i : PvuWord) {r : Reg} (h : r ∈ op.dst p i) : r ∈ op.writes p i := by
  unfold PvuOp.writes
  split
  · exact List.mem_append_right _ h
  · exact h

theorem Pvu.chg_ite {d : List Reg} {st ku fl : Bool} {p a b : Pvu} {c : Prop} [Decidable c] (h : p.Chg d st ku fl a)
    (g : p.Chg d st ku fl b) : p.Chg d st ku fl (if c then a else b) := by
  split
  · exact h
  · exact g

theorem group_mem {d k : Nat} {r : Reg} (h : k < d + 1) : r.plus k ∈ groupRegs d r :=
  List.mem_map.2 ⟨k, List.mem_range.2 h, rfl⟩

theorem body_opBc (st n : Nat) (p : Pvu) (i : PvuWord) :
    p.Chg (opBc.writes p i) opBc.stores (decide (opBc.cls = 6) || opBc.streams) opBc.calls (opBc.body st n p i).p := by
  show Pvu.Chg _ _ _ _ p (if branchCond p (rdN i) then ({ p := p, jump := some (p.pc + immS i), extra := 2 } : PvuRes) else { p := p }).p
  split
  · exact Pvu.chg_refl ..
  · exact Pvu.chg_refl ..

theorem body_opLoop (st n : Nat) (p : Pvu) (i : PvuWord) :
    p.Chg (opLoop.writes p i) opLoop.stores (decide (opLoop.cls = 6) || opLoop.streams) opLoop.calls (opLoop.body st n p i).p := by
  have h := Pvu.putX_chg (d := opLoop.writes p i) (st := opLoop.stores) (ku := (decide (opLoop.cls = 6) || opLoop.streams))
    (fl := opLoop.calls) p (raN i) ((p.getX (raN i) + (2 ^ 64 - 1)) % 2 ^ 64, false) (List.Mem.head _)
  dsimp only [opLoop] at h ⊢
  split
  · exact h
  · exact h

theorem body_opCall (st n : Nat) (p : Pvu) (i : PvuWord) :
    p.Chg (opCall.writes p i) opCall.stores (decide (opCall.cls = 6) || opCall.streams) opCall.calls (opCall.body st n p i).p :=
  Pvu.setRet_chg p _

theorem body_opRet (st n : Nat) (p : Pvu) (i : PvuWord) :
    p.Chg (opRet.writes p i) opRet.stores (decide (opRet.cls = 6) || opRet.streams) opRet.calls (opRet.body st n p i).p :=
  Pvu.setRet_chg p _

theorem body_opModset (st n : Nat) (p : Pvu) (i : PvuWord) :
    p.Chg (opModset.writes p i) opModset.stores (decide (opModset.cls = 6) || opModset.streams) opModset.calls
      (opModset.body st n p i).p := by
  have h := fun c => Pvu.setM_chg (d := opModset.writes p i) (st := opModset.stores)
    (ku := (decide (opModset.cls = 6) || opModset.streams)) (fl := opModset.calls) p (rdN i) c (List.Mem.head _)
  dsimp only [opModset] at h ⊢
  split
  · exact h _
  · exact Pvu.chg_refl ..

theorem kloadShare_chg {d : List Reg} {st ku fl : Bool} (i : PvuWord) (p : Pvu) (k : Nat) (h : (kloadReg i).plus k ∈ d) :
    p.Chg d st ku fl (kloadShare i p k) := by
  unfold kloadShare
  dsimp only []
  refine Pvu.Chg.trans ?_ (Pvu.setTag_chg _ _ _ h)
  unfold kloadReg at h
  split
  · rename_i hl
    rw [if_pos hl] at h
    exact Pvu.lset_chg _ _ _ _ h
  · rename_i hl
    rw [if_neg hl] at h
    exact Pvu.sset_chg _ _ _ _ h

theorem body_opKload (st n : Nat) (p : Pvu) (i : PvuWord) :
    p.Chg (opKload.writes p i) opKload.stores (decide (opKload.cls = 6) || opKload.streams) opKload.calls
      (opKload.body st n p i).p := by
  have h : p.Chg (opKload.writes p i) opKload.stores (decide (opKload.cls = 6) || opKload.streams) opKload.calls
      ((List.range (p.order + 1)).foldl (kloadShare i) p) := by
    refine Pvu.chg_foldl _ _ (fun q k hk => kloadShare_chg i q k ?_) p
    exact opKload.dst_writes p i (group_mem (List.mem_range.1 hk))
  dsimp only [opKload] at h ⊢
  split
  · exact Pvu.chg_refl ..
  · exact h

theorem Pvu.setFlags_chg {d : List Reg} {st ku fl : Bool} (p : Pvu) (a b : Nat) (k : Bool) (h : Reg.stat ∈ d) :
    p.Chg d st ku fl (setFlags p a b k) := p.setStat_chg p.ffcount _ _ _ _ h

theorem body_opScmp (st n : Nat) (p : Pvu) (i : PvuWord) :
    p.Chg (opScmp.writes p i) opScmp.stores (decide (opScmp.cls = 6) || opScmp.streams) opScmp.calls (opScmp.body st n p i).p :=
  Pvu.setFlags_chg _ _ _ _ (List.Mem.head _)

theorem body_opScmpi (st n : Nat) (p : Pvu) (i : PvuWord) :
    p.Chg (opScmpi.writes p i) opScmpi.stores (decide (opScmpi.cls = 6) || opScmpi.streams) opScmpi.calls (opScmpi.body st n p i).p :=
  Pvu.setFlags_chg _ _ _ _ (List.Mem.head _)

-- Loads and stores.

/-- A load that has seen a scorched word of the matrix cache (R315). -/
theorem Pvu.seen_chg {d : List Reg} {st ku fl : Bool} (p : Pvu) (sp w : Nat) (as : List Access) : p.Chg d st ku fl (p.seen sp w as) := by
  unfold Pvu.seen
  split
  · refine ⟨⟨fun _ _ => ⟨rfl, rfl, rfl⟩, fun _ _ => ⟨rfl, rfl, rfl⟩, fun _ _ => ⟨rfl, rfl, rfl⟩, fun _ _ => ⟨rfl, rfl⟩,
      fun _ _ => rfl, fun _ => ⟨rfl, rfl, rfl, rfl, rfl⟩⟩, ?_⟩
    cases st <;> cases ku <;> cases fl <;> rfl
  · exact Pvu.chg_refl ..

theorem loadElems_chg {d : List Reg} {st ku fl : Bool} (p : Pvu) (i : PvuWord) (as : List Access) (h : Reg.l (rdN i) ∈ d) :
    p.Chg d st ku fl (loadElems p i as) := by
  unfold loadElems
  dsimp only []
  split
  · exact (p.putL_chg _ _ _ h).trans (Pvu.seen_chg ..)
  · exact ((p.putL_chg _ _ _ h).trans (Pvu.seen_chg ..)).trans (Pvu.setTag_chg _ _ _ h)

theorem Pvu.setFf_chg {d : List Reg} {st ku fl : Bool} (p : Pvu) (n : Nat) (h : Reg.stat ∈ d) :
    p.Chg d st ku fl { p with ffcount := n } := p.setStat_chg n _ _ _ _ h

theorem partialFault_chg {d : List Reg} {st ku fl : Bool} {p q : Pvu} (h : p.Chg d st ku fl q) (as : List Access) (a : Access)
    (c : Nat) (keep : Bool) (rs ws : List Nat) (bl : Nat) : p.Chg d st ku fl (partialFault p q as a c keep rs ws bl).p := by
  unfold partialFault
  dsimp only []
  exact Pvu.chg_ite h (Pvu.chg_refl ..)

theorem loadBody_chg {d : List Reg} {st ku fl : Bool} (f : AccessForm) (ff : Bool) (p : Pvu) (i : PvuWord)
    (h : Reg.l (rdN i) ∈ d) (g : ff = true → Reg.stat ∈ d) : p.Chg d st ku fl (loadBody f ff p i).p := by
  unfold loadBody
  dsimp only []
  split
  · dsimp only []
    split
    · rename_i e; exact (loadElems_chg p i _ h).trans (Pvu.setFf_chg _ _ (g e))
    · exact loadElems_chg p i _ h
  · split
    · rename_i e
      have e' : ff = true := (Bool.and_eq_true_iff.1 e).1
      exact (loadElems_chg p i _ h).trans (Pvu.setFf_chg _ _ (g e'))
    · exact partialFault_chg (loadElems_chg p i _ h) ..

theorem storeBytes_chg {d : List Reg} {ku fl : Bool} (p : Pvu) (bs : List (Nat × Byte × Bool)) :
    p.Chg d true ku fl (storeBytes p bs) := p.setLs_chg _ p.lsTag _

theorem tagBlocks_chg {d : List Reg} {ku fl : Bool} (p : Pvu) (t : ShareTag) (w : Nat) (as : List Access) :
    p.Chg d true ku fl (tagBlocks p t w as) := by
  unfold tagBlocks
  split
  · exact Pvu.chg_refl ..
  · exact p.setLs_chg p.ls _ p.lsScorch

theorem storeElems_chg {d : List Reg} {ku fl : Bool} (p : Pvu) (i : PvuWord) (as : List Access) :
    p.Chg d true ku fl (storeElems p i as) := (storeBytes_chg p _).trans (tagBlocks_chg ..)

theorem storeBody_chg {d : List Reg} {ku fl : Bool} (f : AccessForm) (p : Pvu) (i : PvuWord) :
    p.Chg d true ku fl (storeBody f p i).p := by
  unfold storeBody
  dsimp only []
  split
  · exact storeElems_chg ..
  · exact partialFault_chg (storeElems_chg ..) ..

theorem loadOne_chg {d : List Reg} {st ku fl : Bool} (p : Pvu) (i : PvuWord) (n al : Nat) (dst : Reg) (put : Pvu → Elem → Pvu)
    (hd : dst ∈ d) (h : ∀ v, p.Chg d st ku fl (put p v)) : p.Chg d st ku fl (loadOne p i n al dst put).p := by
  unfold loadOne
  dsimp only []
  split
  · exact Pvu.chg_refl ..
  · dsimp only []
    split
    · exact ((h _).trans (Pvu.seen_chg ..)).trans (Pvu.setTag_chg _ _ _ hd)
    · exact (h _).trans (Pvu.seen_chg ..)

theorem storeOne_chg {d : List Reg} {ku fl : Bool} (p : Pvu) (i : PvuWord) (n al : Nat) (src : Reg)
    (bs : Nat → List (Nat × Byte × Bool)) : p.Chg d true ku fl (storeOne p i n al src bs).p := by
  unfold storeOne
  dsimp only []
  split
  · exact Pvu.chg_refl ..
  · exact (storeBytes_chg p _).trans (tagBlocks_chg ..)

theorem body_opVld (st n : Nat) (p : Pvu) (i : PvuWord) :
    p.Chg (opVld.writes p i) opVld.stores (decide (opVld.cls = 6) || opVld.streams) opVld.calls (opVld.body st n p i).p := loadBody_chg _ _ _ _ (List.Mem.head _) (fun e => by cases e)
theorem body_opVlds (st n : Nat) (p : Pvu) (i : PvuWord) :
    p.Chg (opVlds.writes p i) opVlds.stores (decide (opVlds.cls = 6) || opVlds.streams) opVlds.calls (opVlds.body st n p i).p := loadBody_chg _ _ _ _ (List.Mem.head _) (fun e => by cases e)
theorem body_opVgather (st n : Nat) (p : Pvu) (i : PvuWord) :
    p.Chg (opVgather.writes p i) opVgather.stores (decide (opVgather.cls = 6) || opVgather.streams) opVgather.calls (opVgather.body st n p i).p := loadBody_chg _ _ _ _ (List.Mem.head _) (fun e => by cases e)
theorem body_opVldff (st n : Nat) (p : Pvu) (i : PvuWord) :
    p.Chg (opVldff.writes p i) opVldff.stores (decide (opVldff.cls = 6) || opVldff.streams) opVldff.calls (opVldff.body st n p i).p := loadBody_chg _ _ _ _ (List.Mem.head _) (fun _ => List.Mem.tail _ (List.Mem.head _))
theorem body_opVgatherff (st n : Nat) (p : Pvu) (i : PvuWord) :
    p.Chg (opVgatherff.writes p i) opVgatherff.stores (decide (opVgatherff.cls = 6) || opVgatherff.streams) opVgatherff.calls (opVgatherff.body st n p i).p := loadBody_chg _ _ _ _ (List.Mem.head _) (fun _ => List.Mem.tail _ (List.Mem.head _))
theorem body_opVst (st n : Nat) (p : Pvu) (i : PvuWord) :
    p.Chg (opVst.writes p i) opVst.stores (decide (opVst.cls = 6) || opVst.streams) opVst.calls (opVst.body st n p i).p := storeBody_chg ..
theorem body_opVsts (st n : Nat) (p : Pvu) (i : PvuWord) :
    p.Chg (opVsts.writes p i) opVsts.stores (decide (opVsts.cls = 6) || opVsts.streams) opVsts.calls (opVsts.body st n p i).p := storeBody_chg ..
theorem body_opVscatter (st n : Nat) (p : Pvu) (i : PvuWord) :
    p.Chg (opVscatter.writes p i) opVscatter.stores (decide (opVscatter.cls = 6) || opVscatter.streams) opVscatter.calls (opVscatter.body st n p i).p := storeBody_chg ..
theorem body_opSst (st n : Nat) (p : Pvu) (i : PvuWord) :
    p.Chg (opSst.writes p i) opSst.stores (decide (opSst.cls = 6) || opSst.streams) opSst.calls (opSst.body st n p i).p := storeOne_chg ..
theorem body_opXst (st n : Nat) (p : Pvu) (i : PvuWord) :
    p.Chg (opXst.writes p i) opXst.stores (decide (opXst.cls = 6) || opXst.streams) opXst.calls (opXst.body st n p i).p := storeOne_chg ..
theorem body_opSld (st n : Nat) (p : Pvu) (i : PvuWord) :
    p.Chg (opSld.writes p i) opSld.stores (decide (opSld.cls = 6) || opSld.streams) opSld.calls (opSld.body st n p i).p :=
  loadOne_chg p i 16 (wBytes (wOf i)) (.s (rdN i)) (fun q _ => putS16 (rdN i) (spaceOf i) (baseOf p i) q) (List.Mem.head _)
    (fun _ => p.putS_chg (rdN i) 1 _ (List.Mem.head _))
theorem body_opXld (st n : Nat) (p : Pvu) (i : PvuWord) :
    p.Chg (opXld.writes p i) opXld.stores (decide (opXld.cls = 6) || opXld.streams) opXld.calls (opXld.body st n p i).p :=
  loadOne_chg p i (wBytes (wOf i)) (wBytes (wOf i)) (.x (rdN i)) (fun q v => q.putX (rdN i) v) (List.Mem.head _)
    (fun v => p.putX_chg (rdN i) v (List.Mem.head _))

-- The Keccak units.

theorem Pvu.putKu_chg {d : List Reg} {st fl : Bool} (p : Pvu) (u : Nat) (k : KuState) : p.Chg d st true fl (p.putKu u k) :=
  p.setKu_chg _ p.mrgUsed

theorem afterTake_chg {d : List Reg} {st fl : Bool} (p : Pvu) (u : Nat) (t : Taken) : p.Chg d st true fl (afterTake p u t) :=
  p.setKu_chg _ _

theorem body_opKinit (st n : Nat) (p : Pvu) (i : PvuWord) :
    p.Chg (opKinit.writes p i) opKinit.stores (decide (opKinit.cls = 6) || opKinit.streams) opKinit.calls
      (opKinit.body st n p i).p := Pvu.putKu_chg ..

theorem absorbBody_chg {d : List Reg} {stt fl : Bool} (src : PvuWord → Reg) (n issue : PvuWord → Nat) (st eng : Nat) (p : Pvu)
    (i : PvuWord) : p.Chg d stt true fl (absorbBody src n issue st eng p i).p := by
  unfold absorbBody
  dsimp only []
  split
  · exact Pvu.chg_refl ..
  · exact p.setKu_chg _ _

theorem body_opKabss (st n : Nat) (p : Pvu) (i : PvuWord) :
    p.Chg (opKabss.writes p i) opKabss.stores (decide (opKabss.cls = 6) || opKabss.streams) opKabss.calls
      (opKabss.body st n p i).p := absorbBody_chg ..
theorem body_opKabsl (st n : Nat) (p : Pvu) (i : PvuWord) :
    p.Chg (opKabsl.writes p i) opKabsl.stores (decide (opKabsl.cls = 6) || opKabsl.streams) opKabsl.calls
      (opKabsl.body st n p i).p := absorbBody_chg ..
theorem body_opKabsx (st n : Nat) (p : Pvu) (i : PvuWord) :
    p.Chg (opKabsx.writes p i) opKabsx.stores (decide (opKabsx.cls = 6) || opKabsx.streams) opKabsx.calls
      (opKabsx.body st n p i).p := absorbBody_chg ..
theorem body_opKfinal (st n : Nat) (p : Pvu) (i : PvuWord) :
    p.Chg (opKfinal.writes p i) opKfinal.stores (decide (opKfinal.cls = 6) || opKfinal.streams) opKfinal.calls
      (opKfinal.body st n p i).p := Pvu.putKu_chg ..

-- How many shares a stream load delivers.

theorem kuPermute_buf (eng used : Nat) (k : KuState) : (kuPermute eng used k).1.buf = k.buf := rfl

theorem kuSqueeze_buf (eng used : Nat) (k : KuState) : (kuSqueeze eng used k).1.buf.length ≤ k.buf.length := by
  unfold kuSqueeze
  dsimp only []
  split <;> simp only [List.length_map, List.length_zip, kuPermute_buf] <;> omega

theorem kuAdvance_buf (eng t fuel : Nat) : ∀ (used : Nat) (k : KuState) (n : Nat),
    (kuAdvance eng t fuel used k n).1.buf.length ≤ k.buf.length := by
  induction fuel with
  | zero => intro used k n; exact Nat.le_refl _
  | succ f ih =>
    intro used k n
    unfold kuAdvance
    split
    · exact Nat.le_trans (ih _ _ _) (kuSqueeze_buf eng used k)
    · exact Nat.le_refl _

theorem kuRestart_buf (k : KuState) (t : Nat) : (kuRestart k t).buf = k.buf := by
  unfold kuRestart; split <;> rfl

theorem appendShares_len (a b : List (List Byte)) : (appendShares a b).length ≤ b.length := by
  unfold appendShares
  split
  · exact Nat.le_refl _
  · simp only [List.length_map, List.length_zip]; omega

theorem kuTake_len (eng fuel : Nat) : ∀ (used : Nat) (k : KuState) (t need n : Nat) (acc : List (List Byte)) (m : Nat),
    acc.length ≤ m → k.buf.length ≤ m → (kuTake eng fuel used k t need n acc).bytes.length ≤ m := by
  induction fuel with
  | zero => intro used k t need n acc m h _; exact h
  | succ f ih =>
    intro used k t need n acc m h hk
    unfold kuTake
    have hb := Nat.le_trans (kuAdvance_buf eng t 64 used k n) hk
    dsimp only []
    split
    · refine Nat.le_trans (appendShares_len _ _) ?_
      simpa using hb
    · refine ih _ _ _ _ _ _ _ (Nat.le_trans (appendShares_len _ _) hb) ?_
      rw [kuRestart_buf]; simpa using hb

theorem streamTake_len (eng : Nat) (p : Pvu) (u start need : Nat) :
    (streamTake eng p u start need).bytes.length ≤ (p.getKu u).buf.length :=
  kuTake_len _ _ _ _ _ _ _ _ _ (Nat.zero_le _) (Nat.le_refl _)

theorem streamDst {op : PvuOp} (p : Pvu) (i : PvuWord) (k : Nat) (hs : op.streams = true) (hk : k < (p.getKu (unitB i)).buf.length) :
    (if op.func = 0x0E then Reg.s (rdN i + k) else Reg.l (rdN i + k)) ∈ op.writes p i := by
  unfold PvuOp.writes
  rw [if_pos hs]
  exact List.mem_append_left _ (List.mem_map.2 ⟨k, List.mem_range.2 hk, rfl⟩)

theorem mem_zipIdx_lt {α : Type} {xs : List α} {x : α × Nat} (h : x ∈ xs.zipIdx) : x.2 < xs.length := by
  have := List.snd_lt_of_mem_zipIdx h
  simpa using this

theorem putStream_chg {d : List Reg} {st fl : Bool} (p : Pvu) (i : PvuWord) (idx : List Nat) (t : Taken)
    (h : ∀ k, k < t.bytes.length → Reg.l (rdN i + k) ∈ d) : p.Chg d st true fl (putStream p i idx t) := by
  unfold putStream
  refine Pvu.chg_foldl _ _ (fun q b hb => ?_) p
  have hm := h b.2 (mem_zipIdx_lt hb)
  exact (q.putL_chg _ _ _ hm).trans (Pvu.setTag_chg _ _ _ hm)

theorem streamBody_chg {d : List Reg} {stt fl : Bool} (ff : Bool) (st eng : Nat) (p : Pvu) (i : PvuWord)
    (h : ∀ k, k < (p.getKu (unitB i)).buf.length → Reg.l (rdN i + k) ∈ d) (g : ff = true → Reg.stat ∈ d) :
    p.Chg d stt true fl (streamBody ff st eng p i).p := by
  have hq : ∀ idx : List Nat, p.Chg d stt true fl (if idx.isEmpty then p else putStream (afterTake p (unitB i)
      (streamTake eng p (unitB i) st (idx.length * wBytes (wOf i)))) i idx (streamTake eng p (unitB i) st (idx.length * wBytes (wOf i)))) := by
    intro idx
    refine Pvu.chg_ite (Pvu.chg_refl ..) ((afterTake_chg ..).trans (putStream_chg _ _ _ _ (fun k hk => ?_)))
    exact h k (Nat.lt_of_lt_of_le hk (streamTake_len ..))
  have hff : ∀ (b : Bool) (q : Pvu) (m : Nat), p.Chg d stt true fl q → (b = true → ff = true) →
      p.Chg d stt true fl (if b then { q with ffcount := m } else q) := by
    intro b q m hq hb
    split
    · rename_i e; exact hq.trans (Pvu.setFf_chg _ _ (g (hb e)))
    · exact hq
  unfold streamBody
  dsimp only []
  split
  · exact hff ff p _ (Pvu.chg_refl ..) id
  · split
    · exact Pvu.chg_refl ..
    · split
      · exact hff ff _ _ (hq _) id
      · split
        · rename_i e
          exact (hq _).trans (Pvu.setFf_chg _ _ (g e))
        · exact hq _

theorem body_opVldk (st n : Nat) (p : Pvu) (i : PvuWord) :
    p.Chg (opVldk.writes p i) opVldk.stores (decide (opVldk.cls = 6) || opVldk.streams) opVldk.calls
      (opVldk.body st n p i).p :=
  streamBody_chg false st n p i (fun k hk => streamDst (op := opVldk) p i k rfl hk) (fun e => by cases e)
theorem body_opVldkff (st n : Nat) (p : Pvu) (i : PvuWord) :
    p.Chg (opVldkff.writes p i) opVldkff.stores (decide (opVldkff.cls = 6) || opVldkff.streams) opVldkff.calls
      (opVldkff.body st n p i).p :=
  streamBody_chg true st n p i (fun k hk => streamDst (op := opVldkff) p i k rfl hk)
    (fun _ => opVldkff.dst_writes p i (List.mem_append_right _ (List.Mem.head _)))
theorem body_opSldk (st n : Nat) (p : Pvu) (i : PvuWord) :
    p.Chg (opSldk.writes p i) opSldk.stores (decide (opSldk.cls = 6) || opSldk.streams) opSldk.calls
      (opSldk.body st n p i).p := by
  show Pvu.Chg _ _ true _ p _
  have hd : ∀ k, k < (p.getKu (unitB i)).buf.length → Reg.s (rdN i + k) ∈ opSldk.writes p i :=
    fun k hk => streamDst (op := opSldk) p i k rfl hk
  revert hd
  generalize opSldk.writes p i = d
  intro hd
  dsimp only [opSldk]
  split
  · exact Pvu.chg_refl ..
  · refine (afterTake_chg ..).trans (Pvu.chg_foldl _ _ (fun q b hb => ?_) _)
    have hm := hd b.2 (Nat.lt_of_lt_of_le (mem_zipIdx_lt hb) (streamTake_len ..))
    exact (Pvu.sset_chg _ _ _ _ hm).trans (Pvu.setTag_chg _ _ _ hm)

-- Sampling.

theorem shareArith_len (eng used q d : Nat) (vals : List Nat) : (shareArith eng used q d vals).1.length = d + 1 := by
  simp [shareArith]

theorem shareBool_len (eng used b d : Nat) (vals : List Nat) : (shareBool eng used b d vals).1.length = d + 1 := by
  simp [shareBool]

theorem putShared_chg {d : List Reg} {st ku fl : Bool} (eng : Nat) (p : Pvu) (i : PvuWord) (o q : Nat) (idx vals : List Nat)
    (k : Bool) (h : ∀ j, j < o + 1 → Reg.l (rdN i + j) ∈ d) : p.Chg d st ku fl (putShared eng p i o q idx vals k) := by
  unfold putShared
  dsimp only []
  refine (p.setMrg_chg _).trans (Pvu.chg_foldl _ _ (fun t b hb => ?_) _)
  have hm := h b.2 (by have := mem_zipIdx_lt hb; rwa [shareArith_len] at this)
  exact (t.putL_chg _ _ _ hm).trans (Pvu.setTag_chg _ _ _ hm)

theorem rejectBody_chg {d : List Reg} {stt fl : Bool} (f : Nat → PvuWord → List Byte → List Nat) (st eng : Nat) (p : Pvu)
    (i : PvuWord) (h : Reg.l (rdN i) ∈ d) (g : Reg.stat ∈ d) : p.Chg d stt true fl (rejectBody f st eng p i).p := by
  unfold rejectBody
  dsimp only []
  split
  · exact Pvu.chg_refl ..
  · exact ((afterTake_chg ..).trans (Pvu.putL_chg _ _ _ _ h)).trans (Pvu.setFf_chg _ _ g)

theorem body_opSamplentt (st n : Nat) (p : Pvu) (i : PvuWord) :
    p.Chg (opSamplentt.writes p i) opSamplentt.stores (decide (opSamplentt.cls = 6) || opSamplentt.streams) opSamplentt.calls
      (opSamplentt.body st n p i).p := by
  show Pvu.Chg _ _ true _ p (rejectBody (fun q i bs => sampleNtt q (limitOf i / 3) bs) st n p i).p
  exact rejectBody_chg _ _ _ _ _ (opSamplentt.dst_writes p i (List.Mem.head _)) (opSamplentt.dst_writes p i (List.Mem.tail _ (List.Mem.head _)))
theorem body_opSamplerej (st n : Nat) (p : Pvu) (i : PvuWord) :
    p.Chg (opSamplerej.writes p i) opSamplerej.stores (decide (opSamplerej.cls = 6) || opSamplerej.streams) opSamplerej.calls
      (opSamplerej.body st n p i).p := by
  show Pvu.Chg _ _ true _ p (rejectBody (fun q i bs => sampleRej q (limitOf i / 3) bs) st n p i).p
  exact rejectBody_chg _ _ _ _ _ (opSamplerej.dst_writes p i (List.Mem.head _)) (opSamplerej.dst_writes p i (List.Mem.tail _ (List.Mem.head _)))

theorem sampleDst_mem (p : Pvu) (i : PvuWord) (j : Nat) (h : j < (p.getKu (unitI i)).order + 1) :
    Reg.l (rdN i + j) ∈ sampleDst p i := group_mem (r := .l (rdN i)) h

theorem body_opSampleeta (st n : Nat) (p : Pvu) (i : PvuWord) :
    p.Chg (opSampleeta.writes p i) opSampleeta.stores (decide (opSampleeta.cls = 6) || opSampleeta.streams) opSampleeta.calls
      (opSampleeta.body st n p i).p := by
  show Pvu.Chg _ _ true _ p _
  have hd : ∀ k, k < (p.getKu (unitI i)).order + 1 → Reg.l (rdN i + k) ∈ opSampleeta.writes p i :=
    fun k hk => opSampleeta.dst_writes p i (List.Mem.tail _ (sampleDst_mem p i k hk))
  have hs : Reg.stat ∈ opSampleeta.writes p i := opSampleeta.dst_writes p i (List.Mem.head _)
  revert hd hs
  generalize opSampleeta.writes p i = d
  intro hd hs
  have h0 : Reg.l (rdN i) ∈ d := hd 0 (Nat.succ_pos _)
  dsimp only [opSampleeta]
  split
  · have hr := rejectBody_chg (stt := opSampleeta.stores) (fl := opSampleeta.calls)
      (fun q i bs => sampleEta q (paramOf i) bs) st n p i h0 hs
    split
    · exact hr
    · exact hr.trans (Pvu.setTag_chg _ _ _ h0)
  · split
    · exact Pvu.chg_refl ..
    · split
      · exact Pvu.chg_refl ..
      · exact (afterTake_chg ..).trans (putShared_chg _ _ _ _ _ _ _ _ hd)

theorem body_opSamplecbd (st n : Nat) (p : Pvu) (i : PvuWord) :
    p.Chg (opSamplecbd.writes p i) opSamplecbd.stores (decide (opSamplecbd.cls = 6) || opSamplecbd.streams) opSamplecbd.calls
      (opSamplecbd.body st n p i).p := by
  show Pvu.Chg _ _ true _ p _
  have hd : ∀ k, k < (p.getKu (unitI i)).order + 1 → Reg.l (rdN i + k) ∈ opSamplecbd.writes p i :=
    fun k hk => opSamplecbd.dst_writes p i (sampleDst_mem p i k hk)
  revert hd
  generalize opSamplecbd.writes p i = d
  intro hd
  have h0 : Reg.l (rdN i) ∈ d := hd 0 (Nat.succ_pos _)
  dsimp only [opSamplecbd]
  split
  · exact Pvu.chg_refl ..
  · refine Pvu.chg_ite ?_ ?_
    · exact ((afterTake_chg ..).trans (Pvu.putL_chg _ _ _ _ h0)).trans (Pvu.setTag_chg _ _ _ h0)
    · exact (afterTake_chg ..).trans (putShared_chg _ _ _ _ _ _ _ _ hd)

theorem body_opSampleball (st n : Nat) (p : Pvu) (i : PvuWord) :
    p.Chg (opSampleball.writes p i) opSampleball.stores (decide (opSampleball.cls = 6) || opSampleball.streams) opSampleball.calls
      (opSampleball.body st n p i).p := by
  show Pvu.Chg _ _ true _ p _
  have hd : Reg.l (rdN i) ∈ opSampleball.writes p i := List.Mem.head _
  have hs : Reg.stat ∈ opSampleball.writes p i := List.Mem.tail _ (List.Mem.head _)
  revert hd hs
  generalize opSampleball.writes p i = d
  intro hd hs
  dsimp only [opSampleball]
  split
  · exact Pvu.chg_refl ..
  · exact ((afterTake_chg ..).trans (Pvu.putL_chg _ _ _ _ hd)).trans (Pvu.setFf_chg _ _ hs)

-- Polynomials.

theorem foldPut_chg {d : List Reg} {st ku fl : Bool} (p : Pvu) (w : Nat) (cs : List Nat) (f : Nat → List (Option Elem))
    (h : ∀ n ∈ cs, Reg.l n ∈ d) : p.Chg d st ku fl ((cs.zipIdx).foldl (fun q n => q.putL n.1 w (f n.2)) p) := by
  refine Pvu.chg_foldl _ _ (fun q b hb => q.putL_chg _ _ _ (h b.1 ?_)) p
  have := List.mem_zipIdx hb
  rw [this.2.2]
  exact List.getElem_mem _

theorem transform_chg {d : List Reg} {stt ku fl : Bool} (fn : Nat) (f : ModCtx → List Nat → List Nat) (st n : Nat) (p : Pvu) (i : PvuWord)
    (h : ∀ k ∈ covered p i (rdN i), Reg.l k ∈ d) : p.Chg d stt ku fl ((transform fn f).body st n p i).p := by
  dsimp only [transform, putPoly]
  exact foldPut_chg p (wOf i) (covered p i (rdN i)) (fun m => (((((polysOf p i (raN i)).flatMap (f (ctxOf p i))).map
    (fun v => (v, markedOf p i (raN i)))).drop (countL i * m)).take (countL i)).map some) h

theorem body_opNtt (st n : Nat) (p : Pvu) (i : PvuWord) :
    p.Chg (opNtt.writes p i) opNtt.stores (decide (opNtt.cls = 6) || opNtt.streams) opNtt.calls (opNtt.body st n p i).p :=
  transform_chg _ _ _ _ _ _ (fun k hk => opNtt.dst_writes p i (List.mem_map.2 ⟨k, hk, rfl⟩))
theorem body_opIntt (st n : Nat) (p : Pvu) (i : PvuWord) :
    p.Chg (opIntt.writes p i) opIntt.stores (decide (opIntt.cls = 6) || opIntt.streams) opIntt.calls (opIntt.body st n p i).p :=
  transform_chg _ _ _ _ _ _ (fun k hk => opIntt.dst_writes p i (List.mem_map.2 ⟨k, hk, rfl⟩))
theorem pwOp_chg {d : List Reg} {stt ku fl : Bool} (fn : Nat) (acc : Bool) (st n : Nat) (p : Pvu) (i : PvuWord)
    (h : ∀ k ∈ pwCovered p i (rdN i), Reg.l k ∈ d) : p.Chg d stt ku fl ((pwOp fn acc).body st n p i).p := by
  dsimp only [pwOp]
  generalize (if acc = true then zipE (fun d x => (d + x) % qOf p i) (pwVals p i (rdN i)) (pwProduct p i) else pwProduct p i) = res
  exact foldPut_chg p (wOf i) (pwCovered p i (rdN i)) (fun m => (((res.drop (countL i * m)).take (countL i)).map some)) h
theorem body_opPwmul (st n : Nat) (p : Pvu) (i : PvuWord) :
    p.Chg (opPwmul.writes p i) opPwmul.stores (decide (opPwmul.cls = 6) || opPwmul.streams) opPwmul.calls (opPwmul.body st n p i).p :=
  pwOp_chg _ _ _ _ _ _ (fun k hk => opPwmul.dst_writes p i (List.mem_map.2 ⟨k, hk, rfl⟩))
theorem body_opPwmac (st n : Nat) (p : Pvu) (i : PvuWord) :
    p.Chg (opPwmac.writes p i) opPwmac.stores (decide (opPwmac.cls = 6) || opPwmac.streams) opPwmac.calls (opPwmac.body st n p i).p :=
  pwOp_chg _ _ _ _ _ _ (fun k hk => opPwmac.dst_writes p i (List.mem_map.2 ⟨k, hk, rfl⟩))
theorem body_opVpack (st n : Nat) (p : Pvu) (i : PvuWord) :
    p.Chg (opVpack.writes p i) opVpack.stores (decide (opVpack.cls = 6) || opVpack.streams) opVpack.calls (opVpack.body st n p i).p :=
  Pvu.lset_chg _ _ _ _ (List.Mem.head _)

theorem putTwo_chg {d : List Reg} {st ku fl : Bool} (p : Pvu) (i : PvuWord) (xs : List (Nat × Nat × Bool))
    (h : Reg.l (rdN i) ∈ d) (g : Reg.l (rdN i + 1) ∈ d) : p.Chg d st ku fl (putTwo p i xs) :=
  (p.putActive_chg _ _ _ _ h).trans (Pvu.putActive_chg _ _ _ _ _ g)

theorem body_opVp2r (st n : Nat) (p : Pvu) (i : PvuWord) :
    p.Chg (opVp2r.writes p i) opVp2r.stores (decide (opVp2r.cls = 6) || opVp2r.streams) opVp2r.calls (opVp2r.body st n p i).p :=
  putTwo_chg _ _ _ (List.Mem.head _) (List.Mem.tail _ (List.Mem.head _))
theorem body_opVdecomp (st n : Nat) (p : Pvu) (i : PvuWord) :
    p.Chg (opVdecomp.writes p i) opVdecomp.stores (decide (opVdecomp.cls = 6) || opVdecomp.streams) opVdecomp.calls
      (opVdecomp.body st n p i).p := by
  have hd : Reg.l (rdN i) ∈ opVdecomp.writes p i := List.Mem.head _
  have hs : Reg.l (rdN i + 1) ∈ opVdecomp.writes p i := List.Mem.tail _ (List.Mem.head _)
  revert hd hs
  generalize opVdecomp.writes p i = d
  intro hd hs
  dsimp only [opVdecomp]
  split
  · exact Pvu.chg_refl ..
  · exact putTwo_chg _ _ _ hd hs

theorem hintOp_chg {d : List Reg} {stt ku fl : Bool} (fn : Nat) (f : Nat → Nat → Nat → Nat → Nat) (st n : Nat) (p : Pvu) (i : PvuWord)
    (h : Reg.l (rdN i) ∈ d) : p.Chg d stt ku fl ((hintOp fn f).body st n p i).p := by
  dsimp only [hintOp]
  split
  · exact Pvu.chg_refl ..
  · exact p.putActive_chg _ _ _ _ h

theorem body_opVmkhint (st n : Nat) (p : Pvu) (i : PvuWord) :
    p.Chg (opVmkhint.writes p i) opVmkhint.stores (decide (opVmkhint.cls = 6) || opVmkhint.streams) opVmkhint.calls
      (opVmkhint.body st n p i).p := hintOp_chg _ _ _ _ _ _ (List.Mem.head _)
theorem body_opVusehint (st n : Nat) (p : Pvu) (i : PvuWord) :
    p.Chg (opVusehint.writes p i) opVusehint.stores (decide (opVusehint.cls = 6) || opVusehint.streams) opVusehint.calls
      (opVusehint.body st n p i).p := hintOp_chg _ _ _ _ _ _ (List.Mem.head _)

-- Gadgets.

theorem sharesOf_len (eng : Nat) (p : Pvu) (w q : Nat) (arith : Bool) (es : List Elem) :
    (sharesOf eng p w q arith es).1.length = p.order + 1 := by
  unfold sharesOf
  dsimp only []
  rw [List.length_map]
  split
  · exact shareArith_len ..
  · exact shareBool_len ..

theorem putGroup_chg {d : List Reg} {st ku fl : Bool} (eng : Nat) (p : Pvu) (w q n : Nat) (arith : Bool) (es : List Elem)
    (h : ∀ j, j < p.order + 1 → Reg.l (n + j) ∈ d) : p.Chg d st ku fl (putGroup eng p w q n arith es) := by
  unfold putGroup
  dsimp only []
  refine (p.setMrg_chg _).trans (Pvu.chg_foldl _ _ (fun t b hb => ?_) _)
  have hm := h b.2 (by have := mem_zipIdx_lt hb; rwa [sharesOf_len] at this)
  exact (t.putL_chg _ _ _ hm).trans (Pvu.setTag_chg _ _ _ hm)

theorem putGroup_order (eng : Nat) (p : Pvu) (w q n : Nat) (arith : Bool) (es : List Elem) :
    (putGroup eng p w q n arith es).order = p.order := by
  have h := (putGroup_chg (d := (List.range (p.order + 1)).map (fun j => Reg.l (n + j))) (st := false) (ku := false) (fl := false)
    eng p w q n arith es (fun j hj => List.mem_map.2 ⟨j, List.mem_range.2 hj, rfl⟩)).2
  unfold Pvu.Rest at h
  rw [h]

theorem lGroup_mem (p : Pvu) (n j : Nat) (h : j < p.order + 1) : Reg.l (n + j) ∈ lGroup p n := group_mem (r := .l n) h

theorem body_opMshare (st n : Nat) (p : Pvu) (i : PvuWord) :
    p.Chg (opMshare.writes p i) opMshare.stores (decide (opMshare.cls = 6) || opMshare.streams) opMshare.calls
      (opMshare.body st n p i).p := putGroup_chg _ _ _ _ _ _ _ (lGroup_mem p (rdN i))
theorem body_opMrefresh (st n : Nat) (p : Pvu) (i : PvuWord) :
    p.Chg (opMrefresh.writes p i) opMrefresh.stores (decide (opMrefresh.cls = 6) || opMrefresh.streams) opMrefresh.calls
      (opMrefresh.body st n p i).p := putGroup_chg _ _ _ _ _ _ _ (lGroup_mem p (rdN i))
theorem body_opMa2b (st n : Nat) (p : Pvu) (i : PvuWord) :
    p.Chg (opMa2b.writes p i) opMa2b.stores (decide (opMa2b.cls = 6) || opMa2b.streams) opMa2b.calls
      (opMa2b.body st n p i).p := putGroup_chg _ _ _ _ _ _ _ (lGroup_mem p (rdN i))
theorem body_opMb2a (st n : Nat) (p : Pvu) (i : PvuWord) :
    p.Chg (opMb2a.writes p i) opMb2a.stores (decide (opMb2a.cls = 6) || opMb2a.streams) opMb2a.calls
      (opMb2a.body st n p i).p := putGroup_chg _ _ _ _ _ _ _ (lGroup_mem p (rdN i))
theorem body_opMand (st n : Nat) (p : Pvu) (i : PvuWord) :
    p.Chg (opMand.writes p i) opMand.stores (decide (opMand.cls = 6) || opMand.streams) opMand.calls
      (opMand.body st n p i).p := putGroup_chg _ _ _ _ _ _ _ (lGroup_mem p (rdN i))
theorem body_opMcomp (st n : Nat) (p : Pvu) (i : PvuWord) :
    p.Chg (opMcomp.writes p i) opMcomp.stores (decide (opMcomp.cls = 6) || opMcomp.streams) opMcomp.calls
      (opMcomp.body st n p i).p := putGroup_chg _ _ _ _ _ _ _ (lGroup_mem p (rdN i))
theorem body_opMsel (st n : Nat) (p : Pvu) (i : PvuWord) :
    p.Chg (opMsel.writes p i) opMsel.stores (decide (opMsel.cls = 6) || opMsel.streams) opMsel.calls
      (opMsel.body st n p i).p := putGroup_chg _ _ _ _ _ _ _ (lGroup_mem p (rdN i))

theorem body_opMdecomp (st n : Nat) (p : Pvu) (i : PvuWord) :
    p.Chg (opMdecomp.writes p i) opMdecomp.stores (decide (opMdecomp.cls = 6) || opMdecomp.streams) opMdecomp.calls
      (opMdecomp.body st n p i).p := by
  have hd : ∀ j, j < p.order + 1 → Reg.l (rdN i + j) ∈ opMdecomp.writes p i :=
    fun j hj => opMdecomp.dst_writes p i (List.mem_append_left _ (lGroup_mem p _ j hj))
  have hs : ∀ j, j < p.order + 1 → Reg.l (rcN i + j) ∈ opMdecomp.writes p i :=
    fun j hj => opMdecomp.dst_writes p i (List.mem_append_right _ (lGroup_mem p _ j hj))
  revert hd hs
  generalize opMdecomp.writes p i = d
  intro hd hs
  dsimp only [opMdecomp]
  split
  · exact Pvu.chg_refl ..
  · exact (putGroup_chg _ _ _ _ _ _ _ hd).trans (putGroup_chg _ _ _ _ _ _ _ (by rw [putGroup_order]; exact hs))

theorem body_opMnorm (st n : Nat) (p : Pvu) (i : PvuWord) :
    p.Chg (opMnorm.writes p i) opMnorm.stores (decide (opMnorm.cls = 6) || opMnorm.streams) opMnorm.calls
      (opMnorm.body st n p i).p := (p.putX_chg _ _ (List.Mem.head _)).trans (Pvu.setTag_chg _ _ _ (List.Mem.head _))

theorem body_opMeq (st n : Nat) (p : Pvu) (i : PvuWord) :
    p.Chg (opMeq.writes p i) opMeq.stores (decide (opMeq.cls = 6) || opMeq.streams) opMeq.calls
      (opMeq.body st n p i).p := by
  have hd : ∀ j, j < p.order + 1 → Reg.s (rdN i + j) ∈ opMeq.writes p i :=
    fun j hj => opMeq.dst_writes p i (group_mem (r := .s (rdN i)) hj)
  revert hd
  generalize opMeq.writes p i = d
  intro hd
  dsimp only [opMeq, putBitS]
  refine (p.setMrg_chg _).trans (Pvu.chg_foldl _ _ (fun t b hb => ?_) _)
  have hm := hd b.2 (by have := mem_zipIdx_lt hb; rwa [shareBool_len] at this)
  exact (Pvu.sset_chg _ _ _ _ hm).trans (Pvu.setTag_chg _ _ _ hm)

theorem body_opUnmask (st n : Nat) (p : Pvu) (i : PvuWord) :
    p.Chg (opUnmask.writes p i) opUnmask.stores (decide (opUnmask.cls = 6) || opUnmask.streams) opUnmask.calls
      (opUnmask.body st n p i).p := (p.putL_chg _ _ _ (List.Mem.head _)).trans (Pvu.setTag_chg _ _ _ (List.Mem.head _))

theorem body_opNop (st n : Nat) (p : Pvu) (i : PvuWord) :
    p.Chg (opNop.writes p i) opNop.stores (decide (opNop.cls = 6) || opNop.streams) opNop.calls (opNop.body st n p i).p :=
  Pvu.chg_refl ..
theorem body_opEnd (st n : Nat) (p : Pvu) (i : PvuWord) :
    p.Chg (opEnd.writes p i) opEnd.stores (decide (opEnd.cls = 6) || opEnd.streams) opEnd.calls (opEnd.body st n p i).p :=
  Pvu.chg_refl ..
theorem body_opB (st n : Nat) (p : Pvu) (i : PvuWord) :
    p.Chg (opB.writes p i) opB.stores (decide (opB.cls = 6) || opB.streams) opB.calls (opB.body st n p i).p :=
  Pvu.chg_refl ..
theorem body_opSysrd (st n : Nat) (p : Pvu) (i : PvuWord) :
    p.Chg (opSysrd.writes p i) opSysrd.stores (decide (opSysrd.cls = 6) || opSysrd.streams) opSysrd.calls (opSysrd.body st n p i).p :=
  Pvu.putX_chg _ _ _ (List.Mem.head _)
theorem body_opRdstat (st n : Nat) (p : Pvu) (i : PvuWord) :
    p.Chg (opRdstat.writes p i) opRdstat.stores (decide (opRdstat.cls = 6) || opRdstat.streams) opRdstat.calls (opRdstat.body st n p i).p :=
  Pvu.putX_chg _ _ _ (List.Mem.head _)
theorem body_opResume (st n : Nat) (p : Pvu) (i : PvuWord) :
    p.Chg (opResume.writes p i) opResume.stores (decide (opResume.cls = 6) || opResume.streams) opResume.calls (opResume.body st n p i).p :=
  Pvu.chg_refl ..
theorem body_opSkip (st n : Nat) (p : Pvu) (i : PvuWord) :
    p.Chg (opSkip.writes p i) opSkip.stores (decide (opSkip.cls = 6) || opSkip.streams) opSkip.calls (opSkip.body st n p i).p :=
  Pvu.chg_refl ..
theorem body_opFail (st n : Nat) (p : Pvu) (i : PvuWord) :
    p.Chg (opFail.writes p i) opFail.stores (decide (opFail.cls = 6) || opFail.streams) opFail.calls (opFail.body st n p i).p :=
  Pvu.chg_refl ..
theorem body_opAccept (st n : Nat) (p : Pvu) (i : PvuWord) :
    p.Chg (opAccept.writes p i) opAccept.stores (decide (opAccept.cls = 6) || opAccept.streams) opAccept.calls (opAccept.body st n p i).p :=
  Pvu.chg_refl ..
theorem body_opReject (st n : Nat) (p : Pvu) (i : PvuWord) :
    p.Chg (opReject.writes p i) opReject.stores (decide (opReject.cls = 6) || opReject.streams) opReject.calls (opReject.body st n p i).p :=
  Pvu.chg_refl ..
theorem body_opAddX (st n : Nat) (p : Pvu) (i : PvuWord) :
    p.Chg (opAddX.writes p i) opAddX.stores (decide (opAddX.cls = 6) || opAddX.streams) opAddX.calls (opAddX.body st n p i).p :=
  Pvu.putX_chg _ _ _ (List.Mem.head _)
theorem body_opSubX (st n : Nat) (p : Pvu) (i : PvuWord) :
    p.Chg (opSubX.writes p i) opSubX.stores (decide (opSubX.cls = 6) || opSubX.streams) opSubX.calls (opSubX.body st n p i).p :=
  Pvu.putX_chg _ _ _ (List.Mem.head _)
theorem body_opAndX (st n : Nat) (p : Pvu) (i : PvuWord) :
    p.Chg (opAndX.writes p i) opAndX.stores (decide (opAndX.cls = 6) || opAndX.streams) opAndX.calls (opAndX.body st n p i).p :=
  Pvu.putX_chg _ _ _ (List.Mem.head _)
theorem body_opOrX (st n : Nat) (p : Pvu) (i : PvuWord) :
    p.Chg (opOrX.writes p i) opOrX.stores (decide (opOrX.cls = 6) || opOrX.streams) opOrX.calls (opOrX.body st n p i).p :=
  Pvu.putX_chg _ _ _ (List.Mem.head _)
theorem body_opXorX (st n : Nat) (p : Pvu) (i : PvuWord) :
    p.Chg (opXorX.writes p i) opXorX.stores (decide (opXorX.cls = 6) || opXorX.streams) opXorX.calls (opXorX.body st n p i).p :=
  Pvu.putX_chg _ _ _ (List.Mem.head _)
theorem body_opShlX (st n : Nat) (p : Pvu) (i : PvuWord) :
    p.Chg (opShlX.writes p i) opShlX.stores (decide (opShlX.cls = 6) || opShlX.streams) opShlX.calls (opShlX.body st n p i).p :=
  Pvu.putX_chg _ _ _ (List.Mem.head _)
theorem body_opShrX (st n : Nat) (p : Pvu) (i : PvuWord) :
    p.Chg (opShrX.writes p i) opShrX.stores (decide (opShrX.cls = 6) || opShrX.streams) opShrX.calls (opShrX.body st n p i).p :=
  Pvu.putX_chg _ _ _ (List.Mem.head _)
theorem body_opSarX (st n : Nat) (p : Pvu) (i : PvuWord) :
    p.Chg (opSarX.writes p i) opSarX.stores (decide (opSarX.cls = 6) || opSarX.streams) opSarX.calls (opSarX.body st n p i).p :=
  Pvu.putX_chg _ _ _ (List.Mem.head _)
theorem body_opMulX (st n : Nat) (p : Pvu) (i : PvuWord) :
    p.Chg (opMulX.writes p i) opMulX.stores (decide (opMulX.cls = 6) || opMulX.streams) opMulX.calls (opMulX.body st n p i).p :=
  Pvu.putX_chg _ _ _ (List.Mem.head _)
theorem body_opMulhuX (st n : Nat) (p : Pvu) (i : PvuWord) :
    p.Chg (opMulhuX.writes p i) opMulhuX.stores (decide (opMulhuX.cls = 6) || opMulhuX.streams) opMulhuX.calls (opMulhuX.body st n p i).p :=
  Pvu.putX_chg _ _ _ (List.Mem.head _)
theorem body_opAddiX (st n : Nat) (p : Pvu) (i : PvuWord) :
    p.Chg (opAddiX.writes p i) opAddiX.stores (decide (opAddiX.cls = 6) || opAddiX.streams) opAddiX.calls (opAddiX.body st n p i).p :=
  Pvu.putX_chg _ _ _ (List.Mem.head _)
theorem body_opLiX (st n : Nat) (p : Pvu) (i : PvuWord) :
    p.Chg (opLiX.writes p i) opLiX.stores (decide (opLiX.cls = 6) || opLiX.streams) opLiX.calls (opLiX.body st n p i).p :=
  Pvu.putX_chg _ _ _ (List.Mem.head _)
theorem body_opLisX (st n : Nat) (p : Pvu) (i : PvuWord) :
    p.Chg (opLisX.writes p i) opLisX.stores (decide (opLisX.cls = 6) || opLisX.streams) opLisX.calls (opLisX.body st n p i).p :=
  Pvu.putX_chg _ _ _ (List.Mem.head _)
theorem body_opXmmul (st n : Nat) (p : Pvu) (i : PvuWord) :
    p.Chg (opXmmul.writes p i) opXmmul.stores (decide (opXmmul.cls = 6) || opXmmul.streams) opXmmul.calls (opXmmul.body st n p i).p :=
  Pvu.putX_chg _ _ _ (List.Mem.head _)
theorem body_opXmadd (st n : Nat) (p : Pvu) (i : PvuWord) :
    p.Chg (opXmadd.writes p i) opXmadd.stores (decide (opXmadd.cls = 6) || opXmadd.streams) opXmadd.calls (opXmadd.body st n p i).p :=
  Pvu.putX_chg _ _ _ (List.Mem.head _)
theorem body_opSmov (st n : Nat) (p : Pvu) (i : PvuWord) :
    p.Chg (opSmov.writes p i) opSmov.stores (decide (opSmov.cls = 6) || opSmov.streams) opSmov.calls (opSmov.body st n p i).p :=
  Pvu.putS_chg _ _ _ _ (List.Mem.head _)
theorem body_opSxor (st n : Nat) (p : Pvu) (i : PvuWord) :
    p.Chg (opSxor.writes p i) opSxor.stores (decide (opSxor.cls = 6) || opSxor.streams) opSxor.calls (opSxor.body st n p i).p :=
  Pvu.putS_chg _ _ _ _ (List.Mem.head _)
theorem body_opSand (st n : Nat) (p : Pvu) (i : PvuWord) :
    p.Chg (opSand.writes p i) opSand.stores (decide (opSand.cls = 6) || opSand.streams) opSand.calls (opSand.body st n p i).p :=
  Pvu.putS_chg _ _ _ _ (List.Mem.head _)
theorem body_opSor (st n : Nat) (p : Pvu) (i : PvuWord) :
    p.Chg (opSor.writes p i) opSor.stores (decide (opSor.cls = 6) || opSor.streams) opSor.calls (opSor.body st n p i).p :=
  Pvu.putS_chg _ _ _ _ (List.Mem.head _)
theorem body_opSadd (st n : Nat) (p : Pvu) (i : PvuWord) :
    p.Chg (opSadd.writes p i) opSadd.stores (decide (opSadd.cls = 6) || opSadd.streams) opSadd.calls (opSadd.body st n p i).p :=
  Pvu.putS_chg _ _ _ _ (List.Mem.head _)
theorem body_opSins (st n : Nat) (p : Pvu) (i : PvuWord) :
    p.Chg (opSins.writes p i) opSins.stores (decide (opSins.cls = 6) || opSins.streams) opSins.calls (opSins.body st n p i).p :=
  Pvu.putS_chg _ _ _ _ (List.Mem.head _)
theorem body_opSext (st n : Nat) (p : Pvu) (i : PvuWord) :
    p.Chg (opSext.writes p i) opSext.stores (decide (opSext.cls = 6) || opSext.streams) opSext.calls (opSext.body st n p i).p :=
  Pvu.putX_chg _ _ _ (List.Mem.head _)
theorem body_opSbcast (st n : Nat) (p : Pvu) (i : PvuWord) :
    p.Chg (opSbcast.writes p i) opSbcast.stores (decide (opSbcast.cls = 6) || opSbcast.streams) opSbcast.calls (opSbcast.body st n p i).p :=
  Pvu.putS_chg _ _ _ _ (List.Mem.head _)
theorem body_opVmov (st n : Nat) (p : Pvu) (i : PvuWord) :
    p.Chg (opVmov.writes p i) opVmov.stores (decide (opVmov.cls = 6) || opVmov.streams) opVmov.calls (opVmov.body st n p i).p :=
  Pvu.putL_chg _ _ _ _ (List.Mem.head _)
theorem body_opVadd (st n : Nat) (p : Pvu) (i : PvuWord) :
    p.Chg (opVadd.writes p i) opVadd.stores (decide (opVadd.cls = 6) || opVadd.streams) opVadd.calls (opVadd.body st n p i).p :=
  Pvu.putL_chg _ _ _ _ (List.Mem.head _)
theorem body_opVsub (st n : Nat) (p : Pvu) (i : PvuWord) :
    p.Chg (opVsub.writes p i) opVsub.stores (decide (opVsub.cls = 6) || opVsub.streams) opVsub.calls (opVsub.body st n p i).p :=
  Pvu.putL_chg _ _ _ _ (List.Mem.head _)
theorem body_opVand (st n : Nat) (p : Pvu) (i : PvuWord) :
    p.Chg (opVand.writes p i) opVand.stores (decide (opVand.cls = 6) || opVand.streams) opVand.calls (opVand.body st n p i).p :=
  Pvu.putL_chg _ _ _ _ (List.Mem.head _)
theorem body_opVor (st n : Nat) (p : Pvu) (i : PvuWord) :
    p.Chg (opVor.writes p i) opVor.stores (decide (opVor.cls = 6) || opVor.streams) opVor.calls (opVor.body st n p i).p :=
  Pvu.putL_chg _ _ _ _ (List.Mem.head _)
theorem body_opVxor (st n : Nat) (p : Pvu) (i : PvuWord) :
    p.Chg (opVxor.writes p i) opVxor.stores (decide (opVxor.cls = 6) || opVxor.streams) opVxor.calls (opVxor.body st n p i).p :=
  Pvu.putL_chg _ _ _ _ (List.Mem.head _)
theorem body_opVnot (st n : Nat) (p : Pvu) (i : PvuWord) :
    p.Chg (opVnot.writes p i) opVnot.stores (decide (opVnot.cls = 6) || opVnot.streams) opVnot.calls (opVnot.body st n p i).p :=
  Pvu.putL_chg _ _ _ _ (List.Mem.head _)
theorem body_opVshli (st n : Nat) (p : Pvu) (i : PvuWord) :
    p.Chg (opVshli.writes p i) opVshli.stores (decide (opVshli.cls = 6) || opVshli.streams) opVshli.calls (opVshli.body st n p i).p :=
  Pvu.putL_chg _ _ _ _ (List.Mem.head _)
theorem body_opVsrli (st n : Nat) (p : Pvu) (i : PvuWord) :
    p.Chg (opVsrli.writes p i) opVsrli.stores (decide (opVsrli.cls = 6) || opVsrli.streams) opVsrli.calls (opVsrli.body st n p i).p :=
  Pvu.putL_chg _ _ _ _ (List.Mem.head _)
theorem body_opVbcast (st n : Nat) (p : Pvu) (i : PvuWord) :
    p.Chg (opVbcast.writes p i) opVbcast.stores (decide (opVbcast.cls = 6) || opVbcast.streams) opVbcast.calls (opVbcast.body st n p i).p :=
  Pvu.putL_chg _ _ _ _ (List.Mem.head _)
theorem body_opVmadd (st n : Nat) (p : Pvu) (i : PvuWord) :
    p.Chg (opVmadd.writes p i) opVmadd.stores (decide (opVmadd.cls = 6) || opVmadd.streams) opVmadd.calls (opVmadd.body st n p i).p :=
  Pvu.putL_chg _ _ _ _ (List.Mem.head _)
theorem body_opVmsub (st n : Nat) (p : Pvu) (i : PvuWord) :
    p.Chg (opVmsub.writes p i) opVmsub.stores (decide (opVmsub.cls = 6) || opVmsub.streams) opVmsub.calls (opVmsub.body st n p i).p :=
  Pvu.putL_chg _ _ _ _ (List.Mem.head _)
theorem body_opVmneg (st n : Nat) (p : Pvu) (i : PvuWord) :
    p.Chg (opVmneg.writes p i) opVmneg.stores (decide (opVmneg.cls = 6) || opVmneg.streams) opVmneg.calls (opVmneg.body st n p i).p :=
  Pvu.putL_chg _ _ _ _ (List.Mem.head _)
theorem body_opVmmul (st n : Nat) (p : Pvu) (i : PvuWord) :
    p.Chg (opVmmul.writes p i) opVmmul.stores (decide (opVmmul.cls = 6) || opVmmul.streams) opVmmul.calls (opVmmul.body st n p i).p :=
  Pvu.putL_chg _ _ _ _ (List.Mem.head _)
theorem body_opVmmulx (st n : Nat) (p : Pvu) (i : PvuWord) :
    p.Chg (opVmmulx.writes p i) opVmmulx.stores (decide (opVmmulx.cls = 6) || opVmmulx.streams) opVmmulx.calls (opVmmulx.body st n p i).p :=
  Pvu.putL_chg _ _ _ _ (List.Mem.head _)
theorem body_opVcmpeq (st n : Nat) (p : Pvu) (i : PvuWord) :
    p.Chg (opVcmpeq.writes p i) opVcmpeq.stores (decide (opVcmpeq.cls = 6) || opVcmpeq.streams) opVcmpeq.calls (opVcmpeq.body st n p i).p :=
  Pvu.putP_chg _ _ _ (List.Mem.head _)
theorem body_opVcmpltu (st n : Nat) (p : Pvu) (i : PvuWord) :
    p.Chg (opVcmpltu.writes p i) opVcmpltu.stores (decide (opVcmpltu.cls = 6) || opVcmpltu.streams) opVcmpltu.calls (opVcmpltu.body st n p i).p :=
  Pvu.putP_chg _ _ _ (List.Mem.head _)
theorem body_opVsel (st n : Nat) (p : Pvu) (i : PvuWord) :
    p.Chg (opVsel.writes p i) opVsel.stores (decide (opVsel.cls = 6) || opVsel.streams) opVsel.calls (opVsel.body st n p i).p :=
  Pvu.putL_chg _ _ _ _ (List.Mem.head _)
theorem body_opVperm (st n : Nat) (p : Pvu) (i : PvuWord) :
    p.Chg (opVperm.writes p i) opVperm.stores (decide (opVperm.cls = 6) || opVperm.streams) opVperm.calls (opVperm.body st n p i).p :=
  Pvu.putL_chg _ _ _ _ (List.Mem.head _)
theorem body_opVext (st n : Nat) (p : Pvu) (i : PvuWord) :
    p.Chg (opVext.writes p i) opVext.stores (decide (opVext.cls = 6) || opVext.streams) opVext.calls (opVext.body st n p i).p :=
  Pvu.putX_chg _ _ _ (List.Mem.head _)
theorem body_opVins (st n : Nat) (p : Pvu) (i : PvuWord) :
    p.Chg (opVins.writes p i) opVins.stores (decide (opVins.cls = 6) || opVins.streams) opVins.calls (opVins.body st n p i).p :=
  Pvu.putL_chg _ _ _ _ (List.Mem.head _)
theorem body_opVred (st n : Nat) (p : Pvu) (i : PvuWord) :
    p.Chg (opVred.writes p i) opVred.stores (decide (opVred.cls = 6) || opVred.streams) opVred.calls (opVred.body st n p i).p :=
  Pvu.putX_chg _ _ _ (List.Mem.head _)
theorem body_opPand (st n : Nat) (p : Pvu) (i : PvuWord) :
    p.Chg (opPand.writes p i) opPand.stores (decide (opPand.cls = 6) || opPand.streams) opPand.calls (opPand.body st n p i).p :=
  Pvu.putP_chg _ _ _ (List.Mem.head _)
theorem body_opPor (st n : Nat) (p : Pvu) (i : PvuWord) :
    p.Chg (opPor.writes p i) opPor.stores (decide (opPor.cls = 6) || opPor.streams) opPor.calls (opPor.body st n p i).p :=
  Pvu.putP_chg _ _ _ (List.Mem.head _)
theorem body_opPxor (st n : Nat) (p : Pvu) (i : PvuWord) :
    p.Chg (opPxor.writes p i) opPxor.stores (decide (opPxor.cls = 6) || opPxor.streams) opPxor.calls (opPxor.body st n p i).p :=
  Pvu.putP_chg _ _ _ (List.Mem.head _)
theorem body_opPnot (st n : Nat) (p : Pvu) (i : PvuWord) :
    p.Chg (opPnot.writes p i) opPnot.stores (decide (opPnot.cls = 6) || opPnot.streams) opPnot.calls (opPnot.body st n p i).p :=
  Pvu.putP_chg _ _ _ (List.Mem.head _)
theorem body_opPfirst (st n : Nat) (p : Pvu) (i : PvuWord) :
    p.Chg (opPfirst.writes p i) opPfirst.stores (decide (opPfirst.cls = 6) || opPfirst.streams) opPfirst.calls (opPfirst.body st n p i).p :=
  Pvu.putP_chg _ _ _ (List.Mem.head _)
theorem body_opPcnt (st n : Nat) (p : Pvu) (i : PvuWord) :
    p.Chg (opPcnt.writes p i) opPcnt.stores (decide (opPcnt.cls = 6) || opPcnt.streams) opPcnt.calls (opPcnt.body st n p i).p :=
  Pvu.putX_chg _ _ _ (List.Mem.head _)
theorem body_opVcompress (st n : Nat) (p : Pvu) (i : PvuWord) :
    p.Chg (opVcompress.writes p i) opVcompress.stores (decide (opVcompress.cls = 6) || opVcompress.streams) opVcompress.calls (opVcompress.body st n p i).p :=
  Pvu.putL_chg _ _ _ _ (List.Mem.head _)
theorem body_opVdecompress (st n : Nat) (p : Pvu) (i : PvuWord) :
    p.Chg (opVdecompress.writes p i) opVdecompress.stores (decide (opVdecompress.cls = 6) || opVdecompress.streams) opVdecompress.calls (opVdecompress.body st n p i).p :=
  Pvu.putL_chg _ _ _ _ (List.Mem.head _)
theorem body_opVunpack (st n : Nat) (p : Pvu) (i : PvuWord) :
    p.Chg (opVunpack.writes p i) opVunpack.stores (decide (opVunpack.cls = 6) || opVunpack.streams) opVunpack.calls (opVunpack.body st n p i).p :=
  Pvu.putL_chg _ _ _ _ (List.Mem.head _)
theorem body_opVinf (st n : Nat) (p : Pvu) (i : PvuWord) :
    p.Chg (opVinf.writes p i) opVinf.stores (decide (opVinf.cls = 6) || opVinf.streams) opVinf.calls (opVinf.body st n p i).p :=
  Pvu.putX_chg _ _ _ (List.Mem.head _)
theorem body_opVcenter (st n : Nat) (p : Pvu) (i : PvuWord) :
    p.Chg (opVcenter.writes p i) opVcenter.stores (decide (opVcenter.cls = 6) || opVcenter.streams) opVcenter.calls (opVcenter.body st n p i).p :=
  Pvu.putL_chg _ _ _ _ (List.Mem.head _)

/-- What the body of any row changes. -/
theorem body_chg {c : Instr} {op : PvuOp} {i : PvuWord} (h : pvuRow c = some (op, i)) (st n : Nat) (p : Pvu) :
    p.Chg (op.writes p i) op.stores (decide (op.cls = 6) || op.streams) op.calls (op.body st n p i).p := by
  cases c
  case pvuNop => cases h; exact body_opNop ..
  case pvuEnd => cases h; exact body_opEnd ..
  case brB => cases h; exact body_opB ..
  case brC => cases h; exact body_opBc ..
  case loop => cases h; exact body_opLoop ..
  case call => cases h; exact body_opCall ..
  case ret => cases h; exact body_opRet ..
  case modset => cases h; exact body_opModset ..
  case kload => cases h; exact body_opKload ..
  case sysrd => cases h; exact body_opSysrd ..
  case rdstat => cases h; exact body_opRdstat ..
  case resume => cases h; exact body_opResume ..
  case skipH => cases h; exact body_opSkip ..
  case failH => cases h; exact body_opFail ..
  case accept => cases h; exact body_opAccept ..
  case reject => cases h; exact body_opReject ..
  case addX => cases h; exact body_opAddX ..
  case subX => cases h; exact body_opSubX ..
  case andX => cases h; exact body_opAndX ..
  case orX => cases h; exact body_opOrX ..
  case xorX => cases h; exact body_opXorX ..
  case shlX => cases h; exact body_opShlX ..
  case shrX => cases h; exact body_opShrX ..
  case sarX => cases h; exact body_opSarX ..
  case mulX => cases h; exact body_opMulX ..
  case mulhuX => cases h; exact body_opMulhuX ..
  case addiX => cases h; exact body_opAddiX ..
  case liX => cases h; exact body_opLiX ..
  case lisX => cases h; exact body_opLisX ..
  case scmp => cases h; exact body_opScmp ..
  case scmpi => cases h; exact body_opScmpi ..
  case xmmul => cases h; exact body_opXmmul ..
  case xmadd => cases h; exact body_opXmadd ..
  case smov => cases h; exact body_opSmov ..
  case sxor => cases h; exact body_opSxor ..
  case sand => cases h; exact body_opSand ..
  case sor => cases h; exact body_opSor ..
  case sadd => cases h; exact body_opSadd ..
  case sins => cases h; exact body_opSins ..
  case sext => cases h; exact body_opSext ..
  case sbcast => cases h; exact body_opSbcast ..
  case vmov => cases h; exact body_opVmov ..
  case vadd => cases h; exact body_opVadd ..
  case vsub => cases h; exact body_opVsub ..
  case vand => cases h; exact body_opVand ..
  case vor => cases h; exact body_opVor ..
  case vxor => cases h; exact body_opVxor ..
  case vnot => cases h; exact body_opVnot ..
  case vshli => cases h; exact body_opVshli ..
  case vsrli => cases h; exact body_opVsrli ..
  case vbcast => cases h; exact body_opVbcast ..
  case vmadd => cases h; exact body_opVmadd ..
  case vmsub => cases h; exact body_opVmsub ..
  case vmneg => cases h; exact body_opVmneg ..
  case vmmul => cases h; exact body_opVmmul ..
  case vmmulx => cases h; exact body_opVmmulx ..
  case vcmpeq => cases h; exact body_opVcmpeq ..
  case vcmpltu => cases h; exact body_opVcmpltu ..
  case vsel => cases h; exact body_opVsel ..
  case vperm => cases h; exact body_opVperm ..
  case vext => cases h; exact body_opVext ..
  case vins => cases h; exact body_opVins ..
  case vred => cases h; exact body_opVred ..
  case pand => cases h; exact body_opPand ..
  case por => cases h; exact body_opPor ..
  case pxor => cases h; exact body_opPxor ..
  case pnot => cases h; exact body_opPnot ..
  case pfirst => cases h; exact body_opPfirst ..
  case pcnt => cases h; exact body_opPcnt ..
  case vld => cases h; exact body_opVld ..
  case vst => cases h; exact body_opVst ..
  case vlds => cases h; exact body_opVlds ..
  case vsts => cases h; exact body_opVsts ..
  case vgather => cases h; exact body_opVgather ..
  case vscatter => cases h; exact body_opVscatter ..
  case vldff => cases h; exact body_opVldff ..
  case vgatherff => cases h; exact body_opVgatherff ..
  case sld => cases h; exact body_opSld ..
  case sst => cases h; exact body_opSst ..
  case xld => cases h; exact body_opXld ..
  case xst => cases h; exact body_opXst ..
  case vldk => cases h; exact body_opVldk ..
  case vldkff => cases h; exact body_opVldkff ..
  case sldk => cases h; exact body_opSldk ..
  case ntt => cases h; exact body_opNtt ..
  case intt => cases h; exact body_opIntt ..
  case pwmul => cases h; exact body_opPwmul ..
  case pwmac => cases h; exact body_opPwmac ..
  case vcompress => cases h; exact body_opVcompress ..
  case vdecompress => cases h; exact body_opVdecompress ..
  case vpack => cases h; exact body_opVpack ..
  case vunpack => cases h; exact body_opVunpack ..
  case vp2r => cases h; exact body_opVp2r ..
  case vdecomp => cases h; exact body_opVdecomp ..
  case vmkhint => cases h; exact body_opVmkhint ..
  case vusehint => cases h; exact body_opVusehint ..
  case vinf => cases h; exact body_opVinf ..
  case vcenter => cases h; exact body_opVcenter ..
  case kinit => cases h; exact body_opKinit ..
  case kabss => cases h; exact body_opKabss ..
  case kabsl => cases h; exact body_opKabsl ..
  case kabsx => cases h; exact body_opKabsx ..
  case kfinal => cases h; exact body_opKfinal ..
  case samplentt => cases h; exact body_opSamplentt ..
  case samplerej => cases h; exact body_opSamplerej ..
  case sampleeta => cases h; exact body_opSampleeta ..
  case samplecbd => cases h; exact body_opSamplecbd ..
  case sampleball => cases h; exact body_opSampleball ..
  case mshare => cases h; exact body_opMshare ..
  case mrefresh => cases h; exact body_opMrefresh ..
  case ma2b => cases h; exact body_opMa2b ..
  case mb2a => cases h; exact body_opMb2a ..
  case mand => cases h; exact body_opMand ..
  case mcomp => cases h; exact body_opMcomp ..
  case mdecomp => cases h; exact body_opMdecomp ..
  case mnorm => cases h; exact body_opMnorm ..
  case meq => cases h; exact body_opMeq ..
  case msel => cases h; exact body_opMsel ..
  case unmask => cases h; exact body_opUnmask ..
  all_goals cases h

/-- Only share tags and the times at which results are ready differ. -/
def Pvu.TagTime (p q : Pvu) : Prop :=
  q = { p with
    lTag := q.lTag, sTag := q.sTag, xTag := q.xTag, lReady := q.lReady, sReady := q.sReady, xReady := q.xReady,
    pReady := q.pReady, mReady := q.mReady, statReady := q.statReady }

theorem Pvu.TagTime.trans {p q r : Pvu} (h : p.TagTime q) (g : q.TagTime r) : p.TagTime r := by
  unfold Pvu.TagTime at *
  rw [g, h]

theorem Pvu.tagTime_foldl {α : Type} (f : Pvu → α → Pvu) (h : ∀ q a, Pvu.TagTime q (f q a)) (xs : List α) (p : Pvu) :
    p.TagTime (xs.foldl f p) := by
  induction xs generalizing p with
  | nil => rfl
  | cons a xs ih => exact (h p a).trans (ih _)

theorem Pvu.setTag_tagTime (p : Pvu) (r : Reg) (t : ShareTag) : p.TagTime (p.setTag r t) := by
  unfold Pvu.setTag
  repeat' split
  all_goals rfl

theorem Pvu.setReady_tagTime (p : Pvu) (t : Nat) (r : Reg) : p.TagTime (p.setReady t r) := by
  unfold Pvu.setReady
  repeat' split
  all_goals rfl

theorem PvuOp.retag_tagTime (op : PvuOp) (p q : Pvu) (i : PvuWord) : q.TagTime (op.retag p q i) := by
  unfold PvuOp.retag
  repeat' split
  all_goals first | rfl | exact Pvu.tagTime_foldl _ (fun _ _ => Pvu.setTag_tagTime ..) _ _

theorem PvuOp.retag_chg {d : List Reg} {st ku fl : Bool} (op : PvuOp) (p q : Pvu) (i : PvuWord) (h : ∀ r ∈ op.dst p i, r ∈ d) :
    q.Chg d st ku fl (op.retag p q i) := by
  unfold PvuOp.retag
  repeat' split
  all_goals first | exact Pvu.chg_refl .. | exact Pvu.chg_foldl _ _ (fun _ r hr => Pvu.setTag_chg _ _ _ (h r hr)) _

/-- What a patched routine leaves: its sequencer's state and the random words it took (R502, R503). -/
theorem Pvu.afterRoutine_chg {d : List Reg} {st ku fl : Bool} (p : Pvu) (m : Option MicroRun) : p.Chg d st ku fl (p.afterRoutine m) := by
  unfold Pvu.afterRoutine
  split
  · exact Pvu.chg_refl ..
  · refine ⟨⟨fun _ _ => ⟨rfl, rfl, rfl⟩, fun _ _ => ⟨rfl, rfl, rfl⟩, fun _ _ => ⟨rfl, rfl, rfl⟩, fun _ _ => ⟨rfl, rfl⟩,
      fun _ _ => rfl, fun _ => ⟨rfl, rfl, rfl, rfl, rfl⟩⟩, ?_⟩
    cases st <;> cases ku <;> cases fl <;> rfl

theorem Pvu.afterRoutine_eq (p : Pvu) (m : Option MicroRun) :
    p.afterRoutine m = { p with bob := (p.afterRoutine m).bob, mrgUsed := (p.afterRoutine m).mrgUsed } := by
  unfold Pvu.afterRoutine
  split <;> rfl

/-- Registers, local store and units of an executed instruction are those of its effect. -/
theorem pvuAfter_fields (start : Nat) (op : PvuOp) (i : PvuWord) (p : Pvu) (r : PvuRes) (m : Option MicroRun) (pc : Nat) :
    let q := pvuAfter start op i p r m pc
    q.l = r.p.l ∧ q.s = r.p.s ∧ q.x = r.p.x ∧ q.p = r.p.p ∧ q.m = r.p.m ∧ q.ls = r.p.ls ∧ q.ku = r.p.ku ∧ q.retStack = r.p.retStack
      ∧ q.ffcount = r.p.ffcount ∧ q.flagEq = r.p.flagEq ∧ q.flagLtu = r.p.flagLtu ∧ q.flagLt = r.p.flagLt
      ∧ q.pc = pc ∧ q.cyc = start + (patchedTime m (op.time p i)).1 + r.wait + r.extra
      ∧ q.phase = (if r.fin = .none then r.p.phase else .dummy) ∧ q.segEnd = (if r.fin = .none then r.p.segEnd else r.fin)
      ∧ q.order = r.p.order := by
  have h : r.p.TagTime ((op.dst p i).foldl (fun q d => q.setReady (start + (patchedTime m (op.time p i)).2 + r.wait) d) (op.retag p r.p i)) :=
    (op.retag_tagTime p r.p i).trans (Pvu.tagTime_foldl _ (fun q d => q.setReady_tagTime _ d) _ _)
  unfold pvuAfter
  dsimp only []
  generalize (op.dst p i).foldl (fun q d => q.setReady (start + (patchedTime m (op.time p i)).2 + r.wait) d) (op.retag p r.p i) = q1 at h ⊢
  unfold Pvu.TagTime at h
  split <;> (dsimp only []; rw [Pvu.afterRoutine_eq]; unfold Pvu.counted; dsimp only []; rw [h]
             exact ⟨rfl, rfl, rfl, rfl, rfl, rfl, rfl, rfl, rfl, rfl, rfl, rfl, rfl, rfl, rfl, rfl, rfl⟩)

theorem pvuAfter_chg {d : List Reg} {st ku fl : Bool} (start : Nat) (op : PvuOp) (i : PvuWord) (p : Pvu) (r : PvuRes) (m : Option MicroRun)
    (pc : Nat) (h : ∀ x ∈ op.dst p i, x ∈ d) (g : p.Chg d st ku fl r.p) : p.Chg d st ku fl (pvuAfter start op i p r m pc) := by
  have h1 : p.Chg d st ku fl
      ((op.dst p i).foldl (fun q d => q.setReady (start + (patchedTime m (op.time p i)).2 + r.wait) d) (op.retag p r.p i)) :=
    (g.trans (op.retag_chg p r.p i h)).trans (Pvu.chg_foldl _ _ (fun q a _ => q.setReady_chg _ a) _)
  unfold pvuAfter
  dsimp only []
  generalize (op.dst p i).foldl (fun q d => q.setReady (start + (patchedTime m (op.time p i)).2 + r.wait) d) (op.retag p r.p i) = q1 at h1 ⊢
  have h2 : p.Chg d st ku fl ((q1.counted r).afterRoutine m) :=
    (h1.trans (q1.setSeq_chg q1.pc q1.cyc q1.lastDone q1.resumeAt q1.segMode _ q1.phase q1.segEnd)).trans (Pvu.afterRoutine_chg ..)
  generalize (q1.counted r).afterRoutine m = q2 at h2 ⊢
  split
  · exact h2.trans (q2.setSeq_chg _ _ _ _ q2.segMode q2.cnt q2.phase q2.segEnd)
  · exact h2.trans (q2.setSeq_chg _ _ _ _ _ q2.cnt _ _)

theorem getPvu_setPvu_lt (s : State) {n : Nat} (p : Pvu) (h : n < 16) : (s.setPvu n p).getPvu n = p := by
  unfold State.setPvu State.getPvu
  exact vget_vset_self _ _ _ _ h

/-- A row of the instruction table, executed. -/
theorem exec_pvuRow {c : Instr} {op : PvuOp} {i : PvuWord} (h : pvuRow c = some (op, i)) (s : State) : exec c s = pvuExec op i s := by
  cases c
  case pvuNop => cases h; rfl
  case pvuEnd => cases h; rfl
  case brB => cases h; rfl
  case brC => cases h; rfl
  case loop => cases h; rfl
  case call => cases h; rfl
  case ret => cases h; rfl
  case modset => cases h; rfl
  case kload => cases h; rfl
  case sysrd => cases h; rfl
  case rdstat => cases h; rfl
  case resume => cases h; rfl
  case skipH => cases h; rfl
  case failH => cases h; rfl
  case accept => cases h; rfl
  case reject => cases h; rfl
  case addX => cases h; rfl
  case subX => cases h; rfl
  case andX => cases h; rfl
  case orX => cases h; rfl
  case xorX => cases h; rfl
  case shlX => cases h; rfl
  case shrX => cases h; rfl
  case sarX => cases h; rfl
  case mulX => cases h; rfl
  case mulhuX => cases h; rfl
  case addiX => cases h; rfl
  case liX => cases h; rfl
  case lisX => cases h; rfl
  case scmp => cases h; rfl
  case scmpi => cases h; rfl
  case xmmul => cases h; rfl
  case xmadd => cases h; rfl
  case smov => cases h; rfl
  case sxor => cases h; rfl
  case sand => cases h; rfl
  case sor => cases h; rfl
  case sadd => cases h; rfl
  case sins => cases h; rfl
  case sext => cases h; rfl
  case sbcast => cases h; rfl
  case vmov => cases h; rfl
  case vadd => cases h; rfl
  case vsub => cases h; rfl
  case vand => cases h; rfl
  case vor => cases h; rfl
  case vxor => cases h; rfl
  case vnot => cases h; rfl
  case vshli => cases h; rfl
  case vsrli => cases h; rfl
  case vbcast => cases h; rfl
  case vmadd => cases h; rfl
  case vmsub => cases h; rfl
  case vmneg => cases h; rfl
  case vmmul => cases h; rfl
  case vmmulx => cases h; rfl
  case vcmpeq => cases h; rfl
  case vcmpltu => cases h; rfl
  case vsel => cases h; rfl
  case vperm => cases h; rfl
  case vext => cases h; rfl
  case vins => cases h; rfl
  case vred => cases h; rfl
  case pand => cases h; rfl
  case por => cases h; rfl
  case pxor => cases h; rfl
  case pnot => cases h; rfl
  case pfirst => cases h; rfl
  case pcnt => cases h; rfl
  case vld => cases h; rfl
  case vst => cases h; rfl
  case vlds => cases h; rfl
  case vsts => cases h; rfl
  case vgather => cases h; rfl
  case vscatter => cases h; rfl
  case vldff => cases h; rfl
  case vgatherff => cases h; rfl
  case sld => cases h; rfl
  case sst => cases h; rfl
  case xld => cases h; rfl
  case xst => cases h; rfl
  case vldk => cases h; rfl
  case vldkff => cases h; rfl
  case sldk => cases h; rfl
  case ntt => cases h; rfl
  case intt => cases h; rfl
  case pwmul => cases h; rfl
  case pwmac => cases h; rfl
  case vcompress => cases h; rfl
  case vdecompress => cases h; rfl
  case vpack => cases h; rfl
  case vunpack => cases h; rfl
  case vp2r => cases h; rfl
  case vdecomp => cases h; rfl
  case vmkhint => cases h; rfl
  case vusehint => cases h; rfl
  case vinf => cases h; rfl
  case vcenter => cases h; rfl
  case kinit => cases h; rfl
  case kabss => cases h; rfl
  case kabsl => cases h; rfl
  case kabsx => cases h; rfl
  case kfinal => cases h; rfl
  case samplentt => cases h; rfl
  case samplerej => cases h; rfl
  case sampleeta => cases h; rfl
  case samplecbd => cases h; rfl
  case sampleball => cases h; rfl
  case mshare => cases h; rfl
  case mrefresh => cases h; rfl
  case ma2b => cases h; rfl
  case mb2a => cases h; rfl
  case mand => cases h; rfl
  case mcomp => cases h; rfl
  case mdecomp => cases h; rfl
  case mnorm => cases h; rfl
  case meq => cases h; rfl
  case msel => cases h; rfl
  case unmask => cases h; rfl
  all_goals cases h

/-- The PVU that an instruction leaves when it executes now. -/
abbrev State.pvuAfterNow (s : State) (op : PvuOp) (i : PvuWord) (pc : Nat) : Pvu :=
  pvuAfter (s.pvuStart op i) op i (s.pvuReady i.pvu) (s.pvuRes op i) (s.pvuRoutine op i) pc

/-- What an executed instruction leaves, in one lemma. -/
theorem pvuRow_next {c : Instr} {op : PvuOp} {i : PvuWord} (h : pvuRow c = some (op, i)) {s : State} {pc : Nat}
    (ha : s.pvuAccepts op i) (he : (s.pvuRes op i).exc = none) (hp : nextPc (s.pvuReady i.pvu) (s.pvuRes op i) = some pc) :
    ∃ u t, exec c s = .next t
      ∧ (s.setPvu i.pvu (s.pvuAfterNow op i pc)).Signals u
      ∧ t = (match (s.pvuRes op i).fin, (s.pvuReady i.pvu).jobId with
        | .ended last, some id => if last || (s.pvuReady i.pvu).lastSeg then u.modJob id (fun j => { j with ended := true }) else u
        | _, _ => u)
      ∧ t.getPvu i.pvu = s.pvuAfterNow op i pc
      ∧ ∀ m, m ≠ i.pvu → t.getPvu m = s.getPvu m := by
  obtain ⟨u, hu, -, -, e⟩ := pvuCommit_eq (s := s) ha.1.2.1 ha.1.2.2.1 ha.1.2.2.2 i.pvu (s.pvuStart op i) op i
    (s.pvuReady i.pvu) (s.pvuRes op i) (s.pvuRoutine op i) pc
  have hpv : u.pvu = (s.setPvu i.pvu (s.pvuAfterNow op i pc)).pvu := by
    rw [hu.1]
  have ht : ∀ x : State, x.pvu = u.pvu →
      x.getPvu i.pvu = s.pvuAfterNow op i pc
      ∧ ∀ m, m ≠ i.pvu → x.getPvu m = s.getPvu m := by
    intro x hx
    have hg : ∀ m, x.getPvu m = (s.setPvu i.pvu (s.pvuAfterNow op i pc)).getPvu m := by
      intro m; show vget x.pvu m {} = vget _ m {}; rw [hx, hpv]
    refine ⟨by rw [hg, getPvu_setPvu_lt _ _ ha.1.1.2.1], fun m hm => ?_⟩
    rw [hg, State.getPvu_setPvu_other s _ hm]
  have hpvu : ∀ id f, (u.modJob id f).pvu = u.pvu := by
    intro id f; unfold State.modJob; split <;> rfl
  refine ⟨u, _, (exec_pvuRow h s).trans (pvuRun_commit ha he hp), hu, e, ?_⟩
  refine ht _ ?_
  rw [e]
  split
  · split
    · exact hpvu _ _
    · rfl
  · rfl

end Sys2Proof.Machine
end

