-- ==== Sys2Proof/Laws/Store.lean ====
section
/-! SUPPORT. The local store keeps its canonical form (R213, R216): addresses rising and no zero byte listed, after every
operation that writes, clears or copies into it. -/

namespace Sys2Proof.Machine

open Sys2Proof

theorem KV.sorted_iff {α : Type} (m : KV α) : KV.sorted m = true ↔ m.Pairwise (fun x y => x.1 < y.1) := by
  induction m with
  | nil => simp [KV.sorted]
  | cons x m ih =>
    cases m with
    | nil => simp [KV.sorted]
    | cons y m =>
      rw [KV.sorted, Bool.and_eq_true, decide_eq_true_eq, ih, List.pairwise_cons (a := x), List.pairwise_cons (a := y)]
      constructor
      · rintro ⟨h, hy, hm⟩
        refine ⟨fun z hz => ?_, hy, hm⟩
        rcases List.mem_cons.1 hz with rfl | hz
        · exact h
        · exact Nat.lt_trans h (hy z hz)
      · rintro ⟨hx, hm⟩
        exact ⟨hx y (List.mem_cons_self ..), hm⟩

theorem KV.mem_erase {α : Type} (m : KV α) (k : Nat) (x : Nat × α) (h : x ∈ KV.erase m k) : x ∈ m := by
  induction m with
  | nil => simp [KV.erase] at h
  | cons y m ih =>
    simp only [KV.erase] at h
    split at h
    · exact List.mem_cons_of_mem _ (ih h)
    · rcases List.mem_cons.1 h with h | h
      · exact h ▸ List.mem_cons_self ..
      · exact List.mem_cons_of_mem _ (ih h)

/-- Holding a value keeps the order. -/
theorem KV.sorted_set {α : Type} (m : KV α) (k : Nat) (a : α) (h : KV.sorted m = true) : KV.sorted (KV.set m k a) = true := by
  rw [KV.sorted_iff] at *
  induction m with
  | nil => simp [KV.set]
  | cons y m ih =>
    obtain ⟨hy, hm⟩ := List.pairwise_cons.1 h
    simp only [KV.set]
    split
    · rename_i hk
      refine List.pairwise_cons.2 ⟨fun z hz => ?_, h⟩
      rcases List.mem_cons.1 hz with rfl | hz
      · exact hk
      · exact Nat.lt_trans hk (hy z hz)
    · split
      · rename_i hk
        exact List.pairwise_cons.2 ⟨fun z hz => hk ▸ hy z hz, hm⟩
      · refine List.pairwise_cons.2 ⟨fun z hz => ?_, ih hm⟩
        rcases KV.mem_set m k a z hz with rfl | hz
        · show y.1 < k
          omega
        · exact hy z hz

/-- Holding nothing under a number keeps the order. -/
theorem KV.sorted_erase {α : Type} (m : KV α) (k : Nat) (h : KV.sorted m = true) : KV.sorted (KV.erase m k) = true := by
  rw [KV.sorted_iff] at *
  induction m with
  | nil => simp [KV.erase]
  | cons y m ih =>
    obtain ⟨hy, hm⟩ := List.pairwise_cons.1 h
    simp only [KV.erase]
    split
    · exact ih hm
    · exact List.pairwise_cons.2 ⟨fun z hz => hy z (KV.mem_erase m k z hz), ih hm⟩

/-- Leaving entries out keeps the order. -/
theorem KV.sorted_filter {α : Type} (m : KV α) (f : Nat × α → Bool) (h : KV.sorted m = true) : KV.sorted (m.filter f) = true := by
  rw [KV.sorted_iff] at *
  exact h.filter f

/-- The canonical form of a store. -/
def cellsWf (m : List Host.Cell) : Prop := KV.sorted m = true ∧ m.all (fun c => decide (c.2 ≠ 0)) = true

theorem Pvu.lsWf_iff (p : Pvu) : p.lsWf = true ↔ cellsWf p.ls := by simp [Pvu.lsWf, cellsWf]

/-- A byte stored. -/
theorem lsPut_wf (m : List Host.Cell) (a : Nat) (b : Byte) (h : cellsWf m) : cellsWf (lsPut m a b) := by
  obtain ⟨hs, hz⟩ := h
  rw [List.all_eq_true] at hz
  unfold lsPut
  split
  · exact ⟨KV.sorted_erase m a hs, List.all_eq_true.2 fun x hx => hz x (KV.mem_erase m a x hx)⟩
  · rename_i hb
    refine ⟨KV.sorted_set m a b hs, List.all_eq_true.2 fun x hx => ?_⟩
    rcases KV.mem_set m a b x hx with rfl | hx
    · simpa using hb
    · exact hz x hx

/-- Bytes left out. -/
theorem cellsWf_filter (m : List Host.Cell) (f : Host.Cell → Bool) (h : cellsWf m) : cellsWf (m.filter f) :=
  ⟨KV.sorted_filter m f h.1, List.all_eq_true.2 fun x hx => List.all_eq_true.1 h.2 x (List.mem_filter.1 hx).1⟩

/-- Bytes stored one after the other. -/
theorem cellsWf_foldl {α : Type} (xs : List α) (g : List Host.Cell → α → List Host.Cell) (hg : ∀ m x, cellsWf m → cellsWf (g m x))
    (m : List Host.Cell) (h : cellsWf m) : cellsWf (xs.foldl g m) := by
  induction xs generalizing m with
  | nil => exact h
  | cons x xs ih => exact ih _ (hg m x h)

/-- The bytes of a store. -/
theorem storeBytes_lsWf (p : Pvu) (bs : List (Nat × Byte × Bool)) (h : p.lsWf = true) : (storeBytes p bs).lsWf = true :=
  (Pvu.lsWf_iff _).2 (cellsWf_foldl bs storeByte (fun m b => lsPut_wf m b.1 b.2.1) p.ls ((Pvu.lsWf_iff p).1 h))

/-- Pages cleared. -/
theorem clearPages_lsWf (p : Pvu) (gs : List Nat) (h : p.lsWf = true) : (clearPages p gs).lsWf = true :=
  (Pvu.lsWf_iff _).2 (cellsWf_filter p.ls _ ((Pvu.lsWf_iff p).1 h))

/-- A job's pages loaded. -/
theorem loadPages_lsWf (p : Pvu) (gs : List Nat) (bs : List Byte) (mark : Option Nat) (h : p.lsWf = true) :
    (loadPages p gs bs mark).lsWf = true :=
  (Pvu.lsWf_iff _).2 (cellsWf_foldl _ (fun m (b : Byte × Nat) => lsPut m (jobAddr { p with jobPages := gs } b.2) b.1)
    (fun m b => lsPut_wf m _ b.1) p.ls ((Pvu.lsWf_iff p).1 h))

/-- An empty local store, as after reset and after a pin. -/
theorem empty_lsWf (p : Pvu) (h : p.ls = []) : p.lsWf = true := by simp [Pvu.lsWf, h, KV.sorted]

end Sys2Proof.Machine
end

