-- ==== Sys2Proof/WellFormed.lean ====
section
/-! DEFINITION. Well-formed commands: every number an operand carries names something the spec numbers (functions 0 to 255,
PVUs, BNEs, ports, slots, views, vectors, doorbells, memory regions, tamper inputs) or a size of access. -/

namespace Sys2Proof

def inRange (n bound : Nat) : Bool := decide (n < bound)

/-- Sizes of a host access: 1, 2, 4 or 8 bytes (R46). -/
def sizeOk (n : Nat) : Bool := n == 1 || n == 2 || n == 4 || n == 8

/-- Keys of register pages: a block code below 0x80, or 256 + function for an instance page (R42, R49). -/
def pageOk (k : Nat) : Bool := decide (k < 0x80) || (decide (256 ≤ k) && decide (k < 512))

/-- Codes of engines: PVUs, BNEs and the Hash Array (R15). -/
def engineOk (k : Nat) : Bool := decide (0x10 ≤ k) && decide (k ≤ 0x28)

/-- A frame's nodes are 0 to 15 or broadcast, its sequence number has 32 bits (R656). -/
def headerOk (h : PlkHeader) : Bool := inRange h.src 256 && inRange h.dst 256 && inRange h.seq (2 ^ 32)

/-- At most two 32-bit accesses, each arriving at most twice (R46, R612). -/
def copiesOk (got : List (List CtlCopy)) : Bool := decide (got.length ≤ 2) && got.all (fun l => decide (l.length ≤ 2))

/-- A command is well formed. -/
def Instr.wf : Instr → Bool
  | .registerWrite fn addr size v => inRange fn 256 && inRange addr (2 ^ 26) && sizeOk size && copiesOk v.got
  | .counterLoRead fn r => inRange fn 256 && inRange r.addr (2 ^ 26) && sizeOk r.size && copiesOk r.got
  | .irqClear blk _ => pageOk blk
  | .irqMask blk _ => pageOk blk
  | .msixUnmask fn vec => inRange fn 256 && inRange vec 64
  | .blkCtrlLock blk => pageOk blk
  | .fltStatus blk _ => pageOk blk
  | .fltForce blk _ => pageOk blk
  | .hrtAck _ => true
  | .hrtFirst _ => true
  | .hrtBeat _ => true
  | .hrtRestore _ _ => true
  | .srcCfgWrite _ => true
  | .doorbell fn idx size => inRange fn 256 && inRange idx 64 && sizeOk size
  | .instAdb fn size => inRange fn 256 && sizeOk size
  | .instEcinv fn _ => inRange fn 256
  | .adminQueueEnable fn _ => inRange fn 256
  | .adminQueueDisable fn _ => inRange fn 256
  | .scan fn q _ => inRange fn 256 && inRange q 65
  | .scanResume fn q _ => inRange fn 256 && inRange q 65
  | .entryFetch fn q _ => inRange fn 256 && inRange q 65
  | .inputFetch _ _ => true
  | .tickEdge => true
  | .segmentStart pvu _ => inRange pvu 16
  | .segmentOverrun pvu => inRange pvu 16
  | .bneRunStart r => inRange r.bne 8
  | .bneRunEnd bne => inRange bne 8
  | .trdTickcfg _ => true
  | .periodApplied => true
  | .histClear _ => true
  | .tickInEdge _ _ => true
  | .tickinLost => true
  | .damperStageChange _ => true
  | .pvuDerate pvu => inRange pvu 16
  | .engineClockGate code => engineOk code
  | .selftestStart blk _ => pageOk blk
  | .selftestDone blk _ _ => pageOk blk
  | .pvuNop i => inRange i.pvu 16
  | .pvuEnd i => inRange i.pvu 16
  | .brB i => inRange i.pvu 16
  | .brC i => inRange i.pvu 16
  | .loop i => inRange i.pvu 16
  | .call i => inRange i.pvu 16
  | .ret i => inRange i.pvu 16
  | .modset i => inRange i.pvu 16
  | .kload i => inRange i.pvu 16
  | .sysrd i => inRange i.pvu 16
  | .rdstat i => inRange i.pvu 16
  | .resume i => inRange i.pvu 16
  | .skipH i => inRange i.pvu 16
  | .failH i => inRange i.pvu 16
  | .accept i => inRange i.pvu 16
  | .reject i => inRange i.pvu 16
  | .addX i => inRange i.pvu 16
  | .subX i => inRange i.pvu 16
  | .andX i => inRange i.pvu 16
  | .orX i => inRange i.pvu 16
  | .xorX i => inRange i.pvu 16
  | .shlX i => inRange i.pvu 16
  | .shrX i => inRange i.pvu 16
  | .sarX i => inRange i.pvu 16
  | .mulX i => inRange i.pvu 16
  | .mulhuX i => inRange i.pvu 16
  | .addiX i => inRange i.pvu 16
  | .liX i => inRange i.pvu 16
  | .lisX i => inRange i.pvu 16
  | .scmp i => inRange i.pvu 16
  | .scmpi i => inRange i.pvu 16
  | .xmmul i => inRange i.pvu 16
  | .xmadd i => inRange i.pvu 16
  | .smov i => inRange i.pvu 16
  | .sxor i => inRange i.pvu 16
  | .sand i => inRange i.pvu 16
  | .sor i => inRange i.pvu 16
  | .sadd i => inRange i.pvu 16
  | .sins i => inRange i.pvu 16
  | .sext i => inRange i.pvu 16
  | .sbcast i => inRange i.pvu 16
  | .vmov i => inRange i.pvu 16
  | .vadd i => inRange i.pvu 16
  | .vsub i => inRange i.pvu 16
  | .vand i => inRange i.pvu 16
  | .vor i => inRange i.pvu 16
  | .vxor i => inRange i.pvu 16
  | .vnot i => inRange i.pvu 16
  | .vshli i => inRange i.pvu 16
  | .vsrli i => inRange i.pvu 16
  | .vbcast i => inRange i.pvu 16
  | .vmadd i => inRange i.pvu 16
  | .vmsub i => inRange i.pvu 16
  | .vmneg i => inRange i.pvu 16
  | .vmmul i => inRange i.pvu 16
  | .vmmulx i => inRange i.pvu 16
  | .vcmpeq i => inRange i.pvu 16
  | .vcmpltu i => inRange i.pvu 16
  | .vsel i => inRange i.pvu 16
  | .vperm i => inRange i.pvu 16
  | .vext i => inRange i.pvu 16
  | .vins i => inRange i.pvu 16
  | .vred i => inRange i.pvu 16
  | .pand i => inRange i.pvu 16
  | .por i => inRange i.pvu 16
  | .pxor i => inRange i.pvu 16
  | .pnot i => inRange i.pvu 16
  | .pfirst i => inRange i.pvu 16
  | .pcnt i => inRange i.pvu 16
  | .vld i => inRange i.pvu 16
  | .vst i => inRange i.pvu 16
  | .vlds i => inRange i.pvu 16
  | .vsts i => inRange i.pvu 16
  | .vgather i => inRange i.pvu 16
  | .vscatter i => inRange i.pvu 16
  | .vldff i => inRange i.pvu 16
  | .vgatherff i => inRange i.pvu 16
  | .sld i => inRange i.pvu 16
  | .sst i => inRange i.pvu 16
  | .xld i => inRange i.pvu 16
  | .xst i => inRange i.pvu 16
  | .vldk i => inRange i.pvu 16
  | .vldkff i => inRange i.pvu 16
  | .sldk i => inRange i.pvu 16
  | .ntt i => inRange i.pvu 16
  | .intt i => inRange i.pvu 16
  | .pwmul i => inRange i.pvu 16
  | .pwmac i => inRange i.pvu 16
  | .vcompress i => inRange i.pvu 16
  | .vdecompress i => inRange i.pvu 16
  | .vpack i => inRange i.pvu 16
  | .vunpack i => inRange i.pvu 16
  | .vp2r i => inRange i.pvu 16
  | .vdecomp i => inRange i.pvu 16
  | .vmkhint i => inRange i.pvu 16
  | .vusehint i => inRange i.pvu 16
  | .vinf i => inRange i.pvu 16
  | .vcenter i => inRange i.pvu 16
  | .kinit i => inRange i.pvu 16
  | .kabss i => inRange i.pvu 16
  | .kabsl i => inRange i.pvu 16
  | .kabsx i => inRange i.pvu 16
  | .kfinal i => inRange i.pvu 16
  | .samplentt i => inRange i.pvu 16
  | .samplerej i => inRange i.pvu 16
  | .sampleeta i => inRange i.pvu 16
  | .samplecbd i => inRange i.pvu 16
  | .sampleball i => inRange i.pvu 16
  | .mshare i => inRange i.pvu 16
  | .mrefresh i => inRange i.pvu 16
  | .ma2b i => inRange i.pvu 16
  | .mb2a i => inRange i.pvu 16
  | .mand i => inRange i.pvu 16
  | .mcomp i => inRange i.pvu 16
  | .mdecomp i => inRange i.pvu 16
  | .mnorm i => inRange i.pvu 16
  | .meq i => inRange i.pvu 16
  | .msel i => inRange i.pvu 16
  | .unmask i => inRange i.pvu 16
  | .bneNop i => inRange i.bne 8
  | .ldin i => inRange i.bne 8
  | .ldkey i => inRange i.bne 8
  | .stout i => inRange i.bne 8
  | .setmod i => inRange i.bne 8
  | .range i => inRange i.bne 8
  | .madd i => inRange i.bne 8
  | .msub i => inRange i.bne 8
  | .mmul i => inRange i.bne 8
  | .msqr i => inRange i.bne 8
  | .minv i => inRange i.bne 8
  | .mexp i => inRange i.bne 8
  | .mrand i => inRange i.bne 8
  | .mcopy i => inRange i.bne 8
  | .mcswap i => inRange i.bne 8
  | .mclr i => inRange i.bne 8
  | .bneEnd i => inRange i.bne 8
  | .queueNop _ => true
  | .patternRun _ => true
  | .rngFill _ => true
  | .clusterStatus _ => true
  | .mlkemKeygen _ => true
  | .mlkemEncaps _ => true
  | .mlkemDecaps _ => true
  | .mldsaKeygen _ => true
  | .mldsaSign _ => true
  | .mldsaVerify _ => true
  | .hashmldsaSign _ => true
  | .hashmldsaVerify _ => true
  | .fndsaVerify _ => true
  | .matrixPreload _ => true
  | .slhdsaKeygen _ => true
  | .slhdsaSign _ => true
  | .slhdsaVerify _ => true
  | .hashslhdsaSign _ => true
  | .hashslhdsaVerify _ => true
  | .lmsKeygen _ => true
  | .lmsSign _ => true
  | .lmsVerify _ => true
  | .xmssKeygen _ => true
  | .xmssSign _ => true
  | .xmssVerify _ => true
  | .statefulStatus _ => true
  | .statefulAdvance _ => true
  | .hqcKeygen _ => true
  | .hqcEncaps _ => true
  | .hqcDecaps _ => true
  | .mceKeygen _ => true
  | .mceEncaps _ => true
  | .mceDecaps _ => true
  | .mcePin _ => true
  | .pinLoad pvu => inRange pvu 16
  | .mceUnpin _ => true
  | .unpinDone pvu => inRange pvu 16
  | .modAdd _ => true
  | .modSub _ => true
  | .modMul _ => true
  | .modSqr _ => true
  | .modInv _ => true
  | .modExp _ => true
  | .modRand _ => true
  | .rsaKeygen _ => true
  | .rsaSign _ => true
  | .rsaVerify _ => true
  | .rsaEncrypt _ => true
  | .rsaDecrypt _ => true
  | .ecKeygen _ => true
  | .ecdsaSign _ => true
  | .ecdsaVerify _ => true
  | .ecdh _ => true
  | .eddsaKeygen _ => true
  | .eddsaSign _ => true
  | .eddsaVerify _ => true
  | .xdhKeygen _ => true
  | .xdh _ => true
  | .hybKeygen _ => true
  | .hybEncaps _ => true
  | .hybDecaps _ => true
  | .compKeygen _ => true
  | .compSign _ => true
  | .compVerify _ => true
  | .keyImport _ => true
  | .keyExport _ => true
  | .pubkeyRegister _ => true
  | .pubkeyRead _ => true
  | .keyDelete _ => true
  | .keyDeleteCleanup _ => true
  | .objectBlockErase _ _ => true
  | .keyAttrRead _ => true
  | .keyAttrSet _ => true
  | .keyBind _ => true
  | .symKeygen _ => true
  | .hmac _ => true
  | .hkdf _ => true
  | .kbkdf _ => true
  | .hash _ => true
  | .journalProgramDone _ => true
  | .identify _ => true
  | .setVersion _ => true
  | .setVersionApply fn => inRange fn 256
  | .queueCreate _ => true
  | .queueDestroy _ => true
  | .queueDestroyDone _ => true
  | .queueCancel _ _ => true
  | .queueCancelDone _ => true
  | .patternLoad _ => true
  | .patternUnload _ => true
  | .patternUnloadDone _ => true
  | .logRead _ => true
  | .pmuAssign _ => true
  | .pmuRelease _ => true
  | .sampleStart _ => true
  | .sampleStop _ => true
  | .instanceCreate _ => true
  | .instanceModify _ => true
  | .instanceEnable _ => true
  | .instanceQuiesce _ => true
  | .instanceQuiesced fn => inRange fn 256
  | .instanceReset _ => true
  | .instanceDestroy _ => true
  | .flr fn => inRange fn 256
  | .busMasterEnableClear fn => inRange fn 256
  | .vfEnableClear => true
  | .instanceResetDone fn => inRange fn 256
  | .migrateOffer _ => true
  | .migrateOfferExpiry fn => inRange fn 256
  | .migrateFreeze _ => true
  | .instanceFrozen fn => inRange fn 256
  | .migrateSave _ => true
  | .migrateRestore _ _ => true
  | .migrateAbort _ => true
  | .dirtyLogStart _ => true
  | .dirtyLogRead _ => true
  | .dirtyLogStop _ => true
  | .recoveryWindowClose => true
  | .mbxUpSend fn => inRange fn 256
  | .mbxDnSend fn => inRange fn 256
  | .mbxUpAck fn => inRange fn 256
  | .mbxDnAck fn => inRange fn 256
  | .moduleMessage fn => inRange fn 256
  | .patchLoad _ => true
  | .patchActivate _ => true
  | .patchEngineTurn code _ => engineOk code
  | .patchStatus _ => true
  | .patchRead _ => true
  | .bneDummyRatio bne _ => inRange bne 8
  | .dgsKload fn _ => inRange fn 256
  | .keyLoadDone fn => inRange fn 256
  | .dgsKunload fn _ => inRange fn 256
  | .dgsOpen fn view => inRange fn 256 && inRange view 8
  | .dgsStart fn view => inRange fn 256 && inRange view 8
  | .dgsVdata fn view size _ => inRange fn 256 && inRange view 8 && sizeOk size
  | .dgsBlockCompressed fn view _ => inRange fn 256 && inRange view 8
  | .dgsFinal fn view => inRange fn 256 && inRange view 8
  | .dgsFinalDone fn view => inRange fn 256 && inRange view 8
  | .dgsAbort fn view => inRange fn 256 && inRange view 8
  | .dgsSave fn view => inRange fn 256 && inRange view 8
  | .dgsRestore fn view => inRange fn 256 && inRange view 8
  | .dgsClose fn view => inRange fn 256 && inRange view 8
  | .dgsResultRead fn view word => inRange fn 256 && inRange view 8 && inRange word 16
  | .rngDataRead fn => inRange fn 256
  | .rngFifoRefill fn => inRange fn 256
  | .conditionedBlock src _ => inRange src 8
  | .oscCalibration _ => true
  | .drbgReseed _ => true
  | .entRawCtrl _ _ => true
  | .entRawData _ => true
  | .lkaRelax _ => true
  | .assessmentSlotEnd code _ => engineOk code
  | .darningPass _ _ _ => true
  | .rowRetirement region _ _ => inRange region 52
  | .injectionArm _ => true
  | .flashRefresh _ _ _ => true
  | .glowToggle => true
  | .tickStall => true
  | .mgcStall => true
  | .logLost => true
  | .telemetryRecord _ => true
  | .pmuClear _ => true
  | .pmuFreeze _ => true
  | .tamperAlarm input _ => inRange input 64
  | .selvedgeCheck _ => true
  | .loopCheck n _ _ => inRange n 48
  | .caseSwitch n _ => inRange n 8
  | .monitorDisagree m _ => inRange m 4
  | .vbatLow _ => true
  | .tamperConfigWrite _ _ => true
  | .tmpRelease _ => true
  | .evidenceCopy => true
  | .drillExpiry => true
  | .cardInserted slot => inRange slot 6
  | .cardRemoved slot => inRange slot 6
  | .cardActivate slot => inRange slot 6
  | .cardDeactivate slot => inRange slot 6
  | .cardWarmReset slot => inRange slot 6
  | .atrReceived slot _ => inRange slot 6
  | .atrTimeout slot => inRange slot 6
  | .vccOvercurrent slot => inRange slot 6
  | .apduDataWrite _ => true
  | .apduStart _ => true
  | .apduResponse slot _ => inRange slot 6
  | .apduDataRead => true
  | .quorumOpen _ => true
  | .quorumClose _ => true
  | .quorumCard slot _ => inRange slot 6
  | .quorumTimeout => true
  | .portEnable port _ => inRange port 8
  | .peerFprWrite _ => true
  | .peerFprClear _ => true
  | .plkTrain port _ => inRange port 8
  | .plkKeepalive port h => inRange port 8 && headerOk h
  | .plkKeepaliveSend port => inRange port 8
  | .plkTick port h _ _ => inRange port 8 && headerOk h
  | .plkJob port h _ => inRange port 8 && headerOk h
  | .plkResult port h _ _ _ => inRange port 8 && headerOk h
  | .plkRefuse port h _ _ => inRange port 8 && headerOk h
  | .plkSquash port h _ => inRange port 8 && headerOk h
  | .plkKeyPut port h _ => inRange port 8 && headerOk h
  | .plkKeyDel port h _ => inRange port 8 && headerOk h
  | .plkKeyAck port h _ => inRange port 8 && headerOk h
  | .plkGrantReq port h _ => inRange port 8 && headerOk h
  | .plkGrant port h _ _ _ => inRange port 8 && headerOk h
  | .plkRevoke port h _ => inRange port 8 && headerOk h
  | .linkDownTimeout port => inRange port 8
  | .portRetrainRetry port => inRange port 8
  | .setEndpointId _ => true
  | .getEndpointId => true
  | .getMctpVersionSupport _ => true
  | .getMessageTypeSupport => true
  | .getTid => true
  | .getPldmVersion _ => true
  | .getPldmTypes => true
  | .getPldmCommands _ => true
  | .getPdrRepositoryInfo => true
  | .getPdr _ => true
  | .getSensorReading _ => true
  | .getStateSensorReadings _ => true
  | .readVin => true
  | .readIin => true
  | .readVout => true
  | .readIout => true
  | .readTemperature1 => true
  | .readPout => true
  | .statusWord => true
  | .clearFaults => true
  | .pmbusRevision => true
  | .mfrId => true
  | .spdmGetVersion => true
  | .uartConsoleInput _ => true
  | .pcieConfigRequest fn _ _ _ => inRange fn 256
  | .bankN _ => true
  | .bankCtrlEnter => true
  | .extest _ => true
  | .samplePreload _ => true
  | .idcode => true
  | .bankEnter => true
  | .bankAddr _ => true
  | .bankData => true
  | .bypass _ => true
  | .powerUp _ => true
  | .powerWarning => true
  | .warnClear => true
  | .coldReset _ => true
  | .pcrReset _ => true
  | .linkReset => true
  | .lifecycleTarget _ => true
  | .generateMs => true
  | .decomArm => true
  | .decomArmExpiry => true
  | .alarmCleared input => inRange input 64
  | .pcieLinkCorr => true
  | .pcieLinkUp => true
  | .spdmRequest _ _ => true
  | .areaEraseDone => true
  | .plkNak port h _ => inRange port 8 && headerOk h
  | .nextClassAttempt slot => inRange slot 6
  | .ppsResponse slot _ => inRange slot 6
  | .unsupportedPldmCmd _ _ => true
  | .pmbusOtherCommand _ _ => true
  | .patchRamReloadDone code => engineOk code

end Sys2Proof
end

