-- ==== Sys2Proof/Tests/Slice0.lean ====
section
/-! SUPPORT. Tests of single steps, ill-formed terms, and for each statement a state and operands that meet its hypotheses.
Expected values are those of the spec's tables or worked by hand from its rules. -/

namespace Sys2Proof.Tests

set_option Elab.async false -- one evaluation after another: each test's own thread would take a stack of its own

open Sys2Proof Sys2Proof.Machine

/-- A module that has reached READY in OPERATIONAL (3), with a driver that has set Bus Master Enable and unmasked its vectors. -/
def up : State := { State.reset with
  trd := { State.reset.trd with ready := true }, pcr := { State.reset.pcr with ready := true, powered := true }
  held := { State.reset.held with life := 3 }
  funcs := [(0, { physicalFunction with busMaster := true, maskedVec := [] })] }

/-- The command answers a next state that passes a test. -/
def gives (s : State) (c : Instr) (f : State → Bool) : Bool :=
  match exec c s with
  | .next t => f t
  | _ => false

-- Ill-formed commands, one for each check of WellFormed.

def w0 (n : Nat) : PvuWord := { pvu := n, w := 1, pg := 0, mc := 0, rd := 1, ra := 2, rb := 3, rc := 0, imm := 0 }
def b0 (n : Nat) : BneWord := { bne := n, len := 1, d := 50, a := 51, b := 52, mc := 0, rsv := 0, imm := 0 }
def hdr (n : Nat) : PlkHeader := { lengthOk := true, tagOk := true, src := n, dst := 1, seq := 1, tick := 0, bytes := 48 }

theorem test_wf_refuses_function : (Instr.doorbell 256 0 4).wf = false ∧ (Instr.doorbell 255 63 4).wf = true := by decide
theorem test_wf_refuses_address : (Instr.counterLoRead 0 { addr := 2 ^ 26 }).wf = false ∧ (Instr.counterLoRead 0 { addr := 0 }).wf = true := by decide
theorem test_wf_refuses_size : (Instr.instAdb 0 3).wf = false ∧ (Instr.instAdb 0 8).wf = true := by decide
theorem test_wf_refuses_doorbell : (Instr.doorbell 0 64 4).wf = false := by decide
theorem test_wf_refuses_page : (Instr.irqClear 0x80 0).wf = false ∧ (Instr.irqClear 512 0).wf = false ∧ (Instr.irqClear 256 0).wf = true := by decide
theorem test_wf_refuses_vector : (Instr.msixUnmask 0 64).wf = false ∧ (Instr.msixUnmask 0 63).wf = true := by decide
theorem test_wf_refuses_queue : (Instr.scan 0 65 []).wf = false ∧ (Instr.scan 0 64 []).wf = true := by decide
theorem test_wf_refuses_pvu : (Instr.addX (w0 16)).wf = false ∧ (Instr.addX (w0 15)).wf = true := by decide
theorem test_wf_refuses_bne : (Instr.madd (b0 8)).wf = false ∧ (Instr.madd (b0 7)).wf = true := by decide
theorem test_wf_refuses_engine : (Instr.engineClockGate 0x29).wf = false ∧ (Instr.engineClockGate 0x0F).wf = false
    ∧ (Instr.engineClockGate 0x28).wf = true := by decide
theorem test_wf_refuses_view : (Instr.dgsOpen 0 8).wf = false ∧ (Instr.dgsOpen 0 7).wf = true := by decide
theorem test_wf_refuses_word : (Instr.dgsResultRead 0 0 16).wf = false ∧ (Instr.dgsResultRead 0 0 15).wf = true := by decide
theorem test_wf_refuses_source : (Instr.conditionedBlock 8 .pass).wf = false ∧ (Instr.conditionedBlock 7 .pass).wf = true := by decide
theorem test_wf_refuses_region : (Instr.rowRetirement 52 0 true).wf = false ∧ (Instr.rowRetirement 51 0 true).wf = true := by decide
theorem test_wf_refuses_input : (Instr.alarmCleared 64).wf = false ∧ (Instr.alarmCleared 63).wf = true := by decide
theorem test_wf_refuses_loop : (Instr.loopCheck 48 0 true).wf = false ∧ (Instr.caseSwitch 8 true).wf = false
    ∧ (Instr.monitorDisagree 4 true).wf = false := by decide
theorem test_wf_refuses_slot : (Instr.cardInserted 6).wf = false ∧ (Instr.cardInserted 5).wf = true := by decide
theorem test_wf_refuses_port : (Instr.plkKeepaliveSend 8).wf = false ∧ (Instr.plkKeepaliveSend 7).wf = true := by decide
theorem test_wf_refuses_header : (Instr.plkKeepalive 0 (hdr 256)).wf = false ∧ (Instr.plkKeepalive 0 (hdr 15)).wf = true := by decide

-- The block.

theorem test_StepRunsFrontCommand : step { up with pending := [.tickStall, .logLost] } = exec .tickStall { up with pending := [.logLost] } := rfl
theorem test_step_idles : step State.reset = .next State.reset := rfl
theorem test_EveryCommandAnswers : up.namesAbsent (.addX (w0 3)) = false ∧ ({ up with part := 2 } : State).namesAbsent (.addX (w0 4)) = true
    ∧ ({ up with part := 2 } : State).namesAbsent (.madd (b0 2)) = true := by decide
theorem test_absent_stops : exec (.addX (w0 4)) { up with part := 2 } = .fault .absentUnit := rfl
theorem test_QueueFirstInFirstOut : ∃ t, step { up with pending := [.logLost, .tickStall] } = .next t ∧ t.pending = [.tickStall] := ⟨_, rfl, rfl⟩
theorem test_LifecycleInvariant : up.lifeInv := by unfold State.lifeInv lifeOk; decide
theorem test_TablesInvariant : up.tablesInv := by unfold State.tablesInv; decide
theorem test_DecommissionedForever :
    let s : State := { up with held := { up.held with life := 7, decommissioned := true } }
    s.lifeInv ∧ s.held.life = 7 := by unfold State.lifeInv lifeOk; decide
theorem test_TimeAdvancesAtEdges : up.trd.ready = true ∧ up.pcr.frozen = false
    := by decide
theorem test_tick_before_ready : gives State.reset .tickEdge (fun t => t.trd.edge == 0) = true := by decide

-- Host registers.

theorem test_RegisterWrites : up.pageWritable 0x50 = true ∧ (up.getBlk 0x50).lock = false ∧ bit (0x80000001 : W32) 31 = true
    ∧ up.targetExists (regTarget 0 0xFFFFFC) = false := by decide
theorem test_scratch_written : gives up (.registerWrite 0 (0x100000 + 0x10000 * 0x50 + 0x0F0) 4 { val := 0x12345678 })
    (fun t => (t.getBlk 0x50).scratch == 0x12345678) = true := by decide
theorem test_locked_flt_ctrl : gives (up.setBlk 0x50 { lock := true, corrIrq := false }) (.registerWrite 0 (0x100000 + 0x10000 * 0x50 + 0x04C) 4 { val := 1 })
    (fun t => (t.getBlk 0x50).corrIrq == false) = true := by decide
theorem test_HostAccesses : up.hostOpen = true ∧ up.fnExists 0 = true ∧ up.srcN 0x0100 = 0 ∧ counterLow (regTarget 0 (0x200000 + (counterSpan 0x10).1)) = true
    ∧ KV.get? up.latchHi (barKey 0 (0x200000 + (counterSpan 0x10).1)) = none := by decide
theorem test_narrow_write : gives up (.doorbell 0 3 2) (fun t => t.hrt.log.length == 1 && (t.getSrc 0x0100).latched.isSome) = true := by decide
/-- An access whose CRC is off by one fails its code, whatever the CRC's polynomial. -/
def badCopy : CtlCopy := { addr := 0, data := 0, be := 15, sender := 1, crc := Config.crc16 (ctlCovered { addr := 0, data := 0, be := 15, sender := 1, crc := 0 }) + 1 }
def goodCopy : CtlCopy := { badCopy with crc := Config.crc16 (ctlCovered badCopy) }
theorem test_HostAccesses_seam : up.seamPage (regTarget 0 (0x100000 + 0x10000 * 0x50 + 0x0F0)) = some 0x50 ∧ ctlSound badCopy = false ∧ ctlSound goodCopy = true := by
  refine ⟨by decide, ?_, by unfold ctlSound; simp [goodCopy, ctlCovered]⟩
  show decide (Config.crc16 (ctlCovered badCopy) + 1 = Config.crc16 (ctlCovered badCopy)) = false
  generalize Config.crc16 (ctlCovered badCopy) = c
  exact decide_eq_false (fun h => absurd h (by bv_omega))
theorem test_InterruptRegisters :
    let s := up.setBlk 0x50 { irqEn := true, irqEdge := 0x9, irqMask := 0xFFFFFFFF, request := true }
    s.pageWritable 0x50 = true ∧ s.hostOpen = true ∧ s.fnExists 0 = true ∧ (s.getFn 0).pendingVec.contains 3 = false := by decide
theorem test_irq_clear : gives (up.setBlk 0x50 { irqEn := true, irqEdge := 0x9, irqMask := 0xFFFFFFFF, request := true }) (.irqClear 0x50 0x8)
    (fun t => (t.getBlk 0x50).irqEdge == 1) = true := by decide
theorem test_msix_unmask : gives (up.setFn 0 { up.getFn 0 with maskedVec := [3], pendingVec := [3] }) (.msixUnmask 0 3)
    (fun t => t.out.length == 1 && (t.getFn 0).pendingVec.isEmpty) = true := by decide

-- Hearth.

/-- A tick stall's source latched at class SEVERE. -/
def latched : State := up.setSrc 0x5000 { latched := some 1 }

theorem test_FaultAcknowledge : latched.hostOpen = true ∧ latched.pageExists 0x50 = true ∧ latched.pageWritable 0x50 = true
    ∧ (latched.hrt.src.map (·.1)).Nodup ∧ bit (0x80000000 : W32) 31 = true := by decide
theorem test_flt_status : gives latched (.fltStatus 0x50 1) (fun t => (t.getSrc 0x5000).latched.isNone) = true := by decide
theorem test_HearthRegisters : (srcInfo 0x0101).isSome = true ∧ up.pcr.frozen = false ∧ up.hrt.halt = none
    ∧ ({ up with held := { up.held with life := 4, retired := 1 } } : State).retired 0x10 = true := by decide
theorem test_src_cfg : gives { up with hrt := { up.hrt with srcSel := 0x0101 } } (.srcCfgWrite 0x10000064)
    (fun t => t.srcN 0x0101 == 16 && t.srcW 0x0101 == 100) = true := by decide
theorem test_RaisedEvents : up.pcr.frozen = false ∧ up.pcr.powered = true ∧ up.pageWritable 0x01 = true ∧ 1 < (blockCaps 0x01).1
    ∧ (2 : W32) = bitW 1 ∧ up.held.life ≠ 4 ∧ ({ up with hrt := { up.hrt with lost := 3 } } : State).hrt.lost ≠ 0 := by decide
theorem test_forced_event : gives up (.fltForce 0x50 1) (fun t => t.running && (t.getSrc 0x5000).latched.isSome) = true := by decide
theorem test_RaisedEvents_named : up.pageWritable 0x28 = true ∧ 1 < (blockCaps 0x28).1 ∧ (2 : W32) = bitW 1 := by decide
theorem test_restore : let s : State := { up with held := { up.held with life := 4, retired := 1 } }
    gives s (.hrtRestore 0x10 true) (fun t => t.trd.returning == [0x10] && (t.getTest 0x10).pass) = true
      ∧ gives s (.hrtRestore 0x10 false) (fun t => t.trd.returning == [] && !(t.getTest 0x10).pass && (t.getSrc 0x1004).latched.isSome) = true := by decide

-- Queues.

/-- Queue 0 of the physical function, empty. -/
def queued : State := up.setQueue 0 0 { ring := 0x10000, headAddr := 0x20000, depth := 16, rescan := true }
/-- An owned entry of NOP in version 2: OWN = 1, ENTRY_VER = 2. -/
def nopEntry : List Byte := [0, 0, 0, 0x82] ++ List.replicate 60 0

theorem test_Doorbells : queued.hostOpen = true ∧ queued.fnExists 0 = true ∧ (queued.getFn 0).state = 2 ∧ (queued.getQueue 0 0).isSome = true
    ∧ queued.getQueue 0 1 = none ∧ (queued.getFn 0).aqEnabled = false ∧ bits (0 : W32) 21 16 = 0 := by decide
theorem test_doorbell_range : gives queued (.doorbell 0 1 4) (fun t => t.hrt.log.length == 1) = true := by decide
theorem test_AdminQueueEnabling : bit (up.getFn 0).aqCfg 31 = false ∧ (up.getFn 0).aqEnabled = false
    ∧ bits (0x80024003 : W32) 15 12 = 4 ∧ bits (0x80024003 : W32) 19 16 = 2 ∧ bits (0x80024003 : W32) 5 0 < (up.getFn 0).tableSize
    ∧ (up.getFn 0).state ≠ 1 ∧ up.dmaOff 0 = false := by decide
theorem test_admin_enable : gives up (.adminQueueEnable 0 0x80024003) (fun t => (t.getFn 0).aqEnabled && ((t.getQueue 0 64).map (·.depth)) == some 16) = true := by decide
theorem test_admin_cfg_err : gives up (.adminQueueEnable 0 0x80023003) (fun t => (t.getFn 0).aqErr && !(t.getFn 0).aqEnabled) = true := by decide
theorem test_ScanTakesEntries : ∃ x, queued.getQueue 0 0 = some x ∧ queued.mayScan 0 0 x = true ∧ x.cache = [] ∧ x.want = [] ∧ x.sp < x.head + x.depth
    ∧ x.rescan = true ∧ x.scanning = false ∧ x.paused = false ∧ bit (entryOf x.ver nopEntry).ctl 31 = true
    ∧ queued.pauses 0 0 x (entryOf x.ver nopEntry) = false ∧ queued.early 0 0 x.ver (entryOf x.ver nopEntry) false = none
    ∧ queued.entryStatus 0 (bits (entryOf x.ver nopEntry).ctl 15 0) = none := ⟨_, rfl, by decide⟩
theorem test_scan_takes : gives queued (.scan 0 0 [.data nopEntry]) (fun t => t.nextJob == 1 && (t.getQueue 0 0).map (·.sp) == some 1) = true := by decide

/-- A NOP's entry under its reads. -/
def fetching : State := { queued with jobs := [(0, { e := entryOf 2 nopEntry })], nextJob := 1 }
theorem test_InputFetch : KV.get? fetching.jobs 0 = some { e := entryOf 2 nopEntry } ∧ fetching.pcr.frozen = false
    ∧ fetching.checks { e := entryOf 2 nopEntry } { inTables := [], outTables := [], input := [], scorched := false } = .inl []
    ∧ (entryOf 2 nopEntry).inLen = 0 := by decide

/-- A beat with a sequence number that its link does not expect, and one with the number and the CRC of R611. -/
def badBeat : FabricBeat := { data := 0, scorch := 0, sender := 1, receiver := 0x40, seq := 9, crc := 0 }
def goodBeat : FabricBeat := { badBeat with seq := 0, crc := crc32c (beatCovered { badBeat with seq := 0 }) }
theorem test_InputFetch_lost : fetching.beatSound badBeat = false ∧ (fetching.getJob 0).retries < 2 ∧ fetching.mem.injArmed = false := by decide
theorem test_InputFetch_passed : fetching.beatSound goodBeat = true := by
  unfold State.beatSound
  simp only [Bool.and_eq_true, decide_eq_true_eq]
  have h : beatCovered goodBeat = beatCovered { badBeat with seq := 0 } := by simp only [beatCovered, goodBeat]
  exact ⟨by decide, by rw [h]; simp only [goodBeat]⟩
/-- The check value that the literature gives for CRC-32C over the digits 1 to 9. -/
theorem test_crc32c : crc32c [0x31, 0x32, 0x33, 0x34, 0x35, 0x36, 0x37, 0x38, 0x39] = 0xE3069283 := by decide +kernel

-- Treadle.

theorem test_TickRegisters : up.pageWritable 3 = true ∧ (up.getBlk 3).lock = false ∧ bits (0x28 : W32) 7 0 = 40 ∧ bits (0x28 : W32) 9 8 < 2
    ∧ up.running = true ∧ ({ up with trd := { up.trd with changing := true } } : State).planDrained = true
    ∧ 25 * up.trd.period ≤ 499 + 1 ∧ 501 ≤ 25 * up.trd.period + 1 := by decide
theorem test_tickcfg_bounds : gives up (.trdTickcfg 9) (fun t => t.trd.cfgErr && t.trd.cfg == 0x14) = true
    ∧ gives up (.trdTickcfg 10) (fun t => t.trd.cfg == 10 && t.trd.request) = true
    ∧ gives up (.trdTickcfg 160) (fun t => t.trd.cfg == 160) = true ∧ gives up (.trdTickcfg 161) (fun t => t.trd.cfgErr) = true := by decide
theorem test_TemperatureAndClocks : (0 : Nat) < 16 ∧ ({ up with pcr := { up.pcr with stage := 1 } } : State).pcr.stage ≠ 0
    ∧ (up.getPvu 0).derated = false ∧ up.retired 0x10 = false ∧ up.trd.plan = [] := by decide
theorem test_damper : gives up (.damperStageChange 1000) (fun t => t.pcr.stage == 1) = true
    ∧ gives { up with pcr := { up.pcr with stage := 1 } } (.damperStageChange 960) (fun t => t.pcr.stage == 1) = true
    ∧ gives { up with pcr := { up.pcr with stage := 1 } } (.damperStageChange 959) (fun t => t.pcr.stage == 0) = true := by decide
theorem test_clock_gate : gives (up.setPvu 2 { idleTicks := 50 }) (.engineClockGate 0x12) (fun t => !(t.getPvu 2).active) = true := by decide

-- PVU instructions.

/-- The context of ML-KEM (R197): 17 is a primitive 256th root of unity modulo 3329. -/
def kyber : ModCtx := { valid := true, q := 3329, n := 256, incomplete := true, omega := 17 }
/-- A context of ML-DSA: 1753 is a primitive 512th root of unity modulo 8380417. -/
def dilithium : ModCtx := { valid := true, q := 8380417, n := 256, incomplete := false, omega := 1753 }
/-- A PVU in a vendor segment of order 1 with one job page. -/
def pvu0 : Pvu := {
  phase := .running, budget := 30000, progLen := 64, pc := 4, cyc := 16, vendor := true, unmaskOk := true, powered := true, order := 1, jobPages := [0],
  m := #v[kyber, dilithium, {}, {}], x := (Vector.replicate 32 0).set 2 3 }
def busy : State := up.setPvu 0 pvu0
/-- The same with shares in L4 to L11 and S10, S11 (R210). -/
def busyMasked : State := up.setPvu 0 { pvu0 with
  lTag := ((((((((pvu0.lTag.set 4 (.share 0 4)).set 5 (.share 1 4)).set 6 (.share 0 6)).set 7 (.share 1 6)).set 8 (.share 0 8)).set 9 (.share 1 8)).set 10 (.share 0 10)).set 11 (.share 1 10))
  sTag := (pvu0.sTag.set 10 (.share 0 42)).set 11 (.share 1 42) }
/-- The same in a pattern with a handler at 32. -/
def busyPattern : State := up.setPvu 0 { pvu0 with vendor := false, ehandler := some 32, order := 0 }
/-- In its handler. -/
def inHandler : State := up.setPvu 0 { pvu0 with vendor := false, phase := .handler, ehandler := some 32, exc := { ecause := 2, epc := 4 }, order := 0 }

def wd (w : BitVec 2) (rd ra rb rc : BitVec 5) (imm : BitVec 25) : PvuWord := { pvu := 0, w := w, pg := 0, mc := 0, rd := rd, ra := ra, rb := rb, rc := rc, imm := imm }
def md (w : PvuWord) (m : BitVec 2) : PvuWord := { w with mc := m }

/-- A PVU accepts a word now. -/
def accepts (s : State) (x : PvuOp × PvuWord) : Bool :=
  (s.present (0x10 + x.2.pvu) && decide (x.2.pvu < 16) && s.running && decide ((s.getPvu x.2.pvu).phase ≠ .dummy) && !(s.getPvu x.2.pvu).bob.parked)
    && (decide (s.mem.injected = []) && !s.mem.injArmed && s.funcs.all (fun f => f.2.sampling.isNone))
    && (decide (s.pvuStart x.1 x.2 < (s.pvuReady x.2.pvu).budget) && (x.1.check (s.pvuReady x.2.pvu) x.2).isNone)
    && (!(s.pvuRoutine x.1 x.2).any (fun r => decide (r.ends = .fault)) && decide (x.2.upset = .none))

/-- No check of the hardware fires in a word that meets no upset. -/
theorem fault_of_upset_none (r : PvuRes) (p : Pvu) (i : PvuWord) (u : Option Nat) (h : i.upset = .none) : r.fault p i u = r.exc := by
  unfold PvuRes.fault
  rw [h]
  cases u <;> simp

theorem accepts_iff (s : State) (x : PvuOp × PvuWord) (h : accepts s x = true) : s.pvuAccepts x.1 x.2 := by
  simp only [accepts, Bool.and_eq_true, decide_eq_true_eq, Bool.not_eq_true', List.all_eq_true, Option.isNone_iff_eq_none] at h
  obtain ⟨⟨⟨⟨⟨⟨⟨h1, h2⟩, h3⟩, h4⟩, h5⟩, ⟨h6, h7⟩, h8⟩, h9, h10⟩, h11, h12⟩ := h
  exact ⟨⟨⟨h1, h2, h3, h4, h5⟩, h6, h7, h8⟩, h9, h10, h11, fault_of_upset_none _ _ _ _ h12⟩

/-- One word of each scalar instruction (R251). -/
def scalarWords : List (PvuOp × PvuWord) := [
  (opAddX, wd 0 1 2 3 0 0), (opSubX, wd 0 1 2 3 0 0), (opAndX, wd 0 1 2 3 0 0), (opOrX, wd 0 1 2 3 0 0), (opXorX, wd 0 1 2 3 0 0), (opShlX, wd 0 1 2 3 0 0),
  (opShrX, wd 0 1 2 3 0 0), (opSarX, wd 0 1 2 3 0 0), (opMulX, wd 0 1 2 3 0 0), (opMulhuX, wd 0 1 2 3 0 0), (opAddiX, wd 0 1 2 0 0 0x1FFFFFF), (opLiX, wd 0 1 0 0 0 5),
  (opLisX, wd 0 1 1 0 0 5), (opScmp, wd 0 0 2 3 0 0), (opScmpi, wd 0 0 2 0 0 7), (opRdstat, wd 0 1 0 0 0 0), (opXmmul, wd 0 1 2 3 0 0), (opXmadd, wd 0 1 2 3 0 0)]
/-- One word of each short-vector instruction (R252). -/
def shortWords : List (PvuOp × PvuWord) := [
  (opSmov, wd 0 1 2 0 0 0), (opSxor, wd 0 1 2 3 0 0), (opSand, wd 0 1 2 3 0 0), (opSor, wd 0 1 2 3 0 0), (opSadd, wd 1 1 2 3 0 0), (opSins, wd 2 1 2 0 0 1),
  (opSext, wd 2 1 2 0 0 1), (opSbcast, wd 0 1 2 0 0 0)]
/-- One word of each long-vector instruction (R253). -/
def longWords : List (PvuOp × PvuWord) := [
  (opVmov, wd 0 1 2 0 0 0), (opVadd, wd 0 1 2 3 0 0), (opVsub, wd 1 1 2 3 0 0), (opVand, wd 2 1 2 3 0 0), (opVor, wd 0 1 2 3 0 0), (opVxor, wd 0 1 2 3 0 0),
  (opVnot, wd 0 1 2 0 0 0), (opVshli, wd 0 1 2 0 0 15), (opVsrli, wd 2 1 2 0 0 63), (opVbcast, wd 0 1 2 0 0 0), (opVsel, wd 0 1 2 3 1 0), (opVperm, wd 0 1 2 3 0 0),
  (opVmadd, wd 0 1 2 3 0 0), (opVmsub, wd 0 1 2 3 0 0), (opVmneg, wd 0 1 2 0 0 0), (opVmmul, md (wd 1 1 2 3 0 0) 1), (opVmmulx, wd 0 1 2 3 0 0)]
/-- One word of each instruction on predicates and single elements (R253, R254). -/
def predWords : List (PvuOp × PvuWord) := [
  (opVcmpeq, wd 1 1 2 3 0 0), (opVcmpltu, wd 2 1 2 3 0 0), (opPand, wd 0 1 2 3 0 0), (opPor, wd 0 1 2 3 0 0), (opPxor, wd 0 1 2 3 0 0), (opPnot, wd 0 1 2 0 0 0),
  (opPfirst, wd 0 1 2 0 0 0), (opPcnt, wd 0 1 2 0 0 0), (opVext, wd 2 1 2 0 0 127), (opVins, wd 0 1 2 0 0 511)]
/-- One word of each control instruction a segment may hold (R247, R248, R250). -/
def controlWords : List (PvuOp × PvuWord) := [
  (opB, wd 0 0 0 0 0 5), (opBc, wd 0 1 0 0 0 5), (opLoop, wd 0 0 2 0 0 0x1FFFFFE), (opCall, wd 0 0 0 0 0 5), (opNop, wd 0 0 0 0 0 0), (opEnd, wd 0 0 0 0 0 1), (opModset, wd 0 1 2 3 0 4)]
/-- One word of each load and store (R256). -/
def memWords : List (PvuOp × PvuWord) := [
  (opVld, wd 2 1 4 0 0 0), (opVlds, wd 2 1 4 2 0 0), (opVgather, wd 2 1 4 3 0 0), (opVldff, wd 2 1 4 0 0 0), (opVgatherff, wd 2 1 4 3 0 0), (opSld, wd 0 1 4 0 0 0), (opXld, wd 0 1 4 0 0 0),
  (opVst, wd 2 1 4 0 0 0), (opVsts, wd 2 1 4 2 0 0), (opVscatter, wd 2 1 4 3 0 0), (opSst, wd 0 1 4 0 0 0), (opXst, wd 0 1 4 0 0 0)]
/-- One word of each polynomial instruction (R262, R264). -/
def polyWords : List (PvuOp × PvuWord) := [
  (opNtt, wd 0 1 2 0 0 0), (opIntt, md (wd 1 1 2 0 0 0) 1), (opPwmul, wd 0 1 2 3 0 0), (opPwmac, md (wd 1 1 2 3 0 0) 1), (opVcompress, wd 0 1 2 0 0 10), (opVdecompress, wd 0 1 2 0 0 4),
  (opVpack, wd 0 1 2 0 0 12), (opVunpack, wd 0 1 2 0 0 12), (opVp2r, md (wd 1 4 2 0 0 0) 1), (opVdecomp, md (wd 1 4 2 0 0 1) 1), (opVmkhint, md (wd 1 1 2 3 0 1) 1),
  (opVusehint, md (wd 1 1 2 3 0 0) 1), (opVinf, wd 0 1 2 0 0 0), (opVred, wd 0 1 2 0 0 0), (opVcenter, wd 0 1 2 0 0 0)]
/-- One word of each masking gadget (R270), at order 1. -/
def maskWords : List (PvuOp × PvuWord) := [
  (opMshare, wd 0 4 2 0 0 0), (opMrefresh, wd 0 4 0 0 0 1), (opUnmask, wd 0 1 4 0 0 0), (opMa2b, wd 0 4 6 0 0 0), (opMb2a, wd 0 4 6 0 0 0), (opMand, wd 0 4 6 8 0 0),
  (opMcomp, wd 0 4 6 0 0 2), (opMdecomp, md (wd 1 4 6 0 8 0) 1), (opMnorm, wd 0 1 6 0 0 20), (opMeq, wd 0 4 6 8 0 0), (opMsel, wd 0 4 6 8 10 0)]
/-- One word of each instruction that starts or fills a Keccak unit (R265). -/
def absorbWords : List (PvuOp × PvuWord) := [(opKinit, wd 0 0 0 0 0 4)]

theorem test_ScalarInstructions : scalarWords.all (accepts busy) = true := by decide +kernel
theorem test_ShortVectors : shortWords.all (accepts busy) = true ∧ 0 < 8 / 2 ^ 2 := by decide +kernel
theorem test_LongVectors : longWords.all (accepts busy) = true ∧ 511 < 512 / 2 ^ 0 := by decide +kernel
theorem test_PredicatesAndElements : predWords.all (accepts busy) = true ∧ 255 < 256 ∧ 127 < 512 / 2 ^ 2 := by decide +kernel
theorem test_ControlFlow : controlWords.all (accepts busy) = true ∧ branchCond pvu0 1 = true ∧ branchCond pvu0 0 = false
    ∧ (0 : Int) ≤ pvu0.pc + (5 : BitVec 25).toInt ∧ pvu0.pc + (5 : BitVec 25).toInt < (pvu0.progLen : Int) := by decide
theorem test_ControlFlow_return : let s := up.setPvu 0 { pvu0 with retStack := [9] }
    accepts s (opRet, wd 0 0 0 0 0 0) = true ∧ (9 : Int) < pvu0.progLen := by decide
theorem test_ControlFlow_handler : accepts inHandler (opResume, wd 0 0 0 0 0 0) = true ∧ accepts inHandler (opSkip, wd 0 0 0 0 0 0) = true := by decide
theorem test_ControlFlow_attempt : let s := up.setPvu 0 { pvu0 with signSlot := true }
    accepts s (opAccept, wd 0 0 0 0 0 0) = true ∧ accepts s (opReject, wd 0 0 0 0 0 0) = true := by decide
theorem test_ModulusContexts : 3329 % 2 = 1 ∧ 17 < 3329 ∧ 17 ^ 128 % 3329 = 3329 - 1 := by decide
theorem test_modset : let s := up.setPvu 0 { pvu0 with x := (pvu0.x.set 2 3329).set 3 17 }
    accepts s (opModset, wd 0 2 2 3 0 4) = true
      ∧ gives s (.modset (wd 0 2 2 3 0 4)) (fun t => decide (vget (t.getPvu 0).m 2 {} = kyber) && (t.getPvu 0).pc == 5) = true := by decide
theorem test_modset_even : let s := up.setPvu 0 { pvu0 with x := (pvu0.x.set 2 3330).set 3 17, vendor := false, ehandler := some 32, order := 0 }
    gives s (.modset (wd 0 2 2 3 0 4)) (fun t => (t.getPvu 0).exc.ecause == 4 && (t.getPvu 0).pc == 32) = true := by decide
theorem test_LocalStoreLoads : ((memWords.take 7).all (fun x => accepts busy x && ((busy.pvuRes x.1 x.2).exc).isNone)) = true := by decide +kernel
theorem test_StoreOverlap : (((memWords.drop 7).take 3).all (fun x => accepts busy x && ((busy.pvuRes x.1 x.2).exc).isNone)) = true := by decide +kernel
theorem test_LocalStoreStores : ((memWords.drop 10).all (fun x => accepts busy x && ((busy.pvuRes x.1 x.2).exc).isNone)) = true := by decide +kernel
theorem test_PvuInstructionCompletes : pvuRow (.xst (wd 0 1 4 0 0 0)) = some (opXst, wd 0 1 4 0 0 0) ∧ accepts busy (opXst, wd 0 1 4 0 0 0) = true
    ∧ (busy.pvuRes opXst (wd 0 1 4 0 0 0)).exc = none ∧ nextPc pvu0 (busy.pvuRes opXst (wd 0 1 4 0 0 0)) = some 5 := ⟨rfl, by decide, by decide, by decide⟩
theorem test_xst : let s := up.setPvu 0 { pvu0 with x := (pvu0.x.set 1 0x1234).set 4 6 }
    gives s (.xst (wd 0 1 4 0 0 0)) (fun t => (t.getPvu 0).ls == [(65542, 0x34), (65543, 0x12)]) = true := by decide
theorem test_addi_negative : gives busy (.addiX (wd 0 1 2 0 0 0x1FFFFFF)) (fun t => vget (t.getPvu 0).x 1 0 == 2 && (t.getPvu 0).pc == 5) = true := by decide
theorem test_x0_ignores : gives busy (.liX (wd 0 0 0 0 0 5)) (fun t => (t.getPvu 0).xReg 0 == 0 && vget (t.getPvu 0).x 0 0 == 0) = true := by decide

/-- The contexts of `pvu0` pass the checks of R197. -/
theorem test_modsOk : pvu0.modsOk := by
  intro k h
  have hk : k = 0 ∨ k = 1 ∨ k = 2 ∨ k = 3 ∨ 4 ≤ k := by omega
  rcases hk with rfl | rfl | rfl | rfl | hk
  · unfold ModCtx.checked; decide
  · unfold ModCtx.checked; decide
  · exact absurd h (by decide)
  · exact absurd h (by decide)
  · have : vget pvu0.m k {} = {} := by unfold vget; simp [Vector.getD, show ¬ k < 4 by omega]
    rw [this] at h
    exact absurd h (by decide)
theorem test_PvuInvariant : pvu0.lsWf = true ∧ ({ pvu0 with ls := [(65542, 0x34), (65543, 0x12)] } : Pvu).lsWf = true := by decide
theorem test_NttTransforms : accepts busy (opNtt, wd 0 1 2 0 0 0) = true ∧ accepts busy (opPwmul, wd 0 1 2 3 0 0) = true ∧ 1 < polysHeld 0 kyber
    ∧ kyber.incomplete = true ∧ accepts busy (opNtt, md (wd 1 1 2 0 0 0) 1) = true ∧ accepts busy (opPwmac, md (wd 1 1 2 3 0 0) 1) = true ∧ 0 < polysHeld 1 dilithium
    ∧ dilithium.incomplete = false := by decide +kernel
theorem test_InverseTransform : accepts busy (opIntt, md (wd 1 1 2 0 0 0) 1) = true ∧ accepts busy (opIntt, wd 0 1 2 0 0 0) = true := by decide +kernel
theorem test_PolynomialEncodings : (polyWords.drop 4).all (accepts busy) = true ∧ (8380417 - 1) % 88 = 0 ∧ (8380417 - 1) % 32 = 0 := by decide +kernel
theorem test_MaskingGadgets : maskWords.all (accepts busyMasked) = true ∧ pvu0.order ≤ 3 := by decide +kernel

/-- A unit that absorbs under SHAKE128 (function 0), and one that holds 300 squeezed bytes. -/
def absorbing : KuState := { phase := .absorb, fn := 0, order := 0, shares := [List.replicate 25 0], block := [[1, 2]], buf := [[]] }
def squeezed : KuState := { phase := .squeeze, fn := 0, order := 0, shares := [List.replicate 25 0], block := [[]], buf := [List.replicate 1024 7], stalled := true }
def busyKu : State := up.setPvu 0 { pvu0 with ku := #v[absorbing, squeezed], x := (pvu0.x.set 2 3).set 3 0 }
/-- One word of each Keccak and sampling instruction (R260, R265, R267). -/
def kuWords : List (PvuOp × PvuWord) := [
  (opKabss, wd 0 0 1 0 0 32), (opKabsl, wd 0 0 1 0 0 2048), (opKabsx, wd 0 0 1 0 0 16), (opKfinal, wd 0 0 0 0 0 0), (opVldk, wd 0 1 0 1 0 0), (opVldkff, wd 0 1 0 1 2 0), (opSldk, wd 0 1 0 1 0 0),
  (opSamplentt, wd 0 1 0 3 0 7), (opSamplerej, md (wd 1 1 0 3 0 7) 1), (opSampleeta, md (wd 1 1 0 3 0 16391) 1), (opSamplecbd, wd 0 1 0 0 0 16385), (opSampleball, md (wd 1 1 0 0 0 0x4E001) 1)]

set_option maxRecDepth 4000 in
theorem test_KeccakUnits : (kuWords.take 4).all (accepts busyKu) = true ∧ accepts busyKu (opKinit, wd 0 0 0 0 0 4) = true
    ∧ absorbing.shares = [List.replicate 25 0] ∧ absorbing.block = [[1, 2]] ∧ 2 < kuRate absorbing.fn := by decide
theorem test_StreamsAndSampling : (kuWords.drop 4).all (accepts busyKu) = true ∧ squeezed.phase = .squeeze ∧ squeezed.order = 0 ∧ squeezed.hasShare = false
    ∧ squeezed.stalled = true ∧ 512 * 2 ≤ (squeezed.buf.headD []).length ∧ (busyKu.getPvu 0).predBites 0 0 = false ∧ 64 * 2 ≤ 1024 := by decide +kernel
theorem test_PvuExceptions : opModset.check pvu0 (wd 0 9 2 3 0 4) = some 0x01 ∧ busyPattern.running = true
    ∧ (memWords.take 1).all (fun x => (x.1.check pvu0 x.2).isNone) = true ∧ resumable 0x02 = true ∧ accepts inHandler (opFail, wd 0 0 0 0 0 0) = true
    ∧ ({ pvu0 with budget := 16 } : Pvu).budget ≤ opNop.start { pvu0 with budget := 16 } (wd 0 0 0 0 0 0) := by decide
theorem test_overrun : gives busy (.segmentOverrun 0) (fun t => (t.getPvu 0).exc.ecause == 0x0A && decide ((t.getPvu 0).phase = .dummy)) = true := by decide
theorem test_fail : gives inHandler (.failH (wd 0 0 0 0 0 0)) (fun t => (t.getPvu 0).exc.ecause == 0x0C && decide ((t.getPvu 0).phase = .dummy)) = true := by decide

/-- A job of an opcode, admitted at edge 0 and computed at edge 2. -/
def job (op : W32) : Job := { phase := .admitted, e := { ctl := op } }
def seg0 : Booking := { job := some 0, eng := 0, tick := 2, kind := .segment 0 1, cycles := 500, start := 0, order := 1 }
def starting : State := { up.setPvu 0 { powered := true } with
  trd := { up.trd with edge := 2, plan := [seg0] }, jobs := [(0, job 0x0202)] }
theorem test_SegmentStart : starting.running = true ∧ starting.trd.ready = true ∧ starting.retired 0x10 = false ∧ (starting.getPvu 0).powered = true
    ∧ (starting.getPvu 0).phase = .dummy ∧ (starting.getPvu 0).slotNext ≤ 0 ∧ (starting.slot 0 2)[0]? = some seg0 ∧ (starting.getJob 0).dummyWork = false := by decide
theorem test_segment_starts : gives starting (.segmentStart 0 { index := 0 }) (fun t => decide ((t.getPvu 0).phase = .running) && (t.getPvu 0).budget == 500 && (t.getPvu 0).cyc == 16) = true := by decide
theorem test_SegmentStart_reads : accepts busy (opSysrd, wd 0 1 0 0 0 2) = true
    ∧ accepts (up.setPvu 0 { pvu0 with keyShares := [List.replicate 1040 1, List.replicate 1040 2] }) (opKload, wd 0 4 0 0 0 16) = true := by decide +kernel

-- BNE commands.

def bne0 : Bne := { phase := .running, powered := true, slots := ((((Vector.replicate 128 0).set 51 3).set 52 5).set 32 7), randBuf := List.replicate 64 1, outBuf := List.replicate 8192 0, inBuf := List.replicate 64 1, keyParts := [List.replicate 64 1] }
def bnBusy : State := up.setBne 0 bne0
def bw (l : BitVec 9) (d a b : BitVec 7) (imm : BitVec 24) : BneWord := { bne := 0, len := l, d := d, a := a, b := b, mc := 0, rsv := 0, imm := imm }
/-- One word of each BNE command (R372). -/
def bneWords : List Instr := [.madd (bw 1 50 51 52 0), .msub (bw 1 50 51 52 0), .mmul (bw 1 50 51 52 0), .msqr (bw 1 50 51 0 0), .minv (bw 1 50 51 0 0), .mexp (bw 1 50 51 52 3),
  .setmod (bw 1 0 51 0 0), .range (bw 1 0 51 0 1), .ldin (bw 1 50 0 0 8), .ldkey (bw 1 50 0 0 0), .stout (bw 1 0 51 0 8184), .mrand (bw 1 50 0 0 1), .mcopy (bw 1 50 51 0 0),
  .mcswap (bw 1 53 51 52 0), .mclr (bw 1 50 0 0 0), .bneNop (bw 0 0 0 0 0), .bneEnd (bw 0 0 0 0 0)]
/-- A BNE takes a command. -/
def takes (s : State) (c : Instr) : Bool :=
  match bneRow c with
  | none => false
  | some (o, i) =>
    (s.present (0x20 + i.bne) && decide (i.bne < 8) && s.running && decide ((s.getBne i.bne).phase = .running) && !(s.getBne i.bne).pathDone
      && !(s.getBne i.bne).bob.parked && o.valid i)
    && (decide (s.mem.injected = []) && !s.mem.injArmed && !(s.bneRoutine o i).any (fun x => decide (x.ends = .fault)) && decide (i.upset = .none))
theorem takes_iff (s : State) (c : Instr) (h : takes s c = true) : ∃ o i, bneRow c = some (o, i) ∧ s.bneTakes o i := by
  unfold takes at h
  split at h
  · cases h
  · rename_i o i hr
    simp only [Bool.and_eq_true, decide_eq_true_eq, Bool.not_eq_true'] at h
    obtain ⟨⟨⟨⟨⟨⟨⟨h1, h2⟩, h3⟩, h4⟩, h5⟩, h6⟩, h7⟩, ⟨⟨h8, h9⟩, h10⟩, h11⟩ := h
    exact ⟨o, i, hr, ⟨⟨h1, h2, h3, h4, h5, h6, h7⟩, h8, h9, h10, by simp [h11]⟩, by simp [h11], by simp [Bne.invariantFails, h11]⟩
theorem test_BneCommandCompletes : bneWords.all (takes bnBusy) = true ∧ bne0.keyScorched = false := by decide
theorem test_BneResults : (vget bne0.slots 51 0).toNat < 7 ∧ (vget bne0.slots 52 0).toNat < 7 ∧ 7 < 2 ^ 64 ∧ Nat.gcd 3 7 = 1 ∧ 7 % 2 = 1 ∧ vget bne0.scorch 52 0 = 0
    ∧ bne0.outBuf.length = 8192 ∧ bne0.randUsed + 16 ≤ bne0.randBuf.length := by decide +kernel
theorem test_minv : gives bnBusy (.minv (bw 1 50 51 0 0)) (fun t => vget (t.getBne 0).slots 50 0 == 5) = true := by decide +kernel
theorem test_mexp : gives bnBusy (.mexp (bw 1 50 51 52 3)) (fun t => vget (t.getBne 0).slots 50 0 == 5) = true := by decide +kernel
theorem test_madd_wraps : gives bnBusy (.madd (bw 1 50 51 52 0)) (fun t => vget (t.getBne 0).slots 50 0 == 1) = true := by decide +kernel
theorem test_madd_range : gives (up.setBne 0 { bne0 with slots := bne0.slots.set 51 7 }) (.madd (bw 1 50 51 52 0)) (fun t => vget (t.getBne 0).slots 50 0 == 0 && (t.getBne 0).rangeFail) = true := by decide +kernel
def run0 : Booking := { job := some 0, eng := 16, tick := 2, kind := .run 4, cycles := 9000, start := 52000, order := 0 }
def bneStarting : State := { up.setBne 0 { powered := true } with
  trd := { up.trd with edge := 2, plan := [run0] }, jobs := [(0, job 0x0800)] }
theorem test_BneRuns : bneStarting.running = true ∧ bneStarting.retired 0x20 = false ∧ (bneStarting.getBne 0).powered = true ∧ (bneStarting.getBne 0).phase ≠ .running
    ∧ bneStarting.nextRun 0 = some run0 ∧ needsInt (bneStarting.getJob 0).opcode (bneStarting.getJob 0).par = false ∧ up.pageWritable 0x20 = true ∧ (up.getBlk 0x20).lock = false := by decide
theorem test_invalid_word : gives bnBusy (.madd (bw 0 50 51 52 0)) (fun t => vget (t.getBne 0).slots 51 0 == 0) = true := by decide +kernel
theorem test_BneRuns_checks : bnBusy.bneReady bneOpMadd { bne := 0, len := 1, d := 50, a := 51, b := 52, mc := 0, rsv := 0, imm := 0, upset := .residue } ∧ residueChecked 0x06 = true
    ∧ bnBusy.bneReady bneOpEnd { bne := 0, len := 0, d := 0, a := 0, b := 0, mc := 0, rsv := 0, imm := 0, upset := .invariant } ∧ bne0.runKernel / 256 ≠ 8
    ∧ (up.setBne 0 { zeroing := true }).present 0x20 = true := by
  simp only [State.bneReady]
  decide +kernel
theorem test_residue_fails : gives bnBusy (.madd { bw 1 50 51 52 0 with upset := .residue }) (fun t => (t.getSrc 0x2000).latched.isSome && (t.getBne 0).pathDone) = true := by decide +kernel
theorem test_BneRuns_seam : bneStarting.beatSound badBeat = false ∧ (KV.get? bneStarting.jobs 0).isSome = true
    ∧ bneStarting.shareSound { data := 0, share := 0, handle := 5, seq := 3, crc := 0, sender := 0x32, receiver := 0x20 } = false := by decide +kernel
theorem test_lost_beat : gives bneStarting (.bneRunStart { bne := 0, arrived := [.fabric badBeat badBeat] }) (fun t => (t.getJob 0).faulted && t.tmp.seamFabric == 2) = true := by decide +kernel
theorem test_dummy_ratio : gives up (.bneDummyRatio 0 2) (fun t => (t.getBne 0).ratio == 2) = true ∧ gives up (.bneDummyRatio 0 8) (fun t => (t.getBne 0).ratio == 8) = true
    ∧ gives up (.bneDummyRatio 0 1) (fun t => (t.getBne 0).ratio == 4) = true ∧ gives up (.bneDummyRatio 0 9) (fun t => (t.getBne 0).ratio == 4) = true := by decide

-- Commands of the job queues.

def working (j : Job) : State := { up with trd := { up.trd with edge := 2 }, jobs := [(0, j)] }
def seeded (s : State) : State := { s with ent := { s.ent with int := { state := .seeded, left := 16777216 } } }
/-- A raw modular job of one word: m = 7, a = 3, b = 5. -/
def modJob (op : W32) : Job := { job op with
  e := { ctl := op, params := [1, 0, 1, 0] }
  input := List.replicate 7 0 ++ [7] ++ List.replicate 7 0 ++ [3] ++ List.replicate 7 0 ++ [5] }
theorem test_JobCommandComputes : (working (modJob 0x0800)).computes 0x0800 1 0 (modJob 0x0800) ∧ (working (modJob 0x0800)).jobWaits (.modAdd 0) = false
    ∧ (working (modJob 0x0800)).bites (modJob 0x0800) = false ∧ (modJob 0x0800).failed = none := by unfold State.computes; decide
theorem test_JobCommandComputes_scorched : (working { modJob 0x0800 with scorched := true, e := { (modJob 0x0800).e with inLen := 24 } }).bites { modJob 0x0800 with scorched := true, e := { (modJob 0x0800).e with inLen := 24 } } = true
    ∧ (working (modJob 0x0800)).trd.edge = 2 := by decide
theorem test_PureCommands : (working (modJob 0x0802)).runsClean 0x0802 0 (modJob 0x0802) ∧ p16 (modJob 0x0802).par 0 = 1 ∧ unBe (slice (modJob 0x0802).input 0 8) = 7
    ∧ unBe (slice (modJob 0x0802).input 8 8) = 3 ∧ unBe (slice (modJob 0x0802).input 16 8) = 5 ∧ Nat.gcd 3 7 = 1 := by unfold State.runsClean State.computes; decide
theorem test_mod_mul : gives (working (modJob 0x0802)) (.modMul 0) (fun t => (t.getJob 0).result.map (·.output) == some [0, 0, 0, 0, 0, 0, 0, 1]) = true := by decide
theorem test_mod_inv : gives (working (modJob 0x0804)) (.modInv 0) (fun t => (t.getJob 0).result.map (·.output) == some [0, 0, 0, 0, 0, 0, 0, 5]) = true := by decide
theorem test_PureCommands_random : (seeded (working (modJob 0x0806))).intAmple ∧ (seeded (working (modJob 0x0806))).runsClean 0x0806 0 (modJob 0x0806) := by
  unfold State.intAmple State.runsClean State.computes; decide
theorem test_KeyGeneration : let j := { job 0x0210 with created := some 5 }
    (seeded (working j)).intAmple ∧ (seeded (working j)).tablesInv ∧ (seeded (working j)).runsClean 0x0210 0 j := by
  unfold State.intAmple State.tablesInv State.runsClean State.computes; decide
/-- A key held under handle 5, with usage SIGN and VERIFY. -/
def keyed (s : State) : State := { s with kst := { s.kst with objs := [(5, { typ := 2, pset := 1, usage := 3, pub := [1, 2] })] } }
def keyJob (op : W32) (u : Byte) : Job := { job op with e := { ctl := op, keyHandle := 5, params := [0, 0, 0, 0, u] } }
theorem test_KeyAttributes : (keyed (working (keyJob 0x0106 1))).runsClean 0x0106 0 (keyJob 0x0106 1) ∧ tightens 3 1 0 0 = true ∧ tightens 1 3 0 0 = false
    ∧ ((keyed (working (keyJob 0x0106 1))).getKey 5).isSome = true := by unfold State.runsClean State.computes; decide
theorem test_KeyAttributes_store : (keyed (working (keyJob 0x0106 1))).mem.injArmed = false ∧ ((keyed up).getKey 5).map (·.inDram) = some false := by decide
theorem test_key_tightened : gives (keyed (working (keyJob 0x0106 1))) (.keyAttrSet 0) (fun t => ((t.getKey 5).map (·.usage)) == some 1) = true := by decide
theorem test_KeyAttributes_cleanup : let s : State := { up with kst := { up.kst with objs := [(5, { deleted := true })], cleanup := [5] } }
    s.kst.cleanup.contains 5 = true ∧ gives s (.keyDeleteCleanup 5) (fun t => (t.getKey 5).isNone) = true := by decide
theorem test_QueueAftermath : let j : Job := { phase := .staged, taken := 0 }
    let s : State := { queued with jobs := [(0, j)], nextJob := 1 }
    KV.get? s.jobs 0 = some j ∧ j.q ≠ 64 ∧ j.opcode = 0 ∧ s.deviceStatus = none ∧ (j.fence && s.earlier j (fun _ => true)) = false := by decide
theorem test_QueueAftermath_pins : let s := keyed (up.setPvu 3 { pinning := some 5 })
    (s.getPvu 3).pinning = some 5 ∧ s.drained 3 = true ∧ (s.getKey 5).isSome = true ∧ (up.setPvu 3 { unpinning := true }).drained 3 = true := by decide
theorem test_QueueAftermath_journal : let s : State := { up with kst := { up.kst with programming := true, erase := [4] } }
    s.kst.programming = true ∧ s.pcr.frozen = false ∧ s.kst.commitDue = false ∧ s.kst.erase.contains 4 = true := by decide

-- Admin commands.

/-- An admin entry of an opcode at rest. -/
def adm (op : W32) (par inp : List Byte) : Job := { q := 64, phase := .staged, e := { ctl := op, params := par }, input := inp }
def admin (j : Job) : State := { up with jobs := [(0, j)], nextJob := 1 }
def admits (s : State) (op : Nat) : Bool := (s.adminJob op 0).isSome
theorem test_AdminCommands : admits (admin (adm 1 [] [])) 0x0001 = true ∧ admits (admin (adm 2 [2, 1] [])) 0x0002 = true ∧ admits (admin (adm 0x10 [] [])) 0x0010 = true
    ∧ admits (admin (adm 0x11 [] [])) 0x0011 = true ∧ admits (admin (adm 0x14 [] [])) 0x0014 = true ∧ admits (admin (adm 0x20 [] [])) 0x0020 = true ∧ admits (admin (adm 0x21 [] [])) 0x0021 = true
    ∧ admits (admin (adm 0x30 [1] [])) 0x0030 = true := by decide
theorem test_AdminCommands_open : ((admin { adm 0x11 [] [] with phase := .admitted }).adminOpen 0x0011 0).isSome = true ∧ (admin { adm 0x11 [] [] with phase := .admitted }).queueJobs 0 0 = [] := by decide
theorem test_set_version : gives (admin (adm 2 [2, 1] [])) (.setVersion 0) (fun t => (t.getFn 0).mbxVer == 1) = true ∧ gives (admin (adm 2 [2, 0] [])) (.setVersion 0) (fun t => (t.getFn 0).mbxVer == 2) = true
    ∧ gives (admin (adm 2 [2, 9] [])) (.setVersion 0) (fun t => (t.getFn 0).mbxVer == 2) = true := by decide
theorem test_ObservationAndPatches : admits (admin (adm 0x40 [1] [])) 0x0040 = true ∧ admits (admin (adm 0x90 [] [])) 0x0090 = true ∧ admits (admin (adm 0x91 [] [])) 0x0091 = true
    ∧ admits (admin (adm 0x92 [] [])) 0x0092 = true ∧ admits (admin (adm 0x98 [] [])) 0x0098 = true ∧ admits (admin (adm 0x99 [] [])) 0x0099 = true := by decide
/-- A BNE whose dispatch entry of MADD (0x0106) is matched to a word of patch RAM: SEQ in bits 188:186, CLEN in bits 191:189. -/
def patchedBne (clen seq : Nat) : State := up.setBne 0 { bne0 with w := 100, bob := { bne0.bob with matches_ := [(0, (0x0106, 7))], patchRam := [(7, BitVec.ofNat 192 (clen * 2 ^ 189 + seq * 2 ^ 186))] } }
theorem test_ObservationAndPatches_word : bneOpMadd.valid (bw 1 50 51 52 0) = true ∧ bneEntry bneOpMadd.op = 0x0106 ∧ bne0.bob.parked = false ∧ bne0.bob.micro.stack = [] := by decide
theorem test_patched_clocks : gives (patchedBne 5 5) (.madd (bw 1 50 51 52 0)) (fun t => (t.getBne 0).realCyc == 8) = true
    ∧ gives (patchedBne 0 7) (.madd (bw 1 50 51 52 0)) (fun t => (t.getBne 0).bob.parked) = true
    ∧ gives (patchedBne 0 4) (.madd (bw 1 50 51 52 0)) (fun t => (t.getBne 0).pathDone && (t.getSrc 0x2000).latched.isSome) = true := by decide +kernel

-- The Digest Service, entropy and stored data.

/-- View 0 of the physical function in a state, its context 0, SHA-256 (1) over 64 bytes. -/
def view (st : Nat) : View := { state := st, ctx := 0, cfg := 1, len := 64, alg := 1, total := 64, chain := dgsInit 1 }
def digesting (st : Nat) : State := ({ up with dgs := { up.dgs with ctx := [(0, (0, 0))] } } : State).setView 0 0 (view st)
theorem test_DigestService : (digesting 2).dgsOpen 0 0 = true ∧ ((digesting 2).getView 0 0).state = 2 ∧ ((digesting 1).getView 0 0).state = 1 ∧ ((digesting 2).getView 0 0).count < 64
    ∧ ((up.getView 0 0).state = 0) ∧ up.ctxHeld 0 < (up.getFn 0).dgsCtx ∧ KV.get? up.dgs.ctx 0 = none := by decide
theorem test_dgs_open : gives up (.dgsOpen 0 0) (fun t => (t.getView 0 0).state == 1 && decide (KV.get? t.dgs.ctx 0 = some (0, 0))) = true := by decide
theorem test_dgs_word : gives (digesting 2) (.dgsVdata 0 0 4 0x64636261) (fun t => (t.getView 0 0).buf == [0x61, 0x62, 0x63, 0x64] && (t.getView 0 0).count == 4) = true := by decide
theorem test_DigestService_slots : (up.getFn 0).dgs.loading = none ∧ (KV.get? up.dgs.slots 0).isNone = true := by decide
theorem test_EntropyAndAssessment : up.fnExists 0 = true ∧ up.pageWritable 0x31 = true ∧ up.pageWritable 0x72 = true ∧ (testInfo 0x10).isSome = true
    ∧ 4 ≤ ([1, 2, 3, 4, 5] : List Byte).length ∧ ({ up with held := { up.held with life := 4 } } : State).held.life = 4 := by decide
theorem test_rng_read : gives (up.setFn 0 { up.getFn 0 with rng := { (up.getFn 0).rng with fifo := [1, 2, 3, 4, 5] } }) (.rngDataRead 0) (fun t => (t.getFn 0).rng.fifo == [5] && t.out == [.readData 0x04030201]) = true := by decide
theorem test_StoredData : up.mem.darnEn = true ∧ spareFitted 0 ≠ 0 ∧ up.regionPresent 0 = true ∧ 0 < up.spares 0 ∧ up.pageWritable 0x40 = true := by decide
theorem test_row_retired : gives up (.rowRetirement 0 5 true) (fun t => t.spares 0 + 1 == up.spares 0) = true := by decide

-- Instances and mailboxes.

def inst (n : Nat) (f : Func) (s : State) : State := s.setFn n f
def admI (op : W32) : Job := adm op [3, 0] []
theorem test_Instances : (admI 0x82).inst = 3 ∧ admits (inst 3 { state := 1 } (admin (admI 0x82))) 0x0082 = true ∧ (inst 3 { state := 1 } up).instIn 3 [1] = true ∧ (inst 3 { state := 2 } up).instIn 3 [2] = true
    ∧ admits (admin (admI 0x80)) 0x0080 = true ∧ admits (admin (admI 0x8A)) 0x008A = true := by decide
theorem test_instance_enable : gives (inst 3 { state := 1 } ({ admin (admI 0x82) with pcr := { up.pcr with numVfs := 8 } })) (.instanceEnable 0) (fun t => (t.getFn 3).state == 2) = true := by decide
theorem test_flr : gives (inst 3 { state := 2 } up) (.flr 3) (fun t => (t.getFn 3).state == 7 && (t.getFn 3).resetEdge == some 1) = true := by decide
theorem test_Mailboxes : let s := inst 3 { state := 2, up := { full := true }, dn := { data := [2, 0, 0, 0] } } up
    s.fnExists 3 = true ∧ s.hostOpen = true ∧ field (s.getFn 3).dn.data 0 1 = 2 ∧ field (s.getFn 3).dn.data 2 2 ≤ 248 ∧ gives s (.mbxUpAck 3) (fun t => !(t.getFn 3).up.full) = true := by decide
theorem test_mailbox_bounds : gives (inst 3 { state := 2, up := { data := [2, 0, 248, 0, 1, 0, 0, 0] } } up) (.mbxUpSend 3) (fun t => (t.getFn 3).up.full) = true
    ∧ gives (inst 3 { state := 2, up := { data := [2, 0, 249, 0, 1, 0, 0, 0] } } up) (.mbxUpSend 3) (fun t => !(t.getFn 3).up.full && (t.getFn 3).up.err == 3) = true := by decide

-- Management, the Peer Link, power, the envelope and cards.

theorem test_Management : let s : State := { up with pcr := { up.pcr with step := 9 } }
    s.mgcUp = true ∧ s.spdmUp = true ∧ s.pageWritable 0x70 = true ∧ s.pcr.powered = true := by decide
theorem test_spdm_version : gives { up with pcr := { up.pcr with step := 9 } } .spdmGetVersion (fun t => t.out == [.spdm [0x10, 0x04, 0, 0, 0, 0x02, 0x00, 0x12, 0x00, 0x13]]) = true := by decide
theorem test_PeerLink : let s := up.setPort 0 { state := 2, rxSeq := 1 }
    s.running = true ∧ 0 < s.portCount ∧ (s.getPort 0).state = 2 ∧ (hdr 2).seq = (s.getPort 0).rxSeq ∧ up.pageWritable 0x60 = true := by decide
theorem test_plk_sequence : gives (up.setPort 0 { state := 2, rxSeq := 1 }) (.plkKeepalive 0 (hdr 2)) (fun t => (t.getPort 0).rxSeq == 2) = true
    ∧ gives (up.setPort 0 { state := 2, rxSeq := 5 }) (.plkKeepalive 0 (hdr 2)) (fun t => (t.getPort 0).rxSeq == 5 && (t.getPort 0).naks == 1) = true := by decide
theorem test_PowerLifecycleAndBank : State.reset.pcr.powered = false ∧ up.pageWritable 0x71 = true ∧ up.kst.commitDue = false ∧ up.lifeAllowed 4 = true ∧ up.lifeAllowed 2 = false
    ∧ ({ up with pcr := { up.pcr with erasing := 2 } } : State).pcr.erasing = 2 ∧ ({ up with pcr := { up.pcr with bankPinEn := true } } : State).pcr.bankPinEn = true := by decide
theorem test_bank_pin : gives { up with pcr := { up.pcr with bankPinEn := true } } (.bankN 10) (fun t => t.pcr.frozen) = true
    ∧ gives { up with pcr := { up.pcr with bankPinEn := true } } (.bankN 9) (fun t => !t.pcr.frozen) = true := by decide
theorem test_life_reject : gives up (.lifecycleTarget 2) (fun t => t.pcr.target.isNone && (t.getSrc 0x7105).latched.isSome) = true := by decide
theorem test_TamperEnvelope : up.checksInput 62 = false ∧ up.checksInput 63 = true ∧ ({ up with pcr := { up.pcr with input := true } } : State).checksInput 62 = true
    ∧ ({ up with pcr := { up.pcr with input := true } } : State).checksInput 63 = false ∧ (up.alarmResponse 56).isSome = true ∧ up.pageWritable 0x51 = true ∧ bit (1 : W32) 0 = true := by decide
theorem test_selvedge : gives up (.selvedgeCheck 1) (fun t => t.tmp.active.getLsbD 56) = true ∧ gives up (.selvedgeCheck 0) (fun t => t.tmp.active == 0) = true := by decide
theorem test_CardsAndQuorums : (up.getSlot 5).claimed = false ∧ up.pageWritable 0x58 = true ∧ up.thm.session = none ∧ up.thm.exch ≠ some 5 := by decide
theorem test_card_inserted : gives up (.cardInserted 5) (fun t => (t.getSlot 5).present) = true := by decide

end Sys2Proof.Tests
end

section
/-! SUPPORT. Every command answers a next state, but those of an engine that the part lacks: how a row's branches answer, the rows that
look something up, and then all rows. -/

namespace Sys2Proof.Machine

/-- The outcome is a next state. -/
def Answers (o : Host.Outcome State Fault Refusal) : Prop := ∃ t, o = .next t

theorem answers_next (t : State) : Answers (.next t) := ⟨t, rfl⟩

theorem answers_ite {c : Prop} [Decidable c] {a b : Host.Outcome State Fault Refusal} (ha : Answers a) (hb : Answers b) :
    Answers (if c then a else b) := by
  split
  · exact ha
  · exact hb

/-- A row under a guard answers when its own part does. -/
theorem answers_guard {c : Prop} [Decidable c] {t : State} {o : Host.Outcome State Fault Refusal} (h : Answers o) :
    Answers (if c then .next t else o) := answers_ite (answers_next t) h

-- Rows that look up a queue, a job, a key, a booking or an image before they answer.

theorem execInstAdb_answers (fn size : Nat) (s : State) : Answers (execInstAdb fn size s) := by
  refine answers_guard (answers_guard (answers_guard ?_))
  split <;> exact answers_next _

theorem execInstEcinv_answers (fn : Nat) (val : W32) (s : State) : Answers (execInstEcinv fn val s) := by
  refine answers_guard ?_
  split <;> exact answers_next _

theorem execScan_answers (fn q : Nat) (reads : List Fetched) (s : State) : Answers (execScan fn q reads s) := by
  unfold execScan
  split
  · exact answers_next _
  · exact answers_guard (answers_next _)

theorem execScanResume_answers (fn q : Nat) (reads : List Fetched) (s : State) : Answers (execScanResume fn q reads s) := by
  unfold execScanResume
  split
  · exact answers_next _
  · exact answers_guard (answers_next _)

theorem execEntryFetch_answers (fn q : Nat) (read : Fetched) (s : State) : Answers (execEntryFetch fn q read s) := by
  unfold execEntryFetch
  split
  · exact answers_next _
  · exact answers_guard (answers_next _)

theorem execInputFetch_answers (job : Nat) (rd : InputReads) (s : State) : Answers (execInputFetch job rd s) := by
  unfold execInputFetch
  split
  · exact answers_next _
  · exact answers_guard (answers_next _)

theorem execSegmentStart_answers (pvu : Nat) (start : SegmentAt) (s : State) : Answers (execSegmentStart pvu start s) := by
  refine answers_guard ?_
  split
  · exact answers_next _
  · exact answers_guard (answers_guard (answers_next _))

theorem execBneRunStart_answers (start : RunAt) (s : State) : Answers (execBneRunStart start s) := by
  refine answers_guard ?_
  split
  · exact answers_next _
  · split <;> exact answers_next _

theorem execSelftestStart_answers (blk : Nat) (val : W32) (s : State) : Answers (execSelftestStart blk val s) := by
  unfold execSelftestStart
  split <;> exact answers_next _

theorem execQueueNop_answers (job : Nat) (s : State) : Answers (execQueueNop job s) := by
  unfold execQueueNop
  split
  · exact answers_next _
  · exact answers_guard (answers_next _)

theorem execPinLoad_answers (pvu : Nat) (s : State) : Answers (execPinLoad pvu s) := by
  unfold execPinLoad
  dsimp only []
  split
  · exact answers_next _
  · refine answers_guard ?_
    split <;> exact answers_next _

theorem execKeyDeleteCleanup_answers (handle : W32) (s : State) : Answers (execKeyDeleteCleanup handle s) := by
  unfold execKeyDeleteCleanup
  split <;> exact answers_next _

theorem execSetVersionApply_answers (fn : Nat) (s : State) : Answers (execSetVersionApply fn s) := by
  unfold execSetVersionApply
  dsimp only []
  split
  · exact answers_next _
  · exact answers_guard (answers_next _)

theorem execQueueCancel_answers (job : Nat) (reads : List Fetched) (s : State) : Answers (execQueueCancel job reads s) := by
  unfold execQueueCancel
  split
  · split <;> exact answers_next _
  · exact answers_next _

theorem execInstanceResetDone_answers (fn : Nat) (s : State) : Answers (execInstanceResetDone fn s) := by
  unfold execInstanceResetDone
  dsimp only []
  split
  · exact answers_next _
  · exact answers_guard (answers_guard (answers_next _))

theorem execModuleMessage_answers (fn : Nat) (s : State) : Answers (execModuleMessage fn s) := by
  refine answers_guard ?_
  split <;> exact answers_next _

theorem execPatchEngineTurn_answers (code : Nat) (readBack : Bool) (s : State) : Answers (execPatchEngineTurn code readBack s) := by
  unfold execPatchEngineTurn
  split
  · exact answers_guard (answers_next _)
  · exact answers_next _

theorem execKeyLoadDone_answers (fn : Nat) (s : State) : Answers (execKeyLoadDone fn s) := by
  unfold execKeyLoadDone
  split
  · exact answers_next _
  · refine answers_guard ?_
    dsimp only []
    split
    · exact answers_guard (answers_next _)
    · exact answers_next _

theorem execDgsKunload_answers (fn : Nat) (slot : W32) (s : State) : Answers (execDgsKunload fn slot s) := by
  refine answers_guard ?_
  dsimp only []
  split
  · exact answers_next _
  · exact answers_guard (answers_guard (answers_next _))

theorem execPlkKeepaliveSend_answers (port : Nat) (s : State) : Answers (execPlkKeepaliveSend port s) := by
  refine answers_guard ?_
  split <;> exact answers_next _

theorem execPatchRamReloadDone_answers (code : Nat) (s : State) : Answers (execPatchRamReloadDone code s) := by
  refine answers_guard ?_
  split <;> exact answers_next _

-- All rows.

/-- Every command that is no instruction of an engine answers: some rows answer at once, some under guards, some after a look-up. -/
theorem exec_answers {c : Instr} (hp : pvuRow c = none) (hb : bneRow c = none) (s : State) : Answers (exec c s) := by
  cases c <;> cases hp <;> cases hb
  case bneRunEnd | periodApplied | tickInEdge | tickinLost | pvuDerate | patternRun | matrixPreload | mcePin | mceUnpin | unpinDone
    | objectBlockErase | instanceQuiesced | instanceFrozen | mbxUpAck | mbxDnAck | bneDummyRatio | dgsBlockCompressed | rngFifoRefill
    | conditionedBlock | drbgReseed | darningPass | monitorDisagree | warnClear => exact answers_ite (answers_next _) (answers_next _)
  case doorbell | adminQueueEnable | adminQueueDisable | journalProgramDone | mbxUpSend | mbxDnSend | dgsResultRead | dgsFinalDone
    | rngDataRead | rowRetirement | flashRefresh | telemetryRecord | setEndpointId | powerWarning | plkNak | counterLoRead =>
    exact answers_guard (answers_guard (answers_next _))
  case engineClockGate | assessmentSlotEnd | pcieConfigRequest | spdmRequest =>
    exact answers_guard (answers_guard (answers_guard (answers_next _)))
  case plkTrain => exact answers_guard (answers_guard (answers_guard (answers_guard (answers_next _))))
  case instAdb fn size => exact execInstAdb_answers fn size s
  case instEcinv fn val => exact execInstEcinv_answers fn val s
  case scan fn q reads => exact execScan_answers fn q reads s
  case scanResume fn q reads => exact execScanResume_answers fn q reads s
  case entryFetch fn q read => exact execEntryFetch_answers fn q read s
  case inputFetch job rd => exact execInputFetch_answers job rd s
  case segmentStart pvu start => exact execSegmentStart_answers pvu start s
  case bneRunStart start => exact execBneRunStart_answers start s
  case selftestStart blk val => exact execSelftestStart_answers blk val s
  case queueNop job => exact execQueueNop_answers job s
  case pinLoad pvu => exact execPinLoad_answers pvu s
  case keyDeleteCleanup handle => exact execKeyDeleteCleanup_answers handle s
  case setVersionApply fn => exact execSetVersionApply_answers fn s
  case queueCancel job reads => exact execQueueCancel_answers job reads s
  case instanceResetDone fn => exact execInstanceResetDone_answers fn s
  case moduleMessage fn => exact execModuleMessage_answers fn s
  case patchEngineTurn code readBack => exact execPatchEngineTurn_answers code readBack s
  case keyLoadDone fn => exact execKeyLoadDone_answers fn s
  case dgsKunload fn slot => exact execDgsKunload_answers fn slot s
  case plkKeepaliveSend port => exact execPlkKeepaliveSend_answers port s
  case patchRamReloadDone code => exact execPatchRamReloadDone_answers code s
  all_goals exact answers_next _

-- The engines' rows.

theorem pvuExec_absent {s : State} {i : PvuWord} (op : PvuOp) (h : (!s.present (0x10 + i.pvu) || decide (16 ≤ i.pvu)) = true) :
    pvuExec op i s = .fault .absentUnit := if_pos h

theorem pvuExec_answers {s : State} {i : PvuWord} (op : PvuOp) (h : (!s.present (0x10 + i.pvu) || decide (16 ≤ i.pvu)) = false) :
    Answers (pvuExec op i s) := by
  unfold pvuExec
  rw [if_neg (Bool.eq_false_iff.mp h)]
  exact answers_guard (answers_next _)

theorem bneExec_absent {s : State} {i : BneWord} (o : BneOp) (h : (!s.present (0x20 + i.bne) || decide (8 ≤ i.bne)) = true) :
    bneExec o i s = .fault .absentUnit := if_pos h

theorem bneExec_answers {s : State} {i : BneWord} (o : BneOp) (h : (!s.present (0x20 + i.bne) || decide (8 ≤ i.bne)) = false) :
    Answers (bneExec o i s) := by
  unfold bneExec
  rw [if_neg (Bool.eq_false_iff.mp h)]
  exact answers_guard (answers_guard (answers_next _))

/-- A row of the BNE's command table, executed. -/
theorem exec_bneRow {c : Instr} {o : BneOp} {i : BneWord} (h : bneRow c = some (o, i)) (s : State) : exec c s = bneExec o i s := by
  cases c <;> cases h <;> rfl

theorem State.namesAbsent_pvuRow {c : Instr} {op : PvuOp} {i : PvuWord} (h : pvuRow c = some (op, i)) (s : State) :
    s.namesAbsent c = (!s.present (0x10 + i.pvu) || decide (16 ≤ i.pvu)) := by
  simp [State.namesAbsent, h]

theorem State.namesAbsent_bneRow {c : Instr} {o : BneOp} {i : BneWord} (hp : pvuRow c = none) (h : bneRow c = some (o, i)) (s : State) :
    s.namesAbsent c = (!s.present (0x20 + i.bne) || decide (8 ≤ i.bne)) := by
  simp [State.namesAbsent, hp, h]

theorem State.namesAbsent_none {c : Instr} (hp : pvuRow c = none) (hb : bneRow c = none) (s : State) : s.namesAbsent c = false := by
  simp [State.namesAbsent, hp, hb]

/-- Settles O2, by the three kinds of rows: the PVU's instructions, the BNE's commands, and the rest, which names no engine to lack. -/
theorem everyCommandAnswers : Obligations.EveryCommandAnswers := by
  intro c s
  rcases hp : pvuRow c with _ | ⟨op, i⟩
  · rcases hb : bneRow c with _ | ⟨o, i⟩
    · rw [State.namesAbsent_none hp hb]
      exact ⟨fun h => absurd h Bool.false_ne_true, fun _ => exec_answers hp hb s⟩
    · rw [State.namesAbsent_bneRow hp hb, exec_bneRow hb]
      exact ⟨bneExec_absent o, bneExec_answers o⟩
  · rw [State.namesAbsent_pvuRow hp, exec_pvuRow hp]
    exact ⟨pvuExec_absent op, pvuExec_answers op⟩

end Sys2Proof.Machine
end

section
/-! SUPPORT. A host write to a register of the common page header (R14, R41 to R46, R51 to R59): the address's page, what an access that
arrives whole does, and what each register of the header takes. -/

namespace Sys2Proof.Machine

/-- BAR0 maps the first 4 KB of a block's window to the block's page (R41, R42). -/
theorem regTarget_blockPage {k off : Nat} (hk : k < 0x80) (ho : off < 0x1000) :
    regTarget 0 (0x100000 + 0x10000 * k + off) = .page k off := by
  have hq : (0x100000 + 0x10000 * k + off - 0x100000) / 0x10000 = k := by omega
  have hr : (0x100000 + 0x10000 * k + off - 0x100000) % 0x10000 = off := by omega
  have hb : regTarget 0 (0x100000 + 0x10000 * k + off) = windowTarget k off := by
    unfold regTarget bar0Target
    rw [if_pos rfl, if_neg (by omega), if_neg (by omega), if_neg (by omega), if_neg (by omega), if_pos (by omega), hq, hr]
  rw [hb, windowTarget, if_neg (by omega), if_pos ho]

/-- An access whose copies the trace does not give arrived as it was sent (R612). -/
theorem State.ctlArrive_nil (s : State) (page : Option Nat) : s.ctlArrive page [] = (s, true) := by
  cases page <;> rfl

theorem State.writeAccess_nil (s : State) (fn addr : Nat) (v : W32) : s.writeAccess fn addr v [] = s.writeReg fn addr v := by
  unfold State.writeAccess
  rw [State.ctlArrive_nil]
  rfl

/-- A 32-bit write that arrives as it was sent. -/
theorem exec_registerWrite_word {addr : Nat} (h : addr % 4 = 0) (fn : Nat) (val : W64) (s : State) :
    exec (.registerWrite fn addr 4 { val := val }) s = .next (s.writeReg fn addr (val.setWidth 32)) := by
  rw [← State.writeAccess_nil]
  exact congrArg _ ((if_neg (by omega)).trans ((if_neg (by omega)).trans (if_pos rfl)))

theorem State.writeReg_missing {s : State} {fn addr : Nat} (h : s.targetExists (regTarget fn addr) = false) (v : W32) :
    s.writeReg fn addr v = s := by
  simp [State.writeReg, h]

theorem exec_registerWrite_missing {s : State} {fn addr : Nat} (h : s.targetExists (regTarget fn addr) = false) (val : W64) :
    exec (.registerWrite fn addr 4 { val := val }) s = .next s := by
  by_cases ha : addr % 4 = 0
  · rw [exec_registerWrite_word ha, State.writeReg_missing h]
  · exact congrArg _ ((if_neg (by omega)).trans (if_pos ha))

theorem State.through_next {s t : State} {f : State → Host.Outcome State Fault Refusal} (h : f s = .next t) : s.through f = t := by
  simp [State.through, h]

theorem State.onPage_writable {s : State} {k : Nat} (h : s.pageWritable k = true) (f : State → State) : s.onPage k f = f s :=
  if_pos h

theorem State.pageWritable_parts {s : State} {k : Nat} (h : s.pageWritable k = true) : s.hostOpen = true ∧ s.pageExists k = true := by
  simp only [State.pageWritable, Bool.and_eq_true] at h
  exact h.1

/-- A 32-bit write to the header of a block's page, by its address in BAR0. -/
theorem exec_registerWrite_header {s : State} {k off : Nat} (hk : k < 0x80) (hw : s.pageWritable k = true) (ho : off < 0x100)
    (h4 : off % 4 = 0) (val : W64) :
    exec (.registerWrite 0 (0x100000 + 0x10000 * k + off) 4 { val := val }) s = .next (s.writeHead_ k off (val.setWidth 32)) := by
  obtain ⟨hopen, hpage⟩ := State.pageWritable_parts hw
  rw [exec_registerWrite_word (by omega)]
  simp only [State.writeReg, regTarget_blockPage hk (show off < 0x1000 by omega), State.targetExists, State.writeTarget, hopen, hpage, ho,
    Bool.and_self, if_true]

/-- The registers of the header whose writes are commands of their own: BLK_CTRL, IRQ_MASK, IRQ_CLEAR, FLT_STATUS, FLT_FORCE (R51). -/
def ownCommandOffsets : List Nat := [0x010, 0x024, 0x02C, 0x040, 0x044]

/-- The registers of the header without a command of their own take a write as the page's header does (R51). -/
theorem State.writeHead_eq_writeHeader {s : State} {k off : Nat} (hw : s.pageWritable k = true)
    (h : off ∉ ownCommandOffsets) (v : W32) : s.writeHead_ k off v = s.writeHeader k off v := by
  simp only [ownCommandOffsets, List.mem_cons, List.not_mem_nil, or_false, not_or] at h
  obtain ⟨h1, h2, h3, h4, h5⟩ := h
  simp only [State.writeHead_, h1, h2, h3, h4, h5, if_false, State.onPage_writable hw]

theorem State.writeHeader_ctrl (s : State) (k : Nat) (v : W32) :
    s.writeHeader k 0x010 v = (s.setBlk k { s.getBlk k with evtEn := bit v 1, irqEn := bit v 0 }).irqSync k := rfl

theorem State.writeHeader_fltCfg (s : State) (k : Nat) (v : W32) :
    s.writeHeader k 0x04C v
      = if (s.getBlk k).lock then s else (s.setBlk k { s.getBlk k with corrIrq := bit v 0 }).irqSync k := rfl

theorem State.writeHeader_scratch (s : State) (k : Nat) (v : W32) :
    s.writeHeader k 0x0F0 v = s.setBlk k { s.getBlk k with scratch := v } := rfl

theorem State.writeHeader_evtSel (s : State) {k e : Nat} (he : e < (blockCaps k).2.2) (h8 : e < 8) (v : W32) :
    s.writeHeader k (0x060 + 4 * e) v
      = s.setBlk k { s.getBlk k with evtSel := vset (s.getBlk k).evtSel e (v &&& 0x8000FFFF) } := by
  have hd : (0x060 + 4 * e - 0x060) / 4 = e := by omega
  unfold State.writeHeader
  rw [if_neg (by omega), if_neg (by omega), if_neg (by omega), if_neg (by omega), hd, if_pos ⟨by omega, by omega, he⟩]

theorem State.writeHeader_readOnly (s : State) (k : Nat) {off : Nat}
    (h : off ∈ [0x000, 0x004, 0x008, 0x00C, 0x014, 0x020, 0x028, 0x048]) (v : W32) : s.writeHeader k off v = s := by
  simp only [List.mem_cons, List.not_mem_nil, or_false] at h
  unfold State.writeHeader
  rw [if_neg (by omega), if_neg (by omega), if_neg (by omega), if_neg (by omega), if_neg (by omega)]

/-- The read-only registers of the header are words of it, and none has a command of its own (R51). -/
theorem readOnlyOffset : ∀ off ∈ [0x000, 0x004, 0x008, 0x00C, 0x014, 0x020, 0x028, 0x048],
    off < 0x100 ∧ off % 4 = 0 ∧ off ∉ ownCommandOffsets := by decide

/-- An interrupt request leaves a block's page as writable as it was. -/
theorem State.Signals.pageWritable {s t : State} (h : s.Signals t) {k : Nat} (hk : k < 0x80) : t.pageWritable k = s.pageWritable k := by
  obtain ⟨ht, -⟩ := h
  rw [ht]
  simp only [State.pageWritable, State.pageExists, hk, if_true]
  rfl

/-- An interrupt request before LOCK is set touches no more than one after it (R55). -/
theorem State.Signals.setLock {s t : State} {k : Nat} {b : Blk} (h : (s.setBlk k b).Signals t) :
    (s.setBlk k { b with lock := true }).Signals (t.setBlk k { t.getBlk k with lock := true }) := by
  obtain ⟨ht, hblk, hfn, hout⟩ := h
  refine ⟨congrArg (fun u : State => { u with blk := KV.set t.blk k { t.getBlk k with lock := true } }) ht, fun l => ?_, hfn, hout⟩
  by_cases hl : l = k
  · subst hl
    have hb := hblk l
    simp only [State.getBlk_setBlk] at hb ⊢
    rw [hb]
  · have hb := hblk l
    rw [State.getBlk_setBlk_other _ _ hl] at hb
    rw [State.getBlk_setBlk_other _ _ hl, State.getBlk_setBlk_other _ _ hl]
    exact hb

/-- BLK_CTRL without LOCK: the enables are written (R55). -/
theorem State.writeCtrl_unlocked {s : State} {k : Nat} (hw : s.pageWritable k = true) {v : W32} (h : bit v 31 = false) :
    s.writeCtrl k v = (s.setBlk k { s.getBlk k with evtEn := bit v 1, irqEn := bit v 0 }).irqSync k := by
  simp [State.writeCtrl, h, State.onPage_writable hw, State.writeHeader_ctrl]

/-- BLK_CTRL with LOCK: the enables are written and the block is locked (R55). -/
theorem State.writeCtrl_locking {s : State} {k : Nat} (hk : k < 0x80) (hw : s.pageWritable k = true) {v : W32} (h : bit v 31 = true) :
    (s.setBlk k { s.getBlk k with evtEn := bit v 1, irqEn := bit v 0, lock := true }).Signals (s.writeCtrl k v) := by
  have hs := State.irqSync_signals (s.setBlk k { s.getBlk k with evtEn := bit v 1, irqEn := bit v 0 }) k
  have hw' := (hs.pageWritable hk).trans hw
  have hl := State.through_next (congrArg Host.Outcome.next (State.onPage_writable hw' fun t => t.setBlk k { t.getBlk k with lock := true }))
  simp only [State.writeCtrl, h, if_true, State.onPage_writable hw, State.writeHeader_ctrl]
  exact hl ▸ hs.setLock

/-- A 32-bit write to a register of the header without a command of its own, by its address in BAR0. -/
theorem exec_registerWrite_writeHeader {s : State} {k off : Nat} (hk : k < 0x80) (hw : s.pageWritable k = true) (ho : off < 0x100)
    (h4 : off % 4 = 0) (h : off ∉ ownCommandOffsets) (val : W64) :
    exec (.registerWrite 0 (0x100000 + 0x10000 * k + off) 4 { val := val }) s = .next (s.writeHeader k off (val.setWidth 32)) := by
  rw [exec_registerWrite_header hk hw ho h4, State.writeHead_eq_writeHeader hw h]

-- Accesses of more than 32 bits.

/-- A doorbell takes a write of 32 bits or more once, whatever its width (R46, R48). -/
theorem exec_registerWrite_doorbell {s : State} {fn addr idx size : Nat} (h4 : addr % 4 = 0) (ht : regTarget fn addr = .doorbell fn idx)
    (hopen : s.hostOpen = true) (hfn : s.fnExists fn = true) (hsize : 4 ≤ size) (val : W64) :
    exec (.registerWrite fn addr size { val := val }) s = exec (.doorbell fn idx 4) s := by
  obtain ⟨t, hd⟩ := exec_answers (c := .doorbell fn idx 4) rfl rfl s
  have hw : s.writeAccess fn addr (val.setWidth 32) [] = t := by
    rw [State.writeAccess_nil]
    simp only [State.writeReg, ht, State.targetExists, State.writeTarget, hopen, hfn, Bool.and_self, if_true]
    exact State.through_next hd
  rw [hd, ← hw]
  exact congrArg _ ((if_neg (by omega)).trans ((if_neg (by omega)).trans (if_pos (by simp [ht, isDoorbell]))))

/-- A target that is no doorbell of a function other than `fn`. -/
def RegTarget.ownBell (fn : Nat) (t : RegTarget) : Prop := ∀ f idx, t = .doorbell f idx → f = fn

theorem RegTarget.ownBell_ite {c : Prop} [Decidable c] {fn : Nat} {a b : RegTarget} (ha : a.ownBell fn) (hb : b.ownBell fn) :
    (if c then a else b).ownBell fn := by
  split
  · exact ha
  · exact hb

theorem RegTarget.ownBell_doorbell (fn idx : Nat) : (RegTarget.doorbell fn idx).ownBell fn :=
  fun _ _ h => (RegTarget.doorbell.inj h).1.symm

open RegTarget in
theorem windowTarget_ownBell (fn code off : Nat) : (windowTarget code off).ownBell fn :=
  ownBell_ite (ownBell_ite nofun (ownBell_ite nofun (ownBell_ite nofun nofun))) (ownBell_ite nofun nofun)

open RegTarget in
theorem bar0Target_ownBell (addr : Nat) : (bar0Target addr).ownBell 0 :=
  ownBell_ite nofun (ownBell_ite nofun (ownBell_ite (ownBell_doorbell _ _) (ownBell_ite nofun (ownBell_ite (windowTarget_ownBell _ _ _)
    (ownBell_ite nofun (ownBell_ite nofun (ownBell_ite (ownBell_ite nofun (ownBell_ite nofun (ownBell_ite nofun nofun))) nofun)))))))

open RegTarget in
theorem instTarget_ownBell (fn addr : Nat) : (instTarget fn addr).ownBell fn :=
  ownBell_ite nofun (ownBell_ite nofun (ownBell_ite nofun (ownBell_ite nofun (ownBell_ite nofun (ownBell_ite (ownBell_doorbell _ _)
    (ownBell_ite nofun (ownBell_ite nofun nofun)))))))

/-- A function's BAR holds its own doorbells alone (R41, R47, R48). -/
theorem regTarget_ownBell (fn addr : Nat) : (regTarget fn addr).ownBell fn := by
  unfold regTarget
  split
  next h => exact h ▸ bar0Target_ownBell addr
  next => exact instTarget_ownBell fn addr

theorem isDoorbell_regTarget_eq_false {fn addr : Nat} (h : ∀ idx, regTarget fn addr ≠ .doorbell fn idx) :
    isDoorbell (regTarget fn addr) = false := by
  cases ht : regTarget fn addr with
  | doorbell f idx => exact absurd (regTarget_ownBell fn addr f idx ht ▸ ht) (h idx)
  | _ => rfl

/-- A 64-bit write elsewhere is its low word's write, then its high word's at the next address (R46). -/
theorem exec_registerWrite_long {s t u : State} {fn addr : Nat} {val : W64} (h4 : addr % 4 = 0)
    (ht : ∀ idx, regTarget fn addr ≠ .doorbell fn idx) (hlow : exec (.registerWrite fn addr 4 { val := val }) s = .next t)
    (hhigh : exec (.registerWrite fn (addr + 4) 4 { val := val >>> 32 }) t = .next u) :
    exec (.registerWrite fn addr 8 { val := val }) s = .next u := by
  rw [exec_registerWrite_word h4] at hlow
  rw [exec_registerWrite_word (by omega)] at hhigh
  rw [← Host.Outcome.next.inj hhigh, ← Host.Outcome.next.inj hlow, ← State.writeAccess_nil, ← State.writeAccess_nil]
  exact congrArg _ ((if_neg (by omega)).trans ((if_neg (by omega)).trans
    (if_neg (by simp [isDoorbell_regTarget_eq_false ht]))))

/-- Settles O10, register by register. -/
theorem registerWrites : Obligations.RegisterWrites := by
  intro s k val hk hw
  have header {off : Nat} (ho : off < 0x100) (h4 : off % 4 = 0) (h : off ∉ ownCommandOffsets) :=
    exec_registerWrite_writeHeader hk hw ho h4 h val
  refine ⟨fun hl => ?_, fun hl => ?_, fun hl => ?_, fun hl => ?_, fun e he h8 => ?_, ?_, fun off ho => ?_, fun fn addr h => ?_,
    fun fn addr idx h4 ht hopen hfn size hsize => ?_, fun fn addr t u h4 ht hlow hhigh => ?_⟩
  · refine ⟨_, exec_registerWrite_header hk hw (by decide) (by decide) val, ?_⟩
    exact (congrArg _ (State.writeCtrl_unlocked hw hl)).mpr (State.irqSync_signals _ k)
  · exact ⟨_, exec_registerWrite_header hk hw (by decide) (by decide) val, State.writeCtrl_locking hk hw hl⟩
  · refine ⟨_, header (by decide) (by decide) (by decide), ?_⟩
    rw [State.writeHeader_fltCfg, if_neg (Bool.eq_false_iff.mp hl)]
    exact State.irqSync_signals _ k
  · exact (header (by decide) (by decide) (by decide)).trans (congrArg _ (if_pos hl))
  · exact (header (by omega) (by omega) (by simp [ownCommandOffsets]; omega)).trans (congrArg _ (State.writeHeader_evtSel s he h8 _))
  · exact (header (by decide) (by decide) (by decide)).trans (congrArg _ (State.writeHeader_scratch s k _))
  · obtain ⟨hlt, h4, hp⟩ := readOnlyOffset off ho
    exact (header hlt h4 hp).trans (congrArg _ (State.writeHeader_readOnly s k ho _))
  · exact exec_registerWrite_missing h val
  · exact exec_registerWrite_doorbell h4 ht hopen hfn hsize val
  · exact exec_registerWrite_long h4 ht hlow hhigh

end Sys2Proof.Machine
end

section
/-! SUPPORT. What every row leaves alone: the frame, but for the rows that may move the lifecycle or the time; and the time, but for
TICK_EDGE, PERIOD_APPLIED and the two resets (R18, R22, R159). -/

namespace Sys2Proof.Machine

/-- The rows that have no frame lemma: those that may move the lifecycle, by a tamper response or the area erase, or the time. -/
def movesFrame : Instr → Bool
  | .tickEdge | .periodApplied | .powerUp _ | .coldReset _ => true
  | .registerWrite .. | .fltForce .. | .segmentStart .. | .bneRunStart .. | .tamperAlarm .. | .selvedgeCheck .. | .loopCheck ..
  | .caseSwitch .. | .monitorDisagree .. | .vbatLow .. | .areaEraseDone => true
  | _ => false

/-- Every row that is no instruction of an engine keeps the frame, but those of `movesFrame`. -/
theorem exec_frame_of_noEngine {c : Instr} {s t : State} (hp : pvuRow c = none) (hb : bneRow c = none) (h : exec c s = .next t)
    (hm : movesFrame c = false) : t.frame = s.frame := by
  cases c <;> cases hp <;> cases hb <;> cases hm
  -- Rows of registers, queues, Treadle and the engines.
  case counterLoRead => exact execCounterLoRead_frame _ _ _ _ h
  case irqClear => exact execIrqClear_frame _ _ _ _ h
  case irqMask => exact execIrqMask_frame _ _ _ _ h
  case msixUnmask => exact execMsixUnmask_frame _ _ _ _ h
  case blkCtrlLock => exact execBlkCtrlLock_frame _ _ _ h
  case fltStatus => exact execFltStatus_frame _ _ _ _ h
  case hrtAck => exact execHrtAck_frame _ _ _ h
  case hrtFirst => exact execHrtFirst_frame _ _ _ h
  case hrtBeat => exact execHrtBeat_frame _ _ _ h
  case hrtRestore => exact execHrtRestore_frame _ _ _ _ h
  case srcCfgWrite => exact execSrcCfgWrite_frame _ _ _ h
  case doorbell => exact execDoorbell_frame _ _ _ _ _ h
  case instAdb => exact execInstAdb_frame _ _ _ _ h
  case instEcinv => exact execInstEcinv_frame _ _ _ _ h
  case adminQueueEnable => exact execAdminQueueEnable_frame _ _ _ _ h
  case adminQueueDisable => exact execAdminQueueDisable_frame _ _ _ _ h
  case scan => exact execScan_frame _ _ _ _ _ h
  case scanResume => exact execScanResume_frame _ _ _ _ _ h
  case entryFetch => exact execEntryFetch_frame _ _ _ _ _ h
  case inputFetch => exact execInputFetch_frame _ _ _ _ h
  case segmentOverrun => exact execSegmentOverrun_frame _ _ _ h
  case bneRunEnd => exact execBneRunEnd_frame _ _ _ h
  case trdTickcfg => exact execTrdTickcfg_frame _ _ _ h
  case histClear => exact execHistClear_frame _ _ _ h
  case tickInEdge => exact execTickInEdge_frame _ _ _ _ h
  case tickinLost => exact execTickinLost_frame _ _ h
  case damperStageChange => exact execDamperStageChange_frame _ _ _ h
  case pvuDerate => exact execPvuDerate_frame _ _ _ h
  case engineClockGate => exact execEngineClockGate_frame _ _ _ h
  case selftestStart => exact execSelftestStart_frame _ _ _ _ h
  case selftestDone => exact execSelftestDone_frame _ _ _ _ _ h
  -- Rows of commands of the job queues, with what loads and ends them.
  case queueNop => exact execQueueNop_frame _ _ _ h
  case patternRun => exact execPatternRun_frame _ _ _ h
  case rngFill => exact execRngFill_frame _ _ _ h
  case clusterStatus => exact execClusterStatus_frame _ _ _ h
  case mlkemKeygen => exact execMlkemKeygen_frame _ _ _ h
  case mlkemEncaps => exact execMlkemEncaps_frame _ _ _ h
  case mlkemDecaps => exact execMlkemDecaps_frame _ _ _ h
  case mldsaKeygen => exact execMldsaKeygen_frame _ _ _ h
  case mldsaSign => exact execMldsaSign_frame _ _ _ h
  case mldsaVerify => exact execMldsaVerify_frame _ _ _ h
  case hashmldsaSign => exact execHashmldsaSign_frame _ _ _ h
  case hashmldsaVerify => exact execHashmldsaVerify_frame _ _ _ h
  case fndsaVerify => exact execFndsaVerify_frame _ _ _ h
  case matrixPreload => exact execMatrixPreload_frame _ _ _ h
  case slhdsaKeygen => exact execSlhdsaKeygen_frame _ _ _ h
  case slhdsaSign => exact execSlhdsaSign_frame _ _ _ h
  case slhdsaVerify => exact execSlhdsaVerify_frame _ _ _ h
  case hashslhdsaSign => exact execHashslhdsaSign_frame _ _ _ h
  case hashslhdsaVerify => exact execHashslhdsaVerify_frame _ _ _ h
  case lmsKeygen => exact execLmsKeygen_frame _ _ _ h
  case lmsSign => exact execLmsSign_frame _ _ _ h
  case lmsVerify => exact execLmsVerify_frame _ _ _ h
  case xmssKeygen => exact execXmssKeygen_frame _ _ _ h
  case xmssSign => exact execXmssSign_frame _ _ _ h
  case xmssVerify => exact execXmssVerify_frame _ _ _ h
  case statefulStatus => exact execStatefulStatus_frame _ _ _ h
  case statefulAdvance => exact execStatefulAdvance_frame _ _ _ h
  case hqcKeygen => exact execHqcKeygen_frame _ _ _ h
  case hqcEncaps => exact execHqcEncaps_frame _ _ _ h
  case hqcDecaps => exact execHqcDecaps_frame _ _ _ h
  case mceKeygen => exact execMceKeygen_frame _ _ _ h
  case mceEncaps => exact execMceEncaps_frame _ _ _ h
  case mceDecaps => exact execMceDecaps_frame _ _ _ h
  case mcePin => exact execMcePin_frame _ _ _ h
  case pinLoad => exact execPinLoad_frame _ _ _ h
  case mceUnpin => exact execMceUnpin_frame _ _ _ h
  case unpinDone => exact execUnpinDone_frame _ _ _ h
  case modAdd => exact execModAdd_frame _ _ _ h
  case modSub => exact execModSub_frame _ _ _ h
  case modMul => exact execModMul_frame _ _ _ h
  case modSqr => exact execModSqr_frame _ _ _ h
  case modInv => exact execModInv_frame _ _ _ h
  case modExp => exact execModExp_frame _ _ _ h
  case modRand => exact execModRand_frame _ _ _ h
  case rsaKeygen => exact execRsaKeygen_frame _ _ _ h
  case rsaSign => exact execRsaSign_frame _ _ _ h
  case rsaVerify => exact execRsaVerify_frame _ _ _ h
  case rsaEncrypt => exact execRsaEncrypt_frame _ _ _ h
  case rsaDecrypt => exact execRsaDecrypt_frame _ _ _ h
  case ecKeygen => exact execEcKeygen_frame _ _ _ h
  case ecdsaSign => exact execEcdsaSign_frame _ _ _ h
  case ecdsaVerify => exact execEcdsaVerify_frame _ _ _ h
  case ecdh => exact execEcdh_frame _ _ _ h
  case eddsaKeygen => exact execEddsaKeygen_frame _ _ _ h
  case eddsaSign => exact execEddsaSign_frame _ _ _ h
  case eddsaVerify => exact execEddsaVerify_frame _ _ _ h
  case xdhKeygen => exact execXdhKeygen_frame _ _ _ h
  case xdh => exact execXdh_frame _ _ _ h
  case hybKeygen => exact execHybKeygen_frame _ _ _ h
  case hybEncaps => exact execHybEncaps_frame _ _ _ h
  case hybDecaps => exact execHybDecaps_frame _ _ _ h
  case compKeygen => exact execCompKeygen_frame _ _ _ h
  case compSign => exact execCompSign_frame _ _ _ h
  case compVerify => exact execCompVerify_frame _ _ _ h
  case keyImport => exact execKeyImport_frame _ _ _ h
  case keyExport => exact execKeyExport_frame _ _ _ h
  case pubkeyRegister => exact execPubkeyRegister_frame _ _ _ h
  case pubkeyRead => exact execPubkeyRead_frame _ _ _ h
  case keyDelete => exact execKeyDelete_frame _ _ _ h
  case keyDeleteCleanup => exact execKeyDeleteCleanup_frame _ _ _ h
  case objectBlockErase => exact execObjectBlockErase_frame _ _ _ _ h
  case keyAttrRead => exact execKeyAttrRead_frame _ _ _ h
  case keyAttrSet => exact execKeyAttrSet_frame _ _ _ h
  case keyBind => exact execKeyBind_frame _ _ _ h
  case symKeygen => exact execSymKeygen_frame _ _ _ h
  case hmac => exact execHmac_frame _ _ _ h
  case hkdf => exact execHkdf_frame _ _ _ h
  case kbkdf => exact execKbkdf_frame _ _ _ h
  case hash => exact execHash_frame _ _ _ h
  -- Rows of the journal, admin commands, functions and mailboxes.
  case journalProgramDone => exact execJournalProgramDone_frame _ _ _ h
  case identify => exact execIdentify_frame _ _ _ h
  case setVersion => exact execSetVersion_frame _ _ _ h
  case setVersionApply => exact execSetVersionApply_frame _ _ _ h
  case queueCreate => exact execQueueCreate_frame _ _ _ h
  case queueDestroy => exact execQueueDestroy_frame _ _ _ h
  case queueDestroyDone => exact execQueueDestroyDone_frame _ _ _ h
  case queueCancel => exact execQueueCancel_frame _ _ _ _ h
  case queueCancelDone => exact execQueueCancelDone_frame _ _ _ h
  case patternLoad => exact execPatternLoad_frame _ _ _ h
  case patternUnload => exact execPatternUnload_frame _ _ _ h
  case patternUnloadDone => exact execPatternUnloadDone_frame _ _ _ h
  case logRead => exact execLogRead_frame _ _ _ h
  case pmuAssign => exact execPmuAssign_frame _ _ _ h
  case pmuRelease => exact execPmuRelease_frame _ _ _ h
  case sampleStart => exact execSampleStart_frame _ _ _ h
  case sampleStop => exact execSampleStop_frame _ _ _ h
  case instanceCreate => exact execInstanceCreate_frame _ _ _ h
  case instanceModify => exact execInstanceModify_frame _ _ _ h
  case instanceEnable => exact execInstanceEnable_frame _ _ _ h
  case instanceQuiesce => exact execInstanceQuiesce_frame _ _ _ h
  case instanceQuiesced => exact execInstanceQuiesced_frame _ _ _ h
  case instanceReset => exact execInstanceReset_frame _ _ _ h
  case instanceDestroy => exact execInstanceDestroy_frame _ _ _ h
  case flr => exact execFlr_frame _ _ _ h
  case busMasterEnableClear => exact execBusMasterEnableClear_frame _ _ _ h
  case vfEnableClear => exact execVfEnableClear_frame _ _ h
  case instanceResetDone => exact execInstanceResetDone_frame _ _ _ h
  case migrateOffer => exact execMigrateOffer_frame _ _ _ h
  case migrateOfferExpiry => exact execMigrateOfferExpiry_frame _ _ _ h
  case migrateFreeze => exact execMigrateFreeze_frame _ _ _ h
  case instanceFrozen => exact execInstanceFrozen_frame _ _ _ h
  case migrateSave => exact execMigrateSave_frame _ _ _ h
  case migrateRestore => exact execMigrateRestore_frame _ _ _ _ h
  case migrateAbort => exact execMigrateAbort_frame _ _ _ h
  case dirtyLogStart => exact execDirtyLogStart_frame _ _ _ h
  case dirtyLogRead => exact execDirtyLogRead_frame _ _ _ h
  case dirtyLogStop => exact execDirtyLogStop_frame _ _ _ h
  case recoveryWindowClose => exact execRecoveryWindowClose_frame _ _ h
  case mbxUpSend => exact execMbxUpSend_frame _ _ _ h
  case mbxDnSend => exact execMbxDnSend_frame _ _ _ h
  case mbxUpAck => exact execMbxUpAck_frame _ _ _ h
  case mbxDnAck => exact execMbxDnAck_frame _ _ _ h
  case moduleMessage => exact execModuleMessage_frame _ _ _ h
  -- Rows of patches, the Digest Service, entropy and assessment.
  case patchLoad => exact execPatchLoad_frame _ _ _ h
  case patchActivate => exact execPatchActivate_frame _ _ _ h
  case patchEngineTurn => exact execPatchEngineTurn_frame _ _ _ _ h
  case patchStatus => exact execPatchStatus_frame _ _ _ h
  case patchRead => exact execPatchRead_frame _ _ _ h
  case bneDummyRatio => exact execBneDummyRatio_frame _ _ _ _ h
  case dgsKload => exact execDgsKload_frame _ _ _ _ h
  case keyLoadDone => exact execKeyLoadDone_frame _ _ _ h
  case dgsKunload => exact execDgsKunload_frame _ _ _ _ h
  case dgsOpen => exact execDgsOpen_frame _ _ _ _ h
  case dgsStart => exact execDgsStart_frame _ _ _ _ h
  case dgsVdata => exact execDgsVdata_frame _ _ _ _ _ _ h
  case dgsBlockCompressed => exact execDgsBlockCompressed_frame _ _ _ _ _ h
  case dgsFinal => exact execDgsFinal_frame _ _ _ _ h
  case dgsFinalDone => exact execDgsFinalDone_frame _ _ _ _ h
  case dgsAbort => exact execDgsAbort_frame _ _ _ _ h
  case dgsSave => exact execDgsSave_frame _ _ _ _ h
  case dgsRestore => exact execDgsRestore_frame _ _ _ _ h
  case dgsClose => exact execDgsClose_frame _ _ _ _ h
  case dgsResultRead => exact execDgsResultRead_frame _ _ _ _ _ h
  case rngDataRead => exact execRngDataRead_frame _ _ _ h
  case rngFifoRefill => exact execRngFifoRefill_frame _ _ _ h
  case conditionedBlock => exact execConditionedBlock_frame _ _ _ _ h
  case oscCalibration => exact execOscCalibration_frame _ _ _ h
  case drbgReseed => exact execDrbgReseed_frame _ _ _ h
  case entRawCtrl => exact execEntRawCtrl_frame _ _ _ _ h
  case entRawData => exact execEntRawData_frame _ _ _ h
  case lkaRelax => exact execLkaRelax_frame _ _ _ h
  case assessmentSlotEnd => exact execAssessmentSlotEnd_frame _ _ _ _ h
  -- Rows of stored data, Hearth, telemetry and the tamper envelope.
  case darningPass => exact execDarningPass_frame _ _ _ _ _ h
  case rowRetirement => exact execRowRetirement_frame _ _ _ _ _ h
  case injectionArm => exact execInjectionArm_frame _ _ _ h
  case flashRefresh => exact execFlashRefresh_frame _ _ _ _ _ h
  case glowToggle => exact execGlowToggle_frame _ _ h
  case tickStall => exact execTickStall_frame _ _ h
  case mgcStall => exact execMgcStall_frame _ _ h
  case logLost => exact execLogLost_frame _ _ h
  case telemetryRecord => exact execTelemetryRecord_frame _ _ _ h
  case pmuClear => exact execPmuClear_frame _ _ _ h
  case pmuFreeze => exact execPmuFreeze_frame _ _ _ h
  case tamperConfigWrite => exact execTamperConfigWrite_frame _ _ _ _ h
  case tmpRelease => exact execTmpRelease_frame _ _ _ h
  case evidenceCopy => exact execEvidenceCopy_frame _ _ h
  case drillExpiry => exact execDrillExpiry_frame _ _ h
  -- Rows of cards and quorums.
  case cardInserted => exact execCardInserted_frame _ _ _ h
  case cardRemoved => exact execCardRemoved_frame _ _ _ h
  case cardActivate => exact execCardActivate_frame _ _ _ h
  case cardDeactivate => exact execCardDeactivate_frame _ _ _ h
  case cardWarmReset => exact execCardWarmReset_frame _ _ _ h
  case atrReceived => exact execAtrReceived_frame _ _ _ _ h
  case atrTimeout => exact execAtrTimeout_frame _ _ _ h
  case vccOvercurrent => exact execVccOvercurrent_frame _ _ _ h
  case apduDataWrite => exact execApduDataWrite_frame _ _ _ h
  case apduStart => exact execApduStart_frame _ _ _ h
  case apduResponse => exact execApduResponse_frame _ _ _ _ h
  case apduDataRead => exact execApduDataRead_frame _ _ h
  case quorumOpen => exact execQuorumOpen_frame _ _ _ h
  case quorumClose => exact execQuorumClose_frame _ _ _ h
  case quorumCard => exact execQuorumCard_frame _ _ _ _ h
  case quorumTimeout => exact execQuorumTimeout_frame _ _ h
  -- Rows of the Peer Link.
  case portEnable => exact execPortEnable_frame _ _ _ _ h
  case peerFprWrite => exact execPeerFprWrite_frame _ _ _ h
  case peerFprClear => exact execPeerFprClear_frame _ _ _ h
  case plkTrain => exact execPlkTrain_frame _ _ _ _ h
  case plkKeepalive => exact execPlkKeepalive_frame _ _ _ _ h
  case plkKeepaliveSend => exact execPlkKeepaliveSend_frame _ _ _ h
  case plkTick => exact execPlkTick_frame _ _ _ _ _ _ h
  case plkJob => exact execPlkJob_frame _ _ _ _ _ h
  case plkResult => exact execPlkResult_frame _ _ _ _ _ _ _ h
  case plkRefuse => exact execPlkRefuse_frame _ _ _ _ _ _ h
  case plkSquash => exact execPlkSquash_frame _ _ _ _ _ h
  case plkKeyPut => exact execPlkKeyPut_frame _ _ _ _ _ h
  case plkKeyDel => exact execPlkKeyDel_frame _ _ _ _ _ h
  case plkKeyAck => exact execPlkKeyAck_frame _ _ _ _ _ h
  case plkGrantReq => exact execPlkGrantReq_frame _ _ _ _ _ h
  case plkGrant => exact execPlkGrant_frame _ _ _ _ _ _ _ h
  case plkRevoke => exact execPlkRevoke_frame _ _ _ _ _ h
  case linkDownTimeout => exact execLinkDownTimeout_frame _ _ _ h
  case portRetrainRetry => exact execPortRetrainRetry_frame _ _ _ h
  -- Rows of management answers, BANK and the test port.
  case setEndpointId => exact execSetEndpointId_frame _ _ _ h
  case getEndpointId => exact execGetEndpointId_frame _ _ h
  case getMctpVersionSupport => exact execGetMctpVersionSupport_frame _ _ _ h
  case getMessageTypeSupport => exact execGetMessageTypeSupport_frame _ _ h
  case getTid => exact execGetTid_frame _ _ h
  case getPldmVersion => exact execGetPldmVersion_frame _ _ _ h
  case getPldmTypes => exact execGetPldmTypes_frame _ _ h
  case getPldmCommands => exact execGetPldmCommands_frame _ _ _ h
  case getPdrRepositoryInfo => exact execGetPdrRepositoryInfo_frame _ _ h
  case getPdr => exact execGetPdr_frame _ _ _ h
  case getSensorReading => exact execGetSensorReading_frame _ _ _ h
  case getStateSensorReadings => exact execGetStateSensorReadings_frame _ _ _ h
  case readVin => exact execReadVin_frame _ _ h
  case readIin => exact execReadIin_frame _ _ h
  case readVout => exact execReadVout_frame _ _ h
  case readIout => exact execReadIout_frame _ _ h
  case readTemperature1 => exact execReadTemperature1_frame _ _ h
  case readPout => exact execReadPout_frame _ _ h
  case statusWord => exact execStatusWord_frame _ _ h
  case clearFaults => exact execClearFaults_frame _ _ h
  case pmbusRevision => exact execPmbusRevision_frame _ _ h
  case mfrId => exact execMfrId_frame _ _ h
  case spdmGetVersion => exact execSpdmGetVersion_frame _ _ h
  case uartConsoleInput => exact execUartConsoleInput_frame _ _ _ h
  case pcieConfigRequest => exact execPcieConfigRequest_frame _ _ _ _ _ _ h
  case bankN => exact execBankN_frame _ _ _ h
  case bankCtrlEnter => exact execBankCtrlEnter_frame _ _ h
  case extest => exact execExtest_frame _ _ _ h
  case samplePreload => exact execSamplePreload_frame _ _ _ h
  case idcode => exact execIdcode_frame _ _ h
  case bankEnter => exact execBankEnter_frame _ _ h
  case bankAddr => exact execBankAddr_frame _ _ _ h
  case bankData => exact execBankData_frame _ _ h
  case bypass => exact execBypass_frame _ _ _ h
  -- Rows of power, resets and lifecycle.
  case powerWarning => exact execPowerWarning_frame _ _ h
  case warnClear => exact execWarnClear_frame _ _ h
  case pcrReset => exact execPcrReset_frame _ _ _ h
  case linkReset => exact execLinkReset_frame _ _ h
  case lifecycleTarget => exact execLifecycleTarget_frame _ _ _ h
  case generateMs => exact execGenerateMs_frame _ _ h
  case decomArm => exact execDecomArm_frame _ _ h
  case decomArmExpiry => exact execDecomArmExpiry_frame _ _ h
  case alarmCleared => exact execAlarmCleared_frame _ _ _ h
  case pcieLinkCorr => exact execPcieLinkCorr_frame _ _ h
  case pcieLinkUp => exact execPcieLinkUp_frame _ _ h
  case spdmRequest => exact execSpdmRequest_frame _ _ _ _ h
  case plkNak => exact execPlkNak_frame _ _ _ _ _ h
  case nextClassAttempt => exact execNextClassAttempt_frame _ _ _ h
  case ppsResponse => exact execPpsResponse_frame _ _ _ _ h
  case unsupportedPldmCmd => exact execUnsupportedPldmCmd_frame _ _ _ _ h
  case pmbusOtherCommand => exact execPmbusOtherCommand_frame _ _ _ _ h
  case patchRamReloadDone => exact execPatchRamReloadDone_frame _ _ _ h

/-- Every row but those of `movesFrame` keeps the frame: the PVU's and the BNE's rows by one lemma each, the others row by row. -/
theorem exec_frame {c : Instr} {s t : State} (h : exec c s = .next t) (hm : movesFrame c = false) : t.frame = s.frame := by
  rcases hp : pvuRow c with _ | ⟨op, i⟩
  · rcases hb : bneRow c with _ | ⟨o, i⟩
    · exact exec_frame_of_noEngine hp hb h hm
    · exact bneExec_frame o i s t (exec_bneRow hb s ▸ h)
  · exact pvuExec_frame op i s t (exec_pvuRow hp s ▸ h)

/-- Every row but TICK_EDGE, PERIOD_APPLIED and the two resets keeps the time, the edge number and the period. -/
theorem exec_clock {c : Instr} {s t : State} (h : exec c s = .next t) (htick : c ≠ .tickEdge) (hper : c ≠ .periodApplied)
    (hup : ∀ r, c ≠ .powerUp r) (hcold : ∀ r, c ≠ .coldReset r) : t.clock = s.clock := by
  refine (Bool.eq_false_or_eq_true (movesFrame c)).elim (fun hm => ?_) fun hm => State.clock_of_frame (exec_frame h hm)
  cases c <;> cases hm
  case tickEdge => exact absurd rfl htick
  case periodApplied => exact absurd rfl hper
  case powerUp r => exact absurd rfl (hup r)
  case coldReset r => exact absurd rfl (hcold r)
  case registerWrite fn addr size val => exact execRegisterWrite_clock fn addr size val s t h
  case fltForce blk val => exact execFltForce_clock blk val s t h
  case segmentStart pvu start => exact execSegmentStart_clock pvu start s t h
  case bneRunStart start => exact execBneRunStart_clock start s t h
  case tamperAlarm input meas => exact execTamperAlarm_clock input meas s t h
  case selvedgeCheck traces => exact execSelvedgeCheck_clock traces s t h
  case loopCheck n meas bitsMatch => exact execLoopCheck_clock n meas bitsMatch s t h
  case caseSwitch n level => exact execCaseSwitch_clock n level s t h
  case monitorDisagree m detectorB => exact execMonitorDisagree_clock m detectorB s t h
  case vbatLow mv => exact execVbatLow_clock mv s t h
  case areaEraseDone => exact execAreaEraseDone_clock s t h

theorem State.clock_eq_iff {s : State} {us edge period : Nat} :
    s.clock = (us, edge, period) ↔ s.us = us ∧ s.trd.edge = edge ∧ s.trd.period = period := by
  simp only [State.clock, Prod.mk.injEq]

theorem exec_tickEdge_ready {s : State} (hr : s.trd.ready = true) (hf : s.pcr.frozen = false) : exec .tickEdge s = .next s.tickEdge :=
  congrArg Host.Outcome.next (if_pos (by simp [hr, hf]))

theorem exec_tickEdge_stopped {s : State} (h : s.trd.ready = false ∨ s.pcr.frozen = true) : exec .tickEdge s = .next s :=
  congrArg Host.Outcome.next (if_neg (by rcases h with h | h <;> simp [h]))

/-- Settles O8: the edge itself by its clock lemma, every other row by the frames. -/
theorem timeAdvancesAtEdges : Obligations.TimeAdvancesAtEdges := by
  refine ⟨fun s => ?_, fun c s t h htick hper hup hcold => State.clock_eq_iff.mp (exec_clock h htick hper hup hcold)⟩
  cases hr : s.trd.ready with
  | false => exact ⟨s, exec_tickEdge_stopped (.inl hr), fun h => absurd h (by decide), fun _ => rfl⟩
  | true =>
    cases hf : s.pcr.frozen with
    | true => exact ⟨s, exec_tickEdge_stopped (.inr hf), fun _ h => absurd h (by decide), fun _ => rfl⟩
    | false =>
      exact ⟨s.tickEdge, exec_tickEdge_ready hr hf, fun _ _ => State.clock_eq_iff.mp s.tickEdge_clock,
        fun h => h.elim (fun h => absurd h (by decide)) fun h => absurd h (by decide)⟩

end Sys2Proof.Machine
end

section
/-! SUPPORT. What a fault event leaves alone, whatever its response: the part, the tamper envelope, the patches, and the state of Treadle
and of power but for the fields that retirements and SAFE_HALT write (R576 to R578, R585, R594). -/

namespace Sys2Proof.Machine

/-- Treadle without what a retirement (R577, R585) or a dropped booking may change. -/
def Treadle.steady (t : Treadle) : Treadle :=
  { t with cfg := 0, source := 0, locked := false, plan := [], signQ := [], sets := [], pages := [], retiring := [] }

/-- The state of power without what a lost lane (R586) or SAFE_HALT (R595) writes. -/
def Pcr.steady (p : Pcr) : Pcr := { p with failStep := 0, linkWidth := 0 }

/-- What no fault event changes, neither its record nor its response. -/
def State.steady (s : State) : Nat × Nat × Treadle × Tmp × Patches × Pcr :=
  (s.part, s.nextJob, s.trd.steady, s.tmp, s.patches, s.pcr.steady)

theorem foldl_steady {α : Type} {f : State → α → State} (h : ∀ t x, (f t x).steady = t.steady) (l : List α) (s : State) :
    (l.foldl f s).steady = s.steady := by
  induction l generalizing s with
  | nil => rfl
  | cons x l ih => exact (ih _).trans (h s x)

theorem ite_steady {c : Prop} [Decidable c] {a b s : State} (ha : a.steady = s.steady) (hb : b.steady = s.steady) :
    (if c then a else b).steady = s.steady := by
  split
  · exact ha
  · exact hb

theorem State.Signals.steady {s t : State} (h : s.Signals t) : t.steady = s.steady := (congrArg State.steady h.1).trans rfl
theorem State.Posts.steady {s t : State} (h : s.Posts t) : t.steady = s.steady := (congrArg State.steady h.1).trans rfl

theorem State.irqSync_steady (s : State) (k : Nat) : (s.irqSync k).steady = s.steady := (s.irqSync_signals k).steady
theorem State.cause_steady (s : State) (k n : Nat) : (s.cause k n).steady = s.steady := (s.cause_signals k n).steady
theorem State.event_steady (s : State) (k ev : Nat) (fn : Option Nat) (n : Nat) : (s.event k ev fn n).steady = s.steady :=
  (s.event_signals k ev fn n).steady
theorem State.hostWrite_steady (s : State) (fn addr : Nat) (bs : List Byte) : (s.hostWrite fn addr bs).steady = s.steady :=
  (s.hostWrite_posts fn addr bs).steady
theorem State.writeHead_steady (s : State) (fn : Nat) (q : Queue) : (s.writeHead fn q).steady = s.steady :=
  (s.writeHead_posts fn q).steady

-- KST closes and writes its commit records (R349, R450).

theorem State.programPages_steady (s : State) (n : Nat) : (s.programPages n).steady = s.steady := by
  unfold State.programPages
  exact ite_steady rfl (State.event_steady _ _ _ _ _)

theorem State.kstCommit_steady (s : State) : s.kstCommit.steady = s.steady := State.programPages_steady _ _

theorem State.kstClose_steady (s : State) : s.kstClose.steady = s.steady := by
  unfold State.kstClose
  exact ite_steady (State.cause_steady _ _ _) rfl

-- The completion of a taken entry (R101 to R115).

theorem State.scatter_steady (s : State) (fn : Nat) (ps : List (Nat × Nat)) (bs : List Byte) : (s.scatter fn ps bs).steady = s.steady := by
  induction ps generalizing s bs with
  | nil => rfl
  | cons p ps ih => exact (ih _ _).trans (State.hostWrite_steady _ _ _ _)

theorem State.writeOutput_steady (s : State) (j : Job) (r : Result) : (s.writeOutput j r).steady = s.steady := by
  unfold State.writeOutput
  exact ite_steady (ite_steady (State.scatter_steady _ _ _ _) (State.hostWrite_steady _ _ _ _)) rfl

theorem State.writeRecord_steady (s : State) (id : Nat) (j : Job) (q : Queue) : (s.writeRecord id j q).steady = s.steady :=
  (State.event_steady _ _ _ _ _).trans ((State.hostWrite_steady _ _ _ _).trans (State.hostWrite_steady _ _ _ _))

theorem State.writeStatus_steady (s : State) (j : Job) : (s.writeStatus j).steady = s.steady := by
  unfold State.writeStatus
  exact ite_steady rfl (State.hostWrite_steady _ _ _ _)

/-- A version 1 entry that the head passes gets its status word; another has its record already (R155). -/
theorem State.passEntry_steady (s : State) (c : Prop) [Decidable c] (j : Job) (fn : Nat) :
    (if c then (s.writeStatus j).event 2 2 (some fn) 1 else s).steady = s.steady :=
  ite_steady ((State.event_steady _ _ _ _ _).trans (State.writeStatus_steady _ _)) rfl

theorem State.advanceHead_steady (fuel : Nat) (s : State) (fn q : Nat) : (State.advanceHead fuel s fn q).1.steady = s.steady := by
  induction fuel generalizing s with
  | zero => rfl
  | succ fuel ih =>
    unfold State.advanceHead
    split
    · rfl
    · split
      · rfl
      · split
        · exact (ih _).trans (State.passEntry_steady _ _ _ _)
        · rfl

theorem State.moveHead_steady (s : State) (fn q : Nat) : (s.moveHead fn q).steady = s.steady := by
  have h := State.advanceHead_steady (s.jobs.length + 1) s fn q
  unfold State.moveHead
  dsimp only []
  split
  · split
    · exact (State.writeHead_steady _ _ _).trans h
    · exact h
  · exact h

theorem State.flushOne_steady (s : State) (fn q id : Nat) : (s.flushOne fn q id).steady = s.steady := by
  unfold State.flushOne
  split
  · exact ite_steady rfl (ite_steady (State.moveHead_steady _ _ _) (ite_steady rfl
      ((State.moveHead_steady _ _ _).trans (State.writeRecord_steady _ _ _ _))))
  · rfl

theorem State.flushQueue_steady (s : State) (fn q : Nat) : (s.flushQueue fn q).steady = s.steady :=
  foldl_steady (fun t i => t.flushOne_steady fn q i) _ _

theorem State.releaseKey_steady (s : State) (id : Nat) (j : Job) : (s.releaseKey id j).steady = s.steady := by
  unfold State.releaseKey
  split
  · rfl
  · split
    · rfl
    · dsimp only []
      split <;> rfl

theorem State.consumeKey_steady (s : State) (j : Job) : (s.consumeKey j).steady = s.steady := by
  unfold State.consumeKey
  split
  · split <;> rfl
  · rfl

theorem State.dropCreated_steady (s : State) (j : Job) (r : Result) : (s.dropCreated j r).steady = s.steady := by
  unfold State.dropCreated
  split
  · rfl
  · split <;> rfl

theorem State.record_steady (s : State) (id : Nat) (j : Job) (r : Result) : (s.record id j r).steady = s.steady := by
  have h : (((s.consumeKey j).releaseKey id j).dropCreated j r).steady = s.steady :=
    (State.dropCreated_steady _ _ _).trans ((State.releaseKey_steady _ _ _).trans (State.consumeKey_steady _ _))
  unfold State.record
  dsimp only []
  split <;> exact h

theorem State.finishDuplicates_steady (s : State) (id : Nat) (j : Job) (r : Result) : (s.finishDuplicates id j r).steady = s.steady :=
  foldl_steady (fun t _ => (State.flushQueue_steady _ _ _).trans ((State.record_steady _ _ _ _).trans (t.writeOutput_steady _ _))) _ _

theorem State.countBite_steady (s : State) (j : Job) (st : Nat) : (s.countBite j st).steady = s.steady := by
  unfold State.countBite
  exact ite_steady (State.event_steady _ _ _ _ _) rfl

theorem State.putFrame_steady (s : State) (port code dst seq : Nat) (payload : List Byte) :
    (s.putFrame port code dst seq payload).steady = s.steady := by
  unfold State.putFrame
  exact ite_steady rfl rfl

theorem State.sendPiece_steady (s : State) (port code dst : Nat) (payload : List Byte) :
    (s.sendPiece port code dst payload).steady = s.steady :=
  (State.event_steady _ _ _ _ _).trans (State.putFrame_steady _ _ _ _ _ _)

theorem State.sendFrame_steady (s : State) (port typ dst : Nat) (payload : List Byte) :
    (s.sendFrame port typ dst payload).steady = s.steady := by
  unfold State.sendFrame
  exact ite_steady rfl ((foldl_steady (fun t i => t.sendPiece_steady _ _ _ _) _ _).trans (State.sendPiece_steady _ _ _ _ _))

theorem State.finish_steady (s : State) (id : Nat) (r : Result) : (s.finish id r).steady = s.steady := by
  unfold State.finish
  split
  · rfl
  · split
    · rfl
    · dsimp only []
      split
      · exact (State.sendFrame_steady _ _ _ _ _).trans ((State.releaseKey_steady _ _ _).trans (State.countBite_steady _ _ _))
      · exact (State.finishDuplicates_steady _ _ _ _).trans ((State.flushQueue_steady _ _ _).trans ((State.record_steady _ _ _ _).trans
          ((State.writeOutput_steady _ _ _).trans (State.countBite_steady _ _ _))))

theorem State.aqClose_steady (s : State) (fn : Nat) : (s.aqClose fn).steady = s.steady := by
  unfold State.aqClose
  dsimp only []
  split <;> rfl

theorem State.completeTaken_steady (s : State) (status : Nat) : (s.completeTaken status).steady = s.steady :=
  (foldl_steady State.aqClose_steady _ _).trans (foldl_steady (fun t id => t.finish_steady id _) _ _)

-- The engines of a stopped domain (R383, R578, R594).

theorem State.bneAbort_steady (s : State) (n : Nat) (c : BneCause) : (s.bneAbort n c).steady = s.steady :=
  (State.cause_steady _ _ _).trans (State.event_steady _ _ _ _ _)

theorem State.abortRuns_steady (s : State) (ns : List Nat) (c : BneCause) : (s.abortRuns ns c).steady = s.steady :=
  foldl_steady (fun t n => ite_steady (t.bneAbort_steady n c) rfl) ns s

theorem State.stopEngines_steady (s : State) : s.stopEngines.steady = s.steady := s.abortRuns_steady (List.range s.bnes) .deviceState

theorem State.stopDomain_steady (s : State) (e : Event) : (s.stopDomain e).steady = s.steady := by
  unfold State.stopDomain
  have habort := fun u : State => u.abortRuns_steady
  exact ite_steady ((State.kstClose_steady _).trans (habort _ _ _))
    (ite_steady ((State.irqSync_steady _ _).trans (habort _ _ _)) (habort _ _ _))

theorem State.safeHalt_steady (s : State) (src detail : Nat) : (s.safeHalt src detail).steady = s.steady := by
  unfold State.safeHalt
  split
  · rfl
  · have hdone := fun u : State => ite_steady (c := haltInPath src detail = true) (rfl : u.steady = u.steady) (u.completeTaken_steady 0x00A1)
    have hcommit := fun u : State => ite_steady (c := src / 256 = 0x41 ∨ src / 256 = 0x32) (rfl : u.steady = u.steady) u.kstCommit_steady
    exact (State.kstClose_steady _).trans ((hcommit _).trans ((hdone _).trans (State.stopEngines_steady _)))

end Sys2Proof.Machine
end

section
/-! SUPPORT. The record of a fault event and its response (R576 to R584): what the record touches, and that neither touches what is steady. -/

namespace Sys2Proof.Machine

/-- What the record of an event of source `src` may touch: interrupt requests, Hearth with the counts of that source alone, the Hash Array's
fault counts and the fault ring. -/
def State.Notes (src : Nat) (s t : State) : Prop :=
  t = { s with blk := t.blk, out := t.out, funcs := t.funcs, pmu := { s.pmu with ctr := t.pmu.ctr, ovf := t.pmu.ovf }, hrt := t.hrt,
               hsa := { s.hsa with flt := t.hsa.flt }, held := { s.held with faultRing := t.held.faultRing } }
  ∧ ∀ k, k ≠ src → t.getSrc k = s.getSrc k

theorem State.notes_refl (src : Nat) (s : State) : s.Notes src s := ⟨rfl, fun _ _ => rfl⟩

theorem State.Notes.trans {src : Nat} {a b c : State} (h : a.Notes src b) (g : b.Notes src c) : a.Notes src c :=
  ⟨by rw [g.1, h.1], fun k hk => (g.2 k hk).trans (h.2 k hk)⟩

theorem State.notes_ite {src : Nat} {c : Prop} [Decidable c] {s a b : State} (ha : s.Notes src a) (hb : s.Notes src b) :
    s.Notes src (if c then a else b) := by
  split
  · exact ha
  · exact hb

theorem State.Notes.steady {src : Nat} {s t : State} (h : s.Notes src t) : t.steady = s.steady := (congrArg State.steady h.1).trans rfl

theorem State.Signals.hrt {s t : State} (h : s.Signals t) : t.hrt = s.hrt := (congrArg State.hrt h.1).trans rfl

theorem State.Signals.notes {src : Nat} {s t : State} (h : s.Signals t) : s.Notes src t :=
  ⟨by rw [h.1], fun k _ => congrArg (fun x : Hearth => KV.getD x.src k {}) h.hrt⟩

theorem State.cause_notes {src : Nat} (s : State) (k n : Nat) : s.Notes src (s.cause k n) :=
  State.Notes.trans (b := s.setBlk k _) ⟨rfl, fun _ _ => rfl⟩ (s.cause_signals k n).notes

/-- A source's own counts are written. -/
theorem State.setSrc_notes (s : State) (src : Nat) (r : SrcRec) : s.Notes src (s.setSrc src r) :=
  ⟨rfl, fun _ hk => KV.getD_set_other _ _ _ hk⟩

theorem State.setCountTimes_notes (s : State) (e : Event) (ts : List Nat) : s.Notes e.src (s.setCountTimes e ts) := by
  unfold State.setCountTimes
  exact State.notes_ite ⟨rfl, fun _ _ => rfl⟩ (State.notes_ite ⟨rfl, fun _ _ => rfl⟩ (State.notes_ite ⟨rfl, fun _ _ => rfl⟩ (s.setSrc_notes _ _)))

theorem State.latchFirst_notes {src : Nat} (s : State) (e : Event) (cls : Nat) : s.Notes src (s.latchFirst e cls) := by
  unfold State.latchFirst
  refine State.notes_ite (s.notes_refl src) ?_
  split
  · exact ⟨rfl, fun _ _ => rfl⟩
  · exact State.Notes.trans (b := { s with hrt := _ }) ⟨rfl, fun _ _ => rfl⟩ (State.cause_notes _ _ _)

theorem State.logFault_notes {src : Nat} (s : State) (r : FltRec) : s.Notes src (s.logFault r) := by
  unfold State.logFault
  exact State.notes_ite ⟨rfl, fun _ _ => rfl⟩ ⟨rfl, fun _ _ => rfl⟩

theorem State.noteEvent_notes (s : State) (e : Event) (ecls : Nat) (promoted escalated counted room retires : Bool) :
    s.Notes e.src (s.noteEvent e ecls promoted escalated counted room retires) := by
  unfold State.noteEvent
  extract_lets ts s1 r s2 _ _ s3 k b s4 _ s5 isFirst s6 logs flags rec_ logged _ s7 s8 s9
  have h1 : s.Notes e.src s1 := State.notes_ite (s.setCountTimes_notes _ _) (s.notes_refl _)
  have h2 : s1.Notes e.src s2 := s1.setSrc_notes _ _
  have h3 : s2.Notes e.src s3 := State.notes_ite ⟨rfl, fun _ _ => rfl⟩ (State.notes_ite ⟨rfl, fun _ _ => rfl⟩ (s2.notes_refl _))
  have h5 : s3.Notes e.src s5 := ⟨rfl, fun _ _ => rfl⟩
  have h6 : s5.Notes e.src s6 := s5.latchFirst_notes _ _
  have hlog : s6.Notes e.src logged := s6.logFault_notes _
  have h7 : s6.Notes e.src s7 := State.notes_ite (s6.notes_refl _)
    (State.notes_ite (State.notes_ite (hlog.trans (logged.emit_signals _).notes) hlog) ⟨rfl, fun _ _ => rfl⟩)
  have h8 : s7.Notes e.src s8 := State.notes_ite (s7.cause_notes _ _) (s7.notes_refl _)
  have h9 : s8.Notes e.src s9 := State.notes_ite (s8.cause_notes _ _) (s8.notes_refl _)
  have hcounted : s9.Signals (((s9.event 0x50 1 none 1).event 0x50 2 none (b2n promoted)).irqSync k) :=
    ((State.event_signals _ _ _ _ _).trans (State.event_signals _ _ _ _ _)).trans (State.irqSync_signals _ k)
  exact h1.trans (h2.trans (h3.trans (h5.trans (h6.trans (h7.trans (h8.trans (h9.trans hcounted.notes)))))))

-- The response.

theorem State.markRetiring_steady (s : State) (code : Nat) : (s.markRetiring code).steady = s.steady := by
  unfold State.markRetiring
  exact ite_steady rfl ((State.event_steady _ _ _ _ _).trans (State.cause_steady _ _ _))

/-- The last steps of a retirement outside the engines: RETIRED is latched and counted (R577). -/
theorem State.noteRetired_steady (s : State) : ((s.cause 0x50 3).event 0x50 3 none 1).steady = s.steady :=
  (State.event_steady _ _ _ _ _).trans (State.cause_steady _ _ _)

theorem State.retireChannel_steady (s : State) (e : Event) : (s.retireChannel e).steady = s.steady := by
  have hmark := s.markRetiring_steady
  unfold State.retireChannel
  split
  case h_1 => rfl
  case h_2 => exact hmark _
  case h_3 => exact hmark _
  case h_4 => exact (State.noteRetired_steady _).trans (State.cause_steady _ _ _)
  case h_5 => rfl
  case h_6 => exact (State.noteRetired_steady _).trans (ite_steady rfl rfl)
  case h_7 => exact ite_steady (hmark _) (ite_steady (hmark _) (ite_steady (hmark _) (ite_steady (hmark _) rfl)))
  case h_8 => exact State.noteRetired_steady _
  case h_9 => exact State.noteRetired_steady _

theorem State.respond_steady (s : State) (e : Event) (ecls : Nat) (escalated : Bool) : (s.respond e ecls escalated).steady = s.steady := by
  have hretire := ite_steady (c := ecls - b2n escalated = 2) (s.retireChannel_steady e) rfl
  have hstop := fun u : State => ite_steady (c := ecls = 3) (u.stopDomain_steady e) rfl
  have hhalt := fun u : State => ite_steady (c := 4 ≤ ecls) (u.safeHalt_steady e.src e.detail) rfl
  exact (hhalt _).trans ((hstop _).trans hretire)

theorem State.raise1_steady (s : State) (e : Event) (room : Bool) : (s.raise1 e room).steady = s.steady := by
  have hnote := fun ecls p x c r => (s.noteEvent_notes e ecls p x c room r).steady
  unfold State.raise1
  split
  · rfl
  · exact ite_steady (hnote _ _ _ _ _) ((State.respond_steady _ _ _ _).trans (hnote _ _ _ _ _))

theorem State.raise_steady (s : State) (e : Event) : (s.raise e).steady = s.steady := by
  have h1 := s.raise1_steady e true
  unfold State.raise
  exact ite_steady ((State.raise1_steady _ _ _).trans h1) h1

end Sys2Proof.Machine
end

section
/-! SUPPORT. An event of raw class NOTE or CORRECTED that retires nothing stops a domain at the worst (R576, R578, R581): the jobs and the
entropy sources stay as they are. -/

namespace Sys2Proof.Machine

/-- What the stop of a domain leaves alone beside what is steady: jobs, queues, entropy and the counts of the fault sources. -/
def State.work (s : State) : KV Job × KV Queue × Ent × KV SrcRec := (s.jobs, s.queues, s.ent, s.hrt.src)

theorem ite_work {c : Prop} [Decidable c] {a b s : State} (ha : a.work = s.work) (hb : b.work = s.work) :
    (if c then a else b).work = s.work := by
  split
  · exact ha
  · exact hb

theorem State.Signals.work {s t : State} (h : s.Signals t) : t.work = s.work := (congrArg State.work h.1).trans rfl

theorem State.irqSync_work (s : State) (k : Nat) : (s.irqSync k).work = s.work := (s.irqSync_signals k).work
theorem State.cause_work (s : State) (k n : Nat) : (s.cause k n).work = s.work := (s.cause_signals k n).work
theorem State.event_work (s : State) (k ev : Nat) (fn : Option Nat) (n : Nat) : (s.event k ev fn n).work = s.work :=
  (s.event_signals k ev fn n).work

theorem State.kstClose_work (s : State) : s.kstClose.work = s.work := by
  unfold State.kstClose
  exact ite_work (State.cause_work _ _ _) rfl

theorem State.abortRuns_work (s : State) (ns : List Nat) (c : BneCause) : (s.abortRuns ns c).work = s.work := by
  unfold State.abortRuns
  induction ns generalizing s with
  | nil => rfl
  | cons n ns ih =>
    exact (ih _).trans (ite_work ((State.cause_work _ _ _).trans (State.event_work _ _ _ _ _)) rfl)

theorem State.stopDomain_work (s : State) (e : Event) : (s.stopDomain e).work = s.work := by
  have habort := fun u : State => u.abortRuns_work
  unfold State.stopDomain
  exact ite_work ((State.kstClose_work _).trans (habort _ _ _)) (ite_work ((State.irqSync_work _ _).trans (habort _ _ _)) (habort _ _ _))

theorem State.retireChannel_none {e : Event} (h : eventChannel e = .none) (s : State) : s.retireChannel e = s := by
  unfold State.retireChannel
  rw [h]

theorem State.respond_work {e : Event} (h : eventChannel e = .none) {ecls : Nat} (hc : ecls < 4) (s : State) (escalated : Bool) :
    (s.respond e ecls escalated).work = s.work := by
  have hstop := fun u : State => ite_work (c := ecls = 3) (u.stopDomain_work e) rfl
  have hretire := ite_work (c := ecls - b2n escalated = 2) (congrArg State.work (s.retireChannel_none h)) rfl
  unfold State.respond
  dsimp only []
  rw [if_neg (show ¬4 ≤ ecls by omega)]
  exact (hstop _).trans hretire

theorem b2n_le_one (b : Bool) : b2n b ≤ 1 := by cases b <;> decide

/-- Promotion and escalation raise an event's class by one each (R579, R581). -/
theorem State.effective_le (s : State) (e : Event) : (s.effective e).1 ≤ rawClass e + 2 := by
  have hp := b2n_le_one (s.promotes e)
  have hx := b2n_le_one (s.escalates e (rawClass e + b2n (s.promotes e)))
  simp only [State.effective]
  omega

theorem State.jobs_of_work {s t : State} (h : t.work = s.work) : t.jobs = s.jobs := congrArg Prod.fst h

theorem State.getSrc_of_work {s t : State} (h : t.work = s.work) (k : Nat) : t.getSrc k = s.getSrc k := by
  simp only [State.work, Prod.mk.injEq] at h
  simp only [State.getSrc, h]

/-- The jobs, entropy, and the counts of every source but `src` are those of `s`. -/
def State.sameWork (src : Nat) (s t : State) : Prop := t.jobs = s.jobs ∧ t.ent = s.ent ∧ ∀ k, k ≠ src → t.getSrc k = s.getSrc k

theorem State.Notes.sameWork {src : Nat} {s t : State} (h : s.Notes src t) : s.sameWork src t :=
  ⟨(congrArg State.jobs h.1).trans rfl, (congrArg State.ent h.1).trans rfl, h.2⟩

theorem State.sameWork.of_work {src : Nat} {s t u : State} (h : s.sameWork src t) (hw : u.work = t.work) : s.sameWork src u := by
  have hsrc := State.getSrc_of_work hw
  simp only [State.work, Prod.mk.injEq] at hw
  obtain ⟨hjobs, -, hent, -⟩ := hw
  obtain ⟨gjobs, gent, gsrc⟩ := h
  exact ⟨hjobs.trans gjobs, hent.trans gent, fun k hk => (hsrc k).trans (gsrc k hk)⟩

/-- One event of raw class NOTE or CORRECTED that retires nothing. -/
theorem State.raise1_sameWork {e : Event} (hch : eventChannel e = .none) (hraw : rawClass e ≤ 1) (s : State) (room : Bool) :
    s.sameWork e.src (s.raise1 e room) := by
  have hcls : (s.effective e).1 < 4 := by
    have := s.effective_le e
    omega
  unfold State.raise1
  split
  · exact ⟨rfl, rfl, fun _ _ => rfl⟩
  · dsimp only []
    split
    · exact (s.noteEvent_notes ..).sameWork
    · exact (s.noteEvent_notes ..).sameWork.of_work (State.respond_work hch hcls _ _)

/-- Such an event of a source other than SOURCES_LOW draws no SOURCES_LOW after it (R426), and leaves the jobs alone. -/
theorem State.raise_mild_jobs {e : Event} (hch : eventChannel e = .none) (hraw : rawClass e ≤ 1) (hsrc : e.src ≠ 0x310A) (s : State) :
    (s.raise e).jobs = s.jobs := by
  obtain ⟨hjobs, hent, hother⟩ := s.raise1_sameWork hch hraw true
  have hlow : (s.raise1 e true).sourcesLow = s.sourcesLow := by
    simp only [State.sourcesLow, hent, hother 0x310A hsrc.symm]
  unfold State.raise
  dsimp only []
  rw [hlow, Bool.and_not_self]
  exact hjobs

end Sys2Proof.Machine
end

section
/-! SUPPORT. The Damper stage (R183), clock gating (R31) and the slower clock of a PVU (R184). -/

namespace Sys2Proof.Machine

-- The Damper stage.

/-- The stage that a junction temperature, in eighths of a degree, calls for on its way up (R183). -/
def risingStage (tj : Int) : Nat := if 1200 ≤ tj then 3 else if 1120 ≤ tj then 2 else if 1000 ≤ tj then 1 else 0

/-- The stage that a junction temperature still holds on its way down (R183). -/
def fallingStage (tj : Int) : Nat := if tj < 960 then 0 else if tj < 1080 then 1 else if tj < 1160 then 2 else 3

theorem damperStage_eq (old : Nat) (tj : Int) :
    damperStage old tj = if old < risingStage tj then risingStage tj else min old (fallingStage tj) := rfl

/-- The hysteresis: each stage is reached above where it is left. -/
theorem risingStage_le_fallingStage (tj : Int) : risingStage tj ≤ fallingStage tj := by
  unfold risingStage fallingStage
  repeat' split
  all_goals omega

theorem fallingStage_bounds (tj : Int) :
    (fallingStage tj = 0 → tj < 960) ∧ (fallingStage tj ≤ 1 → tj < 1080) ∧ (fallingStage tj ≤ 2 → tj < 1160) := by
  unfold fallingStage
  repeat' split
  all_goals omega

theorem damperStage_of_le {old : Nat} {tj : Int} (h : old ≤ risingStage tj) : damperStage old tj = risingStage tj := by
  have hhyst := risingStage_le_fallingStage tj
  rw [damperStage_eq]
  split <;> omega

/-- A stage is left downward only below its lower limit: 120, 135, 145 °C (R183). -/
theorem damperStage_falls {old : Nat} {tj : Int} (h : damperStage old tj < old) :
    (damperStage old tj = 0 → tj < 960) ∧ (damperStage old tj ≤ 1 → tj < 1080) ∧ (damperStage old tj ≤ 2 → tj < 1160) := by
  have hfall : damperStage old tj = fallingStage tj := by
    rw [damperStage_eq] at h ⊢
    by_cases hr : old < risingStage tj
    · rw [if_pos hr] at h
      omega
    · rw [if_neg hr] at h ⊢
      omega
  rw [hfall]
  exact fallingStage_bounds tj

theorem State.discard_steady (s : State) (e : Nat) : (s.discard e).steady = s.steady := ite_steady rfl rfl

theorem State.discardAll_steady (s : State) : s.discardAll.steady = s.steady := foldl_steady State.discard_steady _ s

/-- The state once the new temperature and its stage stand in PCR and Treadle. -/
def State.atTemperature (s : State) (tj : Int) : State :=
  { s with pcr := { s.pcr with tj := tj, stage := damperStage s.pcr.stage tj }, trd := { s.trd with stage := damperStage s.pcr.stage tj } }

/-- What follows the new stage, an interrupt, campaigns discarded and faults raised, leaves it standing. -/
theorem exec_damperStageChange (s : State) (tj : Int) :
    ∃ t, exec (.damperStageChange tj) s = .next t ∧ t.steady = (s.atTemperature tj).steady := by
  refine ⟨_, rfl, ?_⟩
  have hcause := ite_steady (c := damperStage s.pcr.stage tj = s.pcr.stage) rfl ((s.atTemperature tj).cause_steady 3 4)
  have hdiscard := fun (u : State) (c : Prop) [Decidable c] => ite_steady (c := c) u.discardAll_steady rfl
  have hraise := fun (u : State) (e : Event) (c : Prop) [Decidable c] => ite_steady (c := c) (u.raise_steady e) rfl
  exact (hraise _ _ _).trans ((hraise _ _ _).trans ((hraise _ _ _).trans ((hdiscard _ _).trans hcause)))

theorem State.stage_of_steady {s t : State} (h : t.steady = s.steady) :
    t.pcr.tj = s.pcr.tj ∧ t.pcr.stage = s.pcr.stage ∧ t.trd.stage = s.trd.stage := by
  simp only [State.steady, Prod.mk.injEq] at h
  obtain ⟨-, -, htrd, -, -, hpcr⟩ := h
  exact ⟨(congrArg Pcr.tj hpcr :), (congrArg Pcr.stage hpcr :), (congrArg Treadle.stage htrd :)⟩

-- Clock gating.

theorem exec_engineClockGate_pvu (s : State) {n : Nat} (h : n < 16) :
    exec (.engineClockGate (0x10 + n)) s
      = .next (if (s.getPvu n).active && decide (50 ≤ (s.getPvu n).idleTicks) then s.setPvu n { s.getPvu n with active := false } else s) := by
  have hn : 0x10 + n - 0x10 = n := by omega
  refine (if_pos ⟨by omega, by omega⟩).trans ?_
  rw [hn]

theorem exec_engineClockGate_bne (s : State) {n : Nat} (h : n < 8) :
    exec (.engineClockGate (0x20 + n)) s
      = .next (if (s.getBne n).active && decide (50 ≤ (s.getBne n).idleTicks) then s.setBne n { s.getBne n with active := false } else s) := by
  have hn : 0x20 + n - 0x20 = n := by omega
  refine (if_neg (by omega)).trans ((if_pos ⟨by omega, by omega⟩).trans ?_)
  rw [hn]

/-- An engine is gated when it is active and has been without a slot for 50 ticks. -/
theorem gate_pos {α : Type} {active : Bool} {idle : Nat} (ha : active = true) (hi : 50 ≤ idle) (x y : α) :
    (if active && decide (50 ≤ idle) then x else y) = x := if_pos (by simp [ha, hi])

theorem gate_neg {α : Type} {idle : Nat} (hi : idle < 50) (active : Bool) (x y : α) :
    (if active && decide (50 ≤ idle) then x else y) = y := if_neg (by simp [hi])

-- The slower clock.

theorem State.pvus_le (s : State) : s.pvus ≤ 16 := by
  unfold State.pvus
  repeat' split
  all_goals omega

theorem State.discard_getPvu (s : State) (e n : Nat) : (s.discard e).getPvu n = s.getPvu n := by
  unfold State.discard
  dsimp only []
  split <;> rfl

/-- The booked slots of a PVU from this edge on fit the usable cycles at 1.2 GHz (R184). -/
def State.fitsSlow (s : State) (n : Nat) : Prop :=
  ∀ k ∈ s.trd.plan, k.eng = n → s.trd.edge ≤ k.tick → loadOf (s.slot n k.tick) ≤ s.trd.period * 1200 - 1000

theorem exec_pvuDerate_fits {s : State} {n : Nat} (hn : n < s.pvus) (hstage : s.pcr.stage ≠ 0) (hd : (s.getPvu n).derated = false)
    (hr : s.retired (0x10 + n) = false) (hfit : s.fitsSlow n) :
    exec (.pvuDerate n) s = .next ((s.setPvu n { s.getPvu n with derated := true }).discard n) := by
  have hall : s.trd.plan.all (fun b => decide (b.eng ≠ n) || decide (b.tick < s.trd.edge)
      || decide (loadOf (s.slot n b.tick) ≤ s.trd.period * 1200 - 1000)) = true := by
    simp only [List.all_eq_true, Bool.or_eq_true, decide_eq_true_eq]
    intro b hb
    by_cases he : b.eng = n
    · by_cases ht : s.trd.edge ≤ b.tick
      · exact .inr (hfit b hb he ht)
      · exact .inl (.inr (by omega))
    · exact .inl (.inl he)
  refine if_neg ?_
  simp only [hall, hd, hr, hstage, show ¬s.pvus ≤ n by omega, decide_false, Bool.not_true, Bool.or_self, Bool.false_eq_true, not_false_iff]

/-- Settles O21: the stage by its thresholds, the gates at their limit, the slower clock where the booked slots fit. -/
theorem temperatureAndClocks : Obligations.TemperatureAndClocks := by
  intro s tj n
  refine ⟨?_, fun hn ha hi => ?_, fun hn ha hi => ?_, fun ha hi => ?_, fun hn hi => ?_, fun hn hstage hd hr hfit => ?_⟩
  · obtain ⟨t, ht, hsteady⟩ := exec_damperStageChange s tj
    obtain ⟨htj, hpcr, htrd⟩ := State.stage_of_steady hsteady
    have hstage : t.pcr.stage = damperStage s.pcr.stage tj := hpcr
    refine ⟨t, ht, htj, hstage, htrd.trans hpcr.symm, fun h => hstage.trans (damperStage_of_le h), fun h => ?_⟩
    rw [hstage] at h ⊢
    exact damperStage_falls h
  · exact (exec_engineClockGate_pvu s hn).trans (congrArg _ (gate_pos ha hi _ _))
  · exact (exec_engineClockGate_bne s hn).trans (congrArg _ (gate_pos ha hi _ _))
  · exact congrArg Host.Outcome.next (gate_pos ha hi _ _)
  · exact (exec_engineClockGate_pvu s hn).trans (congrArg _ (gate_neg hi _ _ _))
  · have h16 : n < 16 := by have := s.pvus_le; omega
    refine ⟨_, exec_pvuDerate_fits hn hstage hd hr hfit, ?_, fun m hm => ?_⟩
    · rw [State.discard_getPvu, State.getPvu_setPvu _ _ _ h16]
    · rw [State.discard_getPvu, State.getPvu_setPvu_other _ _ hm]

end Sys2Proof.Machine
end

section
/-! SUPPORT. The reads of a taken entry (R110 to R116, R736): staging, the replay rules, and a beat that is lost on its way (R17, R612). -/

namespace Sys2Proof.Machine

/-- An entry under fetch whose duplicated fields agree: the beats arrive, and then the checks follow or the input is read again. -/
theorem exec_inputFetch {s : State} {job : Nat} {rd : InputReads} {j : Job} (hget : KV.get? s.jobs job = some j) (hphase : j.phase = .fetching)
    (hfrozen : s.pcr.frozen = false) (hcopy : rd.copyDiffers = false) :
    exec (.inputFetch job rd) s = .next (if (s.beatsArrive rd.arrived).2 = 0
      then (s.beatsArrive rd.arrived).1.inputRead job ((s.beatsArrive rd.arrived).1.getJob job) rd
      else (s.beatsArrive rd.arrived).1.inputLost job j) := by
  show execInputFetch job rd s = _
  unfold execInputFetch
  rw [hget]
  dsimp only []
  rw [if_neg (by simp [hphase, hfrozen]), hcopy]
  rfl

theorem State.getJob_of_get {s : State} {id : Nat} {j : Job} (h : KV.get? s.jobs id = some j) : s.getJob id = j := by
  simp [State.getJob, KV.getD, h]

/-- Without a beat to judge the checks follow at once. -/
theorem exec_inputFetch_read {s : State} {job : Nat} {rd : InputReads} {j : Job} (hget : KV.get? s.jobs job = some j)
    (hphase : j.phase = .fetching) (hfrozen : s.pcr.frozen = false) (hcopy : rd.copyDiffers = false) (harr : rd.arrived = []) :
    exec (.inputFetch job rd) s = .next (s.inputRead job j rd) := by
  rw [exec_inputFetch hget hphase hfrozen hcopy, harr]
  exact congrArg (fun x => Host.Outcome.next (s.inputRead job x rd)) (State.getJob_of_get hget)

/-- The job once its input stands in staging, with its fingerprint (R111). -/
def Job.withInput (j : Job) (outs : List (Nat × Nat)) (bs : List Byte) : Job :=
  { j with pieces := outs, input := bs, scorched := false, scorchAt := 0, fp := fingerprint j bs }

theorem State.injectAt_unarmed {s : State} (h : s.mem.injArmed = false) (region : Nat) (hit : Nat → Bool) :
    s.injectAt region hit = (none, s) := if_neg (by simp [h])

/-- An entry that passes its checks comes to the replay rules with its input (R99, R110). -/
theorem State.inputRead_checked {s : State} {job : Nat} {j : Job} {rd : InputReads} {outs : List (Nat × Nat)} {bs : List Byte}
    (hc : s.checks j rd = .inl outs) (hs : rd.scorched = false) (hr : readInput j.e rd = some bs) (hi : s.mem.injArmed = false) :
    s.inputRead job j rd = s.tagCheck job (j.withInput outs bs) := by
  simp only [State.inputRead, hc, hr, State.stageInput, hs, State.injectInput, State.injectAt_unarmed hi, Bool.false_eq_true, if_false,
    Option.isSome_none, Option.getD_none]
  rfl

-- The replay rules (R112 to R116).

theorem State.tagCheck_admin {j : Job} (h : j.q = 64) (s : State) (id : Nat) : s.tagCheck id j = s.setJob id { j with phase := .staged } :=
  if_pos h

theorem State.tagCheck_untagged {j : Job} (htag : j.e.tag = 0) (hsign : statefulSign j.opcode = false) (s : State) (id : Nat) :
    s.tagCheck id j = s.setJob id { j with phase := .staged } := by
  unfold State.tagCheck
  dsimp only []
  rw [if_neg (show ¬(statefulSign j.opcode && decide (j.e.tag = 0)) = true by simp [hsign]),
    if_pos (show (_ || decide (j.e.tag = 0)) = true by simp [htag]), ite_self]

/-- The window record of a request that has not been answered yet (R111). -/
def Job.pendingRec (j : Job) (id : Nat) : WinRec :=
  { tag := j.e.tag, fp := j.fp, done := false, status := 0, cflags := 0, outLen := 0, handle := 0, detail := 0, job := id }

/-- What the replay rules do with a request by the window record of its tag (R111 to R113). -/
def State.replayRule (s : State) (id : Nat) (j : Job) (x : Queue) : Option WinRec → State
  | none => (s.setQueue j.fn j.q { x with window := insertRec x.window (j.pendingRec id) }).setJob id { j with phase := .staged }
  | some r =>
    if r.job = id ∧ !r.done then s.setJob id { j with phase := .staged }
    else if r.fp ≠ j.fp then (s.setJob id j).finishWith id 0x0070
    else if r.done then s.setJob id { j with phase := .staged, replay := some r }
    else s.setJob id { j with phase := .duplicate, dupOf := some r.job }

section
variable {s : State} {j : Job} {x : Queue} (id : Nat) (hq : j.q ≠ 64)
  (heff : sideEffecting j.opcode (j.e.par j.ver) (s.ephemeralKey j.e) = true) (htag : j.e.tag ≠ 0) (hx : s.getQueue j.fn j.q = some x)
include hq heff htag hx

/-- A side-effecting request with a tag is looked up in its queue's window. -/
theorem State.tagCheck_lookup {o : Option WinRec} (hfind : x.window.find? (fun r => decide (r.tag = j.e.tag)) = o) :
    s.tagCheck id j = s.replayRule id j x o := by
  have htag0 : decide (j.e.tag = 0) = false := decide_eq_false htag
  unfold State.tagCheck
  dsimp only []
  rw [if_neg hq, htag0, Bool.and_false, heff, Bool.true_or, if_neg Bool.false_ne_true, if_neg (by decide), hx]
  dsimp only []
  rw [hfind]
  cases o <;> rfl

/-- A new tag is entered in the window (R111, R115). -/
theorem State.tagCheck_new (hfind : x.window.find? (fun r => decide (r.tag = j.e.tag)) = none) :
    s.tagCheck id j
      = (s.setQueue j.fn j.q { x with window := insertRec x.window (j.pendingRec id) }).setJob id { j with phase := .staged } :=
  State.tagCheck_lookup id hq heff htag hx hfind

variable {r : WinRec} (hfind : x.window.find? (fun r => decide (r.tag = j.e.tag)) = some r) (hjob : r.job ≠ id)
include hfind hjob

/-- The tag of another request is a failure (R113). -/
theorem State.tagCheck_reused (hfp : r.fp ≠ j.fp) : s.tagCheck id j = (s.setJob id j).finishWith id 0x0070 :=
  (State.tagCheck_lookup id hq heff htag hx hfind).trans ((if_neg fun h => hjob h.1).trans (if_pos hfp))

/-- The same request with a finished record is answered from it (R112). -/
theorem State.tagCheck_done (hfp : r.fp = j.fp) (hdone : r.done = true) :
    s.tagCheck id j = s.setJob id { j with phase := .staged, replay := some r } :=
  (State.tagCheck_lookup id hq heff htag hx hfind).trans
    ((if_neg fun h => hjob h.1).trans ((if_neg (not_not_intro hfp)).trans (if_pos hdone)))

/-- The same request with an unfinished record waits for it (R112). -/
theorem State.tagCheck_pending (hfp : r.fp = j.fp) (hdone : r.done = false) :
    s.tagCheck id j = s.setJob id { j with phase := .duplicate, dupOf := some r.job } :=
  (State.tagCheck_lookup id hq heff htag hx hfind).trans
    ((if_neg fun h => hjob h.1).trans ((if_neg (not_not_intro hfp)).trans (if_neg (Bool.eq_false_iff.mp hdone))))

end

/-- A window with room, or with a finished record to drop, takes a new one (R115). -/
theorem mem_insertRec {w : List WinRec} (h : w.length < 4096 ∨ w.any (·.done) = true) (r : WinRec) : r ∈ insertRec w r := by
  unfold insertRec
  split
  · exact List.mem_append_right _ (List.mem_singleton_self r)
  next hfull =>
    have hany := h.resolve_left hfull
    split
    · exact List.mem_append_right _ (List.mem_singleton_self r)
    next hnone =>
      rw [List.findIdx?_eq_none_iff] at hnone
      obtain ⟨y, hy, hdone⟩ := List.any_eq_true.mp hany
      exact absurd ((hnone y hy).symm.trans hdone) (by decide)

-- A beat that fails its code (R17, R612).

theorem State.beatSound_of_tmp {s t : State} (h : t.tmp.seamSeq = s.tmp.seamSeq) (b : FabricBeat) : t.beatSound b = s.beatSound b := by
  unfold State.beatSound State.linkSeq
  rw [h]

theorem State.tmp_of_steady {s t : State} (h : t.steady = s.steady) : t.tmp = s.tmp := by
  simp only [State.steady, Prod.mk.injEq] at h
  obtain ⟨-, -, -, htmp, -, -⟩ := h
  exact htmp

theorem State.fabricNote_tmp (s : State) (blk sender : Nat) :
    (s.fabricNote blk sender).tmp = { s.tmp with seamFabric := satAdd s.tmp.seamFabric 1 0xFFFF } := by
  have h : (s.seamNote blk sender).tmp = s.tmp := State.tmp_of_steady (State.irqSync_steady _ _)
  refine (State.tmp_of_steady (State.event_steady _ _ _ _ _)).trans ?_
  dsimp only []
  rw [h]

theorem State.fabricNote_jobs (s : State) (blk sender : Nat) : (s.fabricNote blk sender).jobs = s.jobs := by
  have h : (s.seamNote blk sender).jobs = s.jobs := State.jobs_of_work (State.irqSync_work _ _)
  exact (State.jobs_of_work (State.event_work _ _ _ _ _)).trans h

theorem State.jobEvent_src (s : State) (src : Nat) (j : Option Nat) (detail status : Nat) : (s.jobEvent src j detail status).src = src := by
  cases j <;> rfl

/-- FABRIC_SEAM, of a job or of none, leaves the jobs and the tamper envelope alone. -/
theorem State.raise_fabricSeam (s : State) {e : Event} (hsrc : e.src = 0x5101) (hraw : e.raw = none) :
    (s.raise e).jobs = s.jobs ∧ (s.raise e).tmp = s.tmp := by
  have hclass : rawClass e = 1 := by
    simp only [rawClass, hraw, hsrc]
    rfl
  have hchan : eventChannel e = .none := by
    simp only [eventChannel, hsrc]
    rfl
  exact ⟨State.raise_mild_jobs hchan (by omega) (by omega) s, State.tmp_of_steady (s.raise_steady e)⟩

theorem State.fabricFailure_jobs_tmp (s : State) (blk sender : Nat) :
    (s.fabricFailure blk sender).jobs = s.jobs
      ∧ (s.fabricFailure blk sender).tmp = { s.tmp with seamFabric := satAdd s.tmp.seamFabric 1 0xFFFF } := by
  obtain ⟨hjobs, htmp⟩ := (s.fabricNote blk sender).raise_fabricSeam (e := { src := 0x5101 }) rfl rfl
  exact ⟨hjobs.trans (s.fabricNote_jobs blk sender), htmp.trans (s.fabricNote_tmp blk sender)⟩

theorem State.beatsArrive_sound {s : State} {f : FabricBeat} (h : s.beatSound f = true) (r : FabricBeat) :
    s.beatsArrive [(f, r)] = (s.linkPassed (linkKey 0 f.sender f.receiver), 0) := by
  simp only [State.beatsArrive, List.foldl_cons, List.foldl_nil, State.beatArrives, h, if_true]
  rfl

/-- The checks and the input are those of the reads, whatever beats came with them. -/
theorem State.inputRead_arrived (s : State) (job : Nat) (j : Job) (rd : InputReads) (l : List (FabricBeat × FabricBeat)) :
    s.inputRead job j { rd with arrived := l } = s.inputRead job j rd := by
  have hchecks : s.checks j { rd with arrived := l } = s.checks j rd := rfl
  have hread : readInput j.e { rd with arrived := l } = readInput j.e rd := rfl
  unfold State.inputRead
  rw [hchecks, hread]

/-- A beat whose code holds moves its link on, and the checks follow. -/
theorem exec_inputFetch_sound {s : State} {job : Nat} {rd : InputReads} {j : Job} (hget : KV.get? s.jobs job = some j)
    (hphase : j.phase = .fetching) (hfrozen : s.pcr.frozen = false) (hcopy : rd.copyDiffers = false) {f : FabricBeat}
    (hf : s.beatSound f = true) (r : FabricBeat) :
    exec (.inputFetch job { rd with arrived := [(f, r)] }) s
      = .next ((s.linkPassed (linkKey 0 f.sender f.receiver)).inputRead job j rd) := by
  have hjob : (s.linkPassed (linkKey 0 f.sender f.receiver)).getJob job = j := State.getJob_of_get hget
  rw [exec_inputFetch (rd := { rd with arrived := [(f, r)] }) hget hphase hfrozen hcopy, State.beatsArrive_sound hf, if_pos rfl, hjob,
    State.inputRead_arrived]

/-- The state after a beat and its resend have both failed: the first failure has raised its event, the second is counted. -/
def State.afterLoss (s : State) (f : FabricBeat) : State :=
  (s.fabricFailure f.receiver.toNat f.sender.toNat).fabricNote f.receiver.toNat f.sender.toNat

theorem State.afterLoss_jobs (s : State) (f : FabricBeat) : (s.afterLoss f).jobs = s.jobs :=
  (State.fabricNote_jobs _ _ _).trans (s.fabricFailure_jobs_tmp _ _).1

theorem State.afterLoss_tmp (s : State) (f : FabricBeat) :
    (s.afterLoss f).tmp = { s.tmp with seamFabric := satAdd (satAdd s.tmp.seamFabric 1 0xFFFF) 1 0xFFFF } := by
  rw [State.afterLoss, State.fabricNote_tmp, (s.fabricFailure_jobs_tmp _ _).2]

theorem State.beatsArrive_lost {s : State} {f r : FabricBeat} (hf : s.beatSound f = false) (hr : s.beatSound r = false) :
    s.beatsArrive [(f, r)] = (s.afterLoss f, 1) := by
  have hresend : (s.fabricFailure f.receiver.toNat f.sender.toNat).beatSound r = false :=
    (State.beatSound_of_tmp (by rw [(s.fabricFailure_jobs_tmp _ _).2]) r).trans hr
  simp only [State.beatsArrive, List.foldl_cons, List.foldl_nil, State.beatArrives, hf, hresend, Bool.false_eq_true, if_false]
  rfl

/-- A job whose input was lost is noted for another reading, while it has one left (R588). -/
theorem State.inputLost_again {s : State} {id : Nat} {j : Job} (hget : KV.get? s.jobs id = some j) (hretry : j.retries < 2) :
    (s.inputLost id j).getJob id = { j with retries := j.retries + 1 } ∧ (s.inputLost id j).tmp = s.tmp := by
  obtain ⟨hjobs, htmp⟩ := s.raise_fabricSeam (s.jobEvent_src 0x5101 (some id) 0 0) rfl
  have hlost : s.inputLost id j = (s.raise (s.jobEvent 0x5101 (some id) 0 0)).setJob id { j with retries := j.retries + 1 } := by
    refine (if_neg (by omega)).trans (State.modJob_eq _ _ _ j ?_)
    rw [hjobs, hget]
  rw [hlost]
  exact ⟨State.getJob_setJob _ _ _, htmp⟩

/-- A beat that fails its code twice leaves the input to be read again. -/
theorem exec_inputFetch_lost {s : State} {job : Nat} {rd : InputReads} {j : Job} (hget : KV.get? s.jobs job = some j)
    (hphase : j.phase = .fetching) (hfrozen : s.pcr.frozen = false) (hcopy : rd.copyDiffers = false) {f r : FabricBeat}
    (hf : s.beatSound f = false) (hr : s.beatSound r = false) :
    exec (.inputFetch job { rd with arrived := [(f, r)] }) s = .next ((s.afterLoss f).inputLost job j) := by
  rw [exec_inputFetch (rd := { rd with arrived := [(f, r)] }) hget hphase hfrozen hcopy, State.beatsArrive_lost hf hr,
    if_neg Nat.one_ne_zero]

/-- Settles O19: the checks lead to the replay rules, and each rule to its own outcome; a beat to staging arrives or is lost before them. -/
theorem inputFetch : Obligations.InputFetch := by
  intro s job rd j outs bs hget hphase hfrozen hchecks hscorched hread harrived hcopy harmed
  have hexec : exec (.inputFetch job rd) s = .next (s.tagCheck job (j.withInput outs bs)) := by
    rw [exec_inputFetch_read hget hphase hfrozen hcopy harrived, State.inputRead_checked hchecks hscorched hread harmed]
  refine ⟨fun hq => ?_, fun htag hsign => ?_, fun x hq heff htag hx => ⟨fun hfind hroom => ?_, fun r hfind hjob hfp => ⟨fun hdone => ?_,
    fun hdone => ?_⟩, fun r hfind hjob hfp => ?_⟩, fun f r => ⟨fun hf => ?_, fun hf hr hretry => ?_⟩⟩
  · exact hexec.trans (congrArg _ (State.tagCheck_admin (j := j.withInput outs bs) hq s job))
  · exact hexec.trans (congrArg _ (State.tagCheck_untagged (j := j.withInput outs bs) htag hsign s job))
  · exact ⟨_, hexec.trans (congrArg _ (State.tagCheck_new (j := j.withInput outs bs) job hq heff htag hx hfind)), _,
      mem_insertRec hroom _, rfl, rfl, rfl, rfl⟩
  · exact hexec.trans (congrArg _ (State.tagCheck_done (j := j.withInput outs bs) job hq heff htag hx hfind hjob hfp hdone))
  · exact hexec.trans (congrArg _ (State.tagCheck_pending (j := j.withInput outs bs) job hq heff htag hx hfind hjob hfp hdone))
  · exact hexec.trans (congrArg _ (State.tagCheck_reused (j := j.withInput outs bs) job hq heff htag hx hfind hjob hfp))
  · rw [exec_inputFetch_sound hget hphase hfrozen hcopy hf r,
      exec_inputFetch_read (s := s.linkPassed (linkKey 0 f.sender f.receiver)) hget hphase hfrozen hcopy harrived]
  · have hget' : KV.get? (s.afterLoss f).jobs job = some j := by rw [s.afterLoss_jobs f, hget]
    obtain ⟨hjob, htmp⟩ := State.inputLost_again hget' hretry
    refine ⟨_, exec_inputFetch_lost hget hphase hfrozen hcopy hf hr, hjob, ?_, ?_⟩
    · rw [htmp, s.afterLoss_tmp f]
    · rw [htmp, s.afterLoss_tmp f]

end Sys2Proof.Machine
end

section
/-! SUPPORT. The computing commands of the queues (R23, R25, R453, R563): the one shape of their rows, when their computation takes place,
and the result it leaves. -/

namespace Sys2Proof.Machine

/-- A computation for a job of an opcode, in the running module, the given ticks after its admission or later (R25, R433). -/
def State.turn (s : State) (op lag id : Nat) (k : Kernel) : State :=
  match KV.get? s.jobs id with
  | some j => if j.opcode = op ∧ s.running then s.computeAfter lag id k else s
  | none => s

theorem next_ite (c : Prop) [Decidable c] (a b : State) :
    (if c then .next a else .next b : Host.Outcome State Fault Refusal) = .next (if c then a else b) := (apply_ite _ c a b).symm

/-- Every computing command: nothing while the row waits for something of its own, else its kernel's turn. -/
theorem exec_jobRow {c : Instr} {op lag id : Nat} {k : Kernel} (h : jobRow c = some (op, lag, id, k)) (s : State) :
    exec c s = .next (if s.jobWaits c then s else s.turn op lag id k) := by
  cases c <;> cases h
  case matrixPreload => exact next_ite _ _ _
  case mcePin => exact next_ite _ _ _
  case mceUnpin =>
    refine (next_ite _ _ _).trans (congrArg Host.Outcome.next ?_)
    simp only [State.jobWaits, decide_eq_true_eq]
    rfl
  case patternRun =>
    refine (next_ite _ _ _).trans (congrArg Host.Outcome.next ?_)
    simp only [State.jobWaits, Bool.not_eq_true', ← Bool.not_eq_true, ite_not]
    rfl
  all_goals rfl

theorem exec_jobRow_turn {c : Instr} {op lag id : Nat} {k : Kernel} (h : jobRow c = some (op, lag, id, k)) {s : State}
    (hw : s.jobWaits c = false) : exec c s = .next (s.turn op lag id k) := by
  rw [exec_jobRow h, hw]
  rfl

-- When the computation takes place.

/-- At its turn the kernel runs and its result waits with the job. -/
theorem State.turn_of_computes {s : State} {op lag id : Nat} {j : Job} (h : s.computes op lag id j) (k : Kernel) :
    s.turn op lag id k = (s.runKernel id j k).1.modJob id (fun x => { x with result := some (s.runKernel id j k).2 }) := by
  obtain ⟨hrun, hget, hop, hphase, hres, hrebook, hfault, hfwd, hlag, hplan, hbuild⟩ := h
  have hbooked : s.trd.plan.any (fun b => decide (b.job = some id) && decide (s.trd.edge < b.tick)) = false := by
    simp only [List.any_eq_false, Bool.and_eq_true, decide_eq_true_eq, not_and]
    exact fun b hb hj => Nat.not_lt.mpr (hplan b hb hj)
  have hbuilt : s.trd.builds.any (fun b => decide (j.created = some b.key)) = false := by
    simp only [List.any_eq_false, decide_eq_true_eq]
    exact hbuild
  unfold State.turn State.computeAfter
  rw [hget]
  dsimp only []
  rw [if_pos ⟨hop, hrun⟩, if_neg]
  simp only [hphase, hres, hrebook, hfault, hfwd, hbooked, hbuilt, show ¬s.trd.edge < j.admitted + lag by omega, ne_eq, not_true_eq_false,
    Option.isSome_none, Bool.false_eq_true, or_self, not_false_iff]

/-- Before its turn, after it, for another command's job or outside the running module nothing happens. -/
theorem State.turn_idle {s : State} {op lag id : Nat} {j : Job} (hget : KV.get? s.jobs id = some j)
    (h : j.result.isSome = true ∨ j.phase ≠ .admitted ∨ j.opcode ≠ op ∨ s.trd.edge < j.admitted + lag ∨ s.running = false) (k : Kernel) :
    s.turn op lag id k = s := by
  unfold State.turn State.computeAfter
  rw [hget]
  dsimp only []
  by_cases hon : j.opcode = op ∧ s.running = true
  · obtain ⟨hop, hrun⟩ := hon
    rw [if_pos ⟨hop, hrun⟩, if_pos]
    rcases h with h | h | h | h | h
    · exact .inr (.inl h)
    · exact .inl h
    · exact absurd hop h
    · exact .inr (.inr (.inr (.inr (.inr (.inl h)))))
    · exact absurd (h.symm.trans hrun) (by decide)
  · rw [if_neg hon]

theorem State.turn_absent {s : State} {id : Nat} (h : KV.get? s.jobs id = none) (op lag : Nat) (k : Kernel) : s.turn op lag id k = s := by
  unfold State.turn
  rw [h]

-- The result it leaves (R400, R563).

theorem State.runKernel_first {s : State} {id : Nat} {j : Job} {k : Kernel} (h : comesFirst j.opcode (k s id j).2.status = true) :
    s.runKernel id j k = k s id j := if_pos h

theorem State.runKernel_bites {s : State} {id : Nat} {j : Job} {k : Kernel} (h : comesFirst j.opcode (k s id j).2.status = false)
    (hb : s.bites j = true) : s.runKernel id j k = ((s.dropScorched j).poisonJob id, statusDetail 0x0050 0x4001) :=
  (if_neg (Bool.eq_false_iff.mp h)).trans (if_pos hb)

theorem State.runKernel_failed {s : State} {id : Nat} {j : Job} {k : Kernel} (h : comesFirst j.opcode (k s id j).2.status = false)
    (hb : s.bites j = false) {st d : Nat} (hf : j.failed = some (st, d)) : s.runKernel id j k = (s, statusDetail st d) := by
  refine (if_neg (Bool.eq_false_iff.mp h)).trans ((if_neg (Bool.eq_false_iff.mp hb)).trans ?_)
  rw [hf]

theorem State.runKernel_clean {s : State} {id : Nat} {j : Job} {k : Kernel} (hb : s.bites j = false) (hf : j.failed = none) :
    s.runKernel id j k = k s id j := by
  unfold State.runKernel
  rw [hb, hf]
  exact ite_self _

-- What scorched data leaves alone (R233, R564).

/-- Writing a counter of a PVU changes no other field of any PVU. -/
theorem State.getPvu_setCnt (s : State) (n m : Nat) (p : Pvu) (h : p = { s.getPvu n with cnt := p.cnt }) :
    (s.setPvu n p).getPvu m = { s.getPvu m with cnt := ((s.setPvu n p).getPvu m).cnt } := by
  by_cases hm : m = n
  · subst hm
    by_cases h16 : m < 16
    · rw [State.getPvu_setPvu _ _ _ h16]
      exact h
    · have hout : vset s.pvu m p = s.pvu := Vector.setIfInBounds_eq_of_size_le (by omega)
      have hsame : (s.setPvu m p).getPvu m = s.getPvu m := congrArg (fun v => vget v m ({} : Pvu)) hout
      rw [hsame]
  · rw [State.getPvu_setPvu_other _ _ hm]

/-- The jobs, Treadle and the queues are those of `s`, and so is every PVU but for its event counters. -/
def State.sameBut (s u : State) : Prop :=
  u.jobs = s.jobs ∧ u.trd = s.trd ∧ u.queues = s.queues ∧ ∀ n, u.getPvu n = { s.getPvu n with cnt := (u.getPvu n).cnt }

theorem State.sameBut_refl (s : State) : s.sameBut s := ⟨rfl, rfl, rfl, fun _ => rfl⟩

theorem State.poisonEvent_sameBut (s : State) (n : Nat) : s.sameBut (s.poisonEvent n) := by
  have h : (s.poisonEvent n) = _ := (State.cause_notes (src := 0) _ _ _).1
  have hcnt := fun m => s.getPvu_setCnt n m { s.getPvu n with cnt := vmod (s.getPvu n).cnt 8 0 (· + 1) } rfl
  rw [h]
  exact ⟨rfl, rfl, rfl, hcnt⟩

theorem State.dropScorched_sameBut (s : State) (j : Job) : s.sameBut (s.dropScorched j) := by
  unfold State.dropScorched
  split
  · exact s.sameBut_refl
  · split
    · split
      · exact ⟨rfl, rfl, rfl, fun _ => rfl⟩
      · exact s.sameBut_refl
    · exact s.sameBut_refl

theorem State.poisonJob_sameBut (s : State) (id : Nat) : s.sameBut (s.poisonJob id) := by
  unfold State.poisonJob
  split
  · exact s.poisonEvent_sameBut _
  · exact s.sameBut_refl

theorem State.sameBut.trans {s t u : State} (h : s.sameBut t) (g : t.sameBut u) : s.sameBut u := by
  obtain ⟨hj, ht, hq, hp⟩ := h
  obtain ⟨gj, gt, gq, gp⟩ := g
  refine ⟨gj.trans hj, gt.trans ht, gq.trans hq, fun n => ?_⟩
  rw [gp n, hp n]

/-- Settles O44, by the one shape of the rows: at a job's turn what its kernel's run answers, else nothing. -/
theorem jobCommandComputes : Obligations.JobCommandComputes := by
  intro s c op lag id k j hrow
  refine ⟨fun hc hw => ?_, fun hget h => ?_, fun hnone => ?_⟩
  · have hturn := State.turn_of_computes hc k
    obtain ⟨-, hjob, hop, -⟩ := hc
    rw [exec_jobRow_turn hrow hw, hturn, ← hop]
    refine ⟨fun hf hb => ?_, fun st d hf hb hfail => ?_, fun h => ?_⟩
    · rw [State.runKernel_bites hf hb]
      exact ⟨_, rfl, (s.dropScorched_sameBut j).trans (State.poisonJob_sameBut _ id)⟩
    · rw [State.runKernel_failed hf hb hfail, State.modJob_eq _ _ _ _ hjob]
      rfl
    · have hrun : s.runKernel id j k = k s id j :=
        h.elim State.runKernel_first fun hclean => State.runKernel_clean hclean.1 hclean.2
      rw [hrun]
  · rw [exec_jobRow hrow, State.turn_idle hget h, ite_self]
  · rw [exec_jobRow hrow, State.turn_absent hnone, ite_self]

end Sys2Proof.Machine
end

section
/-! SUPPORT. Scans (R86 to R94): what one pass of a scan's loop does in each of its branches, and what a scan leaves alone. -/

namespace Sys2Proof.Machine

/-- `t` is `s` but for the queues' table, in which queue `q` of function `fn` stands as `y` and the others are as in `s`. -/
def State.Requeued (s : State) (fn q : Nat) (y : Queue) (t : State) : Prop :=
  t = { s with queues := t.queues } ∧ t.getQueue fn q = some y ∧ ∀ k, k ≠ qkey fn q → KV.get? t.queues k = KV.get? s.queues k

theorem State.requeued_refl {s : State} {fn q : Nat} {x : Queue} (h : s.getQueue fn q = some x) : s.Requeued fn q x s :=
  ⟨rfl, h, fun _ _ => rfl⟩

theorem State.Requeued.setQueue {s t : State} {fn q : Nat} {y : Queue} (h : s.Requeued fn q y t) (z : Queue) :
    s.Requeued fn q z (t.setQueue fn q z) := by
  obtain ⟨hrest, -, hothers⟩ := h
  refine ⟨?_, State.getQueue_setQueue t fn q z, fun k hk => (KV.get?_set_other t.queues z hk).trans (hothers k hk)⟩
  rw [hrest]
  rfl

/-- The queue once the read of the entry at SP has returned with `bs`, when its cache was empty (R91). -/
def Queue.holding (x : Queue) (bs : List Byte) : Queue := { x with want := x.want.tail, cache := [(x.sp % x.depth, bs)] }

/-- A scan leaves the other queues, the patterns, the key store and Treadle alone. -/
def State.OutsideScan (s : State) (fn q : Nat) (t : State) : Prop :=
  (∀ k, k ≠ qkey fn q → KV.get? t.queues k = KV.get? s.queues k) ∧ t.patterns = s.patterns ∧ t.kst = s.kst ∧ t.trd = s.trd

/-- The queue stands at the same SP and HEAD, no job has come or gone, and the rest is outside the scan. -/
def State.Stays (s : State) (fn q sp head : Nat) (t : State) : Prop :=
  (∃ y, t.getQueue fn q = some y ∧ y.sp = sp ∧ y.head = head) ∧ s.OutsideScan fn q t ∧ t.jobs = s.jobs ∧ t.nextJob = s.nextJob

theorem State.OutsideScan.trans {s t u : State} {fn q : Nat} (h : s.OutsideScan fn q t) (g : t.OutsideScan fn q u) :
    s.OutsideScan fn q u := by
  obtain ⟨h1, h2, h3, h4⟩ := h
  obtain ⟨g1, g2, g3, g4⟩ := g
  exact ⟨fun k hk => (g1 k hk).trans (h1 k hk), g2.trans h2, g3.trans h3, g4.trans h4⟩

theorem State.Stays.after {s t u : State} {fn q sp head : Nat} (g : t.Stays fn q sp head u) (h : s.OutsideScan fn q t)
    (hjobs : t.jobs = s.jobs) (hnext : t.nextJob = s.nextJob) : s.Stays fn q sp head u := by
  obtain ⟨hy, hout, hj, hn⟩ := g
  exact ⟨hy, h.trans hout, hj.trans hjobs, hn.trans hnext⟩

theorem State.Requeued.getQueue {s t : State} {fn q : Nat} {y : Queue} (h : s.Requeued fn q y t) : t.getQueue fn q = some y := h.2.1

theorem State.Requeued.outside {s t : State} {fn q : Nat} {y : Queue} (h : s.Requeued fn q y t) : s.OutsideScan fn q t := by
  obtain ⟨hrest, -, hothers⟩ := h
  refine ⟨hothers, ?_, ?_, ?_⟩ <;> rw [hrest]

theorem State.Requeued.jobs {s t : State} {fn q : Nat} {y : Queue} (h : s.Requeued fn q y t) : t.jobs = s.jobs := by
  rw [h.1]

theorem State.Requeued.nextJob {s t : State} {fn q : Nat} {y : Queue} (h : s.Requeued fn q y t) : t.nextJob = s.nextJob := by
  rw [h.1]

theorem State.Requeued.stays {s t : State} {fn q : Nat} {y : Queue} (h : s.Requeued fn q y t) : s.Stays fn q y.sp y.head t :=
  ⟨⟨y, h.getQueue, rfl, rfl⟩, h.outside, h.jobs, h.nextJob⟩

theorem State.Posts.getQueue {s t : State} (h : s.Posts t) {fn q : Nat} : t.getQueue fn q = s.getQueue fn q := by
  rw [h.1]
  rfl

/-- A post or an interrupt request moves no queue and no job. -/
theorem State.Posts.stays {s t : State} {fn q : Nat} {x : Queue} (h : s.Posts t) (hx : s.getQueue fn q = some x) :
    s.Stays fn q x.sp x.head t := by
  obtain ⟨hrest, -⟩ := h
  refine ⟨⟨x, ?_, rfl, rfl⟩, ⟨fun k _ => ?_, ?_, ?_, ?_⟩, ?_, ?_⟩ <;> rw [hrest]
  exact hx

/-- Whether a queue may be scanned depends on nothing in the queues but its being stopped. -/
theorem State.Requeued.mayScan {s t : State} {fn q : Nat} {x y : Queue} (h : s.Requeued fn q y t) (hstop : y.stopped = x.stopped) :
    t.mayScan fn q y = s.mayScan fn q x := by
  rw [h.1]
  simp only [State.mayScan, hstop]
  rfl

/-- Nor do the checks of an entry depend on anything of the queue but its version and its window. -/
theorem State.Requeued.checks {s t : State} {fn q : Nat} {x y : Queue} (h : s.Requeued fn q y t) (e : Entry) (hver : y.ver = x.ver)
    (hwin : y.window = x.window) : t.pauses fn q y e = s.pauses fn q x e ∧ t.early fn q y.ver e false = s.early fn q x.ver e false
      ∧ t.entryStatus q (bits e.ctl 15 0) = s.entryStatus q (bits e.ctl 15 0) := by
  rw [h.1]
  refine ⟨?_, by rw [hver]; rfl, rfl⟩
  simp only [State.pauses, hver, hwin]
  rfl

-- The loop's branches: first those that do not look at an entry.

section
variable {s : State} {fn q : Nat} {x : Queue} (fuel : Nat) (reads : List Fetched) (hx : s.getQueue fn q = some x)
include hx

theorem State.scanLoop_barred (hmay : s.mayScan fn q x = false) : State.scanLoop (fuel + 1) s fn q reads = s := by
  simp [State.scanLoop, hx, hmay]

variable (hmay : s.mayScan fn q x = true)
include hmay

theorem State.scanLoop_full (hfull : x.sp - x.head = x.depth) :
    State.scanLoop (fuel + 1) s fn q reads = s.stopScan fn q x true reads := by
  simp [State.scanLoop, hx, hmay, hfull]

variable (hroom : x.sp - x.head ≠ x.depth)
include hroom

section
variable (hcache : x.cache = [])
include hcache

/-- With no read of the entry at SP on its way, the reads of a group are issued (R92). -/
theorem State.scanLoop_issue (hwant : x.sp ∉ x.want) :
    State.scanLoop (fuel + 1) s fn q reads = State.scanLoop fuel (s.setQueue fn q (issueReads s.part q x)) fn q reads := by
  simp [State.scanLoop, hx, hmay, hroom, hcache, hwant]

/-- With the read of the entry at SP on its way, the scan waits for it. -/
theorem State.scanLoop_await (hwant : x.sp ∈ x.want) :
    State.scanLoop (fuel + 1) s fn q [] = s.setQueue fn q { x with scanning := true, paused := false } := by
  simp [State.scanLoop, hx, hmay, hroom, hcache, hwant]

variable (hwant : x.want.head? = some x.sp)
include hwant

/-- The read of the entry at SP returns. -/
theorem State.scanLoop_arrive (bs : List Byte) :
    State.scanLoop (fuel + 1) s fn q (.data bs :: reads)
      = State.scanLoop fuel (s.setQueue fn q (x.holding bs)) fn q reads := by
  obtain ⟨l, hl⟩ := List.head?_eq_some_iff.mp hwant
  simp [State.scanLoop, hx, hmay, hroom, hcache, hl, addCopy, Queue.holding]

/-- The first read of the entry at SP has failed (R91). -/
theorem State.scanLoop_retry (hfirst : x.retried = false) :
    State.scanLoop (fuel + 1) s fn q (.failed :: reads) = State.scanLoop fuel (s.setQueue fn q { x with retried := true }) fn q reads := by
  obtain ⟨l, hl⟩ := List.head?_eq_some_iff.mp hwant
  simp [State.scanLoop, hx, hmay, hroom, hcache, hl, State.failedAtSp, hfirst]

end

-- Then those that look at the copy of the entry at SP (R86, R87).

variable {bs : List Byte} (hcache : x.cache = [(x.sp % x.depth, bs)])
include hcache

theorem State.scanLoop_unowned (hown : bit (entryOf x.ver bs).ctl 31 = false) :
    State.scanLoop (fuel + 1) s fn q reads = s.stopScan fn q x false reads := by
  simp [State.scanLoop, hx, hmay, hroom, hcache, hown]

theorem State.scanLoop_take (hown : bit (entryOf x.ver bs).ctl 31 = true) (hgo : s.pauses fn q x (entryOf x.ver bs) = false) :
    State.scanLoop (fuel + 1) s fn q reads = State.scanLoop fuel (s.takeEntry fn q x (entryOf x.ver bs)) fn q reads := by
  simp [State.scanLoop, hx, hmay, hroom, hcache, hown, hgo]

end

/-- A scan that stops or pauses with no read in hand: SP and HEAD stay, and a pause is counted. -/
theorem State.stopScan_posts (s : State) (fn q : Nat) (x : Queue) (paused : Bool) :
    ∃ y, y.sp = x.sp ∧ y.head = x.head ∧ y.scanning = false ∧ y.paused = paused ∧ (s.setQueue fn q y).Posts (s.stopScan fn q x paused []) := by
  refine ⟨{ x with scanning := false, paused := paused, retried := false, want := [],
                   cache := if keepsCopies s.part q then x.cache.filter (fun c => ownedCopy c.2) else [] }, rfl, rfl, rfl, rfl, ?_⟩
  have hcount {c : Prop} [Decidable c] (t : State) : t.Posts (if c then t.event 2 4 (some fn) 1 else t) := by
    split
    · exact (t.event_signals _ _ _ _).posts
    · exact t.posts_refl
  exact hcount _

/-- With no copy and no read in hand a scan takes nothing: it ends, or issues reads and waits. -/
theorem State.scanLoop_stays (fuel : Nat) {s : State} {fn q : Nat} {x : Queue} (hx : s.getQueue fn q = some x) (hcache : x.cache = []) :
    s.Stays fn q x.sp x.head (State.scanLoop fuel s fn q []) := by
  induction fuel generalizing s x with
  | zero => exact (State.requeued_refl hx).stays
  | succ fuel ih =>
    have hset (y : Queue) := (State.requeued_refl hx).setQueue y
    cases hmay : s.mayScan fn q x with
    | false =>
      rw [State.scanLoop_barred fuel [] hx hmay]
      exact (State.requeued_refl hx).stays
    | true =>
      by_cases hroom : x.sp - x.head = x.depth
      · rw [State.scanLoop_full fuel [] hx hmay hroom]
        obtain ⟨y, hsp, hhead, -, -, hposts⟩ := s.stopScan_posts fn q x true
        have hstay := hposts.stays (State.getQueue_setQueue s fn q y)
        rw [hsp, hhead] at hstay
        exact hstay.after (hset y).outside rfl rfl
      · by_cases hwant : x.sp ∈ x.want
        · rw [State.scanLoop_await fuel hx hmay hroom hcache hwant]
          exact (hset _).stays
        · rw [State.scanLoop_issue fuel [] hx hmay hroom hcache hwant]
          have hnone : (issueReads s.part q x).cache = [] := by simp [issueReads, hcache]
          exact (ih (State.getQueue_setQueue s fn q _) hnone).after (hset _).outside rfl rfl

/-- The entry at SP is the first of its group that is read (R92, R94, R133). -/
theorem scanPlan_head (part q : Nat) {x : Queue} (hroom : x.sp < x.head + x.depth) (hcache : x.cache = []) (hwant : x.want = []) :
    (scanPlan part q x).head? = some x.sp := by
  have hgroup (g m : Nat) (hg : 0 < g) (hm : 0 < m) : x.sp < (x.sp / g + m) * g :=
    (Nat.div_lt_iff_lt_mul hg).mp (Nat.lt_add_of_pos_right hm)
  have hlast : x.sp < if q = 64 then x.sp + 1 else
      (x.sp / (if q = 64 then 1 else if part = 0 then 8 else 4) + (if part = 0 then 2 else 1)) * (if q = 64 then 1 else if part = 0 then 8 else 4) := by
    split
    · exact Nat.lt_succ_self _
    · split
      · exact hgroup 8 2 (by decide) (by decide)
      · exact hgroup 4 1 (by decide) (by decide)
  have hrange : (List.range 16).map (x.sp + ·) = x.sp :: (List.range' 1 15).map (x.sp + ·) := rfl
  rw [scanPlan, hrange, List.filter_cons_of_pos (by
    simp only [decide_eq_true hlast, decide_eq_true hroom, hcache, hwant, List.contains_nil, List.any_nil, Bool.not_false, Bool.and_self])]
  rfl

/-- What QE leaves when it takes an entry that no check refuses: the queue at the next SP and a job of the next number (R86, R88). -/
theorem State.takeEntry_posts {s : State} {fn q : Nat} {x : Queue} {e : Entry} (hdev : s.entryStatus q (bits e.ctl 15 0) = none)
    (hearly : s.early fn q x.ver e false = none) (bs : List Byte) (hcache : x.cache = [(x.sp % x.depth, bs)]) :
    ∃ j : Job, j.fn = fn ∧ j.q = q ∧ j.num = x.sp ∧ j.e = e ∧ j.phase = .fetching ∧ j.result = none
      ∧ ({ (s.setQueue fn q { x with sp := x.sp + 1, retried := false, cache := [] }).setJob s.nextJob j with
            nextJob := s.nextJob + 1 } : State).Posts (s.takeEntry fn q x e) := by
  refine ⟨{ fn := fn, q := q, num := x.sp, ver := x.ver, e := e, taken := s.trd.edge, phase := .fetching,
            staging := stagingNeed (bits e.ctl 15 0) (e.par x.ver) e (s.patInfo fn (e.par x.ver)) }, rfl, rfl, rfl, rfl, rfl, rfl, ?_⟩
  simp only [State.takeEntry, hdev, hearly, hcache, Option.isSome_none, Bool.false_eq_true, or_self, if_false, List.filter_cons,
    List.filter_nil, ne_eq, not_true_eq_false, decide_false]
  split
  · exact (State.hostWrite_posts _ _ _ _).trans (State.event_signals _ _ _ _ _).posts
  · exact (State.event_signals _ _ _ _ _).posts

-- How a scan comes to the read of the entry at SP.

/-- The command lets a read arrive for the queue's scan: as the first of a requested scan, of a scan that resumes, or of one that runs
(R86, R87, R89, R91). -/
def scanBrings (fn q : Nat) (x : Queue) (c : Instr) (r : Fetched) : Prop :=
  (c = .scan fn q [r] ∧ x.rescan = true ∧ x.scanning = false ∧ x.paused = false)
    ∨ (c = .scanResume fn q [r] ∧ x.paused = true) ∨ (c = .entryFetch fn q r ∧ x.scanning = true)

section
variable {s : State} {fn q : Nat} {x : Queue} {c : Instr} {r : Fetched} (hx : s.getQueue fn q = some x) (hmay : s.mayScan fn q x = true)
include hx hmay

theorem exec_scanBrings (hc : scanBrings fn q x c r) :
    ∃ t b, s.Requeued fn q { x with rescan := b } t ∧ exec c s = .next (t.runScan fn q [r]) := by
  obtain ⟨rfl, hres, hscan, hpause⟩ | ⟨rfl, hpause⟩ | ⟨rfl, hscan⟩ := hc
  · refine ⟨_, false, (State.requeued_refl hx).setQueue _, ?_⟩
    show execScan fn q [r] s = _
    simp [execScan, hx, hres, hscan, hpause, hmay]
  · refine ⟨s, x.rescan, State.requeued_refl hx, ?_⟩
    show execScanResume fn q [r] s = _
    simp [execScanResume, hx, hpause, hmay]
  · refine ⟨s, x.rescan, State.requeued_refl hx, ?_⟩
    show execEntryFetch fn q r s = _
    simp [execEntryFetch, hx, hscan]

variable (hcache : x.cache = []) (hwant : x.want = [] ∨ x.want.head? = some x.sp) (hle : x.head ≤ x.sp) (hroom : x.sp < x.head + x.depth)
include hcache hwant hle hroom

/-- The read that arrives is that of the entry at SP: it was issued before, or it is now, as the first of its group. -/
theorem exec_scanBrings_atSp (hc : scanBrings fn q x c r) :
    ∃ t b w fuel, s.Requeued fn q { x with rescan := b, want := w } t ∧ w.head? = some x.sp
      ∧ exec c s = .next (State.scanLoop (fuel + 3) t fn q [r]) := by
  obtain ⟨t, b, ht, hexec⟩ := exec_scanBrings hx hmay hc
  have hy := ht.getQueue
  have hrun : t.runScan fn q [r] = State.scanLoop 7 t fn q [r] := by simp [State.runScan, hy, hcache]
  rw [hexec, hrun]
  obtain hnone | hhead := hwant
  · have hissue := State.scanLoop_issue 6 [r] hy ((ht.mayScan (by rfl)).trans hmay) (by dsimp only; omega) hcache (by simp [hnone])
    refine ⟨_, b, scanPlan t.part q { x with rescan := b }, 3, ht.setQueue _, scanPlan_head _ _ hroom hcache hnone, ?_⟩
    rw [hissue]
    simp [issueReads, hnone, hcache]
  · exact ⟨t, b, x.want, 4, ht, hhead, rfl⟩

end

-- What the read of the entry at SP does.

section
variable {t : State} {fn q : Nat} {x : Queue} (fuel : Nat) {bs : List Byte} (hx : t.getQueue fn q = some x) (hmay : t.mayScan fn q x = true)
  (hroom : x.sp - x.head ≠ x.depth) (hcache : x.cache = []) (hwant : x.want.head? = some x.sp)
include hx hmay hroom hcache hwant

/-- At OWN = 0 the scan stops before the entry (R86). -/
theorem State.scanLoop_unowned_stops (hown : bit (entryOf x.ver bs).ctl 31 = false) :
    ∃ u y, State.scanLoop (fuel + 2) t fn q [.data bs] = u ∧ u.getQueue fn q = some y ∧ y.sp = x.sp ∧ y.head = x.head ∧ y.scanning = false
      ∧ y.paused = false ∧ t.OutsideScan fn q u ∧ u.jobs = t.jobs := by
  have hcopy := (State.requeued_refl hx).setQueue (x.holding bs)
  rw [State.scanLoop_arrive _ [] hx hmay hroom hcache hwant bs,
    State.scanLoop_unowned _ [] hcopy.getQueue hmay hroom rfl hown]
  obtain ⟨y, hsp, hhead, hscan, hpause, hposts⟩ := State.stopScan_posts _ fn q (x.holding bs) false
  have hset := hcopy.setQueue y
  obtain ⟨-, hout, hjobs, -⟩ := hposts.stays hset.getQueue
  exact ⟨_, y, rfl, hposts.getQueue.trans hset.getQueue, hsp, hhead, hscan, hpause, hset.outside.trans hout, hjobs⟩

/-- An entry with OWN = 1 that nothing refuses or holds up is taken, and the scan goes on behind it (R86). -/
theorem State.scanLoop_owned_takes (hown : bit (entryOf x.ver bs).ctl 31 = true) (hgo : t.pauses fn q x (entryOf x.ver bs) = false)
    (hearly : t.early fn q x.ver (entryOf x.ver bs) false = none) (hdev : t.entryStatus q (bits (entryOf x.ver bs).ctl 15 0) = none) :
    ∃ u y j, State.scanLoop (fuel + 2) t fn q [.data bs] = u ∧ u.getQueue fn q = some y ∧ y.sp = x.sp + 1 ∧ y.head = x.head ∧ t.OutsideScan fn q u
      ∧ u.nextJob = t.nextJob + 1 ∧ u.jobs = KV.set t.jobs t.nextJob j ∧ j.fn = fn ∧ j.q = q ∧ j.num = x.sp ∧ j.e = entryOf x.ver bs
      ∧ j.phase = .fetching ∧ j.result = none := by
  have hcopy := (State.requeued_refl hx).setQueue (x.holding bs)
  rw [State.scanLoop_arrive _ [] hx hmay hroom hcache hwant bs,
    State.scanLoop_take _ [] hcopy.getQueue hmay hroom rfl hown hgo]
  obtain ⟨j, hfn, hq, hnum, he, hphase, hresult, hposts⟩ := State.takeEntry_posts
    (s := t.setQueue fn q (x.holding bs)) (x := x.holding bs) hdev hearly bs rfl
  have hset := hcopy.setQueue { x with want := x.want.tail, sp := x.sp + 1, retried := false, cache := [] }
  obtain ⟨-, htaken, htakenJobs, htakenNext⟩ := hposts.stays hset.getQueue
  obtain ⟨⟨y, hget, hsp, hhead⟩, hout, hjobs, hnext⟩ :=
    (State.scanLoop_stays fuel (hposts.getQueue.trans hset.getQueue) rfl).after htaken htakenJobs htakenNext
  exact ⟨_, y, j, rfl, hget, hsp, hhead, hset.outside.trans hout, hnext, hjobs, hfn, hq, hnum, he, hphase, hresult⟩

/-- A first read that failed is retried: the scan waits for it again (R91). -/
theorem State.scanLoop_failed_retries (hfirst : x.retried = false) :
    ∃ u y, State.scanLoop (fuel + 2) t fn q [.failed] = u ∧ u.getQueue fn q = some y ∧ y.sp = x.sp ∧ y.head = x.head ∧ y.retried = true
      ∧ t.OutsideScan fn q u ∧ u.jobs = t.jobs := by
  have hretry := (State.requeued_refl hx).setQueue { x with retried := true }
  have hwait := hretry.setQueue { x with retried := true, scanning := true, paused := false }
  rw [State.scanLoop_retry _ [] hx hmay hroom hcache hwant hfirst,
    State.scanLoop_await _ hretry.getQueue hmay hroom hcache (List.mem_of_head? hwant)]
  exact ⟨_, _, rfl, hwait.getQueue, rfl, rfl, rfl, hwait.outside, hwait.jobs⟩

end

/-- Settles O18: the read comes to the entry at SP, and each outcome of the read is one branch of the loop. -/
theorem scanTakesEntries : Obligations.ScanTakesEntries := by
  intro s fn q x bs c hx hmay hcache hwant hle hroom
  have hbring (r : Fetched) (hc : scanBrings fn q x c r) := exec_scanBrings_atSp hx hmay hcache hwant hle hroom hc
  have hfree : x.sp - x.head ≠ x.depth := by omega
  refine ⟨fun hc hown => ?unowned, fun hc hown hgo hearly hdev => ?owned, fun hc hfirst => ?failed⟩
  case unowned =>
    obtain ⟨t, b, w, fuel, ht, hhead, hexec⟩ := hbring _ hc
    obtain ⟨u, y, hu, hget, hsp, hheady, hscan, hpause, hout, hjobs⟩ :=
      State.scanLoop_unowned_stops (fuel + 1) ht.getQueue ((ht.mayScan rfl).trans hmay) hfree hcache hhead hown
    exact ⟨u, y, hexec.trans (congrArg _ hu), hget, hsp, hheady, hscan, hpause, ht.outside.trans hout, hjobs.trans ht.jobs⟩
  case owned =>
    obtain ⟨t, b, w, fuel, ht, hhead, hexec⟩ := hbring _ hc
    obtain ⟨hpauses, hchecks, hstatus⟩ := ht.checks (x := x) (entryOf x.ver bs) rfl rfl
    obtain ⟨u, y, j, hu, hget, hsp, hheady, hout, hnext, hjobs, hfn, hq, hnum, he, hphase, hresult⟩ :=
      State.scanLoop_owned_takes (fuel + 1) ht.getQueue ((ht.mayScan rfl).trans hmay) hfree hcache hhead hown (hpauses.trans hgo)
        (hchecks.trans hearly) (hstatus.trans hdev)
    rw [ht.jobs, ht.nextJob] at hjobs
    rw [ht.nextJob] at hnext
    exact ⟨u, y, j, hexec.trans (congrArg _ hu), hget, hsp, hheady, ht.outside.trans hout, hnext,
      hjobs ▸ KV.get?_set_self _ _ _, hfn, hq, hnum, he, hphase, hresult, fun k hk => hjobs ▸ KV.get?_set_other _ _ hk⟩
  case failed =>
    obtain ⟨t, b, w, fuel, ht, hhead, hexec⟩ := hbring _ hc
    obtain ⟨u, y, hu, hget, hsp, hheady, hretry, hout, hjobs⟩ :=
      State.scanLoop_failed_retries (fuel + 1) ht.getQueue ((ht.mayScan rfl).trans hmay) hfree hcache hhead hfirst
    exact ⟨u, y, hexec.trans (congrArg _ hu), hget, hsp, hheady, hretry, ht.outside.trans hout, hjobs.trans ht.jobs⟩

end Sys2Proof.Machine
end

section
/-! SUPPORT. What the queues' jobs leave behind (R109): a NOP at rest, and a table of jobs in which its number stands twice. -/

namespace Sys2Proof.Machine

/-- A NOP at rest in an enabled function is answered as soon as nothing holds it up (R109). -/
theorem exec_queueNop_atRest {s : State} {id : Nat} {j : Job} (hget : KV.get? s.jobs id = some j) (hq : j.q ≠ 64) (hop : j.opcode = 0)
    (hphase : j.phase = .staged) (hfn : (s.getFn j.fn).state = 2) (hrun : s.running = true) (hdev : s.deviceStatus = none)
    (hfence : (j.fence && s.earlier j (fun _ => true)) = false) : exec (.queueNop id) s = .next (s.finishWith id 0) := by
  show execQueueNop id s = _
  simp only [execQueueNop, hget]
  exact if_pos ⟨hq, hop, hphase, hfn, hrun, hdev, by rw [hfence]; rfl⟩

/-- The status of the result that a job holds. -/
def State.statusOf (s : State) (id : Nat) : Option Nat := (KV.get? s.jobs id).bind (fun j => j.result.map (·.status))

theorem State.answered.status_eq {s : State} {id status st : Nat} (h : s.answered id status) (hst : s.statusOf id = some st) :
    st = status := by
  obtain hnone | ⟨j, r, hget, -, hres, hr⟩ := h
  · simp [State.statusOf, hnone] at hst
  · simpa [State.statusOf, hget, hres, hr, eq_comm] using hst

/-- A NOP at rest. -/
def restingNop : Job := { phase := .staged }

/-- A running module whose table of jobs lists number 0 twice, which `tablesInv` rules out: a NOP at rest, and behind it an entry that
waits for that NOP as its duplicate (R112). -/
def State.nopListedTwice : State := { State.reset with
  pcr := { State.reset.pcr with ready := true }
  jobs := [(0, restingNop), (0, { restingNop with phase := .duplicate, dupOf := some 0 })] }

/-- The NOP is decided OK, and then the duplicate under the same number writes its own answer over it: OK_REPLAYED (R112). -/
theorem State.nopListedTwice_status : (State.nopListedTwice.finishWith 0 0).statusOf 0 = some 1 := by decide +kernel

/-- Refutes O48: the statement asks nothing of the table of jobs. Where it lists the NOP's number twice, the second time for a duplicate
that waits for the NOP, the duplicate's completion replaces the NOP's, and the answer of the number has status 1, not 0. -/
theorem not_queueAftermath : ¬ Obligations.QueueAftermath := by
  intro h
  have hget : KV.get? State.nopListedTwice.jobs 0 = some restingNop := rfl
  have hrun : State.nopListedTwice.running = true := by decide
  have hdev : State.nopListedTwice.deviceStatus = none := by decide
  have hfence : (restingNop.fence && State.nopListedTwice.earlier restingNop (fun _ => true)) = false := by decide
  obtain ⟨hnop, -⟩ := h State.nopListedTwice 0 0 restingNop {} 0
  obtain ⟨t, ht, hanswered⟩ := hnop hget (by decide) (by decide) rfl rfl hrun hdev hfence
  have hexec := exec_queueNop_atRest hget (by decide) (by decide) rfl rfl hrun hdev hfence
  obtain rfl : State.nopListedTwice.finishWith 0 0 = t := Host.Outcome.next.inj (hexec.symm.trans ht)
  exact absurd (hanswered.status_eq State.nopListedTwice_status) (by decide)

end Sys2Proof.Machine
end
